-- ==== Sys2Proof/Word.lean ====
section
/-! DEFINITION. The plain number types of the model: bytes, positions, instants and station numbers. -/

namespace Sys2Proof

/-- One byte, as records, frames and the retained store hold it. -/
abbrev Byte := BitVec 8

/-- A position in motor counts: signed, 40 bits, wrapping (00_scope "Position"; R12). -/
abbrev Position := BitVec 40

/-- An instant or a duration, in nanoseconds (log entry 2). -/
abbrev Time := Nat

/-- A station number, 0 to 7 (00_scope "The arm and its stations"). -/
abbrev Station := Fin 8

/-- A duration given in microseconds. -/
abbrev us (n : Nat) : Time := n * 1000

/-- A duration given in milliseconds. -/
abbrev ms (n : Nat) : Time := n * 1000000

/-- The position `d` counts from `p`, in the counter's wrapped range (R12). -/
def Position.shift (p : Position) (d : Int) : Position := p + BitVec.ofInt 40 d

/-- The distance in counts between two positions, as an exact integer (log entry 13). -/
def Position.dist (p q : Position) : Nat := (p.toInt - q.toInt).natAbs

end Sys2Proof
end

