-- ==== Sys2Proof/Syntax.lean ====
section
/-! DEFINITION. The commands of the block: one constructor for each row of spec/opcode_table.json, with its operands. -/

namespace Sys2Proof

/-- The seven switch-type inputs, each with a filter of its own (R1). -/
inductive SwitchInput where
  | homeSw | limPos | limNeg | brkFb | drvStill | loadIn | keySw
  deriving DecidableEq, Repr

/-- A command that reaches the node. `dt` is the time in ns since the command before it (log entry 2).
A request's `params` are the parameter bytes of its request record, the length byte being their number (R200, R201).
`straps` are the levels of STN0 to STN2 read at a main-domain start (R47). -/
inductive Instr where
  /-- CONFIGURE (R203) -/
  | configure (dt : Time) (params : List Byte)
  /-- PLAN_CLEAR (R130) -/
  | planClear (dt : Time) (params : List Byte)
  /-- PLAN_STEP (R130, R206) -/
  | planStep (dt : Time) (params : List Byte)
  /-- PLAN_SEAL (R131) -/
  | planSeal (dt : Time) (params : List Byte)
  /-- JOIN (R73) -/
  | join (dt : Time) (params : List Byte)
  /-- STATUS (R207) -/
  | status (dt : Time) (params : List Byte)
  /-- PEERS (R209) -/
  | peers (dt : Time) (params : List Byte)
  /-- POSITION (R208) -/
  | position (dt : Time) (params : List Byte)
  /-- ORDER (R210) -/
  | order (dt : Time) (params : List Byte)
  /-- FAULTS (R209) -/
  | faults (dt : Time) (params : List Byte)
  /-- CAL_READ (R199, R210) -/
  | calRead (dt : Time) (params : List Byte)
  /-- JOURNAL_READ (R109, R210) -/
  | journalRead (dt : Time) (params : List Byte)
  /-- FAULT_CLEAR (R157) -/
  | faultClear (dt : Time) (params : List Byte)
  /-- ABANDON (R40) -/
  | abandon (dt : Time) (params : List Byte)
  /-- SURVEY (R185) -/
  | survey (dt : Time) (params : List Byte)
  /-- TRIM (R184) -/
  | trim (dt : Time) (params : List Byte)
  /-- CAL_COMMIT (R190) -/
  | calCommit (dt : Time) (params : List Byte)
  /-- RESUME (R174) -/
  | resume (dt : Time) (params : List Byte)
  /-- RESTART (R86) -/
  | restart (dt : Time) (params : List Byte)
  /-- LOCKOUT_CLEAR (R177) -/
  | lockoutClear (dt : Time) (params : List Byte)
  /-- SHUTDOWN (R179) -/
  | shutdown (dt : Time) (params : List Byte)
  /-- RESET (R212) -/
  | reset (dt : Time) (params : List Byte)
  /-- A request whose code names no request (R201) -/
  | unknownRequestCode (dt : Time) (code : Byte) (params : List Byte)
  /-- Receipt of a request code other than LOCKOUT_CLEAR's (R177) -/
  | requestCodeReceived (dt : Time) (code : Byte)
  /-- nCS rises before a request has arrived (R201) -/
  | transactionCut (dt : Time)
  /-- nCS rises after a complete STATUS response (R211) -/
  | statusResponseEnd (dt : Time)
  /-- nCS rises at the end of a RESET transaction (R212) -/
  | portReset (dt : Time) (straps : Station)
  /-- 50 us sample of one switch filter: the input and its raw level (R1) -/
  | switchSample (dt : Time) (input : SwitchInput) (level : Bool)
  /-- 10 us sample of the PFAIL filter: the raw level (R2) -/
  | pfailSample (dt : Time) (level : Bool)
  /-- Main decoder sample: the levels of ENC_A and ENC_B (R4) -/
  | encTransition (dt : Time) (a b : Bool)
  /-- Standby decoder read: the levels of ENC_A and ENC_B (R5) -/
  | standbyDecoderRead (dt : Time) (a b : Bool)
  /-- 50 us read of the sector lines SECT4 to SECT0 (R6) -/
  | sectorSample (dt : Time) (lines : BitVec 5)
  /-- Rising edge of IDX (R8) -/
  | indexEdge (dt : Time)
  /-- 10 ms comparison of the counter (R3) -/
  | motionCheck (dt : Time)
  /-- End of the settling window (R11) -/
  | settlingWindowEnd (dt : Time)
  /-- VDD falls below the supervisor threshold (R14) -/
  | mainSupplyLoss (dt : Time)
  /-- Both supplies fall below the standby threshold (R12) -/
  | standbyDomainLoss (dt : Time)
  /-- Main supply rises while the standby domain is not alive (R17) -/
  | coldStart (dt : Time) (straps : Station)
  /-- Main supply rises while the standby domain is alive (R18) -/
  | warmStart (dt : Time) (straps : Station)
  /-- nRESET is asserted (R18) -/
  | nresetAssert (dt : Time)
  /-- nRESET is released (R18) -/
  | nresetRelease (dt : Time) (straps : Station)
  /-- The start-up scan finishes (R105, R106) -/
  | scanDone (dt : Time)
  /-- A link cycle starts (R48) -/
  | linkCycleStart (dt : Time)
  /-- The own slot starts (R57) -/
  | ownSlotStart (dt : Time)
  /-- A transmitted bit reads back differently (R58) -/
  | readbackMismatch (dt : Time)
  /-- All 320 bits of the own frame read back as sent (R58) -/
  | frameTransmitEnd (dt : Time)
  /-- A frame has been received: how long ago its first bit began, and its bytes from the preamble on (R60) -/
  | frameReceived (dt : Time) (ago : Time) (bytes : List Byte)
  /-- End of slot 7 (R52, R54, R56) -/
  | cycleEndEval (dt : Time)
  /-- End of slot `slot`, not the own one (R68) -/
  | slotEndAging (dt : Time) (slot : Station)
  /-- End of a CYCLE_PERIOD spent in LISTENING (R67, R68) -/
  | listenPeriodEnd (dt : Time)
  /-- The listening wait has run out (R51) -/
  | listenTimeout (dt : Time)
  /-- The phase deadline passes (R79) -/
  | gatherTimeout (dt : Time)
  /-- A beat ends: the eight bytes read back (R90) -/
  | beatEnd (dt : Time) (readback : Vector Byte 8)
  /-- STALL_TIME without progress in a seek (R38) -/
  | stallTimeout (dt : Time)
  /-- STALL_TIME from the GOTO of a park with DRV_STILL active throughout (R43) -/
  | parkNoStart (dt : Time)
  /-- STALL_TIME without progress in a survey phase (R186) -/
  | surveyStallTimeout (dt : Time)
  /-- RETRY_DELAY of a step ends (R147) -/
  | retryTimerEnd (dt : Time) (step : Fin 32)
  /-- The hold entry deadline passes (R171) -/
  | entryDeadline (dt : Time)
  /-- 2 s from the proposal's start (R198) -/
  | proposalTimeout (dt : Time)
  /-- VSTBY rises again while VDD is absent (R12) -/
  | standbySupplyReturn (dt : Time)
  deriving DecidableEq, Repr

end Sys2Proof
end

