-- ==== Sys2Proof/Decode.lean ====
section
/-! DEFINITION. Decoding: the request codes of the drive port, and the opcode table's words (none of its rows gives bits). -/

namespace Sys2Proof

/-- The command a request record spells: its code, then its parameter bytes (chapter 10 "The requests"; R201).
A code that names no request is UNKNOWN_REQUEST_CODE. -/
def decodeRequest (dt : Time) (code : Byte) (params : List Byte) : Instr :=
  match code.toNat with
  | 0x01 => .configure dt params
  | 0x02 => .planClear dt params
  | 0x03 => .planStep dt params
  | 0x04 => .planSeal dt params
  | 0x05 => .join dt params
  | 0x10 => .status dt params
  | 0x11 => .peers dt params
  | 0x12 => .position dt params
  | 0x13 => .order dt params
  | 0x14 => .faults dt params
  | 0x15 => .calRead dt params
  | 0x16 => .journalRead dt params
  | 0x20 => .faultClear dt params
  | 0x30 => .abandon dt params
  | 0x31 => .survey dt params
  | 0x32 => .trim dt params
  | 0x33 => .calCommit dt params
  | 0x40 => .resume dt params
  | 0x41 => .restart dt params
  | 0x42 => .lockoutClear dt params
  | 0x50 => .shutdown dt params
  | 0x51 => .reset dt params
  | _ => .unknownRequestCode dt code params

/-- The request code of LOCKOUT_CLEAR (chapter 10 "The requests"). -/
def lockoutClearCode : Byte := 0x42

/-- Whether a code names a request (R201). -/
def namesRequest (code : Byte) : Bool :=
  match decodeRequest 0 code [] with
  | .unknownRequestCode _ _ _ => false
  | _ => true

/-- The command a word spells by the opcode table's bits: no row of the table gives bits, so none. -/
def decodeTableWord (_nbits _w : Nat) : Option Instr := none

end Sys2Proof
end

