-- ==== Sys2Proof/Config.lean ====
section
/-! DEFINITION. The free values of the model: constants with no body, for what the manual leaves open. -/

namespace Sys2Proof

/-- A fresh value nothing constrains, one for each number drawn from `State.freeCount` (log entry 48).
Used for the mix a stopped beat leaves (log entry 7), for the standby items after their loss (log entry 8)
and for the order of R198's peer loss and hold (log entry 10). -/
opaque Config.freeValue : Nat → BitVec 64

/-- The number taken as newest among 16-bit numbers each of which another is newer than (R80, R119; log entry 9). -/
opaque Config.freeNewest16 : List (BitVec 16) → BitVec 16

/-- The number taken as newest among 32-bit numbers each of which another is newer than (R119; log entry 9). -/
opaque Config.freeNewest32 : List (BitVec 32) → BitVec 32

end Sys2Proof
end

