-- ==== Sys2Proof/Machine/State.lean ====
section
/-! DEFINITION. The state of the node as plain data, one structure a block, and State.reset. -/

namespace Sys2Proof.Machine

/-! ### Names the manual fixes -/

/-- Direction of travel or of a capture. -/
inductive Direction where
  | positive | negative
  deriving DecidableEq, Repr

/-- The stage the station sees its arm in (R71). -/
inductive ArmPhase where
  | isolated | gathering | recovering | homing | ready | halted
  deriving DecidableEq, Repr

/-- The level of a hold (R158). -/
inductive HoldLevel where
  | none | stop | drop | lockout
  deriving DecidableEq, Repr

/-- The reference state (R20). -/
inductive RefState where
  | unreferenced | provisional | seeking | captured | referenced | surveying
  deriving DecidableEq, Repr

/-- The standing of a reference state (R20). -/
inductive Standing where
  | unreferenced | provisional | referenced
  deriving DecidableEq, Repr

/-- The link state (R48). -/
inductive LinkState where
  | off | listening | synced | alone
  deriving DecidableEq, Repr

/-- The loss state of a peer entry (R66). -/
inductive LossState where
  | neverHeard | active | lost
  deriving DecidableEq, Repr

/-- The confidence class (R110). -/
inductive Confidence where
  | none | kept | journalled | doubtful | live
  deriving DecidableEq, Repr

/-- Why a claim has its class (R110). -/
inductive ClassReason where
  | continuity | restarted | finalTail | orderlyTail | noTail | tailNotReferenced | routineTail | oldRun
  | spread | sector
  deriving DecidableEq, Repr

/-- The standby error kind (R12). -/
inductive StandbyError where
  | none | supplyLost | quadError | overspeed
  deriving DecidableEq, Repr

/-- Start kinds of the restart cause record (R111). -/
inductive StartKind where
  | power | pin | port
  deriving DecidableEq, Repr

/-- The kind of a journal frame (R92). -/
inductive JournalKind where
  | routine | final | orderly
  deriving DecidableEq, Repr

/-- The kind of a recovery claim (R110). -/
inductive ClaimKind where
  | journal | live
  deriving DecidableEq, Repr

/-- Speed classes of a step (R129). -/
inductive SpeedClass where
  | creep | slow | normal
  deriving DecidableEq, Repr

/-- What a step does (R129). -/
inductive StepAction where
  | witness | seekIndex | seekSwitch | park | waitAll
  deriving DecidableEq, Repr

/-- A step's direction (R129). -/
inductive StepDir where
  | positive | negative | nearest
  deriving DecidableEq, Repr

/-- The minimum a guard asks for (R129). -/
inductive GuardMin where
  | provisional | referenced | parked
  deriving DecidableEq, Repr

/-- A step's status (R128). -/
inductive StepStatus where
  | pending | claiming | running | done | skipped | failedWait
  deriving DecidableEq, Repr

/-- Seek kinds (R30). -/
inductive SeekKind where
  | witness | index | switch
  deriving DecidableEq, Repr

/-- Phases of a SWITCH seek (R30). -/
inductive SeekPhase where
  | toSwitch | toMark
  deriving DecidableEq, Repr

/-- End causes of a seek (R30). -/
inductive SeekEnd where
  | exhausted | stalled | abandoned | hold
  deriving DecidableEq, Repr

/-- Survey kinds (R46). -/
inductive SurveyKind where
  | backlash | ratio
  deriving DecidableEq, Repr

/-- End causes of a survey (R40, R45, R186). -/
inductive SurveyEnd where
  | failed | abandoned | hold
  deriving DecidableEq, Repr

/-- Outcomes in the last survey result (R189). -/
inductive SurveyOutcome where
  | done | failed | abandoned | held
  deriving DecidableEq, Repr

/-- Reasons of a motion order (R26). -/
inductive OrderReason where
  | seek | park | survey | hold
  deriving DecidableEq, Repr

/-- The motion order record (R26): kind, with the fields present for that kind. -/
inductive MotionOrder where
  | none
  | jog (dir : Direction) (speed : Nat) (reason : OrderReason)
  | goto (target : Position) (speed : Nat) (reason : OrderReason)
  | stop (reason : OrderReason)
  deriving DecidableEq, Repr

/-- Fault classes (R153). -/
inductive FaultClass where
  | note | retry | hold | abort | escalation
  deriving DecidableEq, Repr

/-- The faults of R154, in the order of their codes 1 to 34. -/
inductive FaultCode where
  | quadError | sectorJump | spuriousIndex | slip | overtravel | seekExhausted | seekStalled | witnessMismatch
  | parkMissed | abandoned | yielded | retriesExhausted | planIncomplete | peerLost | peerRestarted
  | duplicateStation | linkAlone | planMismatch | configMismatch | planInvalid | gatherTimeout | genMismatch
  | backlashHigh | ratioOff | surveyFailed | calAborted | stopTimeout | dropTimeout | storeWriteFailed | drift
  | standbyLost | powerDip | shutdown | journalEmpty
  deriving DecidableEq, Repr

/-- Gate states (R165). -/
inductive GateState where
  | closed | opened | awaitStill | awaitBrake
  deriving DecidableEq, Repr

/-- The two calibration slots (R181). -/
inductive CalSlot where
  | a | b
  deriving DecidableEq, Repr

/-- Response statuses (R202). -/
inductive PortStatus where
  | ok | busy | refusedPhase | refusedHold | tooLate | idle | invalid | full | notSettled | notKey
  deriving DecidableEq, Repr

/-- Attention causes (R211). -/
inductive Cause where
  | orderChanged | faultRecorded | phaseChanged | holdChanged | surveyDone | calChanged
  deriving DecidableEq, Repr

/-- The kinds of write, in the grant order of R91. -/
inductive WriteKind where
  | final | orderly | lockRecord | lockClear | calFlip | calStage | calDiscard | routine
  deriving DecidableEq, Repr

/-! ### Records -/

/-- A (run, cycle) tag of a journal frame (R93). -/
structure Tag where
  run : BitVec 16
  cycle : BitVec 32
  deriving DecidableEq, Repr

/-- The configuration record (R204, R205), its fields decoded. -/
structure Configuration where
  armSize : Nat
  cyclePeriod : Nat
  peerLossLimit : Nat
  journalEvery : Nat
  concurrency : Nat
  loadStation : Option Station
  pfailSpread : Nat
  holdStopLimit : Nat
  dropLimit : Nat
  gatherLimit : Nat
  retryLimit : Nat
  sectors : Nat
  cps : Nat
  singleTurn : Bool
  travelMin : Int
  travelMax : Int
  homeMarkPos : Int
  homeMarkNeg : Int
  creep : Nat
  slow : Nat
  normal : Nat
  witnessTolerance : Nat
  markTolerance : Nat
  parkPosition : Position
  parkTolerance : Nat
  stallTime : Nat
  switchFilter : Nat
  sectorFilter : Nat
  backlashLimit : Nat
  ratioTolerance : Nat
  driftThreshold : Nat
  spuriousHold : Bool
  backlashHold : Bool
  ratioHold : Bool
  driftHold : Bool
  deriving DecidableEq, Repr

/-- What the node reads while no configuration is present. R1, R155 and R161 give the values of `switchFilter`,
the dispositions and the two limits; R1 gives LOAD_STATION's effect. The other fields are read by nothing before
CONFIGURE in a reachable state (log entry 44). -/
def Configuration.before : Configuration where
  armSize := 8
  cyclePeriod := 1
  peerLossLimit := 2
  journalEvery := 8
  concurrency := 1
  loadStation := none
  pfailSpread := 1
  holdStopLimit := 2000
  dropLimit := 500
  gatherLimit := 1
  retryLimit := 0
  sectors := 8
  cps := 1024
  singleTurn := false
  travelMin := 0
  travelMax := 0
  homeMarkPos := 0
  homeMarkNeg := 0
  creep := 1
  slow := 1
  normal := 1
  witnessTolerance := 1
  markTolerance := 1
  parkPosition := 0
  parkTolerance := 1
  stallTime := 500
  switchFilter := 4
  sectorFilter := 2
  backlashLimit := 0
  ratioTolerance := 100
  driftThreshold := 0
  spuriousHold := false
  backlashHold := false
  ratioHold := false
  driftHold := false

/-- A step record of the plan (R129, R206). -/
structure StepRecord where
  index : Nat
  owner : Station
  action : StepAction
  dir : StepDir
  speed : SpeedClass
  travelLimit : Nat
  forUnreferenced : Bool
  forProvisional : Bool
  forReferenced : Bool
  needs : List Nat
  guards : List (Station × GuardMin)
  noLoad : Bool
  deriving DecidableEq, Repr

/-- A step's status, retry count and retry timer (R128). -/
structure StepState where
  status : StepStatus
  retries : Nat
  timer : Option Time
  deriving DecidableEq, Repr

/-- A recovery claim, as its RECOVER block carries it (R113, R115); `tailKind` none is NONE. -/
structure Claim where
  kind : ClaimKind
  tailRun : BitVec 16
  tailCycle : BitVec 32
  tailKind : Option JournalKind
  sectorAgree : Bool
  continuity : Bool
  deriving DecidableEq, Repr

/-- An entry of the claim set (R110, R117). -/
inductive ClaimEntry where
  | empty
  | held (c : Claim)
  | movedOn
  deriving DecidableEq, Repr

/-- The variant block of a status record (R65). -/
inductive VariantBlock where
  | gather (planDigest : BitVec 32) (configDigest : BitVec 16) (lockoutFlag : Byte) (lockoutCause : Byte)
  | recover (claim : Claim)
  | run (resolved : BitVec 32) (lastFault : Byte) (survey : Bool) (deviationPresent : Bool) (deviation : BitVec 16)
  deriving DecidableEq, Repr

/-- A status record (R64, R65). -/
structure StatusRecord where
  station : Station
  cycle : BitVec 32
  run : BitVec 16
  phase : ArmPhase
  level : HoldLevel
  holdSeq : BitVec 16
  cause : Byte
  origin : Station
  resume : Bool
  lockClear : Bool
  restart : Bool
  closing : Bool
  resumeFor : BitVec 16
  refState : RefState
  parked : Bool
  moving : Bool
  brake : Bool
  still : Bool
  load : Bool
  link : LinkState
  confidence : Confidence
  position : Position
  committed : BitVec 16
  staged : BitVec 16
  proposal : BitVec 16
  claim : Option (BitVec 5)
  running : Bool
  block : VariantBlock
  deriving DecidableEq, Repr

/-- An entry of the peer table (R66). -/
structure PeerEntry where
  loss : LossState
  silence : Nat
  record : Option StatusRecord
  deriving DecidableEq, Repr

/-- A fault record (R156). -/
structure FaultRecord where
  code : Byte
  cls : FaultClass
  origin : Station
  step : Option Nat
  run : Option (BitVec 16)
  cycle : Option (BitVec 32)
  seq : BitVec 16
  detail : BitVec 32
  deriving DecidableEq, Repr

/-- A journal frame (R92). `sector` is the sector code byte, FFh when none. -/
structure JournalFrame where
  kind : JournalKind
  refState : RefState
  confidence : Confidence
  brake : Bool
  moving : Bool
  load : Bool
  parked : Bool
  tag : Tag
  position : Position
  sector : Byte
  level : HoldLevel
  phase : ArmPhase
  generation : BitVec 16
  holdSeq : BitVec 16
  trim : BitVec 32
  deriving DecidableEq, Repr

/-- A calibration record's sealed fields (R181). -/
structure CalRecord where
  generation : BitVec 16
  trim : BitVec 32
  backlash : BitVec 32
  run : BitVec 16
  cycle : BitVec 32
  deriving DecidableEq, Repr

/-- A lockout record (R107). -/
structure LockRecord where
  present : Bool
  origin : Station
  cause : Byte
  run : BitVec 16
  cycle : BitVec 16
  deriving DecidableEq, Repr

/-- A switch, PFAIL or sector-independent filter: filtered level and count (R1, R2). -/
structure InputFilter where
  level : Bool
  count : Nat
  deriving DecidableEq, Repr

/-- A mark capture (R10). -/
structure Capture where
  raw : Position
  sector : Nat
  dir : Direction
  cycle : Option (BitVec 32)
  mark : Option Int
  deriving DecidableEq, Repr

/-- The last accepted change of sector (R6). -/
structure LastChange where
  old : Nat
  new : Nat
  counter : Position
  used : Bool
  deriving DecidableEq, Repr

/-- The pending index edge (R8): its value, and the accepted sector and the cycle at the edge. -/
structure PendingEdge where
  value : Position
  sector : Nat
  cycle : Option (BitVec 32)
  deriving DecidableEq, Repr

/-- The stall window of a seek or survey (R38, R186). -/
structure StallWindow where
  position : Position
  since : Time
  deriving DecidableEq, Repr

/-- The seek context (R30). `endDetail` is the detail kept for the end cause's fault (R38). -/
structure SeekContext where
  kind : SeekKind
  dir : Direction
  speed : SpeedClass
  travelLimit : Nat
  start : Position
  entry : Standing
  step : Option Nat
  phase : SeekPhase
  phaseStart : Position
  target : Int
  stall : StallWindow
  endCause : Option SeekEnd
  endDetail : Int
  deriving DecidableEq, Repr

/-- The park operation (R42, R43): the step, the instant of its GOTO, whether DRV_STILL has been inactive since,
and whether it is being withdrawn by a yield (R144). -/
structure ParkOperation where
  step : Option Nat
  since : Time
  leftStill : Bool
  withdrawn : Bool
  deriving DecidableEq, Repr

/-- The survey context (R46, R186): `base` is where the 2 x CPS travel check of a capture phase is measured from. -/
structure SurveyContext where
  kind : SurveyKind
  mark : Int
  phase : Nat
  first : Option Position
  second : Option Position
  measure : Option Int
  start : Position
  phaseStart : Position
  base : Position
  stall : StallWindow
  endCause : Option SurveyEnd
  failPhase : Nat
  deriving DecidableEq, Repr

/-- At most one of the three operation records is present (R20, R29). -/
inductive Operation where
  | none
  | seek (c : SeekContext)
  | park (p : ParkOperation)
  | survey (c : SurveyContext)
  deriving DecidableEq, Repr

/-- The last survey result (R189). -/
structure SurveyResult where
  kind : SurveyKind
  mark : Int
  outcome : SurveyOutcome
  failPhase : Nat
  first : Option Position
  second : Option Position
  result : Option Int
  pendingFilled : Bool
  cycle : Option (BitVec 32)
  deriving DecidableEq, Repr

/-- The own proposal (R180). -/
structure Proposal where
  generation : BitVec 16
  start : Time
  flipPosted : Bool
  deriving DecidableEq, Repr

/-- The own tail particulars (R110, R113). -/
structure TailParticulars where
  refState : RefState
  position : Position
  trim : BitVec 32
  load : Bool
  deriving DecidableEq, Repr

/-- The agreed stop (R110, R119, R120). -/
structure AgreedStop where
  run : Option (BitVec 16)
  latestFinal : Option (BitVec 32)
  loadHeld : Bool
  deriving DecidableEq, Repr

/-- The restart cause record (R111); `tailKind` none is NONE. -/
structure RestartCause where
  kind : StartKind
  aliveAtStart : Bool
  tailKind : Option JournalKind
  deriving DecidableEq, Repr

/-- A request to write to the retained store, with its content (R91). An ORDERLY carries the shutdown hold's
sequence, for the closing flag (R102). -/
inductive WriteRequest where
  | final (f : JournalFrame)
  | orderly (f : JournalFrame) (holdSeq : BitVec 16)
  | lockRecord (r : LockRecord)
  | lockClear (r : LockRecord)
  | calFlip
  | calStage (r : CalRecord)
  | calDiscard
  | routine (f : JournalFrame)
  deriving DecidableEq, Repr

/-- Where a write goes (R89, R91). -/
inductive WriteTarget where
  | ring (slot : Fin 96)
  | cal (slot : CalSlot)
  | lockout
  deriving DecidableEq, Repr

/-- The write in flight: its request, its target, how many beats have ended, and whether it is cut (R98). -/
structure InFlight where
  request : WriteRequest
  target : WriteTarget
  beat : Fin 4
  isCut : Bool
  deriving DecidableEq, Repr

/-- The newest sealed journal frame and its slot (R94, R105). -/
structure Tail where
  slot : Fin 96
  frame : JournalFrame
  deriving DecidableEq, Repr

/-- A response record (R200): its status and data bytes. -/
structure Response where
  status : PortStatus
  data : List Byte
  deriving DecidableEq, Repr

/-- A set of attention causes (R211). -/
structure CauseSet where
  orderChanged : Bool
  faultRecorded : Bool
  phaseChanged : Bool
  holdChanged : Bool
  surveyDone : Bool
  calChanged : Bool
  deriving DecidableEq, Repr

/-- The set with no cause. -/
def CauseSet.empty : CauseSet := ⟨false, false, false, false, false, false⟩

/-! ### Blocks -/

/-- Supplies and the reset pin (R12, R14, R18, R111). -/
structure Power where
  vdd : Bool
  nreset : Bool
  domainUp : Bool
  pendingPower : Option Bool
  deriving DecidableEq, Repr

/-- The six items of the standby domain (R12). -/
structure Standby where
  counter : Position
  continuity : Bool
  error : StandbyError
  excursion : Nat
  supplyLoss : Position
  alive : Bool
  deriving DecidableEq, Repr

/-- The encoder decoders: reference line levels, which decoder counts, and the standby decoder's last accepted
transition (R4, R5, R11). -/
structure Decoder where
  lineA : Bool
  lineB : Bool
  standbyFeeds : Bool
  lastAccepted : Option Time
  deriving DecidableEq, Repr

/-- The Joint Sensing Unit (R1 to R11). -/
structure Sensing where
  home : InputFilter
  limPos : InputFilter
  limNeg : InputFilter
  brkFb : InputFilter
  drvStill : InputFilter
  loadIn : InputFilter
  keySw : InputFilter
  pfail : InputFilter
  moving : Bool
  earlier : Option Position
  sectorCandidate : Option Nat
  sectorCount : Nat
  accepted : Option Nat
  lastChange : Option LastChange
  pendingEdge : Option PendingEdge
  captures : List Capture
  settling : Bool
  settleStart : Time
  deriving DecidableEq, Repr

/-- The Reference Engine (R20). -/
structure Engine where
  refState : RefState
  parked : Bool
  lastDeviation : Option Int
  operation : Operation
  mismatch : Option (Option Nat)
  order : MotionOrder
  deriving DecidableEq, Repr

/-- The frame the station sends in its own slot: the nominal instant it begins at, and its bytes (R47, R57). -/
structure Transmission where
  start : Rat
  frame : List Byte
  deriving DecidableEq, Repr

/-- The Arm Link Controller (R47 to R62). -/
structure Link where
  station : Station
  state : LinkState
  cycleStart : Rat
  timed : Bool
  cycle : Option (BitVec 32)
  mismatches : Nat
  muted : Bool
  silentCycles : Nat
  foreignCycles : Nat
  outOfArm : List Station
  lastFault : Byte
  offsets : List Rat
  acceptedInCycle : Bool
  foreignInCycle : Bool
  heard : List Station
  correction : Rat
  listenSince : Time
  tx : Option Transmission
  deriving DecidableEq, Repr

/-- The Arm Coordinator (R71, R110). -/
structure Coord where
  phase : ArmPhase
  run : Option (BitVec 16)
  lastRunClaim : Option (BitVec 16)
  agreement : Nat
  deadline : Option Time
  verdict : Option Nat
  verdictTested : Bool
  restart : Bool
  restartLeft : Nat
  restartedReported : List Station
  journalActive : Bool
  start : RestartCause
  ownClaim : Option Claim
  tailParts : Option TailParticulars
  claims : Vector ClaimEntry 8
  stop : Option AgreedStop
  confidence : Confidence
  reason : Option ClassReason
  startNotes : Bool
  deriving DecidableEq, Repr

/-- The Plan Unit (R128). -/
structure Plan where
  steps : List StepRecord
  isSealed : Bool
  digest : Option (BitVec 32)
  table : List StepState
  claim : Option Nat
  claimSent : Option (BitVec 32)
  running : Bool
  yieldReturn : Bool
  dropMotion : Bool
  demote : Bool
  deriving DecidableEq, Repr

/-- The Hold Unit (R155 to R158); the gate stands beside it in `State.gate`. -/
structure Hold where
  seq : BitVec 16
  newest : BitVec 16
  level : HoldLevel
  cause : Byte
  origin : Station
  complete : Bool
  deadline : Option Time
  resume : Bool
  resumeFor : BitVec 16
  lockClear : Bool
  lockClearLeft : Nat
  keyCount : Nat
  lastKey : Option Time
  spuriousHold : Bool
  backlashHold : Bool
  ratioHold : Bool
  driftHold : Bool
  faults : List FaultRecord
  deriving DecidableEq, Repr

/-- Calibration state (R180). -/
structure Cal where
  committed : Option (CalSlot × CalRecord)
  spare : CalSlot
  staged : Option CalRecord
  trim : Int
  backlash : Int
  heldShift : Bool
  pendTrim : Option Int
  pendBacklash : Option Int
  proposal : Option Proposal
  sighting : Option (BitVec 16)
  stagedInSighting : Bool
  sealedInSighting : Bool
  flipFailed : Bool
  result : Option SurveyResult
  deriving DecidableEq, Repr

/-- The Retained Store Controller's own state (05, before R89). The pending set has one place for each kind, in
grant order. -/
structure Store where
  port : Option InFlight
  pending : Vector (Option WriteRequest) 8
  tail : Option Tail
  pointer : Fin 96
  lastTag : Option Tag
  finalOut : Bool
  dip : Option Bool
  closing : Option (BitVec 16)
  retainedLockout : Bool
  recordRetryUsed : Bool
  clearRetryUsed : Bool
  scanDone : Bool
  deriving DecidableEq, Repr

/-- The Drive Port (R200, R203, R211, R212). -/
structure Port where
  config : Option Configuration
  configDigest : Option (BitVec 16)
  attention : CauseSet
  reported : CauseSet
  receiving : Option Byte
  response : Option Response
  resetArmed : Bool
  deriving DecidableEq, Repr

/-- The retained store's contents: (address, byte) pairs, addresses strictly rising, no byte equal to 00h, which is
what an unlisted address reads as (R89). -/
abbrev Memory := List Host.Cell

/-- The whole node. `pending` is the queue of commands waiting (first in, first out); `now` is the model's clock
(log entry 2); `freeCount` counts the free values drawn (log entry 48). -/
structure State where
  pending : List Instr
  now : Time
  freeCount : Nat
  power : Power
  standby : Standby
  decoder : Decoder
  sensing : Sensing
  engine : Engine
  link : Link
  peers : Vector PeerEntry 8
  coord : Coord
  plan : Plan
  hold : Hold
  gate : GateState
  cal : Cal
  store : Store
  mem : Memory
  port : Port
  deriving DecidableEq, Repr

/-- Reasons the machine stops with a fault: none. Every behaviour the manual describes, its fault codes included,
is an effect on State after which the node goes on, so no command raises one. -/
inductive Fault where
  deriving DecidableEq, Repr

/-- Reasons a command has no meaning in this model. -/
inductive Refusal where
  /-- Raised by the dispatcher for a row that has no meaning yet; safe, since nothing then follows. No row is left so. -/
  | notModelled (mnemonic : String)
  deriving DecidableEq, Repr

/-! ### Values at a main-domain start -/

/-- Filter state after every main-domain reset (R1, R2, R18). -/
def InputFilter.initial : InputFilter := ⟨false, 0⟩

/-- The sensing unit at a main-domain start at instant `t` (R18). R3 sets the motion detector's earlier value
at the end of the settling window and names no value before; that it is none until then is the model's (log entry 6). -/
def Sensing.initial (t : Time) : Sensing where
  home := .initial
  limPos := .initial
  limNeg := .initial
  brkFb := .initial
  drvStill := .initial
  loadIn := .initial
  keySw := .initial
  pfail := .initial
  moving := false
  earlier := none
  sectorCandidate := none
  sectorCount := 0
  accepted := none
  lastChange := none
  pendingEdge := none
  captures := []
  settling := true
  settleStart := t

/-- The Reference Engine after every main-domain reset (R20, R27). -/
def Engine.initial : Engine where
  refState := .unreferenced
  parked := false
  lastDeviation := none
  operation := .none
  mismatch := none
  order := .none

/-- The link block after every main-domain reset, with the station number the straps give (R47, R48). -/
def Link.initial (station : Station) : Link where
  station := station
  state := .off
  cycleStart := 0
  timed := false
  cycle := none
  mismatches := 0
  muted := false
  silentCycles := 0
  foreignCycles := 0
  outOfArm := []
  lastFault := 0
  offsets := []
  acceptedInCycle := false
  foreignInCycle := false
  heard := []
  correction := 0
  listenSince := 0
  tx := none

/-- An entry of the peer table after every main-domain reset (R66). -/
def PeerEntry.initial : PeerEntry := ⟨.neverHeard, 0, none⟩

/-- The peer table after every main-domain reset (R66). -/
def peersInitial : Vector PeerEntry 8 :=
  #v[.initial, .initial, .initial, .initial, .initial, .initial, .initial, .initial]

/-- The empty claim set (R110). -/
def claimsEmpty : Vector ClaimEntry 8 :=
  #v[.empty, .empty, .empty, .empty, .empty, .empty, .empty, .empty]

/-- The Coordinator after a main-domain reset of the given kind (R71, R110, R111). -/
def Coord.initial (kind : StartKind) (alive : Bool) : Coord where
  phase := .isolated
  run := none
  lastRunClaim := none
  agreement := 0
  deadline := none
  verdict := none
  verdictTested := false
  restart := false
  restartLeft := 0
  restartedReported := []
  journalActive := false
  start := ⟨kind, alive, none⟩
  ownClaim := none
  tailParts := none
  claims := claimsEmpty
  stop := none
  confidence := .none
  reason := none
  startNotes := false

/-- The Plan Unit after every main-domain reset (R128). -/
def Plan.initial : Plan where
  steps := []
  isSealed := false
  digest := none
  table := []
  claim := none
  claimSent := none
  running := false
  yieldReturn := false
  dropMotion := false
  demote := false

/-- The Hold Unit after every main-domain reset (R155, R157, R158). -/
def Hold.initial (station : Station) : Hold where
  seq := 0
  newest := 0
  level := .none
  cause := 0
  origin := station
  complete := false
  deadline := none
  resume := false
  resumeFor := 0
  lockClear := false
  lockClearLeft := 0
  keyCount := 0
  lastKey := none
  spuriousHold := false
  backlashHold := false
  ratioHold := false
  driftHold := false
  faults := []

/-- Calibration state after every main-domain reset, before the scan ends (R180). -/
def Cal.initial : Cal where
  committed := none
  spare := .a
  staged := none
  trim := 0
  backlash := 0
  heldShift := false
  pendTrim := none
  pendBacklash := none
  proposal := none
  sighting := none
  stagedInSighting := false
  sealedInSighting := false
  flipFailed := false
  result := none

/-- The empty pending set (R104). -/
def pendingEmpty : Vector (Option WriteRequest) 8 := #v[none, none, none, none, none, none, none, none]

/-- The store controller at every main-domain start (R104); the tail, pointer, last tag and retained-lockout flag until the
scan gives them (R105, R106): none, 0 and false, which are the model's (log entry 6). -/
def Store.initial : Store where
  port := none
  pending := pendingEmpty
  tail := none
  pointer := 0
  lastTag := none
  finalOut := false
  dip := none
  closing := none
  retainedLockout := false
  recordRetryUsed := false
  clearRetryUsed := false
  scanDone := false

/-- The drive port after every main-domain reset (R203, R211). -/
def Port.initial : Port where
  config := none
  configDigest := none
  attention := .empty
  reported := .empty
  receiving := none
  response := none
  resetArmed := false

/-- The standby domain after a cold start (R17). -/
def Standby.cold : Standby where
  counter := 0
  continuity := false
  error := .supplyLost
  excursion := 0
  supplyLoss := 0
  alive := true

/-- The node as delivered, right after its first cold start: the settling window is open and the start-up scan is
running (R17, R18, R89, R104; log entry 4). -/
def State.reset : State where
  pending := []
  now := 0
  freeCount := 0
  power := ⟨true, false, true, none⟩
  standby := .cold
  decoder := ⟨false, false, true, none⟩
  sensing := .initial 0
  engine := .initial
  link := .initial 0
  peers := peersInitial
  coord := .initial .power false
  plan := .initial
  hold := .initial 0
  gate := .closed
  cal := .initial
  store := .initial
  mem := []
  port := .initial

end Sys2Proof.Machine
end

