-- ==== Sys2Proof/Machine/Flags.lean ====
section
/-! DEFINITION. Comparisons, checks and flags: serial arithmetic, CRCs, fault classes, cause sets, and the views of
the state that several rules read. -/

namespace Sys2Proof.Machine

/-! ### Serial comparison (00_scope "Serial comparison") -/

/-- `a` is newer than `b`: (a - b) modulo 2^n lies between 1 and 2^(n-1) - 1. -/
def serialNewer {n : Nat} (a b : BitVec n) : Bool :=
  decide (1 ≤ (a - b).toNat) && decide ((a - b).toNat ≤ 2 ^ (n - 1) - 1)

/-- Hold sequences: 0 means no hold, and every other sequence is newer than it (R159). -/
def seqNewer (a b : BitVec 16) : Bool :=
  if a = 0 then false else if b = 0 then true else serialNewer a b

/-- Tags compare by run first, then by cycle within one run (R93). -/
def tagNewer (a b : Tag) : Bool :=
  serialNewer a.run b.run || (decide (a.run = b.run) && serialNewer a.cycle b.cycle)

/-- The first of a list, in its order, that no other of it is newer than (R80, R119); none when the list is empty or
each of its numbers has a newer one. -/
def newestOf {n : Nat} (l : List (BitVec n)) : Option (BitVec n) :=
  l.find? fun a => l.all fun b => !serialNewer b a

/-- The newest of a list of 16-bit numbers in station order (R80, R119); a free value when each has a newer one
(log entry 9), none when there is none. -/
def newest16 (l : List (BitVec 16)) : Option (BitVec 16) :=
  if l.isEmpty then none else some ((newestOf l).getD (Config.freeNewest16 l))

/-- The newest of a list of 32-bit numbers in station order (R119); a free value when each has a newer one
(log entry 9), none when there is none. -/
def newest32 (l : List (BitVec 32)) : Option (BitVec 32) :=
  if l.isEmpty then none else some ((newestOf l).getD (Config.freeNewest32 l))

/-! ### Cyclic redundancy checks -/

/-- The bits of a byte, most significant first (R47, R92). -/
def byteBits (b : Byte) : List Bool :=
  [b.getLsbD 7, b.getLsbD 6, b.getLsbD 5, b.getLsbD 4, b.getLsbD 3, b.getLsbD 2, b.getLsbD 1, b.getLsbD 0]

/-- One bit into a CRC register with the given generator. -/
def crcBit {n : Nat} (poly : BitVec n) (c : BitVec n) (bit : Bool) : BitVec n :=
  if c.msb != bit then (c <<< 1) ^^^ poly else c <<< 1

/-- CRC-16 of the link frame: x^16 + x^12 + x^5 + 1 from FFFFh, no final inversion (R47). -/
def crc16 (bs : List Byte) : BitVec 16 :=
  bs.foldl (fun c b => (byteBits b).foldl (crcBit 0x1021) c) 0xFFFF

/-- CRC-32 of the journal seal from FFFFFFFFh, no final inversion (R92). -/
def crc32 (bs : List Byte) : BitVec 32 :=
  bs.foldl (fun c b => (byteBits b).foldl (crcBit 0x04C11DB7) c) 0xFFFFFFFF

/-! ### Fault codes and classes (R154, R155) -/

/-- The number of a fault code (R154). -/
def FaultCode.num : FaultCode → Nat
  | .quadError => 1 | .sectorJump => 2 | .spuriousIndex => 3 | .slip => 4 | .overtravel => 5
  | .seekExhausted => 6 | .seekStalled => 7 | .witnessMismatch => 8 | .parkMissed => 9 | .abandoned => 10
  | .yielded => 11 | .retriesExhausted => 12 | .planIncomplete => 13 | .peerLost => 14 | .peerRestarted => 15
  | .duplicateStation => 16 | .linkAlone => 17 | .planMismatch => 18 | .configMismatch => 19
  | .planInvalid => 20 | .gatherTimeout => 21 | .genMismatch => 22 | .backlashHigh => 23 | .ratioOff => 24
  | .surveyFailed => 25 | .calAborted => 26 | .stopTimeout => 27 | .dropTimeout => 28
  | .storeWriteFailed => 29 | .drift => 30 | .standbyLost => 31 | .powerDip => 32 | .shutdown => 33
  | .journalEmpty => 34

/-- A fault code as the byte that records and frames carry. -/
def FaultCode.byte (c : FaultCode) : Byte := BitVec.ofNat 8 c.num

/-- The class an adopted hold's fault record takes from its cause code (R154, R162): HOLD for the four codes whose
class a disposition gives and for ABANDONED, and for a byte that is no fault code (log entry 30). -/
def adoptedClass (cause : Byte) : FaultClass :=
  match cause.toNat with
  | 6 | 7 | 9 => .retry
  | 8 | 11 | 25 | 26 | 31 | 34 => .note
  | 13 | 15 | 16 | 18 | 19 | 20 | 21 | 22 => .abort
  | 27 | 28 => .escalation
  | _ => .hold

/-- A detail saturated to the signed 32-bit range (R24, R156). -/
def sat32 (d : Int) : BitVec 32 := BitVec.ofInt 32 (max (-2147483648) (min 2147483647 d))

/-- A count saturated to the signed 16-bit range (R24, R65). -/
def sat16 (d : Int) : BitVec 16 := BitVec.ofInt 16 (max (-32768) (min 32767 d))

/-! ### Cause sets (R211) -/

/-- The set with a cause set to `v`. -/
def CauseSet.put (s : CauseSet) (c : Cause) (v : Bool) : CauseSet :=
  match c with
  | .orderChanged => { s with orderChanged := v }
  | .faultRecorded => { s with faultRecorded := v }
  | .phaseChanged => { s with phaseChanged := v }
  | .holdChanged => { s with holdChanged := v }
  | .surveyDone => { s with surveyDone := v }
  | .calChanged => { s with calChanged := v }

/-- The causes of `s` that are not in `t`. -/
def CauseSet.diff (s t : CauseSet) : CauseSet :=
  ⟨s.orderChanged && !t.orderChanged, s.faultRecorded && !t.faultRecorded, s.phaseChanged && !t.phaseChanged,
   s.holdChanged && !t.holdChanged, s.surveyDone && !t.surveyDone, s.calChanged && !t.calChanged⟩

/-- Whether the set holds at least one cause. -/
def CauseSet.nonempty (s : CauseSet) : Bool :=
  s.orderChanged || s.faultRecorded || s.phaseChanged || s.holdChanged || s.surveyDone || s.calChanged

/-- A bit of a byte or set: 2^i when the flag is set. -/
def flag (i : Nat) (b : Bool) : Nat := if b then 2 ^ i else 0

/-- The attention byte of STATUS (R207). -/
def CauseSet.byte (s : CauseSet) : Byte :=
  BitVec.ofNat 8 (flag 0 s.orderChanged + flag 1 s.faultRecorded + flag 2 s.phaseChanged + flag 3 s.holdChanged
    + flag 4 s.surveyDone + flag 5 s.calChanged)

/-! ### Views of the state -/

/-- The main domain runs: main supply present and nRESET not asserted (R14, R18). -/
def State.running (s : State) : Bool := s.power.vdd && !s.power.nreset

/-- A drive port transaction can begin: the main domain runs, and no RESET waits for the rise of nCS (R212). -/
def State.portReady (s : State) : Bool := s.running && !s.port.resetArmed

/-- The standby domain is held above its supply threshold: by VDD or VSTBY (R12). -/
def State.domainAlive (s : State) : Bool := s.power.vdd || s.power.domainUp

/-- The configuration in force; before CONFIGURE the values the rules give for then (R1, R155, R161). -/
def State.cfg (s : State) : Configuration := s.port.config.getD .before

/-- The own station number (R47). -/
def State.own (s : State) : Station := s.link.station

/-- The position counter as a number of counts (R12). -/
def State.counter (s : State) : Int := s.standby.counter.toInt

/-- COUNTS_PER_SECTOR. -/
def State.cps (s : State) : Int := (s.cfg.cps : Int)

/-- Filtered DRV_STILL is active (R1). -/
def State.still (s : State) : Bool := s.sensing.drvStill.level

/-- Filtered BRK_FB is active (R1). -/
def State.braked (s : State) : Bool := s.sensing.brkFb.level

/-- The link is SYNCED or ALONE. -/
def LinkState.sends (l : LinkState) : Bool := decide (l = .synced) || decide (l = .alone)

/-- The phase is HOMING, READY or HALTED (R51, R54, R69, R88). -/
def ArmPhase.working (p : ArmPhase) : Bool := decide (p = .homing) || decide (p = .ready) || decide (p = .halted)

/-- The level is STOP or DROP. -/
def HoldLevel.entering (l : HoldLevel) : Bool := decide (l = .stop) || decide (l = .drop)

/-- The level is DROP or LOCKOUT. -/
def HoldLevel.dropped (l : HoldLevel) : Bool := decide (l = .drop) || decide (l = .lockout)

/-- Levels in order: NONE, STOP, DROP, LOCKOUT. -/
def HoldLevel.rank : HoldLevel → Nat
  | .none => 0 | .stop => 1 | .drop => 2 | .lockout => 3

/-- Standings in order (R20). -/
def Standing.rank : Standing → Nat
  | .unreferenced => 0 | .provisional => 1 | .referenced => 2

/-- The reference state with that standing and no operation (R30, R39). -/
def Standing.state : Standing → RefState
  | .unreferenced => .unreferenced | .provisional => .provisional | .referenced => .referenced

/-- Whether a state other than SEEKING has standing REFERENCED (R20). -/
def RefState.isReferenced (r : RefState) : Bool :=
  decide (r = .captured) || decide (r = .referenced) || decide (r = .surveying)

/-- The standing of the own engine (R20): in SEEKING, that of the seek's entry state. -/
def Engine.standing (e : Engine) : Standing :=
  match e.refState with
  | .unreferenced => .unreferenced
  | .provisional => .provisional
  | .captured | .referenced | .surveying => .referenced
  | .seeking =>
    match e.operation with
    | .seek c => c.entry
    | _ => .unreferenced

/-- The standing a peer's record is read with for guards (R134). -/
def RefState.peerStanding (r : RefState) : Standing :=
  match r with
  | .unreferenced | .seeking => .unreferenced
  | .provisional => .provisional
  | .captured | .referenced | .surveying => .referenced

/-- The eight station numbers in order. -/
def stations : List Station := [0, 1, 2, 3, 4, 5, 6, 7]

/-- The station numbers of the arm, 0 to ARM_SIZE - 1. -/
def State.arm (s : State) : List Station := stations.filter fun j => decide (j.val < s.cfg.armSize)

/-- The record of an ACTIVE entry (R70). -/
def PeerEntry.live (e : PeerEntry) : Option StatusRecord := if e.loss = .active then e.record else none

/-- The record of entry `j` while it is ACTIVE. -/
def State.heardRecord (s : State) (j : Station) : Option StatusRecord := (s.peers.get j).live

/-- The stations of the ACTIVE peer entries, the own not included. -/
def State.activePeers (s : State) : List Station :=
  stations.filter fun j => decide (j ≠ s.own) && (s.heardRecord j).isSome

/-- The records of the ACTIVE peer entries, the own not included, with their station numbers. -/
def State.peerRecords (s : State) : List (Station × StatusRecord) :=
  stations.filterMap fun j => if j = s.own then none else (s.heardRecord j).map fun r => (j, r)

/-- The station is settled: DRV_STILL and BRK_FB active and the gate CLOSED (R169). -/
def State.settled (s : State) : Bool := s.still && s.braked && decide (s.gate = .closed)

/-- A peer's record read as settled for sequence `q` (R169). -/
def StatusRecord.settledFor (r : StatusRecord) (q : BitVec 16) : Bool :=
  decide (r.holdSeq = q) && (decide (r.level = .none) || (r.still && r.brake))

/-- At least one movement request stands: the Plan Unit's from a grant to the report, the engine's during a survey,
the Coordinator's in READY (R84, R142, R145, R165, R185). -/
def State.moveRequested (s : State) : Bool :=
  s.plan.running || (match s.engine.operation with | .survey _ => true | _ => false) || decide (s.coord.phase = .ready)

/-- The gate is permitted (R165). -/
def State.permitted (s : State) : Bool :=
  s.moveRequested && decide (s.hold.level = .none)
    && (decide (s.coord.phase = .homing) || decide (s.coord.phase = .ready))

/-- MOVE_OK is asserted (R165; log entry 38 while the main domain does not run). -/
def State.moveOk (s : State) : Bool := s.running && !decide (s.gate = .closed)

/-- BRAKE_OK is asserted (R165). -/
def State.brakeOk (s : State) : Bool :=
  s.running && (decide (s.gate = .opened) || decide (s.gate = .awaitStill))

/-- ATTN is asserted (R211). -/
def State.attn (s : State) : Bool := s.running && s.port.attention.nonempty

/-- The arm load flag of the journal and the live load flag of the load rule (R95, R135). -/
def State.loadFlag (s : State) : Bool :=
  match s.cfg.loadStation with
  | none => true
  | some l =>
    if l = s.own then s.sensing.loadIn.level
    else match s.heardRecord l with
      | some r => r.load
      | none => true

/-- The committed generation, 0 when there is no committed record (R180). -/
def Cal.generation (c : Cal) : BitVec 16 :=
  match c.committed with
  | some (_, r) => r.generation
  | none => 0

/-- The committed ZERO_TRIM, 0 at generation 0 (R184, R193). -/
def Cal.committedTrim (c : Cal) : Int :=
  match c.committed with
  | some (_, r) => r.trim.toInt
  | none => 0

/-- The committed BACKLASH, 0 at generation 0 (R193). -/
def Cal.committedBacklash (c : Cal) : Int :=
  match c.committed with
  | some (_, r) => (r.backlash.toNat : Int)
  | none => 0

/-- The generation a proposal must have to be sighted: the committed one + 1; none at 65,535 (R191). -/
def Cal.nextGeneration (c : Cal) : Option (BitVec 16) :=
  if c.generation = 0xFFFF then none else some (c.generation + 1)

/-- The kind of a write request (R91). -/
def WriteRequest.kind : WriteRequest → WriteKind
  | .final _ => .final
  | .orderly _ _ => .orderly
  | .lockRecord _ => .lockRecord
  | .lockClear _ => .lockClear
  | .calFlip => .calFlip
  | .calStage _ => .calStage
  | .calDiscard => .calDiscard
  | .routine _ => .routine

/-- A kind's place in the grant order, from 0 (R91). -/
def WriteKind.place : WriteKind → Fin 8
  | .final => 0 | .orderly => 1 | .lockRecord => 2 | .lockClear => 3
  | .calFlip => 4 | .calStage => 5 | .calDiscard => 6 | .routine => 7

/-- A kind's number, 1 to 8 (R90, R91). -/
def WriteKind.num (k : WriteKind) : Nat := k.place.val + 1

/-- A pending request of kind `k` stands. -/
def Store.isPending (st : Store) (k : WriteKind) : Bool := (st.pending.get k.place).isSome

/-- A write of kind `k` is in flight. -/
def Store.inFlight (st : Store) (k : WriteKind) : Bool :=
  match st.port with
  | some f => decide (f.request.kind = k)
  | none => false

/-- A write of kind `k` is pending or in flight. -/
def Store.busyWith (st : Store) (k : WriteKind) : Bool := st.isPending k || st.inFlight k

/-- A CAL_STAGE, CAL_FLIP or CAL_DISCARD is pending or in flight (R190, R194, R197). -/
def Store.calBusy (st : Store) : Bool := st.busyWith .calStage || st.busyWith .calFlip || st.busyWith .calDiscard

end Sys2Proof.Machine
end

