-- ==== Sys2Proof/Machine/Operands.lean ====
section
/-! DEFINITION. Operands: multi-byte fields, and the parameter records of CONFIGURE and PLAN_STEP. -/

namespace Sys2Proof.Machine

/-! ### Multi-byte fields, most significant byte first (00_scope "Numbers and ranges") -/

/-- A 16-bit field as two bytes. -/
def be16 (x : BitVec 16) : List Byte := [x.extractLsb' 8 8, x.extractLsb' 0 8]

/-- A 32-bit field as four bytes. -/
def be32 (x : BitVec 32) : List Byte :=
  [x.extractLsb' 24 8, x.extractLsb' 16 8, x.extractLsb' 8 8, x.extractLsb' 0 8]

/-- A 40-bit field as five bytes. -/
def be40 (x : BitVec 40) : List Byte :=
  [x.extractLsb' 32 8, x.extractLsb' 24 8, x.extractLsb' 16 8, x.extractLsb' 8 8, x.extractLsb' 0 8]

/-- A byte from a number. -/
def byteOf (n : Nat) : Byte := BitVec.ofNat 8 n

/-- A flag as a byte: 1 for true (R207, R210). -/
def boolByte (b : Bool) : Byte := if b then 1 else 0

/-- The number some bytes spell. -/
def beNat (bs : List Byte) : Nat := bs.foldl (fun a b => a * 256 + b.toNat) 0

/-- The number in `n` bytes from offset `off`. -/
def rd (bs : List Byte) (off n : Nat) : Nat := beNat ((bs.drop off).take n)

/-- The byte at an offset. -/
def byteAt (bs : List Byte) (off : Nat) : Byte := bs.getD off 0

/-- A signed one-byte field. -/
def rdSigned8 (bs : List Byte) (off : Nat) : Int := (byteAt bs off).toInt

/-- A signed two-byte field. -/
def rdSigned16 (bs : List Byte) (off : Nat) : Int := (BitVec.ofNat 16 (rd bs off 2)).toInt

/-- A signed five-byte position. -/
def rdPosition (bs : List Byte) (off : Nat) : Position := BitVec.ofNat 40 (rd bs off 5)

/-- `w` bits of a byte from bit `lo`, as a number. -/
def bits (b : Byte) (lo w : Nat) : Nat := b.toNat / 2 ^ lo % 2 ^ w

/-- A station number from the low three bits. -/
def stationOf (n : Nat) : Station := ⟨n % 8, Nat.mod_lt _ (by decide)⟩

/-! ### The configuration record (R204, R205) -/

/-- The fields of a 61-byte configuration record, before its checks. -/
def decodeConfiguration (p : List Byte) : Configuration where
  armSize := rd p 0 1
  cyclePeriod := rd p 1 1
  peerLossLimit := rd p 2 1
  journalEvery := 2 ^ rd p 3 1
  concurrency := rd p 4 1
  loadStation := if rd p 5 1 = 255 then none else some (stationOf (rd p 5 1))
  pfailSpread := rd p 6 1
  holdStopLimit := rd p 7 2
  dropLimit := rd p 9 2
  gatherLimit := rd p 11 1
  retryLimit := rd p 12 1
  sectors := rd p 13 1
  cps := rd p 14 4
  singleTurn := decide (rd p 18 1 = 1)
  travelMin := rdSigned8 p 19
  travelMax := rdSigned8 p 20
  homeMarkPos := rdSigned8 p 21
  homeMarkNeg := rdSigned8 p 22
  creep := rd p 23 2
  slow := rd p 25 2
  normal := rd p 27 2
  witnessTolerance := rd p 29 4
  markTolerance := rd p 33 4
  parkPosition := rdPosition p 37
  parkTolerance := rd p 42 4
  stallTime := rd p 46 2
  switchFilter := rd p 48 1
  sectorFilter := rd p 49 1
  backlashLimit := rd p 50 4
  ratioTolerance := rd p 54 2
  driftThreshold := rd p 56 4
  spuriousHold := (byteAt p 60).getLsbD 0
  backlashHold := (byteAt p 60).getLsbD 1
  ratioHold := (byteAt p 60).getLsbD 2
  driftHold := (byteAt p 60).getLsbD 3

/-- A number lies in a range, both ends included. -/
def inRange (n lo hi : Nat) : Bool := decide (lo ≤ n) && decide (n ≤ hi)

/-- The checks of R204 on the arm-shared bytes, for own station number `own`. -/
def armFieldsOk (own : Station) (p : List Byte) : Bool :=
  inRange (rd p 0 1) 2 8 && decide (own.val < rd p 0 1)
    && (decide (rd p 1 1 = 1) || decide (rd p 1 1 = 2) || decide (rd p 1 1 = 4))
    && inRange (rd p 2 1) 2 16 && inRange (rd p 3 1) 3 8 && inRange (rd p 4 1) 1 4
    && (decide (rd p 5 1 < rd p 0 1) || decide (rd p 5 1 = 255))
    && inRange (rd p 6 1) 1 16 && inRange (rd p 7 2) 50 2000 && inRange (rd p 9 2) 20 500
    && inRange (rd p 11 1) 1 60 && inRange (rd p 12 1) 0 7

/-- The checks of R205 on the station bytes. -/
def stationFieldsOk (p : List Byte) : Bool :=
  let c := decodeConfiguration p
  (decide (c.sectors = 8) || decide (c.sectors = 16) || decide (c.sectors = 32))
    && inRange c.cps 1024 4194304
    && decide (rd p 18 1 ≤ 1)
    && decide (c.travelMin ≤ c.travelMax)
    && (!c.singleTurn || decide (c.travelMax - c.travelMin < (c.sectors : Int)))
    && inRange c.creep 1 65535 && inRange c.slow 1 65535 && inRange c.normal 1 65535
    && inRange c.witnessTolerance 1 (c.cps / 4) && inRange c.markTolerance 1 (c.cps / 2)
    && inRange c.parkTolerance 1 (c.cps / 4)
    && inRange c.stallTime 500 10000
    && inRange c.switchFilter 2 64 && inRange c.sectorFilter 2 64
    && inRange c.backlashLimit 0 (c.cps / 4) && inRange c.ratioTolerance 100 50000
    && inRange c.driftThreshold 0 2147483647
    && decide (rd p 60 1 < 16)

/-- The configuration a record gives, when every field passes its checks (R203). -/
def parseConfiguration (own : Station) (p : List Byte) : Option Configuration :=
  if armFieldsOk own p && stationFieldsOk p then some (decodeConfiguration p) else none

/-! ### The plan step record (R206) -/

/-- Actions by their codes. -/
def StepAction.ofCode : Nat → Option StepAction
  | 0 => some .witness | 1 => some .seekIndex | 2 => some .seekSwitch | 3 => some .park | 4 => some .waitAll
  | _ => none

/-- An action's code. -/
def StepAction.code : StepAction → Nat
  | .witness => 0 | .seekIndex => 1 | .seekSwitch => 2 | .park => 3 | .waitAll => 4

/-- Directions by their codes. -/
def StepDir.ofCode : Nat → Option StepDir
  | 0 => some .positive | 1 => some .negative | 2 => some .nearest | _ => none

/-- A direction's code. -/
def StepDir.code : StepDir → Nat
  | .positive => 0 | .negative => 1 | .nearest => 2

/-- Speed classes by their codes. -/
def SpeedClass.ofCode : Nat → Option SpeedClass
  | 0 => some .creep | 1 => some .slow | 2 => some .normal | _ => none

/-- A speed class's code. -/
def SpeedClass.code : SpeedClass → Nat
  | .creep => 0 | .slow => 1 | .normal => 2

/-- Guard minima by their codes. -/
def GuardMin.ofCode : Nat → Option GuardMin
  | 1 => some .provisional | 2 => some .referenced | 3 => some .parked | _ => none

/-- A guard minimum's code. -/
def GuardMin.code : GuardMin → Nat
  | .provisional => 1 | .referenced => 2 | .parked => 3

/-- One guard pair at an offset. -/
def parseGuard (p : List Byte) (off : Nat) : Option (Station × GuardMin) :=
  if rd p off 1 < 8 then (GuardMin.ofCode (rd p (off + 1) 1)).map fun m => (stationOf (rd p off 1), m) else none

/-- The guard pairs of a record; none when one is outside its encoding. -/
def parseGuards (p : List Byte) : Nat → Option (List (Station × GuardMin))
  | 0 => some []
  | n + 1 =>
    match parseGuards p n, parseGuard p (13 + 2 * n) with
    | some gs, some g => some (gs ++ [g])
    | _, _ => none

/-- No entry of a list of step indexes is repeated. -/
def noRepeats : List Nat → Bool
  | [] => true
  | x :: xs => !xs.contains x && noRepeats xs

/-- The bytes from `lo` up to `hi` are all 00h. -/
def zeroBetween (p : List Byte) (lo hi : Nat) : Bool := ((p.take hi).drop lo).all fun b => decide (b = 0)

/-- The step a 20-byte record gives when every field lies inside the encodings of R206 and passes check 5 of R130. -/
def parseStep (p : List Byte) : Option StepRecord :=
  match StepAction.ofCode (rd p 2 1), StepDir.ofCode (rd p 3 1), SpeedClass.ofCode (rd p 4 1),
      parseGuards p (min (rd p 12 1) 3) with
  | some action, some dir, some speed, some guards =>
    let index := rd p 0 1
    let needs := ((p.drop 8).take (rd p 7 1)).map (·.toNat)
    if decide (index < 32) && decide (rd p 1 1 < 8) && inRange (rd p 5 1) 1 64 && inRange (rd p 6 1) 1 7
        && decide (rd p 7 1 ≤ 4) && decide (rd p 12 1 ≤ 3) && decide (rd p 19 1 ≤ 1)
        && zeroBetween p (8 + rd p 7 1) 12 && zeroBetween p (13 + 2 * rd p 12 1) 19
        && needs.all (fun i => decide (i < index)) && noRepeats needs
        && (decide (dir ≠ .nearest) || decide (action = .witness)) then
      some { index := index, owner := stationOf (rd p 1 1), action := action, dir := dir, speed := speed,
             travelLimit := rd p 5 1, forUnreferenced := (byteAt p 6).getLsbD 0,
             forProvisional := (byteAt p 6).getLsbD 1, forReferenced := (byteAt p 6).getLsbD 2,
             needs := needs, guards := guards, noLoad := decide (rd p 19 1 = 1) }
    else none
  | _, _, _, _ => none

/-- The first `n` entries of a list of bytes, filled up with 00h. -/
def padTo (n : Nat) (l : List Byte) : List Byte := (l ++ List.replicate n 0).take n

/-- A step as its 20-byte PLAN_STEP parameter record (R131, R206). -/
def StepRecord.encode (r : StepRecord) : List Byte :=
  [byteOf r.index, byteOf r.owner.val, byteOf r.action.code, byteOf r.dir.code, byteOf r.speed.code,
    byteOf r.travelLimit,
    byteOf (flag 0 r.forUnreferenced + flag 1 r.forProvisional + flag 2 r.forReferenced),
    byteOf r.needs.length]
  ++ padTo 4 (r.needs.map byteOf) ++ [byteOf r.guards.length]
  ++ padTo 6 (r.guards.flatMap fun g => [byteOf g.1.val, byteOf g.2.code]) ++ [boolByte r.noLoad]

/-- The plan digest: the CRC-32 over the step records in index order (R131). -/
def planDigest (steps : List StepRecord) : BitVec 32 := crc32 (steps.flatMap StepRecord.encode)

/-- Whether a standing is in a step's applies-to set (R129). -/
def StepRecord.appliesTo (r : StepRecord) (st : Standing) : Bool :=
  match st with
  | .unreferenced => r.forUnreferenced
  | .provisional => r.forProvisional
  | .referenced => r.forReferenced

/-- The checks of R132 that fail a step at JOIN. -/
def StepRecord.failsAtJoin (c : Configuration) (r : StepRecord) : Bool :=
  (decide (r.action = .seekIndex) && !c.singleTurn)
  || (decide (r.action = .witness) && r.forUnreferenced)
  || (decide (r.action = .park) && (r.forUnreferenced || r.forProvisional))
  || (decide (r.action = .seekSwitch) &&
        (let home := if r.dir = .negative then c.homeMarkNeg else c.homeMarkPos
         decide (home < c.travelMin) || decide (c.travelMax < home)))
  || ((decide (r.action = .seekSwitch) || decide (r.action = .seekIndex)) && decide (r.dir = .nearest))

/-! ### The sector track (R6) -/

/-- How many sector lines SECTORS requires (R6). -/
def sectorLines (sectors : Nat) : Nat := if sectors = 8 then 3 else if sectors = 16 then 4 else 5

/-- The number whose reflected binary Gray code is `g`, for codes of up to five bits. -/
def grayDecode (g : Nat) : Nat := g ^^^ (g / 2) ^^^ (g / 4) ^^^ (g / 8) ^^^ (g / 16)

/-- The sector the lines show, reading only those that SECTORS requires (R6). -/
def sectorOfLines (sectors : Nat) (lines : BitVec 5) : Nat := grayDecode (lines.toNat % 2 ^ sectorLines sectors)

end Sys2Proof.Machine
end

