-- ==== Sys2Proof/Machine/Records.lean ====
section
/-! DEFINITION. The layouts another party sees: status records, journal frames, calibration and lockout records. -/

namespace Sys2Proof.Machine

/-! ### Encodings of R64 -/

/-- Arm phase to code (R64). -/
def ArmPhase.code : ArmPhase → Nat
  | .isolated => 0 | .gathering => 1 | .recovering => 2 | .homing => 3 | .ready => 4 | .halted => 5

/-- Arm phase from code (R64). -/
def ArmPhase.ofCode : Nat → Option ArmPhase
  | 0 => some .isolated | 1 => some .gathering | 2 => some .recovering | 3 => some .homing
  | 4 => some .ready | 5 => some .halted | _ => none

/-- Hold level to code (R64). -/
def HoldLevel.code : HoldLevel → Nat
  | .none => 0 | .stop => 1 | .drop => 2 | .lockout => 3

/-- Hold level from code (R64). -/
def HoldLevel.ofCode : Nat → Option HoldLevel
  | 0 => some .none | 1 => some .stop | 2 => some .drop | 3 => some .lockout | _ => none

/-- Reference state to code (R64). -/
def RefState.code : RefState → Nat
  | .unreferenced => 0 | .provisional => 1 | .seeking => 2 | .captured => 3 | .referenced => 4 | .surveying => 5

/-- Reference state from code (R64). -/
def RefState.ofCode : Nat → Option RefState
  | 0 => some .unreferenced | 1 => some .provisional | 2 => some .seeking | 3 => some .captured
  | 4 => some .referenced | 5 => some .surveying | _ => none

/-- Link state to code: 0 OFF in STATUS, and the codes of R64. -/
def LinkState.code : LinkState → Nat
  | .off => 0 | .listening => 1 | .synced => 2 | .alone => 3

/-- Link state from the code of a frame (R64): OFF is outside the encoding. -/
def LinkState.ofCode : Nat → Option LinkState
  | 1 => some .listening | 2 => some .synced | 3 => some .alone | _ => none

/-- Confidence class to code (R64). -/
def Confidence.code : Confidence → Nat
  | .none => 0 | .kept => 1 | .journalled => 2 | .doubtful => 3 | .live => 4

/-- Confidence class from code (R64). -/
def Confidence.ofCode : Nat → Option Confidence
  | 0 => some .none | 1 => some .kept | 2 => some .journalled | 3 => some .doubtful | 4 => some .live | _ => none

/-- Journal kind to code (R92). -/
def JournalKind.code : JournalKind → Nat
  | .routine => 1 | .final => 2 | .orderly => 3

/-- Journal kind from code (R92). -/
def JournalKind.ofCode : Nat → Option JournalKind
  | 1 => some .routine | 2 => some .final | 3 => some .orderly | _ => none

/-- Tail kind to code, NONE being 0 (R65). -/
def tailKindCode : Option JournalKind → Nat
  | none => 0
  | some k => k.code

/-! ### Status records (R64, R65) -/

/-- The variant number of a record (R64). -/
def VariantBlock.code : VariantBlock → Nat
  | .gather _ _ _ _ => 1 | .recover _ => 2 | .run _ _ _ _ _ => 3

/-- Bytes 28 to 35 of a record (R65). -/
def VariantBlock.pack : VariantBlock → List Byte
  | .gather pd cd lf lc => be32 pd ++ be16 cd ++ [lf, lc]
  | .recover c =>
    be16 c.tailRun ++ be32 c.tailCycle
      ++ [byteOf (tailKindCode c.tailKind + flag 2 c.sectorAgree + flag 3 c.continuity
            + flag 4 (decide (c.kind = .live))), 0]
  | .run res lf sv dp d => be32 res ++ [lf, byteOf (flag 0 sv + flag 1 dp)] ++ be16 d

/-- The 36 bytes of a status record (R64). -/
def StatusRecord.pack (r : StatusRecord) : List Byte :=
  [byteOf (r.station.val + 16 * r.block.code)]
  ++ be32 r.cycle ++ be16 r.run
  ++ [byteOf (r.phase.code + 16 * r.level.code)]
  ++ be16 r.holdSeq
  ++ [r.cause, byteOf (r.origin.val + flag 3 r.resume + flag 4 r.lockClear + flag 5 r.restart + flag 6 r.closing)]
  ++ be16 r.resumeFor
  ++ [byteOf (r.refState.code + flag 3 r.parked + flag 4 r.moving + flag 5 r.brake + flag 6 r.still),
      byteOf (flag 0 r.load + 2 * r.link.code + 16 * r.confidence.code)]
  ++ be40 r.position ++ be16 r.committed ++ be16 r.staged ++ be16 r.proposal
  ++ [byteOf ((match r.claim with | some i => i.toNat + 32 | none => 0) + flag 6 r.running)]
  ++ r.block.pack

/-- The variant block of a body whose variant field is `v` (R65); none for any other variant (R60). -/
def VariantBlock.unpack (v : Nat) (b : List Byte) : Option VariantBlock :=
  match v with
  | 1 => some (.gather (BitVec.ofNat 32 (rd b 28 4)) (BitVec.ofNat 16 (rd b 32 2)) (byteAt b 34) (byteAt b 35))
  | 2 =>
    some (.recover
      { kind := if (byteAt b 34).getLsbD 4 then .live else .journal
        tailRun := BitVec.ofNat 16 (rd b 28 2), tailCycle := BitVec.ofNat 32 (rd b 30 4)
        tailKind := JournalKind.ofCode (bits (byteAt b 34) 0 2)
        sectorAgree := (byteAt b 34).getLsbD 2, continuity := (byteAt b 34).getLsbD 3 })
  | 3 => some (.run (BitVec.ofNat 32 (rd b 28 4)) (byteAt b 32) ((byteAt b 33).getLsbD 0)
      ((byteAt b 33).getLsbD 1) (BitVec.ofNat 16 (rd b 34 2)))
  | _ => none

/-- The record a 36-byte body gives; none when a field lies outside its encoding (R60). Unused bits are ignored. -/
def StatusRecord.unpack (b : List Byte) : Option StatusRecord :=
  match ArmPhase.ofCode (bits (byteAt b 7) 0 3), HoldLevel.ofCode (bits (byteAt b 7) 4 2),
      RefState.ofCode (bits (byteAt b 14) 0 3), LinkState.ofCode (bits (byteAt b 15) 1 2),
      Confidence.ofCode (bits (byteAt b 15) 4 3), VariantBlock.unpack (bits (byteAt b 0) 4 2) b with
  | some phase, some level, some refState, some link, some confidence, some block =>
    some
      { station := stationOf (bits (byteAt b 0) 0 3)
        cycle := BitVec.ofNat 32 (rd b 1 4)
        run := BitVec.ofNat 16 (rd b 5 2)
        phase := phase
        level := level
        holdSeq := BitVec.ofNat 16 (rd b 8 2)
        cause := byteAt b 10
        origin := stationOf (bits (byteAt b 11) 0 3)
        resume := (byteAt b 11).getLsbD 3
        lockClear := (byteAt b 11).getLsbD 4
        restart := (byteAt b 11).getLsbD 5
        closing := (byteAt b 11).getLsbD 6
        resumeFor := BitVec.ofNat 16 (rd b 12 2)
        refState := refState
        parked := (byteAt b 14).getLsbD 3
        moving := (byteAt b 14).getLsbD 4
        brake := (byteAt b 14).getLsbD 5
        still := (byteAt b 14).getLsbD 6
        load := (byteAt b 15).getLsbD 0
        link := link
        confidence := confidence
        position := rdPosition b 16
        committed := BitVec.ofNat 16 (rd b 21 2)
        staged := BitVec.ofNat 16 (rd b 23 2)
        proposal := BitVec.ofNat 16 (rd b 25 2)
        claim := if (byteAt b 27).getLsbD 5 then some (BitVec.ofNat 5 (bits (byteAt b 27) 0 5)) else none
        running := (byteAt b 27).getLsbD 6
        block := block }
  | _, _, _, _, _, _ => none

/-- The 40 bytes of the frame that carries a record: preamble, body, CRC-16 (R47). -/
def StatusRecord.frame (r : StatusRecord) : List Byte := [0x96, 0x4B] ++ r.pack ++ be16 (crc16 r.pack)

/-- The body of a received frame: its 36 bytes after the preamble (R47). -/
def frameBody (bs : List Byte) : List Byte := (bs.drop 2).take 36

/-- The record of a received frame that survives the discards of R60, save the last (the own station number):
at least 40 bytes, its CRC-16 matching, its variant and encoded fields inside their encodings. -/
def parseFrame (bs : List Byte) : Option StatusRecord :=
  if bs.length < 40 then none
  else if rd bs 38 2 ≠ (crc16 (frameBody bs)).toNat then none
  else StatusRecord.unpack (frameBody bs)

/-! ### Journal frames (R92) -/

/-- Bytes 0 to 27 of a journal frame (R92). -/
def JournalFrame.body (f : JournalFrame) : List Byte :=
  [byteOf (f.kind.code + 4 * f.refState.code + 32 * f.confidence.code),
    byteOf (flag 0 f.brake + flag 1 f.moving + flag 2 f.load + flag 3 f.parked)]
  ++ be16 f.tag.run ++ be32 f.tag.cycle ++ be40 f.position
  ++ [f.sector, byteOf (f.level.code + 16 * f.phase.code)]
  ++ be16 f.generation ++ be16 f.holdSeq ++ be32 f.trim ++ [0, 0, 0, 0, 0]

/-- The 32 bytes of a journal frame, its seal last (R92). -/
def JournalFrame.encode (f : JournalFrame) : List Byte := f.body ++ be32 (crc32 f.body)

/-- Whether 32 stored bytes hold a sealed frame: the kind is 1, 2 or 3 and the seal matches (R92). -/
def frameSealed (b : List Byte) : Bool :=
  decide (bits (byteAt b 0) 0 2 ≠ 0) && decide (rd b 28 4 = (crc32 (b.take 28)).toNat)

/-- The frame 32 stored bytes hold when sealed (R92). Codes the node never writes read as UNREFERENCED, class none,
level NONE and ISOLATED (log entry 40). -/
def JournalFrame.decode (b : List Byte) : Option JournalFrame :=
  match JournalKind.ofCode (bits (byteAt b 0) 0 2) with
  | none => none
  | some kind =>
    if frameSealed b then
      some
        { kind := kind
          refState := (RefState.ofCode (bits (byteAt b 0) 2 3)).getD .unreferenced
          confidence := (Confidence.ofCode (bits (byteAt b 0) 5 3)).getD .none
          brake := (byteAt b 1).getLsbD 0
          moving := (byteAt b 1).getLsbD 1
          load := (byteAt b 1).getLsbD 2
          parked := (byteAt b 1).getLsbD 3
          tag := ⟨BitVec.ofNat 16 (rd b 2 2), BitVec.ofNat 32 (rd b 4 4)⟩
          position := rdPosition b 8
          sector := byteAt b 13
          level := (HoldLevel.ofCode (bits (byteAt b 14) 0 2)).getD .none
          phase := (ArmPhase.ofCode (bits (byteAt b 14) 4 3)).getD .isolated
          generation := BitVec.ofNat 16 (rd b 15 2)
          holdSeq := BitVec.ofNat 16 (rd b 17 2)
          trim := BitVec.ofNat 32 (rd b 19 4) }
    else none

/-! ### Calibration records (R181) -/

/-- The state bytes of a calibration record (R181). -/
def calStagedByte : Byte := 0x5A
/-- COMMITTED (R181). -/
def calCommittedByte : Byte := 0xA5

/-- Bytes 8 to 27 of a calibration record, over which its seal is taken (R181). -/
def CalRecord.body (r : CalRecord) : List Byte :=
  be16 r.generation ++ be32 r.trim ++ be32 r.backlash ++ be16 r.run ++ be32 r.cycle ++ [0, 0, 0, 0]

/-- The first beat of a calibration slot with the given state byte (R181). -/
def calStateBeat (state : Byte) : List Byte := [state, 0, 0, 0, 0, 0, 0, 0]

/-- The 32 bytes a CAL_STAGE writes (R181). -/
def CalRecord.encode (r : CalRecord) : List Byte := calStateBeat calStagedByte ++ r.body ++ be32 (crc32 r.body)

/-- Whether a slot's 32 bytes hold a sealed record (R181). -/
def calSealed (b : List Byte) : Bool :=
  decide (rd b 8 2 ≠ 0) && decide (rd b 28 4 = (crc32 ((b.take 28).drop 8)).toNat)

/-- The record in a sealed slot (R181). -/
def CalRecord.decode (b : List Byte) : CalRecord where
  generation := BitVec.ofNat 16 (rd b 8 2)
  trim := BitVec.ofNat 32 (rd b 10 4)
  backlash := BitVec.ofNat 32 (rd b 14 4)
  run := BitVec.ofNat 16 (rd b 18 2)
  cycle := BitVec.ofNat 32 (rd b 20 4)

/-- The record of a slot that is sealed with the given state byte (R182). -/
def calRecordWith (state : Byte) (b : List Byte) : Option CalRecord :=
  if byteAt b 0 = state ∧ calSealed b = true then some (CalRecord.decode b) else none

/-! ### Lockout records (R107) -/

/-- Bytes 0 to 5 of a lockout record (R107). -/
def LockRecord.body (r : LockRecord) : List Byte :=
  [byteOf (r.origin.val + flag 7 r.present), r.cause] ++ be16 r.run ++ be16 r.cycle

/-- The beat of a lockout record (R107). -/
def LockRecord.encode (r : LockRecord) : List Byte := r.body ++ be16 (crc16 r.body)

/-- The fields in the lockout area's first beat, sealed or not (R107). -/
def LockRecord.decode (b : List Byte) : LockRecord where
  present := (byteAt b 0).getLsbD 7
  origin := stationOf (bits (byteAt b 0) 0 3)
  cause := byteAt b 1
  run := BitVec.ofNat 16 (rd b 2 2)
  cycle := BitVec.ofNat 16 (rd b 4 2)

/-- Whether the lockout area's first beat is sealed (R107). -/
def lockSealed (b : List Byte) : Bool := decide (rd b 6 2 = (crc16 (b.take 6)).toNat)

end Sys2Proof.Machine
end

