-- ==== Sys2Proof/Machine/Ops.lean ====
section
/-! DEFINITION. The named operations the meanings are built from: block updates, memory, attention, the order record,
fault records, the motion gate, counter claims, and the write port of the retained store. -/

namespace Sys2Proof.Machine

/-! ### Block updates -/

/-- The state with another queue. -/
def State.setPending (s : State) (x : List Instr) : State := { s with pending := x }
/-- The state at another instant. -/
def State.setNow (s : State) (x : Time) : State := { s with now := x }
/-- The state with another count of free values drawn. -/
def State.setFreeCount (s : State) (x : Nat) : State := { s with freeCount := x }
/-- The state with other supplies. -/
def State.setPower (s : State) (x : Power) : State := { s with power := x }
/-- The state with another standby domain. -/
def State.setStandby (s : State) (x : Standby) : State := { s with standby := x }
/-- The state with other decoders. -/
def State.setDecoder (s : State) (x : Decoder) : State := { s with decoder := x }
/-- The state with another sensing unit. -/
def State.setSensing (s : State) (x : Sensing) : State := { s with sensing := x }
/-- The state with another Reference Engine. -/
def State.setEngine (s : State) (x : Engine) : State := { s with engine := x }
/-- The state with another link block. -/
def State.setLink (s : State) (x : Link) : State := { s with link := x }
/-- The state with another peer table. -/
def State.setPeers (s : State) (x : Vector PeerEntry 8) : State := { s with peers := x }
/-- The state with another Coordinator. -/
def State.setCoord (s : State) (x : Coord) : State := { s with coord := x }
/-- The state with another Plan Unit. -/
def State.setPlan (s : State) (x : Plan) : State := { s with plan := x }
/-- The state with another hold state. -/
def State.setHold (s : State) (x : Hold) : State := { s with hold := x }
/-- The state with another gate state. -/
def State.setGate (s : State) (x : GateState) : State := { s with gate := x }
/-- The state with another calibration state. -/
def State.setCal (s : State) (x : Cal) : State := { s with cal := x }
/-- The state with another store controller. -/
def State.setStore (s : State) (x : Store) : State := { s with store := x }
/-- The state with another retained store. -/
def State.setMem (s : State) (x : Memory) : State := { s with mem := x }
/-- The state with another drive port. -/
def State.setPort (s : State) (x : Port) : State := { s with port := x }

/-- The state `dt` later (log entry 2). -/
def advance (dt : Time) (s : State) : State := s.setNow (s.now + dt)

/-- The state after one more free value has been drawn. -/
def bumpFree (s : State) : State := s.setFreeCount (s.freeCount + 1)

/-! ### Memory (R89) -/

/-- What an unlisted address reads as: 00h, the delivered value of every byte (R89). -/
def Memory.blank : Byte := 0

/-- The byte at an address. -/
def Memory.read (m : Memory) (a : Nat) : Byte :=
  match m with
  | [] => Memory.blank
  | c :: rest => if c.1 = a then c.2 else Memory.read rest a

/-- The memory with the byte at an address replaced, in canonical form. -/
def Memory.write (m : Memory) (a : Nat) (b : Byte) : Memory :=
  match m with
  | [] => if b = Memory.blank then [] else [(a, b)]
  | c :: rest =>
    if a < c.1 then (if b = Memory.blank then c :: rest else (a, b) :: c :: rest)
    else if a = c.1 then (if b = Memory.blank then rest else (a, b) :: rest)
    else c :: Memory.write rest a b

/-- The bytes from an address on. -/
def Memory.readBytes (m : Memory) (a : Nat) : Nat → List Byte
  | 0 => []
  | n + 1 => Memory.read m a :: Memory.readBytes m (a + 1) n

/-- The memory with bytes written from an address on. -/
def Memory.writeBytes (m : Memory) (a : Nat) : List Byte → Memory
  | [] => m
  | b :: bs => Memory.writeBytes (Memory.write m a b) (a + 1) bs

/-- Every address of a memory lies above `a`. -/
def Memory.above (a : Nat) (m : Memory) : Bool := m.all fun c => decide (a < c.1)

/-- The canonical form: addresses strictly rising, and no byte equal to what an unlisted address reads as. -/
def Memory.wf : Memory → Bool
  | [] => true
  | c :: rest => decide (c.2 ≠ Memory.blank) && Memory.above c.1 rest && Memory.wf rest

/-- The offset of a write's target in the store (R89). -/
def WriteTarget.base : WriteTarget → Nat
  | .ring i => i.val * 32
  | .cal .a => 0xC00
  | .cal .b => 0xC20
  | .lockout => 0xC40

/-- The 32 bytes of a ring slot. -/
def State.ringSlot (s : State) (i : Fin 96) : List Byte := Memory.readBytes s.mem (WriteTarget.ring i).base 32

/-- The 32 bytes of a calibration slot. -/
def State.calSlot (s : State) (c : CalSlot) : List Byte := Memory.readBytes s.mem (WriteTarget.cal c).base 32

/-- The first beat of the lockout area. -/
def State.lockBeat (s : State) : List Byte := Memory.readBytes s.mem WriteTarget.lockout.base 8

/-! ### Vectors -/

/-- A vector with one place replaced. -/
def vput {α : Type} {n : Nat} (v : Vector α n) (i : Fin n) (x : α) : Vector α n := v.set i.val x i.isLt

/-! ### Attention (R211) -/

/-- A cause joins the attention cause set; a reported one that is added again stays at the removal (R211). -/
def addCause (c : Cause) (s : State) : State :=
  s.setPort { s.port with attention := s.port.attention.put c true, reported := s.port.reported.put c false }

/-! ### The motion order record (R26, R27) -/

/-- The reason an order holds. -/
def MotionOrder.reason : MotionOrder → Option OrderReason
  | .none => Option.none
  | .jog _ _ r => some r
  | .goto _ _ r => some r
  | .stop r => some r

/-- A write of the record: a write that changes any field adds ORDER_CHANGED (R26). -/
def writeOrder (o : MotionOrder) (s : State) : State :=
  if s.engine.order = o then s else addCause .orderChanged (s.setEngine { s.engine with order := o })

/-- A write by the engine: not made while the record holds reason HOLD (R27). -/
def engineWrite (o : MotionOrder) (s : State) : State :=
  if s.engine.order.reason = some .hold then s else writeOrder o s

/-- The record becomes NONE if it held reason HOLD (R27, R176). -/
def clearHoldOrder (s : State) : State :=
  if s.engine.order.reason = some .hold then writeOrder .none s else s

/-! ### Fault records (R156, R157) -/

/-- A record is appended; the list keeps the 8 most recent (R157). -/
def appendFault (l : List FaultRecord) (r : FaultRecord) : List FaultRecord :=
  if l.length < 8 then l ++ [r] else l.drop (l.length - 7) ++ [r]

/-- A fault is recorded: the record joins the list, FAULT_RECORDED is added, and with this station as origin the link
block's last fault code becomes the record's code (R65, R156). -/
def recordFault (code : Byte) (cls : FaultClass) (origin : Station) (step : Option Nat) (detail : BitVec 32)
    (s : State) : State :=
  let r : FaultRecord :=
    { code := code, cls := cls, origin := origin, step := step, run := s.coord.run, cycle := s.link.cycle,
      seq := s.hold.seq, detail := detail }
  let s := addCause .faultRecorded (s.setHold { s.hold with faults := appendFault s.hold.faults r })
  if origin = s.own then s.setLink { s.link with lastFault := code } else s

/-- A fault of this station that raises no hold: class NOTE, RETRY or ESCALATION (R153). -/
def noteFault (code : FaultCode) (cls : FaultClass) (step : Option Nat) (detail : Int) (s : State) : State :=
  recordFault code.byte cls s.own step (sat32 detail) s

/-! ### The motion gate (R165 to R168) -/

/-- The gate state that the requests, the level, the phase and the two filtered inputs give from the present one
(R166, R167, R168). -/
def nextGate (s : State) : GateState :=
  if s.hold.level.dropped then .closed
  else if s.permitted then .opened
  else match s.gate with
    | .closed => .closed
    | .opened | .awaitStill =>
      if s.still then (if s.braked then .closed else .awaitBrake) else .awaitStill
    | .awaitBrake => if s.braked then .closed else .awaitBrake

/-- The gate takes its next state. -/
def gateUpdate (s : State) : State := s.setGate (nextGate s)

/-! ### Claims on the counter (R15, R16, R22) -/

/-- A capture moved with the counter. -/
def Capture.moved (d : Int) (c : Capture) : Capture := { c with raw := c.raw.shift d }

/-- The sensing unit's held positions moved with the counter (R15). -/
def Sensing.moved (d : Int) (x : Sensing) : Sensing :=
  { x with
    captures := x.captures.map (Capture.moved d)
    pendingEdge := x.pendingEdge.map fun e => { e with value := e.value.shift d }
    lastChange := x.lastChange.map fun l => { l with counter := l.counter.shift d }
    earlier := x.earlier.map fun p => p.shift d }

/-- A stall window moved with the counter (R22). -/
def StallWindow.moved (d : Int) (w : StallWindow) : StallWindow := { w with position := w.position.shift d }

/-- The engine's held positions moved with the counter (R22; log entry 22). -/
def Operation.moved (d : Int) : Operation → Operation
  | .none => .none
  | .park p => .park p
  | .seek c =>
    .seek { c with start := c.start.shift d, phaseStart := c.phaseStart.shift d, stall := c.stall.moved d }
  | .survey c =>
    .survey { c with start := c.start.shift d, phaseStart := c.phaseStart.shift d, base := c.base.shift d,
                     stall := c.stall.moved d }

/-- Parked becomes false when the counter has left PARK_TOLERANCE (R44). -/
def parkedCheck (s : State) : State :=
  if s.engine.parked && decide (s.cfg.parkTolerance < Position.dist s.standby.counter s.cfg.parkPosition) then
    s.setEngine { s.engine with parked := false }
  else s

/-- An applied claim moves the counter and every held position by the same amount (R15, R22, R44). -/
def moveCounter (d : Int) (s : State) : State :=
  let s := s.setStandby { s.standby with counter := s.standby.counter.shift d }
  let s := s.setSensing (s.sensing.moved d)
  parkedCheck (s.setEngine { s.engine with operation := s.engine.operation.moved d })

/-- An applied SET claim of value `v` with reference value `r`: the counter becomes V + (counter - R), continuity true,
error kind NONE (R13, R15). -/
def applySet (v : Int) (r : Position) (s : State) : State :=
  moveCounter (v - r.toInt) (s.setStandby { s.standby with continuity := true, error := .none })

/-- A SET claim at the present instant; none when it is refused (R15, R16). -/
def setClaimNow (v : Int) (s : State) : Option State :=
  if s.sensing.settling then none else some (applySet v s.standby.counter s)

/-- A SET claim naming the newest capture record; none when it is refused, the window being open or the record no
longer on the list (R15, R16). -/
def setClaimNewest (v : Int) (s : State) : Option State :=
  if s.sensing.settling then none
  else match s.sensing.captures.getLast? with
    | none => none
    | some c => some (applySet v c.raw s)

/-- A SHIFT claim of `d`; none when it is refused (R15, R16). -/
def shiftClaim (d : Int) (s : State) : Option State :=
  if s.sensing.settling then none else some (moveCounter d s)

/-! ### Marks (R22, R23) -/

/-- The expected position of mark `m` for a direction, by the values in use (R22). -/
def State.expected (s : State) (m : Int) (d : Direction) : Int :=
  m * s.cps - s.cal.trim + (match d with | .positive => 0 | .negative => s.cal.backlash)

/-- The nearest rule (R23): among the marks whose remainder is the capture's sector, the one whose expected position
lies nearest the raw value, the lower at a tie. -/
def State.nearestMark (s : State) (c : Capture) : Int :=
  let sectors : Int := (s.cfg.sectors : Int)
  let turn := sectors * s.cps
  let y := c.raw.toInt - s.expected (c.sector : Int) c.dir
  let t := y / turn
  if 2 * (y - t * turn) ≤ turn then (c.sector : Int) + t * sectors else (c.sector : Int) + (t + 1) * sectors

/-- The mark number of the newest capture record is filled in (R23). -/
def setNewestMark (m : Option Int) (s : State) : State :=
  match s.sensing.captures.getLast? with
  | none => s
  | some c =>
    s.setSensing { s.sensing with captures := s.sensing.captures.dropLast ++ [{ c with mark := m }] }

/-! ### The write port (R89 to R94) -/

/-- How many beats a write of a kind takes (R91). -/
def WriteKind.beats : WriteKind → Nat
  | .final | .orderly | .calStage | .routine => 4
  | .lockRecord | .lockClear | .calFlip | .calDiscard => 1

/-- The bytes a request writes (R91, R92, R107, R181). -/
def WriteRequest.bytes : WriteRequest → List Byte
  | .final f => f.encode
  | .orderly f _ => f.encode
  | .routine f => f.encode
  | .lockRecord r => r.encode
  | .lockClear r => r.encode
  | .calFlip => calStateBeat calCommittedByte
  | .calStage r => r.encode
  | .calDiscard => calStateBeat 0

/-- The eight bytes of the beat in progress (R90). -/
def InFlight.beatBytes (f : InFlight) : List Byte := (f.request.bytes.drop (f.beat.val * 8)).take 8

/-- The store offset of the beat in progress (R90). -/
def InFlight.address (f : InFlight) : Nat := f.target.base + f.beat.val * 8

/-- Where a request goes when it is granted (R91, R94, R182). -/
def State.targetOf (s : State) : WriteRequest → WriteTarget
  | .final _ | .orderly _ _ | .routine _ => .ring s.store.pointer
  | .lockRecord _ | .lockClear _ => .lockout
  | .calFlip | .calStage _ | .calDiscard => .cal s.cal.spare

/-- A request is granted: its write is in flight from its first beat (R91). From the granting of a CAL_STAGE until its
write ends no staged record is held (R192). -/
def grant (r : WriteRequest) (s : State) : State :=
  let s := s.setStore { s.store with port := some { request := r, target := s.targetOf r, beat := 0, isCut := false } }
  match r with
  | .calStage _ => s.setCal { s.cal with staged := none, sealedInSighting := false }
  | _ => s

/-- A request joins the pending set, replacing one of its kind (R91). -/
def addPending (r : WriteRequest) (s : State) : State :=
  s.setStore { s.store with pending := vput s.store.pending r.kind.place (some r) }

/-- A kind's pending request is removed. -/
def dropPending (k : WriteKind) (s : State) : State :=
  s.setStore { s.store with pending := vput s.store.pending k.place none }

/-- The pending request first in grant order (R91). -/
def Store.nextPending (st : Store) : Option WriteRequest := st.pending.toList.findSome? id

/-- At the end of a write the pending request first in grant order is granted (R91). -/
def grantNext (s : State) : State :=
  match s.store.port with
  | some _ => s
  | none =>
    match s.store.nextPending with
    | none => s
    | some r => grant r (dropPending r.kind s)

/-- A request is posted (R91): granted at once when the port is IDLE and the pending set empty, else pending. A
CAL_STAGE is not placed while the filtered PFAIL is active (R98). -/
def postWrite (r : WriteRequest) (s : State) : State :=
  if decide (r.kind = .calStage) && s.sensing.pfail.level then s
  else if s.store.port.isNone && s.store.nextPending.isNone then grant r s
  else addPending r s

/-- The run and cycle as they stand, for a lockout record: 0 while unknown or none (R107). -/
def State.lockRecordNow (s : State) : LockRecord :=
  { present := true, origin := s.hold.origin, cause := s.hold.cause, run := s.coord.run.getD 0,
    cycle := (s.link.cycle.getD 0).setWidth 16 }

/-- LOCK_RECORD is posted: a pending LOCK_CLEAR is removed, and its retry is available again (R107, R108). -/
def postLockRecord (s : State) : State :=
  let s := dropPending .lockClear s
  let s := s.setStore { s.store with recordRetryUsed := false }
  postWrite (.lockRecord s.lockRecordNow) s

/-- The lockout record as last written: the one in flight, or the one in the store (R108; log entry 35). -/
def State.lastLockRecord (s : State) : LockRecord :=
  match s.store.port with
  | some f =>
    match f.request with
    | .lockRecord r => r
    | _ => LockRecord.decode s.lockBeat
  | none => LockRecord.decode s.lockBeat

/-- LOCK_CLEAR is posted: present flag 0, the other fields as last written (R108). -/
def postLockClear (s : State) : State :=
  let r := s.lastLockRecord
  let s := dropPending .lockRecord s
  let s := s.setStore { s.store with clearRetryUsed := false }
  postWrite (.lockClear { r with present := false }) s

/-! ### Latches (R93, R95) -/

/-- The tag of a frame latched now (R93). -/
def State.nextTag (s : State) : Tag :=
  let run := s.coord.run.getD 0
  let cycle := s.link.cycle.getD 0
  match s.store.lastTag with
  | none => ⟨run, cycle⟩
  | some t =>
    if serialNewer run t.run || (decide (t.run = run) && serialNewer cycle t.cycle) then ⟨run, cycle⟩
    else ⟨run, t.cycle + 1⟩

/-- The frame a latch takes now: every item as it stands (R92, R95). -/
def State.latchFrame (s : State) (kind : JournalKind) : JournalFrame where
  kind := kind
  refState := s.engine.refState
  confidence := s.coord.confidence
  brake := s.braked
  moving := s.sensing.moving
  load := s.loadFlag
  parked := s.engine.parked
  tag := s.nextTag
  position := s.standby.counter
  sector := match s.sensing.accepted with | some n => byteOf n | none => 0xFF
  level := s.hold.level
  phase := s.coord.phase
  generation := s.cal.generation
  holdSeq := s.hold.seq
  trim := BitVec.ofInt 32 s.cal.trim

/-- The latch sets the last latched tag to the new frame's (R93). -/
def noteLatch (f : JournalFrame) (s : State) : State := s.setStore { s.store with lastTag := some f.tag }

/-- A ROUTINE latch at a cycle start, when it is due and nothing forbids it (R95, R96). -/
def markLatch (s : State) : State :=
  if s.coord.journalActive
      && decide ((s.link.cycle.getD 0).toNat % s.cfg.journalEvery = 0)
      && !s.sensing.pfail.level && !s.store.finalOut && !s.store.busyWith .orderly && s.store.closing.isNone then
    let f := s.latchFrame .routine
    postWrite (.routine f) (noteLatch f s)
  else s

/-- At a PFAIL arrival with journal-active true: a FINAL is latched and posted, and it marks the dip flag (R98, R101). -/
def finalLatch (s : State) : State :=
  let f := s.latchFrame .final
  let s := noteLatch f s
  let s := s.setStore { s.store with finalOut := true, dip := s.store.dip.map fun _ => true }
  postWrite (.final f) s

/-- At the entry complete of a SHUTDOWN hold (R102): with journal-active true an ORDERLY is latched and posted, else
the closing flag is set at once. -/
def orderlyLatch (s : State) : State :=
  if s.coord.journalActive then
    let s := dropPending .routine s
    let f := s.latchFrame .orderly
    postWrite (.orderly f s.hold.seq) (noteLatch f s)
  else s.setStore { s.store with closing := some s.hold.seq }

end Sys2Proof.Machine
end

