-- ==== Sys2Proof/Machine/Ends.lean ====
section
/-! DEFINITION. How operations, plan steps and proposals end when a hold reaches them, and the calibration protocol's
sighting: what taking a hold needs of the other blocks. -/

namespace Sys2Proof.Machine

/-! ### The step status table (R128) -/

/-- The table with the state of one step changed. -/
def Plan.modifyStep (p : Plan) (i : Nat) (f : StepState → StepState) : Plan := { p with table := p.table.modify i f }

/-- The status of a step. -/
def Plan.status (p : Plan) (i : Nat) : Option StepStatus := p.table[i]?.map (·.status)

/-- A step with a status and no retry timer. -/
def StepState.become (st : StepStatus) (x : StepState) : StepState := { x with status := st, timer := none }

/-- The report "resolved DONE" for a step that is RUNNING (R145). -/
def planDone (step : Option Nat) (s : State) : State :=
  match step with
  | none => s
  | some i =>
    if s.plan.status i = some .running then
      gateUpdate (s.setPlan { s.plan.modifyStep i (StepState.become .done) with
        running := false, claim := none, claimSent := none, yieldReturn := false })
    else s

/-- The report "ended by a hold" for a step that is RUNNING: PENDING, or CLAIMING again when it was yielding and the
hold level is NONE (R145, R149; log entry 26). -/
def planHeld (step : Option Nat) (s : State) : State :=
  match step with
  | none => s
  | some i =>
    if s.plan.status i = some .running then
      if s.plan.yieldReturn && decide (s.hold.level = .none) then
        gateUpdate (s.setPlan { s.plan.modifyStep i (StepState.become .claiming) with
          running := false, claimSent := none, yieldReturn := false })
      else
        gateUpdate (s.setPlan { s.plan.modifyStep i (StepState.become .pending) with
          running := false, claim := none, claimSent := none, yieldReturn := false })
    else s

/-- CLAIMING becomes PENDING. -/
def StepState.unclaim (x : StepState) : StepState :=
  if x.status = .claiming then { x with status := .pending } else x

/-- CLAIMING and RUNNING become PENDING. -/
def StepState.abandon (x : StepState) : StepState :=
  if x.status = .claiming ∨ x.status = .running then { x with status := .pending } else x

/-- The hold level leaves NONE: a CLAIMING step becomes PENDING, a RUNNING one stays (R148). -/
def planHold (s : State) : State :=
  if s.plan.running then s
  else s.setPlan { s.plan with table := s.plan.table.map StepState.unclaim, claim := none, claimSent := none }

/-- The plan is abandoned at the entry to HALTED (R85, R150). -/
def planAbandon (s : State) : State :=
  s.setPlan { s.plan with table := s.plan.table.map StepState.abandon, claim := none, claimSent := none,
                          running := false, yieldReturn := false }

/-- A plan reset (R83, R150, R151): every step PENDING with full retries, no timer, no claim. -/
def planReset (s : State) : State :=
  s.setPlan { s.plan with table := s.plan.table.map fun _ => ⟨.pending, s.cfg.retryLimit, none⟩, claim := none,
                          claimSent := none, running := false, yieldReturn := false }

/-! ### Ends of engine operations -/

/-- The engine leaves REFERENCED for PROVISIONAL; parked becomes false (R44, R151). -/
def demote (s : State) : State :=
  if s.engine.refState = .referenced then
    s.setEngine { s.engine with refState := .provisional, parked := false }
  else s

/-- An operation that held back the demotion of R151 has ended. -/
def operationEnded (s : State) : State :=
  if s.plan.demote then
    let s := demote s
    s.setPlan { s.plan with demote := false, dropMotion := false }
  else s

/-- At the fall of the level from DROP or LOCKOUT to NONE, the drop motion flag is used (R151). -/
def useDropMotion (s : State) : State :=
  if s.plan.dropMotion then
    match s.engine.operation with
    | .seek _ | .survey _ => s.setPlan { s.plan with demote := true }
    | _ =>
      let s := demote s
      s.setPlan { s.plan with dropMotion := false }
  else s

/-- The drop motion flag becomes true when the level is DROP or LOCKOUT and the joint is moving (R151). -/
def noteDropMotion (s : State) : State :=
  if s.hold.level.dropped && s.sensing.moving then s.setPlan { s.plan with dropMotion := true } else s

/-- An ending seek returns to its entry state at standstill: context removed, record NONE unless it holds reason HOLD
(R39). -/
def seekFinish (c : SeekContext) (s : State) : State :=
  let s := s.setEngine { s.engine with refState := c.entry.state, operation := .none }
  operationEnded (engineWrite .none s)

/-- An ending seek whose end cause is HOLD or ABANDONED returns: its step is reported ended by a hold (R39). -/
def seekReturnHeld (c : SeekContext) (s : State) : State := planHeld c.step (seekFinish c s)

/-- The captures and result a survey leaves in the last survey result (R189). -/
def SurveyContext.resultWith (c : SurveyContext) (o : SurveyOutcome) (filled : Bool) (cycle : Option (BitVec 32)) :
    SurveyResult :=
  { kind := c.kind, mark := c.mark, outcome := o, failPhase := (if o = .failed then c.failPhase else 0),
    first := c.first, second := c.second, result := (if o = .done then c.measure else none), pendingFilled := filled,
    cycle := cycle }

/-- A survey ends at standstill: context removed, REFERENCED, the engine's movement request withdrawn, record NONE
unless it holds reason HOLD, SURVEY_DONE added, the last survey result filled (R46, R189). -/
def surveyFinish (c : SurveyContext) (o : SurveyOutcome) (filled : Bool) (s : State) : State :=
  let s := s.setEngine { s.engine with refState := .referenced, operation := .none }
  let s := addCause .surveyDone (engineWrite .none (gateUpdate s))
  operationEnded (s.setCal { s.cal with result := some (c.resultWith o filled s.link.cycle) })

/-- The outcome an ending survey has in its result (R189). -/
def SurveyEnd.outcome : SurveyEnd → SurveyOutcome
  | .failed => .failed | .abandoned => .abandoned | .hold => .held

/-- An ending survey ends at standstill for its end cause (R189): a failure raises SURVEY_FAILED (NOTE). -/
def surveyReturn (c : SurveyContext) (e : SurveyEnd) (s : State) : State :=
  let s := surveyFinish c e.outcome false s
  if e = .failed then noteFault .surveyFailed .note none (c.failPhase : Int) s else s

/-- What a hold that reaches the station does to the engine (R39, R43, R45). -/
def engineHold (s : State) : State :=
  match s.engine.operation with
  | .none => s
  | .park p =>
    planHeld p.step (s.setEngine { s.engine with operation := .none })
  | .seek c =>
    if s.engine.refState = .captured then s
    else match c.endCause with
      | none =>
        let c := { c with endCause := some .hold }
        if s.still then seekReturnHeld c s else s.setEngine { s.engine with operation := .seek c }
      | some .abandoned => s
      | some _ => s.setEngine { s.engine with operation := .seek { c with endCause := some .hold } }
  | .survey c =>
    match c.endCause with
    | some _ => s
    | none =>
      let c := { c with endCause := some .hold }
      if s.still then surveyReturn c .hold s else s.setEngine { s.engine with operation := .survey c }

/-! ### Sighting, proposal and calibration writes (R190 to R198) -/

/-- A proposal of generation `g` is shown by this station or by an ACTIVE peer entry (R191). -/
def State.proposed (s : State) (g : BitVec 16) : Bool :=
  (match s.cal.proposal with | some p => decide (p.generation = g) | none => false)
    || s.peerRecords.any fun x => decide (x.2.proposal = g)

/-- The sighting that is in progress as things stand (R191). -/
def State.sightingNow (s : State) : Option (BitVec 16) :=
  match s.cal.nextGeneration with
  | none => none
  | some g => if s.proposed g then some g else none

/-- A sighting begins or ends as things stand; at either, staged in sighting becomes false (R191). -/
def sightingUpdate (s : State) : State :=
  if s.cal.sighting = s.sightingNow then s
  else s.setCal { s.cal with sighting := s.sightingNow, stagedInSighting := false, sealedInSighting := false }

/-- The own proposal ends (R198): CAL_ABORTED (NOTE) with the given detail, or none at a success. -/
def endProposal (detail : Option Int) (s : State) : State :=
  let s := s.setCal { s.cal with proposal := none }
  let s := match detail with
    | some d => noteFault .calAborted .note none d s
    | none => s
  sightingUpdate s

/-- The own proposal ends unless its flip has been posted (R198). -/
def withdrawProposal (detail : Int) (s : State) : State :=
  match s.cal.proposal with
  | some p => if p.flipPosted then s else endProposal (some detail) s
  | none => s

/-- The record a CAL_STAGE of generation `g` writes (R193). -/
def State.stageRecord (s : State) (g : BitVec 16) : CalRecord :=
  { generation := g
    trim := BitVec.ofInt 32 (s.cal.pendTrim.getD s.cal.committedTrim)
    backlash := BitVec.ofInt 32 (s.cal.pendBacklash.getD s.cal.committedBacklash)
    run := s.coord.run.getD 0
    cycle := s.link.cycle.getD 0 }

/-- The staging conditions hold together: the station stages once in a sighting (R191). -/
def stageTest (s : State) : State :=
  match s.cal.sighting with
  | none => s
  | some g =>
    if !s.cal.stagedInSighting && decide (s.coord.phase = .ready) && decide (s.hold.level = .none)
        && decide (s.engine.refState ≠ .surveying) && !s.sensing.pfail.level then
      let r := s.stageRecord g
      postWrite (.calStage r) (s.setCal { s.cal with stagedInSighting := true })
    else s

/-- CAL_FLIP is posted; at the proposer flip-posted becomes true (R194; log entry 43). -/
def postFlip (s : State) : State :=
  let s := s.setCal { s.cal with proposal := s.cal.proposal.map fun p => { p with flipPosted := true } }
  postWrite .calFlip s

/-- What R194 and R197 ask alike: a staged record of G + 1 held, flip failed false, no calibration write outstanding,
and the phase not ISOLATED. -/
def State.flipReady (s : State) : Bool :=
  s.cal.staged.isSome && !s.cal.flipFailed && !s.store.calBusy && decide (s.coord.phase ≠ .isolated)

/-- The staged generation, 0 when no staged record is held. -/
def Cal.stagedGeneration (c : Cal) : BitVec 16 :=
  match c.staged with
  | some r => r.generation
  | none => 0

/-- The flip condition of R194. -/
def flipTest (s : State) : State :=
  let g := s.cal.stagedGeneration
  if s.flipReady && s.cal.sealedInSighting
      && s.arm.all (fun j => decide (j = s.own) ||
          (match s.heardRecord j with
           | some r => decide (r.staged = g) || decide (r.committed = g)
           | none => false)) then
    postFlip s
  else s

/-- Roll-forward against a record just accepted (R197). -/
def rollForwardOn (r : StatusRecord) (s : State) : State :=
  if s.flipReady && decide (r.committed = s.cal.stagedGeneration) then postFlip s else s

/-- Roll-forward against the peer table, when a calibration write has ended (R197). -/
def rollForwardTable (s : State) : State :=
  if s.flipReady && s.peerRecords.any (fun x => decide (x.2.committed = s.cal.stagedGeneration)) then postFlip s else s

/-- The proposal ends in success at a hand-off: the own committed generation and every ACTIVE entry of the arm show
it (R198). -/
def proposalSuccess (s : State) : State :=
  match s.cal.proposal with
  | none => s
  | some p =>
    if decide (s.cal.generation = p.generation)
        && s.arm.all (fun j => match s.heardRecord j with
          | some r => decide (r.committed = p.generation)
          | none => true) then
      endProposal none s
    else s

end Sys2Proof.Machine
end

