-- ==== Sys2Proof/Machine/HoldOps.lean ====
section
/-! DEFINITION. Holds, phases and faults: sequences and levels, entries and their completion, changes of the arm
phase, raising a fault, and the ways a hold ends. -/

namespace Sys2Proof.Machine

/-! ### Sequence and level (R158, R159) -/

/-- The newest known sequence is kept at or above a sequence held or seen (R159; log entry 28). -/
def Hold.see (h : Hold) (q : BitVec 16) : Hold := if seqNewer q h.newest then { h with newest := q } else h

/-- The hold sequence changes to `q`: the resume flag and the closing flag clear (R103, R158, R174). -/
def changeSeq (q : BitVec 16) (s : State) : State :=
  if s.hold.seq = q then s
  else
    let s := s.setHold ({ s.hold with seq := q, resume := false, resumeFor := 0 }.see q)
    addCause .holdChanged (s.setStore { s.store with closing := none })

/-- The sequence a new hold takes: the newest known + 1, never 0 (R159). -/
def Hold.freshSeq (h : Hold) : BitVec 16 := if h.newest + 1 = 0 then 1 else h.newest + 1

/-- The level changes (R158). -/
def setLevel (l : HoldLevel) (s : State) : State :=
  if s.hold.level = l then s else addCause .holdChanged (s.setHold { s.hold with level := l })

/-- The entry-complete flag changes (R158). -/
def setComplete (b : Bool) (s : State) : State :=
  if s.hold.complete = b then s else addCause .holdChanged (s.setHold { s.hold with complete := b })

/-- Cause and origin of the hold. -/
def setCause (cause : Byte) (origin : Station) (s : State) : State :=
  s.setHold { s.hold with cause := cause, origin := origin }

/-- A new hold at a level: a new sequence, the cause, this station as origin (R160). -/
def newHold (l : HoldLevel) (cause : Byte) (s : State) : State :=
  setCause cause s.own (setLevel l (changeSeq s.hold.freshSeq s))

/-! ### Entry (R161, R170) -/

/-- The station and every ACTIVE peer entry are settled for the station's sequence (R170). -/
def State.entrySettled (s : State) : Bool :=
  s.settled && s.peerRecords.all fun x => x.2.settledFor s.hold.seq

/-- The test of R170: at the first that passes the entry is complete and its deadline none; for a SHUTDOWN hold the
ORDERLY frame or the closing flag follows (R102). -/
def entryTest (s : State) : State :=
  if s.hold.level.entering && !s.hold.complete && s.entrySettled then
    let s := setComplete true s
    let s := s.setHold { s.hold with deadline := none }
    if s.hold.cause = FaultCode.byte .shutdown then orderlyLatch s else s
  else s

/-- What a hold of any level but NONE does to the other blocks: the engine, the Plan Unit, the gate, the drop motion
flag and the own proposal (R45, R148, R151, R167, R168, R198). -/
def holdReaches (s : State) : State :=
  withdrawProposal 2 (noteDropMotion (gateUpdate (planHold (engineHold s))))

/-- A STOP entry or DROP entry begins at the level the station has taken (R161). -/
def beginEntry (s : State) : State :=
  let limit := if s.hold.level = .drop then ms s.cfg.dropLimit else ms s.cfg.holdStopLimit
  let s := setComplete false s
  let s := s.setHold { s.hold with deadline := some (s.now + limit), resume := false, resumeFor := 0 }
  entryTest (holdReaches (writeOrder (.stop .hold) s))

/-- The level has become LOCKOUT (R161): the record STOP with reason HOLD, the gate closed, no entry, and LOCK_RECORD
posted unless the lockout comes from a retained record at a start (R107). That it is posted in ISOLATED and during the
scan too, where R104 counts on no lockout write, is the model's choice (log entry 58). -/
def enterLockout (post : Bool) (s : State) : State :=
  let s := setComplete false s
  let s := s.setHold { s.hold with deadline := none }
  let s := holdReaches (writeOrder (.stop .hold) s)
  if post then postLockRecord s else s

/-- The entry of whatever level STOP, DROP or LOCKOUT the station has taken (R161). -/
def enterLevel (s : State) : State :=
  match s.hold.level with
  | .none => s
  | .stop | .drop => beginEntry s
  | .lockout => enterLockout true s

/-! ### The arm phase (R72) -/

/-- The deadline a phase sets on entry (R72). -/
def State.phaseDeadline (s : State) (p : ArmPhase) : Option Time :=
  match p with
  | .gathering | .recovering => some (s.now + ms (s.cfg.gatherLimit * 1000))
  | _ => none

/-- A change of the arm phase with what takes place at its moment (R72), the end of an unflipped proposal when READY
is left (R198), the abandoned plan in HALTED (R150), the plan reset in HOMING (R83), and the gate's requests (R84). -/
def setPhase (p : ArmPhase) (s : State) : State :=
  if s.coord.phase = p then s
  else
    let old := s.coord.phase
    let s := s.setCoord { s.coord with phase := p, agreement := 0, restartedReported := [],
                                       verdictTested := false, deadline := s.phaseDeadline p }
    let s := addCause .phaseChanged (s.setLink { s.link with outOfArm := [] })
    let s := if old = .ready then withdrawProposal 4 s else s
    let s := match p with
      | .halted => planAbandon s
      | .homing => planReset s
      | _ => s
    gateUpdate s

/-- An ABORT-class fault has been recorded: the phase becomes HALTED from GATHERING, RECOVERING, HOMING or READY
(R85). -/
def haltPhase (s : State) : State :=
  match s.coord.phase with
  | .gathering | .recovering | .homing | .ready => setPhase .halted s
  | .isolated | .halted => s

/-! ### Raising a fault (R153, R160) -/

/-- A fault of this station acts by its class (R153). HOLD and ABORT act on the hold by the table of R160: the hold
changes, the fault is recorded with the sequence that gives, the entry begins, and for ABORT the phase is HALTED
(log entry 21). -/
def raiseFault (code : FaultCode) (cls : FaultClass) (step : Option Nat) (detail : Int) (s : State) : State :=
  match cls with
  | .note | .retry | .escalation => noteFault code cls step detail s
  | .hold | .abort =>
    let put := noteFault code cls step detail
    let s :=
      match s.hold.level with
      | .none => beginEntry (put (newHold .stop code.byte s))
      | .stop =>
        if s.hold.complete then beginEntry (put (newHold .stop code.byte s))
        else beginEntry (put (setLevel .drop s))
      | .drop =>
        if s.hold.complete then beginEntry (put (newHold .drop code.byte s))
        else enterLockout true (put (setLevel .lockout s))
      | .lockout => put s
    if cls = .abort then haltPhase s else s

/-- A HOLD-class fault that concerns no plan step. -/
def raiseHold (code : FaultCode) (detail : Int) (s : State) : State := raiseFault code .hold none detail s

/-- An ABORT-class fault that concerns no plan step. -/
def raiseAbort (code : FaultCode) (detail : Int) (s : State) : State := raiseFault code .abort none detail s

/-- The plan step an operation belongs to: that of a seek or a park, the one a fault found in the joint's motion
concerns (R156; log entry 20). -/
def Operation.step : Operation → Option Nat
  | .seek c => c.step
  | .park p => p.step
  | .none | .survey _ => Option.none

/-- The class a disposition entry gives (R155). -/
def dispositionClass (isHold : Bool) : FaultClass := if isHold then .hold else .note

/-- SPURIOUS_INDEX in the class of its disposition (R9, R155). -/
def raiseSpurious (sector : Nat) (s : State) : State :=
  raiseFault .spuriousIndex (dispositionClass s.hold.spuriousHold) s.engine.operation.step (sector : Int) s

/-! ### The ends of a hold (R176) -/

/-- The level becomes NONE (R176): entry-complete false, no deadline, HOLD_CHANGED, the order record and the closing
flag cleared. Sequence, cause and origin stay. -/
def levelToNone (s : State) : State :=
  let s := setComplete false (setLevel .none s)
  let s := s.setHold { s.hold with deadline := none }
  clearHoldOrder (s.setStore { s.store with closing := none })

/-- A resume ends a STOP or DROP hold (R84, R151, R176): after a DROP the drop motion flag is used, and in READY or
HOMING the plan is reset, READY returning to HOMING. -/
def resumeHold (s : State) : State :=
  let old := s.hold.level
  let s := levelToNone s
  let s :=
    if old = .drop then
      let s := useDropMotion s
      match s.coord.phase with
      | .ready => setPhase .homing s
      | .homing => planReset s
      | _ => s
    else s
  stageTest (gateUpdate s)

/-- The lockout is cleared at this station (R178). -/
def clearLockout (s : State) : State :=
  let s := postLockClear s
  let s := s.setHold { s.hold with lockClear := true, lockClearLeft := s.cfg.peerLossLimit }
  let s := setPhase .halted s
  gateUpdate (useDropMotion (levelToNone s))

/-- The hold condition under which a HALTED station restarts (R86): level NONE, or STOP with entry complete. -/
def State.mayRestart (s : State) : Bool :=
  decide (s.hold.level = .none) || (decide (s.hold.level = .stop) && s.hold.complete)

/-- A HALTED station restarts (R86, R176). -/
def restartStation (s : State) : State :=
  let s := if s.hold.level = .none then clearHoldOrder s else levelToNone s
  let s := s.setHold { s.hold with resume := false, resumeFor := 0 }
  let s := s.setCoord { s.coord with
    lastRunClaim := (match s.coord.run with | some r => some r | none => s.coord.lastRunClaim),
    restart := true, restartLeft := s.cfg.peerLossLimit }
  setPhase .gathering s

/-! ### Losing continuity of the engine (R25) -/

/-- A JOG or GOTO in the order record is replaced by STOP with its reason (R25, R27). -/
def stopMotion (s : State) : State :=
  match s.engine.order with
  | .jog _ _ r => engineWrite (.stop r) s
  | .goto _ _ r => engineWrite (.stop r) s
  | .none | .stop _ => s

/-- QUAD_ERROR, SECTOR_JUMP or SLIP sends the engine to UNREFERENCED at once (R25): any operation is removed and its
step reported ended by a hold, parked false, and a JOG or GOTO replaced by STOP with its reason. -/
def engineLost (s : State) : State :=
  if s.engine.refState = .unreferenced then s
  else
    let op := s.engine.operation
    let s := s.setEngine { s.engine with refState := .unreferenced, parked := false, operation := .none }
    gateUpdate (operationEnded (planHeld op.step (stopMotion s)))

end Sys2Proof.Machine
end

