-- ==== Sys2Proof/Machine/EngineOps.lean ====
section
/-! DEFINITION. The Reference Engine's operations: orders, seeks, parks and surveys, from their start through
captures, travel, stall and standstill to their ends. -/

namespace Sys2Proof.Machine

/-! ### Orders (R26, R28) -/

/-- The limit an order runs toward while it is active: +1 for LIM_POS, -1 for LIM_NEG (R28). -/
def State.limitMet (s : State) (o : MotionOrder) : Option Int :=
  let toward : Option Direction := match o with
    | .jog d _ _ => some d
    | .goto t _ _ =>
      if s.counter < t.toInt then some .positive else if t.toInt < s.counter then some .negative else none
    | _ => none
  match toward with
  | some .positive => if s.sensing.limPos.level then some 1 else none
  | some .negative => if s.sensing.limNeg.level then some (-1) else none
  | none => none

/-- The engine writes JOG or GOTO; an order toward an active limit raises OVERTRAVEL (R27, R28). -/
def engineOrder (o : MotionOrder) (s : State) : State :=
  if s.engine.order.reason = some .hold then s
  else
    let s := writeOrder o s
    match s.limitMet o with
    | some d => raiseFault .overtravel .hold s.engine.operation.step d s
    | none => s

/-- A limit arrival during motion raises OVERTRAVEL (R28). -/
def limitArrival (d : Int) (s : State) : State :=
  let ordered := match s.engine.order with
    | .jog _ _ _ => true
    | .goto _ _ _ => true
    | _ => false
  if ordered || s.sensing.moving then raiseFault .overtravel .hold s.engine.operation.step d s else s

/-- The configured speed of a class (R26). -/
def Configuration.speedOf (c : Configuration) : SpeedClass → Nat
  | .creep => c.creep
  | .slow => c.slow
  | .normal => c.normal

/-- A stall window set to the counter and the present instant (R38). -/
def State.stallNow (s : State) : StallWindow := ⟨s.standby.counter, s.now⟩

/-! ### Answers by state (R29) -/

/-- What the engine answers to a request it takes or refuses (R29). -/
inductive EngineAnswer where
  | taken | invalid | busy | refusedHold
  deriving DecidableEq, Repr

/-- A request the table takes is refused REFUSED_HOLD while the hold level is not NONE (R29). -/
def State.takeUnlessHeld (s : State) : EngineAnswer := if s.hold.level = .none then .taken else .refusedHold

/-- The table's answer to a seek (R29). -/
def State.seekAnswer (s : State) (k : SeekKind) : EngineAnswer :=
  if k = .index ∧ s.cfg.singleTurn = false then .invalid
  else match s.engine.refState with
    | .unreferenced => if k = .witness then .invalid else s.takeUnlessHeld
    | .provisional => s.takeUnlessHeld
    | .seeking | .captured | .surveying => .busy
    | .referenced =>
      match s.engine.operation with
      | .park _ => .busy
      | _ => s.takeUnlessHeld

/-- The table's answer to PARK, SURVEY and TRIM (R29). -/
def State.referencedAnswer (s : State) : EngineAnswer :=
  match s.engine.refState with
  | .unreferenced | .provisional => .invalid
  | .seeking | .captured | .surveying => .busy
  | .referenced =>
    match s.engine.operation with
    | .park _ => .busy
    | _ => s.takeUnlessHeld

/-- The answer to TRIM: in REFERENCED without DRV_STILL it is BUSY (R29; log entry 18). -/
def State.trimAnswer (s : State) : EngineAnswer :=
  match s.referencedAnswer with
  | .taken => if s.still then .taken else .busy
  | .refusedHold => if s.still then .refusedHold else .busy
  | x => x

/-! ### Starting a seek (R30, R31) -/

/-- The lowest mark whose positive expected position is greater than the counter (R31). -/
def State.positiveCandidate (s : State) : Int := (s.counter - s.expected 0 .positive) / s.cps + 1

/-- The highest mark whose negative expected position is less than the counter (R31). -/
def State.negativeCandidate (s : State) : Int := (s.counter - s.expected 0 .negative - 1) / s.cps

/-- The direction and target a WITNESS chooses (R31): for NEAREST the closer, positive at a tie. -/
def State.witnessTarget (s : State) (d : StepDir) : Direction × Int :=
  let p := s.positiveCandidate
  let n := s.negativeCandidate
  match d with
  | .positive => (.positive, p)
  | .negative => (.negative, n)
  | .nearest =>
    if (s.expected p .positive - s.counter).natAbs ≤ (s.expected n .negative - s.counter).natAbs then (.positive, p)
    else (.negative, n)

/-- The direction a step names, for kinds that do not take NEAREST. -/
def StepDir.toDirection : StepDir → Direction
  | .negative => .negative
  | _ => .positive

/-- The context of a taken seek (R30). -/
def State.seekContext (s : State) (k : SeekKind) (d : StepDir) (speed : SpeedClass) (limit : Nat)
    (step : Option Nat) : SeekContext :=
  let dt : Direction × Int := if k = .witness then s.witnessTarget d else (d.toDirection, 0)
  { kind := k, dir := dt.1, speed := speed, travelLimit := limit, start := s.standby.counter,
    entry := s.engine.standing, step := step, phase := .toSwitch, phaseStart := s.standby.counter, target := dt.2,
    stall := s.stallNow, endCause := none, endDetail := 0 }

/-- A taken seek (R30): SEEKING, its context, parked false (R44), and JOG with reason SEEK. -/
def startSeek (k : SeekKind) (d : StepDir) (speed : SpeedClass) (limit : Nat) (step : Option Nat) (s : State) : State :=
  let c := s.seekContext k d speed limit step
  let s := s.setEngine { s.engine with refState := .seeking, parked := false, operation := .seek c }
  engineOrder (.jog c.dir (s.cfg.speedOf (if k = .witness then .creep else speed)) .seek) s

/-! ### Retries (R146) -/

/-- RETRY_DELAY (R146). -/
def retryDelay : Time := ms 500

/-- The report of a RETRY fault for a step that is RUNNING (R145, R146): the fault is recorded, the step becomes
FAILED-WAIT with one retry fewer, or PENDING with RETRIES_EXHAUSTED (HOLD) when none was left. -/
def planRetry (step : Option Nat) (code : FaultCode) (detail : Int) (s : State) : State :=
  match step with
  | none => s
  | some i =>
    if s.plan.status i = some .running then
      let left := (s.plan.table[i]?.map (·.retries)).getD 0
      let s := noteFault code .retry (some i) detail s
      if 0 < left then
        gateUpdate (s.setPlan { s.plan.modifyStep i (fun _ => ⟨.failedWait, left - 1, some (s.now + retryDelay)⟩) with
          running := false, claim := none, claimSent := none })
      else
        let s := gateUpdate (s.setPlan { s.plan.modifyStep i (StepState.become .pending) with
          running := false, claim := none, claimSent := none })
        raiseFault .retriesExhausted .hold (some i) (code.num : Int) s
    else s

/-! ### Ends of a seek (R37 to R39) -/

/-- An ending seek returns for its end cause (R39). -/
def seekReturn (c : SeekContext) (e : SeekEnd) (s : State) : State :=
  match e with
  | .exhausted => planRetry c.step .seekExhausted c.endDetail (seekFinish c s)
  | .stalled => planRetry c.step .seekStalled c.endDetail (seekFinish c s)
  | .abandoned | .hold => seekReturnHeld c s

/-- A running seek's end cause is set (R38, R39, R144): STOP with reason SEEK, and the return at once if DRV_STILL is
active. -/
def endSeek (c : SeekContext) (e : SeekEnd) (detail : Int) (s : State) : State :=
  let c := { c with endCause := some e, endDetail := detail }
  let s := engineWrite (.stop .seek) (s.setEngine { s.engine with operation := .seek c })
  if s.still then seekReturn c e s else s

/-- CAPTURED completes at standstill (R37). -/
def capturedComplete (c : SeekContext) (s : State) : State :=
  let s := s.setEngine { s.engine with refState := .referenced, operation := .none }
  planDone c.step (operationEnded (engineWrite .none s))

/-- A seek's claim has been applied: CAPTURED with STOP reason SEEK, complete at once if DRV_STILL is active
(R32, R33, R35, R37). -/
def enterCaptured (c : SeekContext) (s : State) : State :=
  let s := engineWrite (.stop .seek) (s.setEngine { s.engine with refState := .captured })
  if s.still then capturedComplete c s else s

/-- A seek presents its SET claim for the newest capture; refused, the seek runs on (R36). -/
def seekClaim (c : SeekContext) (v : Int) (s : State) : State :=
  match setClaimNewest v s with
  | some s =>
    let c := match s.engine.operation with | .seek c => c | _ => c
    enterCaptured c s
  | none => s

/-- The pending mismatch report: the step resolved DONE, the record NONE unless it holds reason HOLD (R32). -/
def mismatchResolve (s : State) : State :=
  match s.engine.mismatch with
  | none => s
  | some step => planDone step (engineWrite .none (s.setEngine { s.engine with mismatch := none }))

/-- A witness mismatch (R32). -/
def witnessMismatch (c : SeekContext) (deviation : Int) (s : State) : State :=
  let s := noteFault .witnessMismatch .note c.step deviation s
  let s := s.setEngine { s.engine with refState := .unreferenced, parked := false, operation := .none,
                                       mismatch := some c.step }
  let s := operationEnded (engineWrite (.stop .seek) s)
  if s.still then mismatchResolve s else s

/-! ### Captures offered to the engine (R23, R24, R31 to R35, R187, R188) -/

/-- The mark of an INDEX seek: the one between TRAVEL_MIN and TRAVEL_MAX of the capture's sector (R33). -/
def State.travelMark (s : State) (sector : Nat) : Option Int :=
  let m := s.cfg.travelMin + ((sector : Int) - s.cfg.travelMin) % (s.cfg.sectors : Int)
  if m ≤ s.cfg.travelMax then some m else none

/-- The home mark of a SWITCH seek (R35). -/
def State.homeMark (s : State) (d : Direction) : Int :=
  match d with
  | .positive => s.cfg.homeMarkPos
  | .negative => s.cfg.homeMarkNeg

/-- A position lies beyond another in a direction. -/
def beyond (d : Direction) (p q : Position) : Bool :=
  match d with
  | .positive => decide (q.toInt < p.toInt)
  | .negative => decide (p.toInt < q.toInt)

/-- A capture a seek does not take: the nearest rule when its entry state is PROVISIONAL or REFERENCED (R23). -/
def seekIgnores (c : SeekContext) (x : Capture) (s : State) : State :=
  if c.entry = .unreferenced then s else setNewestMark (some (s.nearestMark x)) s

/-- A running seek is offered a capture (R31 to R36). -/
def seekCapture (c : SeekContext) (x : Capture) (s : State) : State :=
  if x.dir ≠ c.dir then seekIgnores c x s
  else match c.kind with
    | .witness =>
      let m := s.nearestMark x
      let v := s.expected c.target x.dir
      let deviation := x.raw.toInt - v
      let s := setNewestMark (some m) s
      if m = c.target ∧ deviation.natAbs ≤ s.cfg.witnessTolerance then seekClaim c v s
      else witnessMismatch c deviation s
    | .index =>
      match s.travelMark x.sector with
      | some m => seekClaim c (s.expected m x.dir) (setNewestMark (some m) s)
      | none => seekIgnores c x s
    | .switch =>
      let m := s.homeMark c.dir
      if decide (c.phase = .toMark) && beyond c.dir x.raw c.phaseStart
          && decide ((x.sector : Int) = m % (s.cfg.sectors : Int)) then
        seekClaim c (s.expected m x.dir) (setNewestMark (some m) s)
      else seekIgnores c x s

/-- The mark check of REFERENCED (R24, R25). -/
def markCheck (x : Capture) (s : State) : State :=
  let m := s.nearestMark x
  let deviation := x.raw.toInt - s.expected m x.dir
  let step := s.engine.operation.step
  let s := setNewestMark (some m) s
  if s.cfg.markTolerance < deviation.natAbs then raiseFault .slip .hold step deviation (engineLost s)
  else s.setEngine { s.engine with lastDeviation := some deviation }

/-! ### Surveys (R185 to R189) -/

/-- The quarter sector Q of a survey (R187). -/
def State.quarter (s : State) : Int := s.cps / 4

/-- The target of an approach or return phase (R187, R188). -/
def State.surveyTarget (s : State) (c : SurveyContext) : Position :=
  match c.kind, c.phase with
  | _, 1 => BitVec.ofInt 40 (s.expected c.mark .positive - s.quarter)
  | .backlash, 3 => BitVec.ofInt 40 (s.expected c.mark .positive + s.quarter)
  | _, _ => c.start

/-- A survey's phase is a capture phase (R187, R188). -/
def SurveyContext.isCapture (c : SurveyContext) : Bool :=
  decide (c.phase = 2) || (decide (c.kind = .backlash) && decide (c.phase = 4))

/-- A survey's phase is its return phase (R187, R188). -/
def SurveyContext.isReturn (c : SurveyContext) : Bool :=
  match c.kind with
  | .backlash => decide (c.phase = 5)
  | .ratio => decide (c.phase = 3)

/-- The direction of a capture phase (R187, R188). -/
def SurveyContext.dir (c : SurveyContext) : Direction := if c.phase = 4 then .negative else .positive

/-- The context at the entry to a phase: phase start and stall window at the counter (R186). -/
def State.surveyPhase (s : State) (c : SurveyContext) (phase : Nat) : SurveyContext :=
  { c with phase := phase, phaseStart := s.standby.counter, base := s.standby.counter, stall := s.stallNow }

/-- A capture phase is entered: JOG in its direction, at CREEP for BACKLASH and SLOW for RATIO (R186 to R188). -/
def surveyEnterCapture (c : SurveyContext) (phase : Nat) (s : State) : State :=
  let c := s.surveyPhase c phase
  let speed := if c.kind = .backlash then s.cfg.creep else s.cfg.slow
  engineOrder (.jog c.dir speed .survey) (s.setEngine { s.engine with operation := .survey c })

/-- An approach or return phase is entered: GOTO at SLOW (R186). -/
def surveyEnterGoto (c : SurveyContext) (phase : Nat) (s : State) : State :=
  let c := s.surveyPhase c phase
  engineOrder (.goto (s.surveyTarget c) s.cfg.slow .survey) (s.setEngine { s.engine with operation := .survey c })

/-- The counter lies within CPS/16 of a phase's target (R186), CPS/16 with integer division (log entry 52). -/
def State.nearTarget (s : State) (c : SurveyContext) : Bool :=
  decide (Position.dist s.standby.counter (s.surveyTarget c) ≤ s.cfg.cps / 16)

/-- An approach phase is entered; it ends at once if DRV_STILL is active and the counter is already near (R186). -/
def surveyEnterApproach (c : SurveyContext) (phase : Nat) (s : State) : State :=
  let s := surveyEnterGoto c phase s
  match s.engine.operation with
  | .survey c =>
    if c.endCause.isNone && s.still && s.nearTarget c then surveyEnterCapture c (phase + 1) s else s
  | _ => s

/-- A survey fails (R186): end cause FAILED with the failing phase, STOP with reason SURVEY, and the end at once if
DRV_STILL is active. -/
def surveyFail (c : SurveyContext) (phase : Nat) (s : State) : State :=
  let c := { c with endCause := some .failed, failPhase := phase }
  let s := engineWrite (.stop .survey) (s.setEngine { s.engine with operation := .survey c })
  if s.still then surveyReturn c .failed s else s

/-- A fault whose class its disposition gives, after a survey (R155, R189). -/
def raiseBacklash (b : Int) (s : State) : State :=
  raiseFault .backlashHigh (dispositionClass s.hold.backlashHold) none b s

/-- RATIO_OFF in the class of its disposition (R155, R189). -/
def raiseRatio (d : Int) (s : State) : State := raiseFault .ratioOff (dispositionClass s.hold.ratioHold) none d s

/-- A survey completes at the standstill that ends its return phase (R189). -/
def surveyComplete (c : SurveyContext) (s : State) : State :=
  let v := c.measure.getD 0
  match c.kind with
  | .backlash =>
    if v ≤ (s.cfg.backlashLimit : Int) then
      surveyFinish c .done true (s.setCal { s.cal with pendBacklash := some v })
    else raiseBacklash v (surveyFinish c .done false s)
  | .ratio =>
    let s' := surveyFinish c .done false s
    if s.cfg.ratioTolerance < v.natAbs then raiseRatio v s' else s'

/-- A running survey at a DRV_STILL arrival (R186). -/
def surveyStandstill (c : SurveyContext) (s : State) : State :=
  if c.isReturn then surveyComplete c s
  else if c.isCapture then s
  else if s.nearTarget c then surveyEnterCapture c (c.phase + 1) s
  else surveyFail c c.phase s

/-- The mark a capture phase is looking for (R187, R188). -/
def SurveyContext.wanted (c : SurveyContext) : Int :=
  if c.kind = .ratio ∧ c.first.isSome then c.mark + 1 else c.mark

/-- A running survey takes a capture in a capture phase (R187, R188). -/
def surveyTake (c : SurveyContext) (x : Capture) (s : State) : State :=
  match c.kind with
  | .backlash =>
    if c.phase = 2 then surveyEnterApproach { c with first := some x.raw } 3 s
    else
      let b : Int := ((c.first.getD x.raw).toInt - x.raw.toInt).natAbs
      surveyEnterGoto { c with second := some x.raw, measure := some b } 5 s
  | .ratio =>
    match c.first with
    | none => s.setEngine { s.engine with operation := .survey { c with first := some x.raw, base := x.raw } }
    | some c1 =>
      let d := x.raw.toInt - c1.toInt
      let ppm := ((d - s.cps) * 1000000).tdiv s.cps
      surveyEnterGoto { c with second := some x.raw, measure := some ppm } 3 s

/-- A survey is offered a capture: resolved by the nearest rule, and taken when a capture phase looks for it
(R23, R186). -/
def surveyCapture (c : SurveyContext) (x : Capture) (s : State) : State :=
  let m := s.nearestMark x
  let s := setNewestMark (some m) s
  if c.endCause.isNone && c.isCapture && decide (x.dir = c.dir) && beyond c.dir x.raw c.phaseStart
      && decide (m = c.wanted) then surveyTake c x s
  else s

/-- A capture is offered to the engine at once (R10, R23). -/
def offerCapture (x : Capture) (s : State) : State :=
  match s.engine.refState with
  | .unreferenced => s
  | .provisional | .captured => setNewestMark (some (s.nearestMark x)) s
  | .referenced => markCheck x s
  | .seeking =>
    match s.engine.operation with
    | .seek c => if c.endCause.isNone then seekCapture c x s else seekIgnores c x s
    | _ => s
  | .surveying =>
    match s.engine.operation with
    | .survey c => surveyCapture c x s
    | _ => setNewestMark (some (s.nearestMark x)) s

/-! ### Parking (R42 to R44, R144) -/

/-- P - PARK_POSITION. -/
def State.parkError (s : State) : Int := s.counter - s.cfg.parkPosition.toInt

/-- The joint stands within PARK_TOLERANCE (R42). -/
def State.atPark (s : State) : Bool := decide (s.parkError.natAbs ≤ s.cfg.parkTolerance)

/-- A taken PARK (R42). -/
def startPark (step : Option Nat) (s : State) : State :=
  if s.still && s.atPark then planDone step (s.setEngine { s.engine with parked := true })
  else
    engineOrder (.goto s.cfg.parkPosition s.cfg.slow .park)
      (s.setEngine { s.engine with operation := .park ⟨step, s.now, !s.still, false⟩ })

/-- A park's standstill ending (R43). -/
def parkStandstill (p : ParkOperation) (s : State) : State :=
  let e := s.parkError
  if s.atPark then
    planDone p.step (engineWrite .none (s.setEngine { s.engine with operation := .none, parked := true }))
  else
    planRetry p.step .parkMissed e (engineWrite .none (s.setEngine { s.engine with operation := .none }))

/-- A withdrawn park's end at standstill: no tolerance test, reported ended by a hold (R144). -/
def parkWithdrawn (p : ParkOperation) (s : State) : State :=
  planHeld p.step (engineWrite .none (s.setEngine { s.engine with operation := .none }))

/-- The engine withdraws a park for a yield: STOP with reason PARK, the end at the next DRV_STILL arrival, or at once
(R144). -/
def withdrawPark (p : ParkOperation) (s : State) : State :=
  let p := { p with withdrawn := true }
  let s := engineWrite (.stop .park) (s.setEngine { s.engine with operation := .park p })
  if s.still then parkWithdrawn p s else s

/-! ### Standstill, counted transitions and the home edge -/

/-- A DRV_STILL arrival at the engine (R32, R37, R39, R43, R186, R189). -/
def engineStandstill (s : State) : State :=
  let s := mismatchResolve s
  match s.engine.operation with
  | .none => s
  | .seek c =>
    if s.engine.refState = .captured then capturedComplete c s
    else match c.endCause with
      | some e => seekReturn c e s
      | none => s
  | .park p => if p.withdrawn then parkWithdrawn p s else parkStandstill p s
  | .survey c =>
    match c.endCause with
    | some e => surveyReturn c e s
    | none => surveyStandstill c s

/-- A DRV_STILL fall at the engine: a park notes that the drive has left standstill (R43). -/
def engineLeavesStill (s : State) : State :=
  match s.engine.operation with
  | .park p => s.setEngine { s.engine with operation := .park { p with leftStill := true } }
  | _ => s

/-- The stall window moves when the counter has moved CPS/16 from it (R38), CPS/16 with integer division (log entry
52). -/
def State.stallMoved (s : State) (w : StallWindow) : StallWindow :=
  if s.cfg.cps / 16 ≤ Position.dist s.standby.counter w.position then s.stallNow else w

/-- The travel and progress checks of a running operation at a counted transition (R38, R186). -/
def engineTravel (s : State) : State :=
  match s.engine.operation with
  | .seek c =>
    if s.engine.refState = .seeking ∧ c.endCause = none then
      let travel := s.counter - c.start.toInt
      if c.travelLimit * s.cfg.cps < travel.natAbs then endSeek c .exhausted travel s
      else s.setEngine { s.engine with operation := .seek { c with stall := s.stallMoved c.stall } }
    else s
  | .survey c =>
    if c.endCause = none then
      let gone := match c.dir with
        | .positive => s.counter - c.base.toInt
        | .negative => c.base.toInt - s.counter
      if c.isCapture ∧ 2 * s.cps < gone then surveyFail c c.phase s
      else s.setEngine { s.engine with operation := .survey { c with stall := s.stallMoved c.stall } }
    else s
  | _ => s

/-- A filtered edge of HOME_SW (R34): a fall in a POSITIVE seek, an arrival in a NEGATIVE one, takes a running SWITCH
seek from TO_SWITCH to TO_MARK at CREEP. -/
def homeEdge (arrival : Bool) (s : State) : State :=
  match s.engine.operation with
  | .seek c =>
    if s.engine.refState = .seeking ∧ c.kind = .switch ∧ c.phase = .toSwitch ∧ c.endCause = none
        ∧ (arrival = true ↔ c.dir = .negative) then
      let c := { c with phase := .toMark, phaseStart := s.standby.counter, stall := s.stallNow }
      engineOrder (.jog c.dir s.cfg.creep .seek) (s.setEngine { s.engine with operation := .seek c })
    else s
  | _ => s

end Sys2Proof.Machine
end

