-- ==== Sys2Proof/Machine/RecoveryOps.lean ====
section
/-! DEFINITION. Recovery: building the claim, the claim set, the agreed stop, the classification, and the
initial-state claim. -/

namespace Sys2Proof.Machine

/-! ### The own claim (R113 to R115) -/

/-- The sector a tail's position implies under its own ZERO_TRIM (R114). -/
def State.impliedSector (s : State) (position : Position) (trim : BitVec 32) : Int :=
  ((position.toInt + trim.toInt) / s.cps) % (s.cfg.sectors : Int)

/-- The sector-agree flag as it stands (R114). -/
def State.sectorAgrees (s : State) : Bool :=
  match s.store.tail, s.sensing.accepted with
  | some t, some a => decide ((a : Int) = s.impliedSector t.frame.position t.frame.trim)
  | _, _ => false

/-- A JOURNAL claim as it stands (R113). -/
def State.journalClaim (s : State) : Claim :=
  match s.store.tail with
  | some t =>
    { kind := .journal, tailRun := t.frame.tag.run, tailCycle := t.frame.tag.cycle, tailKind := some t.frame.kind,
      sectorAgree := s.sectorAgrees, continuity := s.standby.continuity }
  | none =>
    { kind := .journal, tailRun := 0, tailCycle := 0, tailKind := none, sectorAgree := false,
      continuity := s.standby.continuity }

/-- A LIVE claim (R115). -/
def liveClaim : Claim :=
  { kind := .live, tailRun := 0, tailCycle := 0, tailKind := none, sectorAgree := false, continuity := false }

/-- The tail particulars kept with a JOURNAL claim (R113). -/
def State.tailParticulars (s : State) : Option TailParticulars :=
  s.store.tail.map fun t =>
    { refState := t.frame.refState, position := t.frame.position, trim := t.frame.trim, load := t.frame.load }

/-! ### The agreed stop (R119, R120) -/

/-- The claims held for the stations of the arm, in station order. -/
def State.heldClaims (s : State) : List Claim :=
  s.arm.filterMap fun j => match s.coord.claims.get j with
    | .held c => some c
    | _ => none

/-- The claim set is complete (R118). -/
def State.claimsComplete (s : State) : Bool := s.arm.all fun j => decide (s.coord.claims.get j ≠ .empty)

/-- The stop run (R119). -/
def stopRunOf (l : List Claim) : Option (BitVec 16) :=
  newest16 (l.filterMap fun c => if c.kind = .journal ∧ c.tailKind ≠ none then some c.tailRun else none)

/-- The latest final in a stop run (R119). -/
def latestFinalOf (l : List Claim) (run : Option (BitVec 16)) : Option (BitVec 32) :=
  newest32 (l.filterMap fun c =>
    if c.kind = .journal ∧ (c.tailKind = some .final ∨ c.tailKind = some .orderly) ∧ some c.tailRun = run then
      some c.tailCycle
    else none)

/-- The arm load at stop (R120). -/
def State.stopLoad (s : State) (run : Option (BitVec 16)) : Bool :=
  if s.cfg.loadStation = some s.own then
    match s.coord.ownClaim, s.coord.tailParts with
    | some c, some t => if c.kind = .journal ∧ some c.tailRun = run then t.load else true
    | _, _ => true
  else true

/-- The agreed stop of the claims held (R119, R120). -/
def State.agreedStop (s : State) : AgreedStop :=
  let run := stopRunOf s.heldClaims
  { run := run, latestFinal := latestFinalOf s.heldClaims run, loadHeld := s.stopLoad run }

/-! ### Classification (R121 to R124) -/

/-- The class and reason of a claim (R121, R122). -/
def classify (spread : Nat) (c : Claim) (tail : Option TailParticulars) (stop : AgreedStop) :
    Confidence × ClassReason :=
  let referenced := match tail with | some t => t.refState.isReferenced | none => false
  match c.kind with
  | .live => (.live, .restarted)
  | .journal =>
    match c.tailKind with
    | none => (.doubtful, .noTail)
    | some k =>
      if c.continuity && referenced then (.kept, .continuity)
      else if !referenced then (.doubtful, .tailNotReferenced)
      else if k = .routine then (.doubtful, .routineTail)
      else if stop.run ≠ some c.tailRun then (.doubtful, .oldRun)
      else if spread < ((stop.latestFinal.getD c.tailCycle) - c.tailCycle).toNat then (.doubtful, .spread)
      else if !c.sectorAgree then (.doubtful, .sector)
      else (.journalled, if k = .final then .finalTail else .orderlyTail)

/-- DRIFT in the class of its disposition (R124, R155). -/
def raiseDrift (s : State) : State :=
  raiseFault .drift (dispositionClass s.hold.driftHold) none (s.standby.excursion : Int) s

/-- The station computes the agreed stop and classifies its own claim (R118); at the first KEPT of a POWER start the
excursion is compared with DRIFT_THRESHOLD (R124). -/
def reclassify (s : State) : State :=
  match s.coord.ownClaim with
  | none => s
  | some c =>
    let stop := s.agreedStop
    let k := classify s.cfg.pfailSpread c s.coord.tailParts stop
    let first := decide (k.1 = .kept) && decide (s.coord.confidence ≠ .kept)
    let s := s.setCoord { s.coord with stop := some stop, confidence := k.1, reason := some k.2 }
    if first && decide (s.coord.start.kind = .power) && decide (s.cfg.driftThreshold < s.standby.excursion) then
      raiseDrift s
    else s

/-- An entry of the claim set is given a content; a change in a complete set makes the station classify again
(R117, R118). -/
def putClaim (j : Station) (e : ClaimEntry) (s : State) : State :=
  if s.coord.claims.get j = e then s
  else
    let s := s.setCoord { s.coord with claims := vput s.coord.claims j e }
    if s.claimsComplete then reclassify s else s

/-- The own JOURNAL claim's flags follow the live values while RECOVERING (R113). -/
def ownClaimFollows (s : State) : State :=
  match s.coord.phase, s.coord.ownClaim with
  | .recovering, some c =>
    if c.kind = .journal then
      let c := { c with continuity := s.standby.continuity, sectorAgree := s.sectorAgrees }
      let s := s.setCoord { s.coord with ownClaim := some c }
      putClaim s.own (.held c) s
    else s
  | _, _ => s

/-- A loss of continuity handed over by a decoder (R13): the error kind names the first cause since the counter was
last set. While RECOVERING the own claim follows (R113). -/
def loseContinuity (cause : StandbyError) (s : State) : State :=
  if s.standby.continuity then
    let s := s.setStandby { s.standby with continuity := false, error := cause }
    if s.running then ownClaimFollows s else s
  else s

/-- What a peer's record puts into the claim set: a RECOVER record its claim, a RUN record in HOMING or READY
MOVED_ON (R117). -/
def StatusRecord.claimEntry (r : StatusRecord) : ClaimEntry :=
  match r.block with
  | .recover c => .held c
  | .run _ _ _ _ _ => if r.phase = .homing ∨ r.phase = .ready then .movedOn else .empty
  | .gather _ _ _ _ => .empty

/-- A record accepted while RECOVERING acts on the claim set (R117): MOVED_ON does not replace a held claim. -/
def claimFromPeer (j : Station) (r : StatusRecord) (s : State) : State :=
  if s.coord.phase = .recovering then
    match r.claimEntry with
    | .empty => s
    | .held c => putClaim j (.held c) s
    | .movedOn => if s.coord.claims.get j = .empty then putClaim j .movedOn s else s
  else s

/-- The claim set at building: the own claim, and what the peer table's records give (R112, R117). -/
def State.claimsAtBuilding (s : State) (own : Claim) : Vector ClaimEntry 8 :=
  Vector.ofFn fun j =>
    if j = s.own then .held own
    else if j.val < s.cfg.armSize then
      match (s.peers.get j).record with
      | some r => r.claimEntry
      | none => .empty
    else .empty

/-- The start notes at the first JOURNAL claim after a main-domain start (R116). -/
def startNotes (s : State) : State :=
  if s.coord.startNotes then s
  else
    let s := if s.coord.start.kind = .power ∧ s.coord.start.aliveAtStart = false then
        noteFault .standbyLost .note none 0 s else s
    let s := if s.store.tail.isNone then noteFault .journalEmpty .note none 0 s else s
    s.setCoord { s.coord with startNotes := true }

/-- The station builds its recovery claim (R80, R112, R116); a set complete at once is classified (R118). -/
def buildClaim (s : State) : State :=
  let live := s.coord.journalActive
  let c := if live then liveClaim else s.journalClaim
  let s := s.setCoord { s.coord with
    confidence := .none, reason := none, stop := none, ownClaim := some c,
    tailParts := (if live then none else s.tailParticulars), claims := s.claimsAtBuilding c }
  let s := if live then s else startNotes s
  if s.claimsComplete then reclassify s else s

/-! ### Leaving RECOVERING (R21, R125) -/

/-- The value a JOURNALLED station loads: the tail position in the terms of the calibration now in force (R125). -/
def State.loadValue (s : State) (t : TailParticulars) : Int :=
  (t.position.shift (-(s.cal.trim - t.trim.toInt))).toInt

/-- The engine takes the initial-state claim with the class the station holds (R21; log entry 17). -/
def initialStateClaim (s : State) : State :=
  let s := s.setEngine { s.engine with parked := false }
  match s.coord.confidence with
  | .kept => s.setEngine { s.engine with refState := .referenced }
  | .journalled =>
    match s.coord.tailParts with
    | some t =>
      match setClaimNow (s.loadValue t) s with
      | some s => s.setEngine { s.engine with refState := .provisional }
      | none => s
    | none => s
  | .doubtful => s.setEngine { s.engine with refState := .unreferenced }
  | .live | .none => s

end Sys2Proof.Machine
end

