-- ==== Sys2Proof/Machine/PlanOps.lean ====
section
/-! DEFINITION. The plan evaluation: reading the arm, the yield test, the grant test, the eligibility scan and the
end finding. -/

namespace Sys2Proof.Machine

/-! ### Reading the arm (R133, R134, R135) -/

/-- A status is DONE or SKIPPED (R128). -/
def StepStatus.resolved (st : StepStatus) : Bool := decide (st = .done) || decide (st = .skipped)

/-- A record shows remote step `i` as resolved (R133). -/
def StatusRecord.showsResolved (r : StatusRecord) (i : Nat) : Bool :=
  match r.block with
  | .run resolved _ _ _ _ =>
    (decide (r.phase = .homing) || decide (r.phase = .ready)) && decide (r.level = .none) && resolved.getLsbD i
  | _ => false

/-- A step is resolved: an own step by its status, a remote step by its owner's record (R133). -/
def State.stepResolved (s : State) (r : StepRecord) : Bool :=
  if r.owner = s.own then
    match s.plan.status r.index with
    | some st => st.resolved
    | none => false
  else
    match s.heardRecord r.owner with
    | some x => x.showsResolved r.index
    | none => false

/-- The step of index `i` is resolved. -/
def State.indexResolved (s : State) (i : Nat) : Bool :=
  match s.plan.steps[i]? with
  | some r => s.stepResolved r
  | none => false

/-- A standing and a parked flag meet a minimum (R134). -/
def GuardMin.metBy (m : GuardMin) (st : Standing) (parked : Bool) : Bool :=
  match m with
  | .provisional => decide (1 ≤ st.rank)
  | .referenced => decide (2 ≤ st.rank)
  | .parked => decide (2 ≤ st.rank) && parked

/-- A guard is met (R134). -/
def State.guardMet (s : State) (g : Station × GuardMin) : Bool :=
  if g.1 = s.own then g.2.metBy s.engine.standing s.engine.parked
  else
    match s.heardRecord g.1 with
    | some r => g.2.metBy r.refState.peerStanding r.parked
    | none => false

/-- The conditions of R137: the requires list resolved, the guards met, the load rule met. -/
def State.eligible (s : State) (r : StepRecord) : Bool :=
  r.needs.all s.indexResolved && r.guards.all s.guardMet && (!r.noLoad || !s.loadFlag)

/-! ### The conditions of an evaluation (R136) -/

/-- The conditions of a plan evaluation (R136). -/
def State.planOpen (s : State) : Bool :=
  decide (s.coord.phase = .homing) && decide (s.hold.level = .none) && s.link.state.sends

/-- A stage of the evaluation is taken while its conditions still hold. -/
def planStage (f : State → State) (s : State) : State := if s.planOpen then f s else s

/-! ### The eligibility scan (R137, R138) -/

/-- What an eligible step is dealt with as: its new status, or none for a WAIT_ALL that waits (R138). -/
def State.dealWith (s : State) (r : StepRecord) : Option StepStatus :=
  if !r.appliesTo s.engine.standing then some .skipped
  else if r.action = .waitAll then
    if (s.plan.steps.take r.index).all s.stepResolved then some .done else none
  else some .claiming

/-- The step becomes CLAIMING: the own claim its index, the claim sent cycle this slot's cycle (R138). -/
def claimStep (i : Nat) (s : State) : State :=
  s.setPlan { s.plan.modifyStep i (StepState.become .claiming) with claim := some i, claimSent := s.link.cycle }

/-- The scan over steps in index order (R137). -/
def scanFrom (s : State) : List StepRecord → State
  | [] => s
  | r :: rest =>
    if decide (r.owner = s.own) && decide (s.plan.status r.index = some .pending) && s.eligible r then
      match s.dealWith r with
      | some .claiming => claimStep r.index s
      | some st => scanFrom (s.setPlan (s.plan.modifyStep r.index (StepState.become st))) rest
      | none => scanFrom s rest
    else scanFrom s rest

/-- The eligibility scan, if no own step is CLAIMING or RUNNING (R136, R137). -/
def planScan (s : State) : State := if s.plan.claim.isSome then s else scanFrom s s.plan.steps

/-! ### Grants (R140 to R142) -/

/-- The ACTIVE peer entries whose record shows the running flag (R141). -/
def State.runningPeers (s : State) : List StatusRecord := (s.peerRecords.map (·.2)).filter (·.running)

/-- The number of ACTIVE peer entries claiming a step lower than `i` without running (R141). -/
def State.lowerClaims (s : State) (i : Nat) : Nat :=
  (s.peerRecords.filter fun x => !x.2.running &&
    (match x.2.claim with | some c => decide (c.toNat < i) | none => false)).length

/-- The claim of step `i` is granted (R141). -/
def State.granted (s : State) (i : Nat) : Bool :=
  decide (s.runningPeers.length + s.lowerClaims i < s.cfg.concurrency)

/-- The cycle of this slot is later than the claim sent cycle (R140). -/
def State.claimHeard (s : State) : Bool :=
  match s.link.cycle, s.plan.claimSent with
  | some c, some q => serialNewer c q
  | _, _ => false

/-- A claim is withdrawn and its step takes a status (R140, R142). -/
def withdrawClaim (i : Nat) (st : StepStatus) (s : State) : State :=
  s.setPlan { s.plan.modifyStep i (StepState.become st) with claim := none, claimSent := none, running := false }

/-- The engine's answer to a step's request (R29, R142). -/
def State.stepAnswer (s : State) (r : StepRecord) : EngineAnswer :=
  match r.action with
  | .witness => s.seekAnswer .witness
  | .seekIndex => s.seekAnswer .index
  | .seekSwitch => s.seekAnswer .switch
  | .park | .waitAll => s.referencedAnswer

/-- The engine starts a step's operation (R30, R42, R142). -/
def startOperation (r : StepRecord) (s : State) : State :=
  match r.action with
  | .witness => startSeek .witness r.dir .creep r.travelLimit (some r.index) s
  | .seekIndex => startSeek .index r.dir r.speed r.travelLimit (some r.index) s
  | .seekSwitch => startSeek .switch r.dir r.speed r.travelLimit (some r.index) s
  | .park | .waitAll => startPark (some r.index) s

/-- A grant (R142): RUNNING, movement asked for, the operation started; a refusal leaves the step PENDING, and
INVALID raises PLAN_INVALID (ABORT). -/
def grantStep (r : StepRecord) (s : State) : State :=
  let s := gateUpdate (s.setPlan { s.plan.modifyStep r.index (StepState.become .running) with running := true })
  match s.stepAnswer r with
  | .taken => startOperation r s
  | .busy | .refusedHold => gateUpdate (withdrawClaim r.index .pending s)
  | .invalid =>
    raiseFault .planInvalid .abort (some r.index) (r.index : Int) (gateUpdate (withdrawClaim r.index .pending s))

/-- Whether the grant of a step was refused (log entry 25). -/
def State.grantRefused (s : State) (r : StepRecord) : Bool := decide (s.stepAnswer r ≠ .taken)

/-- The grant test and the eligibility scan after it (R136, R140, R141). -/
def grantTest (r : StepRecord) (s : State) : State :=
  if !r.appliesTo s.engine.standing then planScan (withdrawClaim r.index .skipped s)
  else if !s.eligible r then planScan (withdrawClaim r.index .pending s)
  else if s.claimHeard && s.granted r.index then
    if s.grantRefused r then grantStep r s else planStage planScan (grantStep r s)
  else s

/-- The step of the own claim. -/
def State.claimedStep (s : State) : Option StepRecord :=
  match s.plan.claim with
  | some i => s.plan.steps[i]?
  | none => none

/-- The grant test and the scan: the test if an own step is CLAIMING, the scan if none is CLAIMING or RUNNING
(R136). -/
def grantAndScan (s : State) : State :=
  match s.claimedStep with
  | none => planScan s
  | some r => if s.plan.status r.index = some .claiming then grantTest r s else s

/-! ### Yielding (R144) -/

/-- The station must yield step `i` (R144): N exceeds CONCURRENCY and `i` is higher than every counted peer's claim. -/
def State.mustYield (s : State) (i : Nat) : Bool :=
  decide (s.cfg.concurrency < s.runningPeers.length + 1)
    && s.runningPeers.all fun r => match r.claim with | some c => decide (c.toNat < i) | none => true

/-- YIELDED is raised with detail N, and yield return becomes true (R144). -/
def noteYield (i : Nat) (s : State) : State :=
  let s := noteFault .yielded .note (some i) ((s.runningPeers.length + 1 : Nat) : Int) s
  s.setPlan { s.plan with yieldReturn := true }

/-- The yield test (R144). -/
def yieldTest (s : State) : State :=
  match s.claimedStep with
  | none => s
  | some r =>
    if s.plan.running && !s.plan.yieldReturn && s.mustYield r.index then
      match s.engine.operation with
      | .seek c =>
        if s.engine.refState = .seeking ∧ c.endCause = none ∧ c.step = some r.index then
          endSeek c .hold 0 (noteYield r.index s)
        else s
      | .park p =>
        if p.step = some r.index ∧ p.withdrawn = false then withdrawPark p (noteYield r.index s) else s
      | _ => s
    else s

/-! ### The end finding (R152) -/

/-- The reference state a station reads for a station of the arm (R152): its own, or its ACTIVE entry's. -/
def State.armState (s : State) (j : Station) : Option RefState :=
  if j = s.own then some s.engine.refState else (s.heardRecord j).map (·.refState)

/-- The end finding (R152): READY, PLAN_INCOMPLETE with the lowest station not REFERENCED, or no decision while a step
is unresolved or an entry of the arm is not ACTIVE. -/
def endFinding (s : State) : State :=
  if s.plan.steps.all s.stepResolved && s.arm.all (fun j => (s.armState j).isSome) then
    match s.arm.find? fun j => decide (s.armState j ≠ some .referenced) with
    | none => stageTest (setPhase .ready s)
    | some j => raiseAbort .planIncomplete (j.val : Int) s
  else s

/-! ### The evaluation -/

/-- The plan evaluation at the own slot (R136). -/
def planEvaluation (s : State) : State :=
  planStage endFinding (planStage grantAndScan (planStage yieldTest s))

end Sys2Proof.Machine
end

