-- ==== Sys2Proof/Machine/LinkOps.lean ====
section
/-! DEFINITION. The arm link: packing the own record, hand-offs from the peer table, accepting a peer's record, peer
loss, the link states, and the evaluations of gathering and recovery. -/

namespace Sys2Proof.Machine

/-! ### Packing the own record (R57, R63 to R65, R192) -/

/-- The own steps that are resolved, as a set of bits (R65, R128). -/
def State.resolvedSet (s : State) : BitVec 32 :=
  s.plan.steps.foldl
    (fun a r => if r.owner = s.own ∧ s.stepResolved r = true then a ||| ((1 : BitVec 32) <<< r.index) else a) 0

/-- The cause code of the retained lockout record, 0 while none is held (R65, R108). It is read from the stored beat as it
stands, sealed or not, the model's choice where a failed LOCK_CLEAR has left it unsealed (log entry 63). -/
def State.retainedCause (s : State) : Byte :=
  if s.store.retainedLockout then (LockRecord.decode s.lockBeat).cause else 0

/-- The survey-active flag (R63). -/
def Engine.surveying (e : Engine) : Bool := decide (e.refState = .surveying)

/-- The variant block by the arm phase (R63, R65). -/
def State.packBlock (s : State) : VariantBlock :=
  let run := VariantBlock.run s.resolvedSet s.link.lastFault s.engine.surveying s.engine.lastDeviation.isSome
    (match s.engine.lastDeviation with | some d => sat16 d | none => 0)
  match s.coord.phase with
  | .isolated | .gathering =>
    .gather (s.plan.digest.getD 0) (s.port.configDigest.getD 0) (boolByte s.store.retainedLockout) s.retainedCause
  | .recovering => .recover (s.coord.ownClaim.getD liveClaim)
  | .homing | .ready | .halted => run

/-- The staged generation a record shows (R192). -/
def State.shownStaged (s : State) : BitVec 16 :=
  match s.cal.staged with
  | none => 0
  | some r =>
    match s.coord.phase with
    | .homing | .ready | .halted =>
      if s.cal.sealedInSighting || s.peerRecords.any (fun x => decide (x.2.committed = r.generation)) then r.generation
      else 0
    | _ => r.generation

/-- The own status record as it stands (R57, R63, R64). -/
def State.packRecord (s : State) : StatusRecord where
  station := s.own
  cycle := s.link.cycle.getD 0
  run := match s.coord.phase with
    | .gathering => s.coord.lastRunClaim.getD 0
    | _ => s.coord.run.getD 0
  phase := s.coord.phase
  level := s.hold.level
  holdSeq := s.hold.seq
  cause := if s.hold.seq = 0 then 0 else s.hold.cause
  origin := s.hold.origin
  resume := s.hold.resume
  lockClear := s.hold.lockClear
  restart := s.coord.restart
  closing := s.store.closing.isSome
  resumeFor := if s.hold.resume then s.hold.resumeFor else 0
  refState := s.engine.refState
  parked := s.engine.parked
  moving := s.sensing.moving
  brake := s.braked
  still := s.still
  load := s.sensing.loadIn.level
  link := s.link.state
  confidence := s.coord.confidence
  position := s.standby.counter
  committed := s.cal.generation
  staged := s.shownStaged
  proposal := match s.cal.proposal with | some p => p.generation | none => 0
  claim := s.plan.claim.map (BitVec.ofNat 5)
  running := s.plan.running
  block := s.packBlock

/-- The own peer entry is refreshed from the packed record (R67). -/
def refreshOwn (s : State) : State := s.setPeers (vput s.peers s.own ⟨.active, 0, some s.packRecord⟩)

/-- A packing reduces the packings left of the restart flag and the lockout-clear flag, each clearing at 0
(R86, R178). -/
def notePacking (s : State) : State :=
  let s :=
    if s.coord.restart then
      s.setCoord { s.coord with restartLeft := s.coord.restartLeft - 1, restart := decide (1 < s.coord.restartLeft) }
    else s
  if s.hold.lockClear then
    s.setHold { s.hold with lockClearLeft := s.hold.lockClearLeft - 1, lockClear := decide (1 < s.hold.lockClearLeft) }
  else s

/-- A claim a yield has kept, its step no longer RUNNING, waits for its claim sent cycle (R145; log entry 26). -/
def State.claimKept (s : State) : Bool := s.plan.claim.isSome && s.plan.claimSent.isNone && !s.plan.running

/-- An own-slot packing carries a claim kept before this slot began: this slot is the next own slot after the yield, and
its cycle becomes the claim sent cycle (R128, R145; log entry 26). A yield that ends its step in this very slot leaves it
to the slot after. -/
def noteClaimSent (kept : Bool) (s : State) : State :=
  if kept && s.claimKept then s.setPlan { s.plan with claimSent := s.link.cycle } else s

/-! ### Hand-offs (R70) -/

/-- The resume flag clears at a hand-off at which every ACTIVE peer entry shows level NONE or LOCKOUT with its sequence,
or a newer sequence (R174). -/
def resumeFlagClear (s : State) : State :=
  if s.hold.resume
      && s.peerRecords.all fun x =>
        (decide (x.2.holdSeq = s.hold.resumeFor) && (decide (x.2.level = .none) || decide (x.2.level = .lockout)))
          || seqNewer x.2.holdSeq s.hold.resumeFor then
    s.setHold { s.hold with resume := false, resumeFor := 0 }
  else s

/-- A hand-off from the peer table to the other blocks (R70): the entry test, the resume flag, the sighting and its
staging, the flip condition, and the proposal's success (R170, R174, R191, R194, R198). -/
def handOff (s : State) : State :=
  proposalSuccess (flipTest (stageTest (sightingUpdate (resumeFlagClear (entryTest s)))))

/-! ### A peer's record at the Hold Unit (R159, R162 to R164, R175, R178) -/

/-- The higher of two levels. -/
def HoldLevel.higher (a b : HoldLevel) : HoldLevel := if a.rank < b.rank then b else a

/-- The class an adopted hold is recorded with (R162). -/
def StatusRecord.adoptedClass (r : StatusRecord) : FaultClass :=
  if r.level = .lockout then .hold else Machine.adoptedClass r.cause

/-- The entry that follows from the level an adoption gives (R161, R162). -/
def adoptionEntry (old : HoldLevel) (s : State) : State :=
  match s.hold.level with
  | .none => s
  | .stop | .drop => beginEntry s
  | .lockout => if old = .lockout then s else enterLockout true s

/-- A hold of newer sequence and a level not NONE is adopted from station `j` (R162). -/
def adoptHold (j : Station) (r : StatusRecord) (s : State) : State :=
  let old := s.hold.level
  let s := setCause r.cause r.origin (setLevel (old.higher r.level) (changeSeq r.holdSeq s))
  if old = .lockout ∧ r.level = .lockout then s
  else
    let s := recordFault r.cause r.adoptedClass r.origin none (BitVec.ofNat 32 j.val) s
    let s := adoptionEntry old s
    if r.adoptedClass = .abort then haltPhase s else s

/-- A record of equal sequence raises the level from STOP or DROP to its own higher one (R163). -/
def raiseToPeer (r : StatusRecord) (s : State) : State :=
  if s.hold.level.entering && decide (s.hold.level.rank < r.level.rank) then enterLevel (setLevel r.level s) else s

/-- A record of equal sequence and lower origin gives its cause and origin (R163). -/
def settleOrigin (r : StatusRecord) (s : State) : State :=
  if decide (r.level ≠ .none) && decide (r.origin.val < s.hold.origin.val) && decide (s.hold.level ≠ .none) then
    setCause r.cause r.origin s
  else s

/-- The sequence and level part of an accepted record (R159, R162, R163). -/
def takeSequence (j : Station) (r : StatusRecord) (s : State) : State :=
  let newer := seqNewer r.holdSeq s.hold.seq
  let s := s.setHold (s.hold.see r.holdSeq)
  if newer then (if r.level = .none then s else adoptHold j r s)
  else if r.holdSeq = s.hold.seq then settleOrigin r (raiseToPeer r s)
  else s

/-- The resume flag part of an accepted record (R175). -/
def takeResume (r : StatusRecord) (s : State) : State :=
  if r.resume then
    let s := s.setHold (s.hold.see r.resumeFor)
    if decide (r.resumeFor = s.hold.seq) && s.hold.level.entering && s.hold.complete then resumeHold s else s
  else s

/-- The lockout-clear flag part of an accepted record (R178). -/
def takeLockClear (r : StatusRecord) (s : State) : State :=
  if r.lockClear && decide (s.hold.level = .lockout) && decide (s.coord.phase ≠ .isolated) then clearLockout s else s

/-- The retained lockout cause a GATHER record shows (R65). -/
def StatusRecord.retained (r : StatusRecord) : Option Byte :=
  match r.block with
  | .gather _ _ f c => if f = 1 then some c else none
  | _ => none

/-- A retained lockout shown by a peer is adopted in GATHERING or RECOVERING (R81, R164). -/
def takeRetained (j : Station) (r : StatusRecord) (s : State) : State :=
  match r.retained with
  | none => s
  | some c =>
    if (decide (s.coord.phase = .gathering) || decide (s.coord.phase = .recovering))
        && decide (s.hold.level ≠ .lockout) then
      enterLockout true (setCause c j (setLevel .lockout (changeSeq s.hold.freshSeq s)))
    else s

/-! ### A peer's record at the Coordinator (R87, R88) -/

/-- A seen restart flag restarts a HALTED station whose hold permits it (R87). -/
def takeRestart (r : StatusRecord) (s : State) : State :=
  if r.restart && decide (s.coord.phase = .halted) && s.mayRestart then restartStation s else s

/-- A peer back in ISOLATED or GATHERING raises PEER_RESTARTED once in a phase (R88; log entry 49). -/
def takeRestarted (j : Station) (r : StatusRecord) (s : State) : State :=
  if s.coord.phase.working && (decide (r.phase = .isolated) || decide (r.phase = .gathering)) && !r.restart
      && !s.coord.restartedReported.contains j then
    let s := raiseAbort .peerRestarted (j.val : Int) s
    s.setCoord { s.coord with restartedReported := s.coord.restartedReported ++ [j] }
  else s

/-! ### Acceptance (R62, R70) -/

/-- A record is accepted for station `j`: the entry takes it, and the blocks act on the hand-off, the Hold Unit's parts
first (R62, R67, R70, R163, R87). R163 orders the sequence, resume and lockout-clear parts, and R87 puts the restart flag
after them; the rest of the order is the model's choice (log entry 27): the retained-lockout part (R164) after the
lockout-clear flag (R178), then the restart, PEER_RESTARTED, the claim set, the sighting and its staging, the
roll-forward, and the hand-off. -/
def acceptRecord (j : Station) (r : StatusRecord) (s : State) : State :=
  let s := s.setPeers (vput s.peers j ⟨.active, 0, some r⟩)
  let s := s.setLink { s.link with acceptedInCycle := true, heard := j :: s.link.heard }
  let s := entryTest (takeSequence j r s)
  let s := takeLockClear r (takeResume r s)
  let s := takeRestarted j r (takeRestart r (takeRetained j r s))
  let s := stageTest (sightingUpdate (claimFromPeer j r s))
  handOff (rollForwardOn r s)

/-! ### Ageing and loss (R68, R69) -/

/-- PEER_LOST is raised where the phase and the closing flag call for it (R69). -/
def raisePeerLost (j : Station) (e : PeerEntry) (s : State) : State :=
  let closing := match e.record with | some r => r.closing | none => false
  if s.coord.phase.working && !closing then raiseHold .peerLost (j.val : Int) s else s

/-- The loss of a peer meets the own proposal and PEER_LOST, in an order the manual leaves open (R69, R198; log
entry 10). The entry test of the hand-off (R70, R170) comes after both: the model's choice (log entry 59). -/
def peerLost (j : Station) (e : PeerEntry) (s : State) : State :=
  let s :=
    if s.cal.proposal.isSome then
      if (Config.freeValue s.freeCount).getLsbD 0 then raisePeerLost j e (withdrawProposal 3 (bumpFree s))
      else withdrawProposal 3 (raisePeerLost j e (bumpFree s))
    else raisePeerLost j e s
  handOff s

/-- An ACTIVE peer entry ages by one; at PEER_LOSS_LIMIT it becomes LOST, its record kept (R68, R69). -/
def agePeer (j : Station) (s : State) : State :=
  let e := s.peers.get j
  if e.loss = .active then
    let n := min 255 (e.silence + 1)
    if s.cfg.peerLossLimit ≤ n then peerLost j e (s.setPeers (vput s.peers j { e with loss := .lost, silence := n }))
    else s.setPeers (vput s.peers j { e with silence := n })
  else s

/-- Every ACTIVE peer entry ages by one (R68). That they age and are lost in station order, so that a later loss meets the
hold an earlier one raised, is the model's choice (log entry 62). -/
def ageAll (s : State) : State := stations.foldl (fun s j => if j = s.own then s else agePeer j s) s

/-! ### The link's time (R47, R48, R60) -/

/-- CYCLE_PERIOD. -/
def State.period (s : State) : Time := ms s.cfg.cyclePeriod

/-- The length of a slot (R47). -/
def State.slotLength (s : State) : Rat := (s.period : Rat) / 8

/-- The nominal instant's delay after the slot start, 4 us (R47). -/
def nominalDelay : Rat := 4000

/-- The start of slot `k` of the current cycle (R47). -/
def State.slotStart (s : State) (k : Nat) : Rat := s.link.cycleStart + k * s.slotLength

/-- An instant of the link's time has been reached. -/
def State.reached (s : State) (t : Rat) : Bool := decide (t ≤ (s.now : Rat))

/-- The station is transmitting its own frame: the frame of its slot has begun, and has neither ended nor been
abandoned (R53, R58). -/
def State.transmitting (s : State) : Bool :=
  match s.link.tx with
  | some t => s.reached t.start
  | none => false

/-- The slots from the cycle start at which a frame's start lies nearest a nominal instant (R60; log entry 31). -/
def State.slotsFrom (s : State) (start : Rat) : Int :=
  ((start - s.link.cycleStart - nominalDelay) / s.slotLength - 1 / 2).ceil

/-- The slot number a frame is attributed to (R60). -/
def State.attributed (s : State) (start : Rat) : Station := stationOf (s.slotsFrom start % 8).toNat

/-- A frame's offset from the nominal instant of its slot (R52). -/
def State.offset (s : State) (start : Rat) : Rat :=
  start - (s.link.cycleStart + nominalDelay + (s.slotsFrom start : Rat) * s.slotLength)

/-! ### Link states (R48 to R56) -/

/-- The station goes to LISTENING (R48, R74, R82): the cycle timer stops, and the agreement count is 0. -/
def enterListening (s : State) : State :=
  let s := s.setLink { s.link with state := .listening, timed := false, listenSince := s.now, heard := [],
                                   offsets := [], acceptedInCycle := false, foreignInCycle := false,
                                   correction := 0, tx := none }
  s.setCoord { s.coord with agreement := 0 }

/-- LINK_ALONE in HOMING, READY or HALTED (R51, R54). -/
def raiseLinkAlone (detail : Int) (s : State) : State :=
  if s.coord.phase.working then raiseHold .linkAlone detail s else s

/-- A frame of station `j` with a start is adopted (R50, R55): its timing and cycle number, SYNCED, and its acceptance
with offset 0. The listening period it ends counts for ageing (R68). A frame of the own slot that is packed and has not
begun is kept with its nominal instant: the model's choice (log entry 57). -/
def adoptFrame (j : Station) (r : StatusRecord) (start : Rat) (s : State) : State :=
  let s := if s.link.state = .listening then ageAll s else s
  let s := s.setLink { s.link with
    state := .synced, timed := true, cycle := some r.cycle, silentCycles := 0, foreignCycles := 0,
    cycleStart := start - nominalDelay - (j.val : Rat) * s.slotLength, correction := 0, heard := [], offsets := [0],
    acceptedInCycle := false, foreignInCycle := false }
  acceptRecord j r s

/-- CONFIG_MISMATCH for a slot of ARM_SIZE or more, once in each phase (R61; log entry 49). -/
def reportStranger (j : Station) (s : State) : State :=
  if s.link.outOfArm.contains j then s
  else
    let s := raiseAbort .configMismatch (j.val : Int) s
    s.setLink { s.link with outOfArm := s.link.outOfArm ++ [j] }

/-- An attributed frame (R53, R61, R62). Whether it is heard while the station transmits is judged at its last bit, the
model's choice for a frame that overlaps the own one in part (log entry 56). -/
def attributeFrame (j : Station) (r : StatusRecord) (start : Rat) (s : State) : State :=
  if s.attributed start ≠ j then s
  else if s.cfg.armSize ≤ j.val then reportStranger j s
  else if s.link.cycle ≠ some r.cycle then s.setLink { s.link with foreignInCycle := true }
  else
    let off := s.offset start
    if off < -25000 ∨ 25000 < off then (if s.transmitting then s else enterListening s)
    else
      let s := if s.link.state = .synced then s.setLink { s.link with offsets := s.link.offsets ++ [off] } else s
      acceptRecord j r s

/-- A frame that survives the first checks of R60, by the link state (R50, R55, R60). -/
def examineFrame (r : StatusRecord) (start : Rat) (s : State) : State :=
  let j := r.station
  match s.link.state with
  | .off => s
  | .listening => if j.val < s.cfg.armSize then adoptFrame j r start s else reportStranger j s
  | .synced => attributeFrame j r start s
  | .alone =>
    if j.val < s.cfg.armSize ∧ (r.link = .synced ∨ (r.link = .alone ∧ j.val < s.own.val)) then
      adoptFrame j r start s
    else attributeFrame j r start s

/-! ### The end of slot 7 (R52, R54, R56) -/

/-- The sum of some offsets. -/
def sumOf (l : List Rat) : Rat := l.foldl (· + ·) 0

/-- The mean of the cycle's offsets, limited to 2 us either way; 0 with none (R52). -/
def meanCorrection (l : List Rat) : Rat :=
  if l.isEmpty then 0 else max (-2000) (min 2000 (sumOf l / (l.length : Rat)))

/-- The silent-cycle count after a cycle (R54). -/
def Link.nextSilent (l : Link) : Nat := if l.acceptedInCycle then 0 else l.silentCycles + 1

/-- The foreign-cycle count after a cycle (R56). -/
def Link.nextForeign (l : Link) : Nat :=
  if l.acceptedInCycle then 0 else if l.foreignInCycle then l.foreignCycles + 1 else l.foreignCycles

/-- The evaluation at the end of slot 7 (R52, R54, R56): LISTENING at the foreign-cycle limit, else ALONE at 4 silent
cycles. -/
def cycleEnd (s : State) : State :=
  let synced := decide (s.link.state = .synced)
  let silent := if synced then s.link.nextSilent else s.link.silentCycles
  let foreign := s.link.nextForeign
  let s := s.setLink { s.link with
    correction := (if synced then meanCorrection s.link.offsets else 0), silentCycles := silent,
    foreignCycles := foreign }
  if s.cfg.peerLossLimit ≤ foreign then enterListening s
  else if synced && decide (4 ≤ silent) then
    raiseLinkAlone 2 (s.setLink { s.link with state := .alone, foreignCycles := 0 })
  else s

/-- A cycle starts while the link is timed (R48, R52): the next cycle number, and the ROUTINE latch (R95). -/
def startCycle (s : State) : State :=
  markLatch (s.setLink { s.link with
    cycle := s.link.cycle.map (· + 1), cycleStart := s.link.cycleStart + (s.period : Rat) + s.link.correction,
    correction := 0, heard := [], offsets := [], acceptedInCycle := false, foreignInCycle := false })

/-! ### Gathering (R74 to R80) -/

/-- The record of entry `j` while it is ACTIVE, the own one as it would be packed now (log entry 24). -/
def State.armRecord (s : State) (j : Station) : Option StatusRecord :=
  if j = s.own then some s.packRecord else s.heardRecord j

/-- The ACTIVE entries of the arm, with their station numbers. -/
def State.armRecords (s : State) : List (Station × StatusRecord) :=
  s.arm.filterMap fun j => (s.armRecord j).map fun r => (j, r)

/-- A record of a peer that has agreed and moved on: RECOVER, or RUN in HOMING or READY (R74, R80). -/
def StatusRecord.movedOn (r : StatusRecord) : Bool :=
  match r.block with
  | .recover _ => true
  | .run _ _ _ _ _ => decide (r.phase = .homing) || decide (r.phase = .ready)
  | .gather _ _ _ _ => false

/-- The fault a GATHER record's digests give against the own (R76). -/
def State.digestFault (s : State) (x : Station × StatusRecord) : Option (FaultCode × Int) :=
  match x.2.block with
  | .gather pd cd _ _ =>
    if pd ≠ s.plan.digest.getD 0 then some (.planMismatch, (x.1.val : Int))
    else if cd ≠ s.port.configDigest.getD 0 then some (.configMismatch, 256 + (x.1.val : Int))
    else none
  | _ => none

/-- The highest committed generation among some records (R77). -/
def highestCommitted (l : List (Station × StatusRecord)) : Nat := l.foldl (fun a x => max a x.2.committed.toNat) 0

/-- A record makes the generations unresolvable against the highest (R77). -/
def StatusRecord.unresolvable (h : Nat) (r : StatusRecord) : Bool :=
  decide (r.committed.toNat + 1 < h) || (decide (r.committed.toNat + 1 = h) && decide (r.staged.toNat ≠ h))

/-- The faults of a gathering evaluation, in order: R76, R77, then R78 where its test falls due. -/
def State.gatherFault (s : State) : Option (FaultCode × Int) :=
  match s.armRecords.findSome? s.digestFault with
  | some f => some f
  | none =>
    match s.armRecords.find? fun x => x.2.unresolvable (highestCommitted s.armRecords) with
    | some x => some (.genMismatch, (x.1.val : Int))
    | none =>
      if s.coord.verdictTested then none
      else s.coord.verdict.map fun i => (.planInvalid, (i : Int))

/-- The variant and digest test of the agreement condition (R74). -/
def State.agreesOn (s : State) (r : StatusRecord) : Bool :=
  match r.block with
  | .gather pd cd _ _ => decide (some pd = s.plan.digest) && decide (some cd = s.port.configDigest)
  | _ => r.movedOn

/-- The agreement condition over what a station of the arm is read as (R74). -/
def State.agreement (s : State) : Bool :=
  s.arm.all fun j => match s.armRecord j with
    | some r => s.agreesOn r && s.armRecords.all fun x => decide (x.2.committed = r.committed)
    | none => false

/-- The agreed run (R80): the run of the lowest-numbered record that has moved on, else the newest last run claim + 1,
never 0. -/
def State.agreedRun (s : State) : BitVec 16 :=
  match s.armRecords.find? fun x => x.2.movedOn with
  | some x => x.2.run
  | none =>
    let r := (newest16 (s.armRecords.map fun x => x.2.run)).getD 0 + 1
    if r = 0 then 1 else r

/-- Gathering completes (R80): the run number, CAL_DISCARD for a staged record, the recovery claim, RECOVERING. -/
def completeGathering (s : State) : State :=
  let s := s.setCoord { s.coord with run := some s.agreedRun }
  let s := if s.cal.staged.isSome then postWrite .calDiscard s else s
  setPhase .recovering (buildClaim s)

/-- The agreement count after an evaluation whose condition holds or not (R74, R82). -/
def countAgreement (ok : Bool) (s : State) : State :=
  s.setCoord { s.coord with agreement := (if ok then s.coord.agreement + 1 else 0) }

/-- A gathering evaluation (R74 to R78, R80). PLAN_INVALID concerns the step its detail names (R78, R156). -/
def gatheringEvaluation (s : State) : State :=
  let f := s.gatherFault
  let s := s.setCoord { s.coord with verdictTested := true }
  match f with
  | some f => raiseFault f.1 .abort (if f.1 = .planInvalid then s.coord.verdict else none) f.2 s
  | none =>
    let s := countAgreement s.agreement s
    if 2 ≤ s.coord.agreement then completeGathering s else s

/-! ### Recovering (R82) -/

/-- A record meets the recovery condition (R82). -/
def StatusRecord.recovered (r : StatusRecord) : Bool := r.movedOn && decide (r.confidence ≠ .none)

/-- The recovery condition (R82). -/
def State.recoveryMet (s : State) : Bool :=
  s.arm.all fun j => match s.armRecord j with
    | some r => r.recovered
    | none => false

/-- RECOVERING ends (R82): the initial-state claim, journal-active, and HALTED at LOCKOUT, else HOMING. -/
def completeRecovery (s : State) : State :=
  let s := initialStateClaim s
  let s := s.setCoord { s.coord with journalActive := true }
  setPhase (if s.hold.level = .lockout then .halted else .homing) s

/-- A recovery evaluation (R82). -/
def recoveryEvaluation (s : State) : State :=
  let s := countAgreement s.recoveryMet s
  if 2 ≤ s.coord.agreement then completeRecovery s else s

/-! ### The phase deadline (R79) -/

/-- The stations of the arm that fail the phase's condition as the table stands (R79; log entry 42). -/
def State.failingStations (s : State) : List Station :=
  s.arm.filter fun j => match s.heardRecord j with
    | none => true
    | some r =>
      if s.coord.phase = .gathering then
        !(s.agreesOn r && s.arm.all fun k => match s.heardRecord k with
          | some x => decide (x.committed = r.committed)
          | none => true)
      else !r.recovered

/-- A set of stations as a detail (R154). -/
def stationSet (l : List Station) : Int := ((l.foldl (fun a j => a + 2 ^ j.val) 0 : Nat) : Int)

/-! ### The own slot (R57, R67, R74, R82, R136) -/

/-- The evaluation the phase makes at the own slot (R74, R82, R136). -/
def slotEvaluation (s : State) : State :=
  match s.coord.phase with
  | .gathering => gatheringEvaluation s
  | .recovering => recoveryEvaluation s
  | .homing => planEvaluation s
  | .isolated | .ready | .halted => s

/-- The own record is packed and the own entry refreshed, with its hand-off (R57, R67, R70, R86). -/
def packAndRefresh (s : State) : State := handOff (notePacking (refreshOwn s))

/-- At the own slot: the evaluation, the packing and refresh, and the frame that begins at the slot's nominal instant,
unless muted (R47, R57, R59). -/
def ownSlot (s : State) : State :=
  let kept := s.claimKept
  let s := slotEvaluation s
  let tx : Transmission := ⟨s.slotStart s.own.val + nominalDelay, s.packRecord.frame⟩
  let s := packAndRefresh (noteClaimSent kept s)
  if s.link.muted then s else s.setLink { s.link with tx := some tx }

end Sys2Proof.Machine
end

