-- ==== Sys2Proof/Machine/StoreOps.lean ====
section
/-! DEFINITION. The Retained Store Controller: the ends of beats and writes, the choice of the calibration slots,
PFAIL, and the start-up scan. -/

namespace Sys2Proof.Machine

/-! ### The choice of the calibration slots (R182) -/

/-- The other calibration slot. -/
def CalSlot.other : CalSlot → CalSlot
  | .a => .b
  | .b => .a

/-- The committed slot and record among the records the two slots hold (R182): the higher generation, slot A at a tie. -/
def chooseCommitted (a b : Option CalRecord) : Option (CalSlot × CalRecord) :=
  match a, b with
  | none, none => none
  | some x, none => some (.a, x)
  | none, some y => some (.b, y)
  | some x, some y => if x.generation.toNat < y.generation.toNat then some (.b, y) else some (.a, x)

/-- The committed slot and record in the store (R182). -/
def State.chosenCommitted (s : State) : Option (CalSlot × CalRecord) :=
  chooseCommitted (calRecordWith calCommittedByte (s.calSlot .a)) (calRecordWith calCommittedByte (s.calSlot .b))

/-- A slot holds a sealed STAGED record of generation 1. -/
def State.stagedFirst (s : State) (c : CalSlot) : Bool :=
  match calRecordWith calStagedByte (s.calSlot c) with
  | some r => decide (r.generation = 1)
  | none => false

/-- The spare slot beside a committed one, or with none (R182). -/
def State.chosenSpare (s : State) (committed : Option (CalSlot × CalRecord)) : CalSlot :=
  match committed with
  | some (c, _) => c.other
  | none => if s.stagedFirst .b && !s.stagedFirst .a then .b else .a

/-- The staged record: the spare's, when its generation is the committed one + 1 (R182). -/
def State.chosenStaged (s : State) (spare : CalSlot) (generation : BitVec 16) : Option CalRecord :=
  match calRecordWith calStagedByte (s.calSlot spare) with
  | some r => if r.generation.toNat = generation.toNat + 1 then some r else none
  | none => none

/-- The choice of R182 from the store as it stands. -/
def chooseCal (s : State) : State :=
  let committed := s.chosenCommitted
  let spare := s.chosenSpare committed
  let staged := s.chosenStaged spare (match committed with | some (_, r) => r.generation | none => 0)
  s.setCal { s.cal with committed := committed, spare := spare, staged := staged,
                        sealedInSighting := s.cal.sealedInSighting && staged.isSome }

/-- The values in use become the committed record's (R106, R196). -/
def takeValues (s : State) : State :=
  s.setCal { s.cal with trim := s.cal.committedTrim, backlash := s.cal.committedBacklash, heldShift := false }

/-- The SHIFT of a completed flip, with the new values in use at its application; held while the settling window is
open (R22, R196). -/
def flipShift (s : State) : State :=
  match shiftClaim (-(s.cal.committedTrim - s.cal.trim)) s with
  | some t => takeValues t
  | none => s.setCal { s.cal with heldShift := true }

/-- The choice of R182 at the end of a calibration write that is no flip. At a change of the committed record, which only
a beat that failed can leave, the values in use change with it as at a flip (R182, R196). It goes by the bytes of the
slots: a stage cut or failed at its first beat over a record that seals leaves that record held, the model's choice
(R181, R193; log entry 60). -/
def rechooseCal (s : State) : State :=
  let t := chooseCal s
  if t.cal.committed = s.cal.committed then t else sightingUpdate (flipShift t)

/-! ### The tests at the end of a calibration write (R191, R194, R197) -/

/-- The calibration protocol's tests at the end of a calibration write. -/
def calWriteTests (s : State) : State := stageTest (rollForwardTable (flipTest s))

/-! ### The ends of writes (R91, R94, R99, R102, R108, R193, R195, R196) -/

/-- The ring slot after another. -/
def nextSlot (i : Fin 96) : Fin 96 := i + 1

/-- The write pointer after a journal write at its slot, passing over the tail (R94). -/
def Store.advanced (st : Store) : Fin 96 :=
  let p := nextSlot st.pointer
  match st.tail with
  | some t => if t.slot = p then nextSlot p else p
  | none => p

/-- The port becomes IDLE. -/
def idlePort (s : State) : State := s.setStore { s.store with port := none }

/-- A journal write has ended: the write pointer advances (R94). -/
def advancePointer (s : State) : State := s.setStore { s.store with pointer := s.store.advanced }

/-- A sealed journal frame becomes the tail (R94). -/
def takeTail (slot : Fin 96) (f : JournalFrame) (s : State) : State :=
  s.setStore { s.store with tail := some ⟨slot, f⟩ }

/-- The slot of a journal write's target. -/
def WriteTarget.slot : WriteTarget → Fin 96
  | .ring i => i
  | _ => 0

/-- FINAL outstanding becomes false (R99). -/
def clearFinalOut (s : State) : State := s.setStore { s.store with finalOut := false }

/-- An ORDERLY frame has sealed: the closing flag is set unless the shutdown hold has gone (R102, R103). -/
def orderlySealed (seq : BitVec 16) (s : State) : State :=
  if s.hold.seq = seq ∧ s.hold.level ≠ .none then s.setStore { s.store with closing := some seq } else s

/-- A CAL_STAGE has sealed (R193): the choice again, sealed during the sighting in progress. -/
def stageSealed (s : State) : State :=
  let s := rechooseCal s
  s.setCal { s.cal with sealedInSighting := s.cal.staged.isSome && s.cal.sighting.isSome }

/-- A running survey fails at a completed flip with failing phase 0 (R196; log entry 23). -/
def surveyAtFlip (s : State) : State :=
  match s.engine.operation with
  | .survey c => if c.endCause.isNone then surveyFail c 0 s else s
  | _ => s

/-- A flip has completed (R196). -/
def flipDone (s : State) : State :=
  let s := flipShift (surveyAtFlip (chooseCal s))
  let s := s.setCal { s.cal with pendTrim := none, pendBacklash := none }
  sightingUpdate (addCause .calChanged s)

/-- The effect of a completed write (R91). -/
def writeCompleted (f : InFlight) (s : State) : State :=
  match f.request with
  | .final j => clearFinalOut (advancePointer (takeTail f.target.slot j s))
  | .orderly j q => orderlySealed q (advancePointer (takeTail f.target.slot j s))
  | .routine j => advancePointer (takeTail f.target.slot j s)
  | .lockRecord _ => s.setStore { s.store with retainedLockout := true }
  | .lockClear _ => s.setStore { s.store with retainedLockout := false }
  | .calFlip => calWriteTests (flipDone s)
  | .calStage _ => calWriteTests (stageSealed s)
  | .calDiscard => calWriteTests (rechooseCal s)

/-- The effect of a cut write (R94, R98, R193): only ROUTINE and CAL_STAGE are cut. -/
def writeCut (f : InFlight) (s : State) : State :=
  match f.request with
  | .calStage _ => calWriteTests (rechooseCal s)
  | .final _ | .orderly _ _ | .routine _ => advancePointer s
  | _ => s

/-- STORE_WRITE_FAILED (HOLD), with the kind's number x 256 + the beat (R90). -/
def raiseWriteFailed (f : InFlight) (s : State) : State :=
  raiseHold .storeWriteFailed (((f.request.kind.num * 256 + (f.beat.val + 1) : Nat)) : Int) s

/-- What a failed write leaves before its fault is raised (R94, R99, R193, R195). -/
def failedEffect (f : InFlight) (s : State) : State :=
  match f.request with
  | .final _ => clearFinalOut (advancePointer s)
  | .orderly _ _ | .routine _ => advancePointer s
  | .lockRecord _ | .lockClear _ => s
  | .calFlip => endProposalOnFailedFlip (s.setCal { s.cal with flipFailed := true })
  | .calStage _ | .calDiscard => rechooseCal s
where
  /-- The proposal ends when its own flip has failed (R198). -/
  endProposalOnFailedFlip (s : State) : State :=
    match s.cal.proposal with
    | some _ => endProposal (some 5) s
    | none => s

/-- The one retry of a failed lockout write (R108; log entry 35). A request posted since may be in flight already: the
fault of the failed write may escalate the hold to LOCKOUT, and the port is idle then. -/
def lockRetry (f : InFlight) (s : State) : State :=
  let superseded := s.store.busyWith .lockRecord || s.store.busyWith .lockClear
  match f.request with
  | .lockRecord r =>
    if s.store.recordRetryUsed || superseded then s
    else postWrite (.lockRecord r) (s.setStore { s.store with recordRetryUsed := true })
  | .lockClear r =>
    if s.store.clearRetryUsed || superseded then s
    else postWrite (.lockClear r) (s.setStore { s.store with clearRetryUsed := true })
  | _ => s

/-- The calibration tests after a failed calibration write. -/
def failedTests (f : InFlight) (s : State) : State :=
  match f.request with
  | .calFlip | .calStage _ | .calDiscard => calWriteTests s
  | _ => s

/-- A failed write ends (R90): its effect, the fault, the retry and the tests. That the effect comes first, a failed flip's
CAL_ABORTED (R198) before STORE_WRITE_FAILED, is the model's choice (log entry 64). -/
def writeFailed (f : InFlight) (s : State) : State :=
  failedTests f (lockRetry f (raiseWriteFailed f (failedEffect f s)))

/-- A beat ends with the eight bytes read back (R90): the next beat, or the write's end, completed, failed or cut; then
the next grant (R91). A cut write whose last beat reads back has completed (log entry 34). What the poster does at the
end (a fault, a retry, a calibration post) comes before the grant; R91 does not order them (log entry 54). -/
def endBeat (f : InFlight) (readback : List Byte) (s : State) : State :=
  let s := s.setMem (Memory.writeBytes s.mem f.address readback)
  if readback ≠ f.beatBytes then grantNext (writeFailed f (idlePort s))
  else if f.beat.val + 1 = f.request.kind.beats then grantNext (writeCompleted f (idlePort s))
  else if f.isCut then grantNext (writeCut f (idlePort s))
  else s.setStore { s.store with port := some { f with beat := f.beat + 1 } }

/-! ### PFAIL (R98 to R101) -/

/-- A write in flight of kind ROUTINE or CAL_STAGE is cut (R98). -/
def InFlight.cutAtArrival (f : InFlight) : InFlight :=
  match f.request with
  | .routine _ | .calStage _ => { f with isCut := true }
  | _ => f

/-- A PFAIL arrival at the write port (R98): the cut, the pending ROUTINE and CAL_STAGE removed, the FINAL, and the tests
that follow the end of a dropped CAL_STAGE (R193, R197). -/
def arrivalCut (s : State) : State :=
  let dropped := s.store.isPending .calStage
  let s := s.setStore { s.store with port := s.store.port.map InFlight.cutAtArrival }
  let s := dropPending .calStage (dropPending .routine s)
  let s := if s.store.closing.isNone && !s.store.busyWith .orderly then finalLatch s else s
  if dropped then calWriteTests s else s

/-- The PFAIL arrival at the store (R98 to R101): the dip flag at every arrival, and the write port while journal-active is
true, unless a FINAL is outstanding (R99). R127 leaves a RECOVERING station without a FINAL (R100), and R98 gives one
wherever journal-active is true; the model goes by journal-active (log entry 55). -/
def pfailArrival (s : State) : State :=
  let s := s.setStore { s.store with dip := some false }
  if s.coord.journalActive && !s.store.finalOut then arrivalCut s else s

/-- The PFAIL withdrawal (R101): POWER_DIP with the dip flag's FINAL mark; staging may follow (R191). -/
def pfailWithdrawal (s : State) : State :=
  let detail : Int := if s.store.dip = some true then 1 else 0
  let s := raiseHold .powerDip detail s
  stageTest (s.setStore { s.store with dip := none })

/-! ### The start-up scan (R105 to R107) -/

/-- The ring slots in order. -/
def ringSlots : List (Fin 96) := List.finRange 96

/-- The sealed frames of the ring with their slots, in slot order (R105). -/
def State.sealedFrames (s : State) : List Tail :=
  ringSlots.filterMap fun i => (JournalFrame.decode (s.ringSlot i)).map fun f => ⟨i, f⟩

/-- The last of a list that satisfies a test, else its last. -/
def lastWhere (p : Tail → Bool) (l : List Tail) : Option Tail :=
  match (l.filter p).getLast? with
  | some t => some t
  | none => l.getLast?

/-- The tail among the sealed frames (R105; log entry 36). -/
def chooseTail (l : List Tail) : Option Tail :=
  lastWhere (fun t => l.all fun u => !tagNewer u.frame.tag t.frame.tag) l

/-- The lockout record the scan finds: sealed, with its present flag set (R106, R107). -/
def State.foundLockout (s : State) : Option LockRecord :=
  if lockSealed s.lockBeat && (LockRecord.decode s.lockBeat).present then some (LockRecord.decode s.lockBeat) else none

/-- The journal part of the scan (R105, R111). -/
def scanJournal (s : State) : State :=
  let tail := chooseTail s.sealedFrames
  let s := s.setStore { s.store with
    tail := tail, pointer := (match tail with | some t => nextSlot t.slot | none => 0),
    lastTag := tail.map fun t => t.frame.tag, scanDone := true }
  s.setCoord { s.coord with
    lastRunClaim := some (match tail with | some t => t.frame.tag.run | none => 0),
    start := { s.coord.start with tailKind := tail.map fun t => t.frame.kind } }

/-- The lockout part of the scan (R106, R158, R161). -/
def scanLockout (s : State) : State :=
  match s.foundLockout with
  | none => s.setStore { s.store with retainedLockout := false }
  | some r =>
    let s := s.setStore { s.store with retainedLockout := true }
    enterLockout false (setCause r.cause r.origin (setLevel .lockout s))

/-- The end of the start-up scan (R105, R106). -/
def endScan (s : State) : State := scanLockout (takeValues (chooseCal (scanJournal s)))

end Sys2Proof.Machine
end

