-- ==== Sys2Proof/Machine/Sensing.lean ====
section
/-! DEFINITION. The meanings of the Joint Sensing Unit's commands: switch, PFAIL, encoder, sector and index inputs, the
motion check and the end of the settling window. -/

namespace Sys2Proof.Machine

/-! ### Filters (R1, R2) -/

/-- A filter after one sample, and whether its level changed (R1, R2). -/
def InputFilter.sample (f : InputFilter) (length : Nat) (raw : Bool) : InputFilter × Bool :=
  if raw = f.level then (⟨f.level, 0⟩, false)
  else if length ≤ f.count + 1 then (⟨raw, 0⟩, true)
  else (⟨f.level, f.count + 1⟩, false)

/-- The filter of a switch-type input. -/
def Sensing.filter (x : Sensing) : SwitchInput → InputFilter
  | .homeSw => x.home
  | .limPos => x.limPos
  | .limNeg => x.limNeg
  | .brkFb => x.brkFb
  | .drvStill => x.drvStill
  | .loadIn => x.loadIn
  | .keySw => x.keySw

/-- The unit with one filter replaced. -/
def Sensing.putFilter (x : Sensing) (i : SwitchInput) (f : InputFilter) : Sensing :=
  match i with
  | .homeSw => { x with home := f }
  | .limPos => { x with limPos := f }
  | .limNeg => { x with limNeg := f }
  | .brkFb => { x with brkFb := f }
  | .drvStill => { x with drvStill := f }
  | .loadIn => { x with loadIn := f }
  | .keySw => { x with keySw := f }

/-- A DRV_STILL arrival (R37, R39, R43, R167, R170, R189; log entry 12). -/
def stillArrival (s : State) : State := stageTest (entryTest (gateUpdate (engineStandstill s)))

/-- What the blocks do at an arrival or a fall of a filtered input (R1). -/
def switchChanged (i : SwitchInput) (active : Bool) (s : State) : State :=
  match i with
  | .homeSw => homeEdge active s
  | .limPos => if active then limitArrival 1 s else s
  | .limNeg => if active then limitArrival (-1) s else s
  | .brkFb => entryTest (gateUpdate s)
  | .drvStill => if active then stillArrival s else engineLeavesStill s
  | .loadIn => s
  | .keySw => if active then s else s.setHold { s.hold with keyCount := 0 }

/-- The input is sampled: LOAD_IN only at the LOAD_STATION station (R1). -/
def State.samples (s : State) (i : SwitchInput) : Bool :=
  match i with
  | .loadIn => decide (s.cfg.loadStation = some s.own)
  | _ => true

/-- One sample of a switch filter, with what follows from it (R1). -/
def switchSample (i : SwitchInput) (raw : Bool) (s : State) : State :=
  if s.samples i then
    let r := (s.sensing.filter i).sample s.cfg.switchFilter raw
    let s := s.setSensing (s.sensing.putFilter i r.1)
    if r.2 then switchChanged i raw s else s
  else s

/-- SWITCH_SAMPLE (R1). -/
def execSwitchSample (dt : Time) (i : SwitchInput) (raw : Bool) (s : State) : Host.Outcome State Fault Refusal :=
  let s := advance dt s
  .next (if s.running then switchSample i raw s else s)

/-- One sample of the PFAIL filter, with what follows from it (R2). -/
def pfailSample (raw : Bool) (s : State) : State :=
  let r := s.sensing.pfail.sample 2 raw
  let s := s.setSensing { s.sensing with pfail := r.1 }
  if r.2 then (if raw then pfailArrival s else pfailWithdrawal s) else s

/-- PFAIL_SAMPLE (R2, R98 to R101). -/
def execPfailSample (dt : Time) (raw : Bool) (s : State) : Host.Outcome State Fault Refusal :=
  let s := advance dt s
  .next (if s.running then pfailSample raw s else s)

/-! ### Encoder decoding (R4, R5, R13, R14) -/

/-- What a sample of the two lines shows against the reference levels (R4, R5). -/
inductive LineChange where
  | same | counted (positive : Bool) | both
  deriving DecidableEq, Repr

/-- The change of a sample (R4): positive when the changed line leads in the order A-rises, B-rises, A-falls,
B-falls. -/
def Decoder.change (d : Decoder) (a b : Bool) : LineChange :=
  if a = d.lineA then (if b = d.lineB then .same else .counted (b == a))
  else if b = d.lineB then .counted (a != b)
  else .both

/-- The decoder with the levels of a sample as its reference. -/
def Decoder.take (d : Decoder) (a b : Bool) : Decoder := { d with lineA := a, lineB := b }

/-- A counted transition moves the counter by one (R4, R12). -/
def countTransition (positive : Bool) (s : State) : State :=
  s.setStandby { s.standby with counter := s.standby.counter.shift (if positive then 1 else -1) }

/-- The mark capture list and the pending edge are dropped (R10). -/
def dropCaptures (s : State) : State := s.setSensing { s.sensing with captures := [], pendingEdge := none }

/-- A quadrature error in the main decoder (R4; log entries 20, 46). -/
def mainQuadError (s : State) : State :=
  raiseFault .quadError .hold s.engine.operation.step 1 (engineLost (dropCaptures (loseContinuity .quadError s)))

/-- CPS/8, with integer division (R8). -/
def State.edgeReach (s : State) : Nat := s.cfg.cps / 8

/-- The pending edge is resolved as spurious (R9). -/
def resolveSpurious (e : PendingEdge) (s : State) : State :=
  raiseSpurious e.sector (s.setSensing { s.sensing with pendingEdge := none })

/-- The distance test of a pending edge at a counted transition (R9). -/
def edgeDistance (s : State) : State :=
  match s.sensing.pendingEdge with
  | none => s
  | some e => if s.edgeReach < Position.dist s.standby.counter e.value then resolveSpurious e s else s

/-- A transition counted by the main decoder, with the checks that follow it (R4, R9, R38, R44, R186); staging may
follow a survey's end (R191). That the pending edge's distance test comes before the parked and the travel checks is the
model's choice (log entry 51). -/
def mainTransition (positive : Bool) (s : State) : State :=
  stageTest (engineTravel (parkedCheck (edgeDistance (countTransition positive s))))

/-- A sample of the main decoder (R4). -/
def mainSample (a b : Bool) (s : State) : State :=
  let c := s.decoder.change a b
  let s := s.setDecoder (s.decoder.take a b)
  match c with
  | .same => s
  | .counted p => mainTransition p s
  | .both => mainQuadError s

/-- ENC_TRANSITION (R4): the main decoder counts outside the settling window (R11). -/
def execEncTransition (dt : Time) (a b : Bool) (s : State) : Host.Outcome State Fault Refusal :=
  let s := advance dt s
  .next (if s.running && !s.decoder.standbyFeeds then mainSample a b s else s)

/-- The excursion after a transition counted while main power is absent (R14). -/
def noteExcursion (s : State) : State :=
  if s.power.vdd then s
  else s.setStandby { s.standby with
    excursion := max s.standby.excursion (Position.dist s.standby.counter s.standby.supplyLoss) }

/-- The transition comes less than 50 us after the previous accepted one (R5; log entry 15). -/
def State.overspeed (s : State) : Bool :=
  match s.decoder.lastAccepted with
  | some t => decide (s.now < t + us 50)
  | none => false

/-- A transition counted by the standby decoder (R5, R14). -/
def standbyTransition (positive : Bool) (s : State) : State :=
  let fast := s.overspeed
  let s := s.setDecoder { s.decoder with lastAccepted := some s.now }
  let s := noteExcursion (countTransition positive s)
  if fast then loseContinuity .overspeed s else s

/-- A read of the standby decoder (R5). -/
def standbyRead (a b : Bool) (s : State) : State :=
  let c := s.decoder.change a b
  let s := s.setDecoder (s.decoder.take a b)
  match c with
  | .same => s
  | .counted p => standbyTransition p s
  | .both => loseContinuity .quadError s

/-- STANDBY_DECODER_READ (R5): while the standby decoder feeds the counter and its domain is supplied. -/
def execStandbyDecoderRead (dt : Time) (a b : Bool) (s : State) : Host.Outcome State Fault Refusal :=
  let s := advance dt s
  .next (if s.domainAlive && s.decoder.standbyFeeds then standbyRead a b s else s)

/-! ### The sector track and index qualification (R6 to R10) -/

/-- The link cycle number current in the sensing path: none while the link is not timed (R10, R48). -/
def State.sensedCycle (s : State) : Option (BitVec 32) := if s.link.timed then s.link.cycle else none

/-- A capture is pushed, a fifth removing the oldest, and offered to the engine (R10). -/
def pushCapture (c : Capture) (s : State) : State :=
  let l := s.sensing.captures ++ [c]
  offerCapture c (s.setSensing { s.sensing with captures := l.drop (l.length - 4) })

/-- The direction of a step between two sectors; none for a jump (R7). -/
def stepDirection (sectors old new : Nat) : Option Direction :=
  if new = (old + 1) % sectors then some .positive
  else if old = (new + 1) % sectors then some .negative
  else none

/-- The mark sector of a step (R7). -/
def markSector (old new : Nat) : Direction → Nat
  | .positive => new
  | .negative => old

/-- The last change is marked used (R8). -/
def useLastChange (s : State) : State :=
  s.setSensing { s.sensing with lastChange := s.sensing.lastChange.map fun l => { l with used := true } }

/-- An edge is qualified against the last change, a step (R8, R9). -/
def qualify (l : LastChange) (d : Direction) (value : Position) (cycle : Option (BitVec 32)) (s : State) : State :=
  pushCapture { raw := value, sector := markSector l.old l.new d, dir := d, cycle := cycle, mark := none }
    (useLastChange s)

/-- A step is accepted (R7, R9): it qualifies a pending edge near the counter. -/
def acceptStep (l : LastChange) (d : Direction) (s : State) : State :=
  match s.sensing.pendingEdge with
  | none => s
  | some e =>
    if Position.dist s.standby.counter e.value ≤ s.edgeReach then
      qualify l d e.value e.cycle (s.setSensing { s.sensing with pendingEdge := none })
    else s

/-- A sector jump is accepted during a step's seek or park, or during none (R7; log entries 20, 46). -/
def acceptJump (step : Option Nat) (old new : Nat) (s : State) : State :=
  raiseFault .sectorJump .hold step ((old * 256 + new : Nat) : Int)
    (engineLost (dropCaptures (useLastChange s)))

/-- An accepted change of sector (R6, R7, R113). -/
def acceptSector (n : Nat) (s : State) : State :=
  match s.sensing.accepted with
  | none => ownClaimFollows (s.setSensing { s.sensing with accepted := some n })
  | some a =>
    let l : LastChange := ⟨a, n, s.standby.counter, false⟩
    let step := s.engine.operation.step
    let s := ownClaimFollows (s.setSensing { s.sensing with accepted := some n, lastChange := some l })
    match stepDirection s.cfg.sectors a n with
    | some d => acceptStep l d s
    | none => acceptJump step a n s

/-- One read of the sector code through the sector filter (R6; log entry 16). -/
def sectorSample (lines : BitVec 5) (s : State) : State :=
  let n := sectorOfLines s.cfg.sectors lines
  let count := if s.sensing.sectorCandidate = some n then min s.cfg.sectorFilter (s.sensing.sectorCount + 1) else 1
  let s := s.setSensing { s.sensing with sectorCandidate := some n, sectorCount := count }
  if s.cfg.sectorFilter ≤ count ∧ s.sensing.accepted ≠ some n then acceptSector n s else s

/-- SECTOR_SAMPLE (R6): once CONFIGURE has been taken. -/
def execSectorSample (dt : Time) (lines : BitVec 5) (s : State) : Host.Outcome State Fault Refusal :=
  let s := advance dt s
  .next (if s.running && s.port.config.isSome then sectorSample lines s else s)

/-- A latched edge resolves an older pending edge as spurious (R9; log entry 14). -/
def displaceEdge (s : State) : State :=
  match s.sensing.pendingEdge with
  | none => s
  | some e => resolveSpurious e s

/-- The last change, when it is an unused step within CPS/8 of an edge, with its direction (R8). -/
def State.earlierStep (s : State) (value : Position) : Option (LastChange × Direction) :=
  match s.sensing.lastChange with
  | none => none
  | some l =>
    if !l.used && decide (Position.dist l.counter value ≤ s.edgeReach) then
      (stepDirection s.cfg.sectors l.old l.new).map fun d => (l, d)
    else none

/-- A latched edge is examined (R8). -/
def latchEdge (sector : Nat) (s : State) : State :=
  let value := s.standby.counter
  let cycle := s.sensedCycle
  let s := displaceEdge s
  match s.earlierStep value with
  | some (l, d) => qualify l d value cycle s
  | none => s.setSensing { s.sensing with pendingEdge := some ⟨value, sector, cycle⟩ }

/-- INDEX_EDGE (R8): latched when CONFIGURE has been taken, the settling window has ended and a sector is accepted. -/
def execIndexEdge (dt : Time) (s : State) : Host.Outcome State Fault Refusal :=
  let s := advance dt s
  .next (if s.running && s.port.config.isSome && !s.sensing.settling then
      match s.sensing.accepted with
      | some a => latchEdge a s
      | none => s
    else s)

/-! ### The motion check and the settling window (R3, R11, R22) -/

/-- The comparison of the counter with its earlier value (R3, R151). -/
def motionCheck (s : State) : State :=
  match s.sensing.earlier with
  | none => s
  | some p =>
    let moving := decide (16 ≤ Position.dist s.standby.counter p)
    let became := moving && !s.sensing.moving
    let s := s.setSensing { s.sensing with moving := moving, earlier := some s.standby.counter }
    if became then noteDropMotion s else s

/-- MOTION_CHECK (R3): the first comparison falls after the settling window. -/
def execMotionCheck (dt : Time) (s : State) : Host.Outcome State Fault Refusal :=
  let s := advance dt s
  .next (if s.running && !s.sensing.settling then motionCheck s else s)

/-- The settling window ends (R11, R22): the main decoder takes over with the standby decoder's reference, and a held
SHIFT is presented. -/
def endSettling (s : State) : State :=
  let s := s.setSensing { s.sensing with settling := false, earlier := some s.standby.counter }
  let s := s.setDecoder { s.decoder with standbyFeeds := false }
  if s.cal.heldShift then flipShift s else s

/-- SETTLING_WINDOW_END (R11): 2 ms after the main-domain start. -/
def execSettlingWindowEnd (dt : Time) (s : State) : Host.Outcome State Fault Refusal :=
  let s := advance dt s
  .next (if s.running && s.sensing.settling && decide (s.sensing.settleStart + ms 2 ≤ s.now) then endSettling s else s)

end Sys2Proof.Machine
end

