-- ==== Sys2Proof/Machine/Supply.lean ====
section
/-! DEFINITION. The meanings of the supplies, the reset pin and the starts of the main domain. -/

namespace Sys2Proof.Machine

/-! ### A beat that a supply loss interrupts (R90) -/

/-- A byte whose bits are the new ones where a mask says so, and the old ones elsewhere. -/
def mixByte (mask old new : Byte) : Byte := (new &&& mask) ||| (old &&& ~~~mask)

/-- Byte `i` of the free mix of a stopped beat (log entry 7). -/
def mixMask (v : BitVec 64) (i : Nat) : Byte := v.extractLsb' (8 * i) 8

/-- A supply loss leaves the beat in progress an unknown mix of old and new values (R90; log entry 7). -/
def stopBeat (s : State) : State :=
  match s.store.port with
  | none => s
  | some f =>
    let v := Config.freeValue s.freeCount
    let mixed := f.beatBytes.zipIdx.map fun x => mixByte (mixMask v x.2) (Memory.read s.mem (f.address + x.2)) x.1
    bumpFree (s.setMem (Memory.writeBytes s.mem f.address mixed))

/-! ### Starts of the main domain (R17, R18, R47, R104, R111) -/

/-- The standby decoder takes over: its reference is the main decoder's last sample, and no earlier transition counts
for OVERSPEED (R5; log entry 15). -/
def Decoder.toStandby (d : Decoder) : Decoder :=
  if d.standbyFeeds then d else { d with standbyFeeds := true, lastAccepted := none }

/-- Every block of the main domain takes its value after a main-domain reset (R18, R20, R48, R66, R71, R104, R110, R111,
R128, R158, R165, R180, R203, R211). The retained store is untouched: a beat in flight leaves its bytes as they were
(R89, R212; log entry 41). -/
def resetMainDomain (kind : StartKind) (alive : Bool) (straps : Station) (s : State) : State :=
  let s := (s.setSensing (Sensing.initial s.now)).setDecoder s.decoder.toStandby
  let s := (s.setEngine .initial).setLink (Link.initial straps)
  let s := (s.setPeers peersInitial).setCoord (Coord.initial kind alive)
  let s := (s.setPlan .initial).setHold (Hold.initial straps)
  let s := (s.setGate .closed).setCal .initial
  (s.setStore .initial).setPort .initial

/-! ### Supplies (R12, R14, R17, R18) -/

/-- VDD falls below the supervisor threshold (R14). -/
def loseMainSupply (s : State) : State :=
  let s := if s.running then stopBeat s else s
  let s := s.setStandby { s.standby with supplyLoss := s.standby.counter, excursion := 0 }
  let s := s.setDecoder s.decoder.toStandby
  s.setPower { s.power with vdd := false, pendingPower := none }

/-- MAIN_SUPPLY_LOSS (R14). -/
def execMainSupplyLoss (dt : Time) (s : State) : Host.Outcome State Fault Refusal :=
  let s := advance dt s
  .next (if s.power.vdd then loseMainSupply s else s)

/-- An error kind from two free bits (log entry 8). -/
def freeError (v : BitVec 64) : StandbyError :=
  if v.getLsbD 0 then (if v.getLsbD 1 then .none else .supplyLost)
  else (if v.getLsbD 1 then .quadError else .overspeed)

/-- The standby domain's items after their loss: free values, with the alive flag false (R12; log entry 8). -/
def lostStandby (n : Nat) : Standby where
  counter := (Config.freeValue n).setWidth 40
  continuity := (Config.freeValue (n + 1)).getLsbD 2
  error := freeError (Config.freeValue (n + 1))
  excursion := ((Config.freeValue (n + 2)).setWidth 40).toNat
  supplyLoss := (Config.freeValue (n + 3)).setWidth 40
  alive := false

/-- Both supplies are below the standby threshold: all six items are lost (R12). -/
def loseStandby (s : State) : State :=
  let s := (s.setStandby (lostStandby s.freeCount)).setFreeCount (s.freeCount + 4)
  s.setPower { s.power with domainUp := false }

/-- STANDBY_DOMAIN_LOSS (R12): VSTBY falling while VDD is present has no effect. -/
def execStandbyDomainLoss (dt : Time) (s : State) : Host.Outcome State Fault Refusal :=
  let s := advance dt s
  .next (if !s.power.vdd && s.power.domainUp then loseStandby s else s)

/-- STANDBY_SUPPLY_RETURN (R12): the domain is alive again, its contents and alive flag still lost. -/
def execStandbySupplyReturn (dt : Time) (s : State) : Host.Outcome State Fault Refusal :=
  let s := advance dt s
  .next (if !s.power.vdd && !s.power.domainUp then s.setPower { s.power with domainUp := true } else s)

/-- The main supply rises (R17, R18, R111): the main domain starts, or waits for the release of nRESET. -/
def raiseMainSupply (alive : Bool) (straps : Station) (s : State) : State :=
  if s.power.nreset then s.setPower { s.power with vdd := true, domainUp := true, pendingPower := some alive }
  else resetMainDomain .power alive straps (s.setPower { s.power with vdd := true, domainUp := true })

/-- A cold start (R17): the standby domain is initialised first; its decoder's reference levels too (log entry 5). -/
def coldStart (straps : Station) (s : State) : State :=
  raiseMainSupply false straps ((s.setStandby .cold).setDecoder ⟨false, false, true, none⟩)

/-- COLD_START (R17). -/
def execColdStart (dt : Time) (straps : Station) (s : State) : Host.Outcome State Fault Refusal :=
  let s := advance dt s
  .next (if !s.power.vdd && !s.standby.alive then coldStart straps s else s)

/-- WARM_START (R18). -/
def execWarmStart (dt : Time) (straps : Station) (s : State) : Host.Outcome State Fault Refusal :=
  let s := advance dt s
  .next (if !s.power.vdd && s.standby.alive then raiseMainSupply true straps s else s)

/-! ### The reset pin (R18, R111) -/

/-- nRESET is asserted (R18): with VDD present the main domain is held in reset (log entry 38). -/
def assertReset (s : State) : State :=
  let s' := s.setPower { s.power with nreset := true }
  if s.running then resetMainDomain s.coord.start.kind s.coord.start.aliveAtStart s.own s' else s'

/-- NRESET_ASSERT (R18). -/
def execNresetAssert (dt : Time) (s : State) : Host.Outcome State Fault Refusal :=
  let s := advance dt s
  .next (if s.power.nreset then s else assertReset s)

/-- nRESET is released (R18, R111): a PIN start, or the POWER start that waited for it. -/
def releaseReset (straps : Station) (s : State) : State :=
  let start := s.power.pendingPower
  let s := s.setPower { s.power with nreset := false, pendingPower := none }
  if s.power.vdd then
    match start with
    | some alive => resetMainDomain .power alive straps s
    | none => resetMainDomain .pin true straps s
  else s

/-- NRESET_RELEASE (R18). -/
def execNresetRelease (dt : Time) (straps : Station) (s : State) : Host.Outcome State Fault Refusal :=
  let s := advance dt s
  .next (if s.power.nreset then releaseReset straps s else s)

/-- PORT_RESET (R212): the RESET request's main-domain start at the rise of nCS. -/
def execPortReset (dt : Time) (straps : Station) (s : State) : Host.Outcome State Fault Refusal :=
  let s := advance dt s
  .next (if s.running && s.port.resetArmed then resetMainDomain .port true straps s else s)

end Sys2Proof.Machine
end

