-- ==== Sys2Proof/Machine/Timers.lean ====
section
/-! DEFINITION. The meanings of the write port's beats, the start-up scan, and the timers. -/

namespace Sys2Proof.Machine

/-! ### The retained store (R90, R105) -/

/-- BEAT_END (R90): the beat in progress ends, the store then holding what is read back. -/
def execBeatEnd (dt : Time) (readback : Vector Byte 8) (s : State) : Host.Outcome State Fault Refusal :=
  let s := advance dt s
  .next (if s.running then
      match s.store.port with
      | some f => endBeat f readback.toList s
      | none => s
    else s)

/-- SCAN_DONE (R105, R106). -/
def execScanDone (dt : Time) (s : State) : Host.Outcome State Fault Refusal :=
  let s := advance dt s
  .next (if s.running && !s.store.scanDone then endScan s else s)

/-! ### The engine's timers (R38, R43, R186) -/

/-- STALL_TIME. -/
def State.stallTime (s : State) : Time := ms s.cfg.stallTime

/-- STALL_TIME has passed from an instant. -/
def State.stalledFrom (s : State) (t : Time) : Bool := decide (t + s.stallTime ≤ s.now)

/-- A running seek whose stall window has run out becomes STALLED, with the counts travelled in it (R38; log
entry 19). -/
def seekStall (s : State) : State :=
  match s.engine.operation with
  | .seek c =>
    if decide (s.engine.refState = .seeking) && c.endCause.isNone && s.stalledFrom c.stall.since then
      endSeek c .stalled ((Position.dist s.standby.counter c.stall.position : Nat) : Int) s
    else s
  | _ => s

/-- STALL_TIMEOUT (R38). -/
def execStallTimeout (dt : Time) (s : State) : Host.Outcome State Fault Refusal :=
  let s := advance dt s
  .next (if s.running then seekStall s else s)

/-- A park whose drive never left standstill ends as at a standstill (R43): the tolerance is tested, and a joint inside it
is reported DONE; the choice is the model's (log entry 53). -/
def parkStall (s : State) : State :=
  match s.engine.operation with
  | .park p => if !p.leftStill && s.still && !p.withdrawn && s.stalledFrom p.since then parkStandstill p s else s
  | _ => s

/-- PARK_NO_START (R43). -/
def execParkNoStart (dt : Time) (s : State) : Host.Outcome State Fault Refusal :=
  let s := advance dt s
  .next (if s.running then parkStall s else s)

/-- A running survey whose stall window has run out fails (R186); staging may follow its end (R191). -/
def surveyStall (s : State) : State :=
  match s.engine.operation with
  | .survey c => if c.endCause.isNone && s.stalledFrom c.stall.since then stageTest (surveyFail c c.phase s) else s
  | _ => s

/-- SURVEY_STALL_TIMEOUT (R186). -/
def execSurveyStallTimeout (dt : Time) (s : State) : Host.Outcome State Fault Refusal :=
  let s := advance dt s
  .next (if s.running then surveyStall s else s)

/-! ### The Plan Unit's timer (R147) -/

/-- The retry timer of step `i` has run out. -/
def State.retryDue (s : State) (i : Nat) : Bool :=
  match s.plan.table[i]? with
  | some x => decide (x.status = .failedWait) && (match x.timer with | some t => decide (t ≤ s.now) | none => false)
  | none => false

/-- RETRY_TIMER_END (R147): a FAILED-WAIT step becomes PENDING. -/
def execRetryTimerEnd (dt : Time) (i : Fin 32) (s : State) : Host.Outcome State Fault Refusal :=
  let s := advance dt s
  .next (if s.running && s.retryDue i.val then s.setPlan (s.plan.modifyStep i.val (StepState.become .pending)) else s)

/-! ### The Hold Unit's deadline (R171) -/

/-- An instant held as a deadline has passed. -/
def State.passed (s : State) (d : Option Time) : Bool :=
  match d with
  | some t => decide (t ≤ s.now)
  | none => false

/-- The stations an expired entry was still waiting for (R171). -/
def State.unsettled (s : State) : List Station :=
  stations.filter fun j =>
    if j = s.own then !s.settled
    else match s.heardRecord j with
      | some r => !r.settledFor s.hold.seq
      | none => false

/-- The Hold Unit escalates an entry that has run out of time (R171, R172). -/
def escalateEntry (s : State) : State :=
  let detail := stationSet s.unsettled
  match s.hold.level with
  | .stop => beginEntry (noteFault .stopTimeout .escalation none detail (setLevel .drop s))
  | .drop => enterLockout true (noteFault .dropTimeout .escalation none detail (setLevel .lockout s))
  | .none | .lockout => s

/-- ENTRY_DEADLINE (R171). -/
def execEntryDeadline (dt : Time) (s : State) : Host.Outcome State Fault Refusal :=
  let s := advance dt s
  .next (if s.running && !s.hold.complete && s.passed s.hold.deadline then escalateEntry s else s)

/-! ### The Coordinator's and the proposal's deadlines (R79, R198) -/

/-- GATHER_TIMEOUT (R79). -/
def execGatherTimeout (dt : Time) (s : State) : Host.Outcome State Fault Refusal :=
  let s := advance dt s
  .next (if s.running && (decide (s.coord.phase = .gathering) || decide (s.coord.phase = .recovering))
      && s.passed s.coord.deadline then
    raiseAbort .gatherTimeout (stationSet s.failingStations) s
  else s)

/-- The own proposal's 2 s (R198). -/
def proposalLimit : Time := ms 2000

/-- PROPOSAL_TIMEOUT (R198). -/
def execProposalTimeout (dt : Time) (s : State) : Host.Outcome State Fault Refusal :=
  let s := advance dt s
  .next (if s.running && s.passed (s.cal.proposal.map fun p => p.start + proposalLimit) then withdrawProposal 1 s else s)

end Sys2Proof.Machine
end

