-- ==== Sys2Proof/Machine/Link.lean ====
section
/-! DEFINITION. The meanings of the arm link's commands. -/

namespace Sys2Proof.Machine

/-- A link event takes place while the main domain runs and the link is SYNCED or ALONE. -/
def State.linkTimed (s : State) : Bool := s.running && s.link.state.sends

/-- LINK_CYCLE_START (R48, R52, R95). -/
def execLinkCycleStart (dt : Time) (s : State) : Host.Outcome State Fault Refusal :=
  let s := advance dt s
  .next (if s.linkTimed && s.reached (s.link.cycleStart + (s.period : Rat) + s.link.correction) then startCycle s else s)

/-- OWN_SLOT_START (R57). -/
def execOwnSlotStart (dt : Time) (s : State) : Host.Outcome State Fault Refusal :=
  let s := advance dt s
  .next (if s.linkTimed && s.reached (s.slotStart s.own.val) then ownSlot s else s)

/-- The transmission in progress is abandoned (R58, R59): the count, LISTENING, and at 3 DUPLICATE_STATION and muted. -/
def abandonFrame (s : State) : State :=
  let count := s.link.mismatches + 1
  let s := enterListening (s.setLink { s.link with mismatches := count })
  if 3 ≤ count then
    raiseAbort .duplicateStation (s.own.val : Int) (s.setLink { s.link with mismatches := 0, muted := true })
  else s

/-- READBACK_MISMATCH (R58). -/
def execReadbackMismatch (dt : Time) (s : State) : Host.Outcome State Fault Refusal :=
  let s := advance dt s
  .next (if s.linkTimed && s.transmitting then abandonFrame s else s)

/-- FRAME_TRANSMIT_END (R58). -/
def execFrameTransmitEnd (dt : Time) (s : State) : Host.Outcome State Fault Refusal :=
  let s := advance dt s
  .next (if s.linkTimed && s.transmitting then s.setLink { s.link with mismatches := 0, tx := none } else s)

/-- A frame has been received (R60): its discards, then the link state's treatment. `ago` is how long ago its first bit
began (log entry 31). -/
def receiveFrame (ago : Time) (bytes : List Byte) (s : State) : State :=
  match parseFrame bytes with
  | none => s
  | some r => if r.station = s.own then s else examineFrame r ((s.now : Rat) - (ago : Rat)) s

/-- FRAME_RECEIVED (R60). -/
def execFrameReceived (dt : Time) (ago : Time) (bytes : List Byte) (s : State) : Host.Outcome State Fault Refusal :=
  let s := advance dt s
  .next (if s.running then receiveFrame ago bytes s else s)

/-- CYCLE_END_EVAL (R52, R54, R56): at the end of slot 7. -/
def execCycleEndEval (dt : Time) (s : State) : Host.Outcome State Fault Refusal :=
  let s := advance dt s
  .next (if s.linkTimed && s.reached (s.slotStart 8) then cycleEnd s else s)

/-- The end of another station's slot (R68): its entry ages unless a frame was accepted for it. -/
def slotEnd (k : Station) (s : State) : State :=
  if s.link.heard.contains k then s.setLink { s.link with heard := s.link.heard.filter fun j => decide (j ≠ k) }
  else agePeer k s

/-- SLOT_END_AGING (R68). -/
def execSlotEndAging (dt : Time) (k : Station) (s : State) : Host.Outcome State Fault Refusal :=
  let s := advance dt s
  .next (if s.linkTimed && decide (k ≠ s.own) && s.reached (s.slotStart (k.val + 1)) then slotEnd k s else s)

/-- The end of a CYCLE_PERIOD in LISTENING (R67, R68): the own entry is refreshed, and the peers age. -/
def listenPeriod (s : State) : State := ageAll (packAndRefresh s)

/-- LISTEN_PERIOD_END (R67, R68). -/
def execListenPeriodEnd (dt : Time) (s : State) : Host.Outcome State Fault Refusal :=
  let s := advance dt s
  .next (if s.running && decide (s.link.state = .listening) && decide (s.link.listenSince + s.period ≤ s.now) then
    listenPeriod s else s)

/-- The listening wait (R51). -/
def State.listenWait (s : State) : Time := (2 + s.own.val) * s.period

/-- The station times itself and goes ALONE (R51): cycle 0 starts now, with its mark latch. That LINK_ALONE's hold is
raised before the latch, so that the frame shows it, is the model's choice (R95; log entry 33). -/
def timeItself (s : State) : State :=
  let s := s.setLink { s.link with
    state := .alone, timed := true, cycle := some 0, cycleStart := (s.now : Rat), correction := 0, heard := [],
    offsets := [], acceptedInCycle := false, foreignInCycle := false, foreignCycles := 0 }
  markLatch (raiseLinkAlone 1 s)

/-- LISTEN_TIMEOUT (R51). -/
def execListenTimeout (dt : Time) (s : State) : Host.Outcome State Fault Refusal :=
  let s := advance dt s
  .next (if s.running && decide (s.link.state = .listening)
      && decide (s.link.listenSince + s.listenWait ≤ s.now) then timeItself s else s)

end Sys2Proof.Machine
end

