-- ==== Sys2Proof/Machine/Reports.lean ====
section
/-! DEFINITION. What the drive port sends: the response record (R200, R202), and the data bytes of the read requests
(R207 to R210). -/

namespace Sys2Proof.Machine

/-! ### The response record (R200, R202) -/

/-- A status's code (R202). -/
def PortStatus.code : PortStatus → Byte
  | .ok => 0 | .busy => 1 | .refusedPhase => 2 | .refusedHold => 3 | .tooLate => 4
  | .idle => 5 | .invalid => 6 | .full => 7 | .notSettled => 8 | .notKey => 9

/-- The response record: the start byte, the status, N as 16 bits, and the N data bytes (R200). -/
def Response.record (r : Response) : List Byte :=
  [0x5A, r.status.code] ++ be16 (BitVec.ofNat 16 r.data.length) ++ r.data

/-- Byte `k` that SDO carries from the arrival on, while nCS stays low: two idle bytes, the response record, and FFh
after it. With no response it is FFh, as while a request record is received (R200, R201). -/
def Port.sends (p : Port) (k : Nat) : Byte :=
  match p.response with
  | none => 0xFF
  | some r => ([0xFF, 0xFF] ++ r.record)[k]?.getD 0xFF

/-! ### Pieces -/

/-- A byte of flags, bit 0 first. -/
def flagByte (l : List Bool) : Byte := byteOf (l.zipIdx.foldl (fun a x => a + flag x.2 x.1) 0)

/-- A time left in ms, rounded down; FFFFh when there is no deadline (R207; log entry 37). -/
def State.timeLeft (s : State) (d : Option Time) : List Byte :=
  match d with
  | none => [0xFF, 0xFF]
  | some t => be16 (BitVec.ofNat 16 (min 0xFFFF ((t - s.now) / 1000000)))

/-- A flag in bit 7 and packings left in bits 0 to 4 (R207). -/
def packingsByte (f : Bool) (left : Nat) : Byte := byteOf (flag 7 f + left % 32)

/-- An optional step index, FFh when none. -/
def stepByte : Option Nat → Byte
  | some i => byteOf i
  | none => 0xFF

/-- An optional position as a present flag and five bytes, 0 when absent (log entry 37). -/
def optPosition (p : Option Position) : List Byte := boolByte p.isSome :: be40 (p.getD 0)

/-- An optional number as a present flag and four bytes, 0 when absent (log entry 37). -/
def optWord (v : Option Int) : List Byte := boolByte v.isSome :: be32 (BitVec.ofInt 32 (v.getD 0))

/-- An optional cycle number as a present flag and four bytes, 0 when absent. -/
def optCycle (c : Option (BitVec 32)) : List Byte := boolByte c.isSome :: be32 (c.getD 0)

/-! ### STATUS (R207) -/

/-- The start group (R207). -/
def State.startGroup (s : State) : List Byte :=
  [byteOf s.own.val,
    flagByte [s.store.scanDone, s.sensing.settling, s.port.config.isSome, s.plan.isSealed, s.coord.journalActive],
    byteOf s.plan.steps.length]
  ++ be32 (s.plan.digest.getD 0) ++ be16 (s.port.configDigest.getD 0)

/-- The coordinator group (R207). -/
def State.coordGroup (s : State) : List Byte :=
  [byteOf s.coord.phase.code] ++ be16 (s.coord.run.getD 0) ++ be16 (s.coord.lastRunClaim.getD 0)
  ++ [byteOf s.coord.agreement] ++ s.timeLeft s.coord.deadline ++ [packingsByte s.coord.restart s.coord.restartLeft]

/-- The link group (R207). -/
def State.linkGroup (s : State) : List Byte :=
  [byteOf s.link.state.code, flagByte [s.link.muted, s.link.timed]] ++ be32 (s.link.cycle.getD 0)

/-- The hold group (R207). -/
def State.holdGroup (s : State) : List Byte :=
  be16 s.hold.seq ++ be16 s.hold.newest
  ++ [byteOf s.hold.level.code, s.hold.cause, byteOf s.hold.origin.val, boolByte s.hold.complete]
  ++ s.timeLeft s.hold.deadline ++ [boolByte s.hold.resume] ++ be16 s.hold.resumeFor
  ++ [packingsByte s.hold.lockClear s.hold.lockClearLeft, byteOf s.hold.keyCount, boolByte s.store.retainedLockout,
      boolByte s.store.closing.isSome]

/-- A gate state's code (R207). -/
def GateState.code : GateState → Nat
  | .closed => 0 | .opened => 1 | .awaitStill => 2 | .awaitBrake => 3

/-- The gate group (R207). -/
def State.gateGroup (s : State) : List Byte := [byteOf s.gate.code, flagByte [s.moveOk, s.brakeOk]]

/-- A seek kind's code (R207). -/
def SeekKind.code : SeekKind → Nat
  | .witness => 0 | .index => 1 | .switch => 2

/-- A seek's SWITCH phase byte, FFh for the other kinds (R207). -/
def SeekContext.phaseByte (c : SeekContext) : Byte :=
  if c.kind = .switch then (match c.phase with | .toSwitch => 0 | .toMark => 1) else 0xFF

/-- A seek's end cause code (R207). -/
def seekEndCode : Option SeekEnd → Nat
  | none => 0 | some .exhausted => 1 | some .stalled => 2 | some .abandoned => 3 | some .hold => 4

/-- The operation byte and the three seek bytes (R207). -/
def Operation.bytes : Operation → List Byte
  | .none => [0, 0xFF, 0xFF, 0xFF]
  | .seek c => [1, byteOf c.kind.code, c.phaseByte, byteOf (seekEndCode c.endCause)]
  | .park _ => [2, 0xFF, 0xFF, 0xFF]
  | .survey _ => [3, 0xFF, 0xFF, 0xFF]

/-- The engine group (R207). -/
def State.engineGroup (s : State) : List Byte :=
  [byteOf s.engine.refState.code, boolByte s.engine.parked] ++ s.engine.operation.bytes

/-- A step status's code (R207). -/
def StepStatus.code : StepStatus → Nat
  | .pending => 0 | .claiming => 1 | .running => 2 | .done => 3 | .skipped => 4 | .failedWait => 5

/-- The step byte of index `i`: an own step's status and retry count, else 7 (R207; log entry 37). -/
def State.stepStatusByte (s : State) (i : Nat) : Byte :=
  match s.plan.steps[i]?, s.plan.table[i]? with
  | some r, some x => if r.owner = s.own then byteOf (x.status.code + 16 * x.retries) else 7
  | _, _ => 7

/-- The plan group (R207). -/
def State.planGroup (s : State) : List Byte :=
  [stepByte s.plan.claim, flagByte [s.plan.running, s.plan.yieldReturn, s.plan.dropMotion]]
  ++ (List.range 32).map s.stepStatusByte

/-- A start kind's code (R207). -/
def StartKind.code : StartKind → Nat
  | .power => 0 | .pin => 1 | .port => 2

/-- A class reason's code, 0 when absent (R110, R207). -/
def reasonCode : Option ClassReason → Nat
  | none => 0
  | some .continuity => 1 | some .restarted => 2 | some .finalTail => 3 | some .orderlyTail => 4 | some .noTail => 5
  | some .tailNotReferenced => 6 | some .routineTail => 7 | some .oldRun => 8 | some .spread => 9 | some .sector => 10

/-- The own claim's bytes (R207). -/
def claimBytes : Option Claim → List Byte
  | none => List.replicate 9 0
  | some c =>
    [match c.kind with | .journal => 1 | .live => 2] ++ be16 c.tailRun ++ be32 c.tailCycle
    ++ [byteOf (tailKindCode c.tailKind), flagByte [c.continuity, c.sectorAgree]]

/-- The agreed stop's bytes (R207). -/
def stopBytes : Option AgreedStop → List Byte
  | none => List.replicate 8 0
  | some x =>
    [flagByte [true, x.run.isSome, x.latestFinal.isSome]] ++ be16 (x.run.getD 0) ++ be32 (x.latestFinal.getD 0)
    ++ [boolByte x.loadHeld]

/-- The recovery group (R207). -/
def State.recoveryGroup (s : State) : List Byte :=
  [byteOf s.coord.start.kind.code, boolByte s.coord.start.aliveAtStart, byteOf (tailKindCode s.coord.start.tailKind),
    byteOf s.coord.confidence.code, byteOf (reasonCode s.coord.reason)]
  ++ claimBytes s.coord.ownClaim ++ stopBytes s.coord.stop

/-- The write port byte (R207). -/
def portByte : Option InFlight → Byte
  | none => 0
  | some f => byteOf (flag 7 true + f.request.kind.num)

/-- The store group (R207). -/
def State.storeGroup (s : State) : List Byte :=
  [s.link.lastFault, portByte s.store.port, flagByte (s.store.pending.toList.map Option.isSome)]

/-- The data of STATUS (R207). -/
def State.statusData (s : State) : List Byte :=
  [s.port.attention.byte] ++ s.startGroup ++ s.coordGroup ++ s.linkGroup ++ s.holdGroup ++ s.gateGroup
  ++ s.engineGroup ++ s.planGroup ++ s.recoveryGroup ++ s.storeGroup

/-! ### POSITION (R208) -/

/-- A standby error kind's code (R208). -/
def StandbyError.code : StandbyError → Nat
  | .none => 0 | .supplyLost => 1 | .quadError => 2 | .overspeed => 3

/-- A direction's code (R208, R210). -/
def Direction.code : Direction → Nat
  | .positive => 0 | .negative => 1

/-- The 17 bytes of a capture record (R208). -/
def Capture.bytes (c : Capture) : List Byte :=
  be40 c.raw ++ [byteOf c.sector, byteOf c.dir.code] ++ optCycle c.cycle ++ optWord c.mark

/-- The data of POSITION (R208). -/
def State.positionData (s : State) : List Byte :=
  be40 s.standby.counter
  ++ [boolByte s.standby.continuity, byteOf s.standby.error.code, boolByte s.standby.alive]
  ++ be40 (BitVec.ofNat 40 s.standby.excursion) ++ be40 s.standby.supplyLoss
  ++ [match s.sensing.accepted with | some n => byteOf n | none => 0xFF, boolByte s.sensing.moving,
      byteOf s.engine.refState.code, boolByte s.engine.parked]
  ++ optPosition (s.engine.lastDeviation.map (BitVec.ofInt 40))
  ++ [byteOf s.sensing.captures.length] ++ s.sensing.captures.flatMap Capture.bytes

/-! ### PEERS and FAULTS (R209) -/

/-- A loss state's code (R209). -/
def LossState.code : LossState → Nat
  | .neverHeard => 0 | .active => 1 | .lost => 2

/-- An entry of the peer table (R209). -/
def PeerEntry.bytes (e : PeerEntry) : List Byte :=
  [byteOf e.loss.code, byteOf e.silence]
  ++ (match e.record with | some r => r.pack | none => List.replicate 36 0)

/-- The data of PEERS (R209). The bits of its flag byte are those of STATUS, muted bit 0 and timed bit 1 (R207; log entry
61). -/
def State.peersData (s : State) : List Byte :=
  [byteOf s.link.state.code, flagByte [s.link.muted, s.link.timed]] ++ be32 (s.link.cycle.getD 0)
  ++ [byteOf s.link.mismatches, byteOf s.link.silentCycles, byteOf s.link.foreignCycles]
  ++ s.peers.toList.flatMap PeerEntry.bytes

/-- A fault class's code (R209). -/
def FaultClass.code : FaultClass → Nat
  | .note => 0 | .retry => 1 | .hold => 2 | .abort => 3 | .escalation => 4

/-- The 17 bytes of a fault record (R209). -/
def FaultRecord.bytes (r : FaultRecord) : List Byte :=
  [r.code, byteOf r.cls.code, byteOf r.origin.val, stepByte r.step] ++ be16 (r.run.getD 0) ++ optCycle r.cycle
  ++ be16 r.seq ++ be32 r.detail

/-- The data of FAULTS (R209). -/
def State.faultsData (s : State) : List Byte :=
  byteOf s.hold.faults.length :: s.hold.faults.flatMap FaultRecord.bytes

/-! ### ORDER, JOURNAL_READ and CAL_READ (R210) -/

/-- An order reason's code (R210). -/
def OrderReason.code : OrderReason → Nat
  | .seek => 0 | .park => 1 | .survey => 2 | .hold => 3

/-- The ten bytes of the motion order record (R210). -/
def MotionOrder.bytes : MotionOrder → List Byte
  | .none => [0, 0] ++ be40 0 ++ be16 0 ++ [0xFF]
  | .jog d v r => [1, byteOf d.code] ++ be40 0 ++ be16 (BitVec.ofNat 16 v) ++ [byteOf r.code]
  | .goto t v r => [2, 0] ++ be40 t ++ be16 (BitVec.ofNat 16 v) ++ [byteOf r.code]
  | .stop r => [3, 0] ++ be40 0 ++ be16 0 ++ [byteOf r.code]

/-- The ring slot `n` places back from the tail (R109). -/
def slotBack (tail : Fin 96) (n : Nat) : Fin 96 := tail - Fin.ofNat 96 n

/-- The data of JOURNAL_READ for a slot (R109, R210). -/
def State.slotData (s : State) (i : Fin 96) : List Byte :=
  [byteOf i.val, boolByte (frameSealed (s.ringSlot i))] ++ s.ringSlot i

/-- The state verdict of a calibration slot (R199, R210; log entry 37). -/
def State.calVerdict (s : State) (c : CalSlot) : Byte :=
  let b := s.calSlot c
  if byteAt b 0 = calCommittedByte then 2
  else if byteAt b 0 = calStagedByte then
    (if calSealed b && !(s.cal.staged.isSome && decide (s.cal.spare = c)) then 3 else 1)
  else 0

/-- A calibration slot as CAL_READ gives it (R210). -/
def State.calSlotData (s : State) (c : CalSlot) : List Byte :=
  s.calSlot c ++ [boolByte (calSealed (s.calSlot c)), s.calVerdict c]

/-- A calibration slot's code (R210). -/
def CalSlot.code : CalSlot → Byte
  | .a => 0 | .b => 1

/-- The committed and staged records (R210). -/
def Cal.choiceBytes (c : Cal) : List Byte :=
  [match c.committed with | some (x, _) => x.code | none => 0xFF] ++ be16 c.generation
  ++ [if c.staged.isSome then c.spare.code else 0xFF] ++ be16 c.stagedGeneration
  ++ [boolByte c.sealedInSighting]

/-- The values in use and the pending changes (R210). -/
def Cal.valueBytes (c : Cal) : List Byte :=
  be32 (BitVec.ofInt 32 c.trim) ++ be32 (BitVec.ofInt 32 c.backlash) ++ [boolByte c.heldShift]
  ++ optWord c.pendTrim ++ optWord c.pendBacklash

/-- The own proposal and the sighting (R210). -/
def State.proposalBytes (s : State) : List Byte :=
  (match s.cal.proposal with
   | some p =>
     be16 p.generation ++ be16 (BitVec.ofNat 16 (min 0xFFFF ((s.now - p.start) / 1000000))) ++ [boolByte p.flipPosted]
   | none => [0, 0, 0, 0, 0])
  ++ be16 (s.cal.sighting.getD 0) ++ [boolByte s.cal.stagedInSighting, boolByte s.cal.flipFailed]

/-- A survey kind's code (R210). -/
def SurveyKind.code : SurveyKind → Byte
  | .backlash => 0 | .ratio => 1

/-- A survey outcome's code (R210). -/
def SurveyOutcome.code : SurveyOutcome → Byte
  | .done => 0 | .failed => 1 | .abandoned => 2 | .held => 3

/-- The last survey result (R210): a present flag, then its fields, 0 while absent (log entry 37). -/
def resultBytes : Option SurveyResult → List Byte
  | none => List.replicate 28 0
  | some r =>
    [1, r.kind.code] ++ be16 (BitVec.ofInt 16 r.mark) ++ [r.outcome.code, byteOf r.failPhase]
    ++ optPosition r.first ++ optPosition r.second ++ optWord r.result ++ [boolByte r.pendingFilled]
    ++ be32 (r.cycle.getD 0)

/-- The data of CAL_READ (R199, R210). -/
def State.calData (s : State) : List Byte :=
  s.calSlotData .a ++ s.calSlotData .b ++ s.cal.choiceBytes ++ s.cal.valueBytes ++ s.proposalBytes
  ++ resultBytes s.cal.result

end Sys2Proof.Machine
end

