-- ==== Sys2Proof/Machine/Port.lean ====
section
/-! DEFINITION. The meanings of the drive port's commands. -/

namespace Sys2Proof.Machine

/-! ### Transactions (R200 to R202, R177) -/

/-- The answer to a request: its status, its data when OK, and the state it leaves. -/
structure Reply where
  status : PortStatus
  data : List Byte
  state : State
  deriving DecidableEq, Repr

/-- A refused request has no effect (R202). -/
def Reply.refuse (st : PortStatus) (s : State) : Reply := ⟨st, [], s⟩

/-- A request answered OK with its data. -/
def Reply.ok (data : List Byte) (s : State) : Reply := ⟨.ok, data, s⟩

/-- What the arrival of a request does before it is decided (R177, R211; log entry 39): the record being received is
complete, causes an earlier STATUS reported and never removed are no longer the reported ones, and the key count is
reset by every request but LOCKOUT_CLEAR. -/
def openRequest (keepsKey : Bool) (s : State) : State :=
  let s := s.setPort { s.port with receiving := none, reported := .empty, response := none }
  if keepsKey then s else s.setHold { s.hold with keyCount := 0 }

/-- The response record is assembled at the arrival (R200). -/
def closeRequest (r : Reply) : State :=
  r.state.setPort { r.state.port with response := some ⟨r.status, r.data⟩ }

/-- A request arrives: checked for its fixed length, then decided (R200, R201). While a RESET waits for the rise of nCS no
transaction begins (R212). -/
def answerRequest (keepsKey : Bool) (len : Nat) (params : List Byte) (decideOn : State → Reply) (s : State) : State :=
  if s.portReady then
    let s := openRequest keepsKey s
    closeRequest (if params.length = len then decideOn s else .refuse .invalid s)
  else s

/-! ### Setting up (R73, R130, R131, R203) -/

/-- The four dispositions of a configuration (R155). -/
def Hold.dispose (h : Hold) (c : Configuration) : Hold :=
  { h with spuriousHold := c.spuriousHold, backlashHold := c.backlashHold, ratioHold := c.ratioHold,
           driftHold := c.driftHold }

/-- CONFIGURE decided (R203). -/
def decideConfigure (p : List Byte) (s : State) : Reply :=
  if s.coord.phase ≠ .isolated then .refuse .refusedPhase s
  else if s.port.config.isSome then .refuse .invalid s
  else match parseConfiguration s.own p with
    | none => .refuse .invalid s
    | some c =>
      let s := s.setPort { s.port with config := some c, configDigest := some (crc16 (p.take 13)) }
      .ok [] (s.setHold (s.hold.dispose c))

/-- CONFIGURE (R203). -/
def execConfigure (dt : Time) (params : List Byte) (s : State) : Host.Outcome State Fault Refusal :=
  .next (answerRequest false 61 params (decideConfigure params) (advance dt s))

/-- PLAN_CLEAR decided (R130). -/
def decidePlanClear (s : State) : Reply :=
  if s.coord.phase ≠ .isolated then .refuse .refusedPhase s
  else .ok [] (s.setPlan { s.plan with steps := [], table := [], isSealed := false, digest := none })

/-- PLAN_CLEAR (R130). -/
def execPlanClear (dt : Time) (params : List Byte) (s : State) : Host.Outcome State Fault Refusal :=
  .next (answerRequest false 0 params decidePlanClear (advance dt s))

/-- A step names only stations of the arm (R130, R131). -/
def StepRecord.inArm (r : StepRecord) (size : Nat) : Bool :=
  decide (r.owner.val < size) && r.guards.all fun g => decide (g.1.val < size)

/-- PLAN_STEP decided, its checks in the order of R130. -/
def decidePlanStep (p : List Byte) (s : State) : Reply :=
  if s.coord.phase ≠ .isolated then .refuse .refusedPhase s
  else if s.plan.isSealed then .refuse .invalid s
  else if 32 ≤ s.plan.steps.length then .refuse .full s
  else if s.port.config.isNone then .refuse .invalid s
  else if rd p 0 1 ≠ s.plan.steps.length then .refuse .invalid s
  else match parseStep p with
    | none => .refuse .invalid s
    | some r =>
      if r.inArm s.cfg.armSize then .ok [] (s.setPlan { s.plan with steps := s.plan.steps ++ [r] })
      else .refuse .invalid s

/-- PLAN_STEP (R130, R206). -/
def execPlanStep (dt : Time) (params : List Byte) (s : State) : Host.Outcome State Fault Refusal :=
  .next (answerRequest false 20 params (decidePlanStep params) (advance dt s))

/-- PLAN_SEAL decided (R131). -/
def decidePlanSeal (s : State) : Reply :=
  if s.coord.phase ≠ .isolated then .refuse .refusedPhase s
  else if s.plan.isSealed || s.plan.steps.isEmpty || s.port.config.isNone
      || !(s.plan.steps.all fun r => r.inArm s.cfg.armSize) then .refuse .invalid s
  else
    let d := planDigest s.plan.steps
    .ok (be32 d) (s.setPlan { s.plan with
      isSealed := true, digest := some d, table := s.plan.steps.map fun _ => ⟨.pending, s.cfg.retryLimit, none⟩ })

/-- PLAN_SEAL (R131). -/
def execPlanSeal (dt : Time) (params : List Byte) (s : State) : Host.Outcome State Fault Refusal :=
  .next (answerRequest false 0 params decidePlanSeal (advance dt s))

/-- The lowest own step that fails the checks of R132. -/
def State.joinVerdict (s : State) : Option Nat :=
  (s.plan.steps.find? fun r => decide (r.owner = s.own) && r.failsAtJoin s.cfg).map (·.index)

/-- The station joins (R49, R67, R73). -/
def joinArm (s : State) : State :=
  let s := s.setCoord { s.coord with verdict := s.joinVerdict }
  handOff (refreshOwn (enterListening (setPhase .gathering s)))

/-- JOIN decided (R73). -/
def decideJoin (s : State) : Reply :=
  if s.coord.phase ≠ .isolated then .refuse .refusedPhase s
  else if s.port.config.isNone || !s.plan.isSealed then .refuse .invalid s
  else if !s.store.scanDone then .refuse .busy s
  else .ok [] (joinArm s)

/-- JOIN (R73). -/
def execJoin (dt : Time) (params : List Byte) (s : State) : Host.Outcome State Fault Refusal :=
  .next (answerRequest false 0 params decideJoin (advance dt s))

/-! ### Reads (R207 to R210) -/

/-- STATUS decided: its causes are the reported ones until the response has been clocked out (R207, R211). -/
def decideStatus (s : State) : Reply := .ok s.statusData (s.setPort { s.port with reported := s.port.attention })

/-- STATUS (R207). -/
def execStatus (dt : Time) (params : List Byte) (s : State) : Host.Outcome State Fault Refusal :=
  .next (answerRequest false 0 params decideStatus (advance dt s))

/-- PEERS decided (R209). -/
def decidePeers (s : State) : Reply := .ok s.peersData s

/-- PEERS (R209). -/
def execPeers (dt : Time) (params : List Byte) (s : State) : Host.Outcome State Fault Refusal :=
  .next (answerRequest false 0 params decidePeers (advance dt s))

/-- POSITION decided (R11, R208). -/
def decidePosition (s : State) : Reply :=
  if s.sensing.settling then .refuse .notSettled s else .ok s.positionData s

/-- POSITION (R208). -/
def execPosition (dt : Time) (params : List Byte) (s : State) : Host.Outcome State Fault Refusal :=
  .next (answerRequest false 0 params decidePosition (advance dt s))

/-- ORDER decided (R210). -/
def decideOrder (s : State) : Reply := .ok s.engine.order.bytes s

/-- ORDER (R210). -/
def execOrder (dt : Time) (params : List Byte) (s : State) : Host.Outcome State Fault Refusal :=
  .next (answerRequest false 0 params decideOrder (advance dt s))

/-- FAULTS decided (R209). -/
def decideFaults (s : State) : Reply := .ok s.faultsData s

/-- FAULTS (R209). -/
def execFaults (dt : Time) (params : List Byte) (s : State) : Host.Outcome State Fault Refusal :=
  .next (answerRequest false 0 params decideFaults (advance dt s))

/-- CAL_READ decided (R199, R210). -/
def decideCalRead (s : State) : Reply := if s.store.scanDone then .ok s.calData s else .refuse .busy s

/-- CAL_READ (R199, R210). -/
def execCalRead (dt : Time) (params : List Byte) (s : State) : Host.Outcome State Fault Refusal :=
  .next (answerRequest false 0 params decideCalRead (advance dt s))

/-- JOURNAL_READ decided (R109, R210). -/
def decideJournalRead (p : List Byte) (s : State) : Reply :=
  if 95 < rd p 0 1 then .refuse .invalid s
  else if !s.store.scanDone then .refuse .busy s
  else match s.store.tail with
    | none => .refuse .idle s
    | some t => .ok (s.slotData (slotBack t.slot (rd p 0 1))) s

/-- JOURNAL_READ (R109, R210). -/
def execJournalRead (dt : Time) (params : List Byte) (s : State) : Host.Outcome State Fault Refusal :=
  .next (answerRequest false 1 params (decideJournalRead params) (advance dt s))

/-- FAULT_CLEAR decided (R157). -/
def decideFaultClear (s : State) : Reply := .ok [] (s.setHold { s.hold with faults := [] })

/-- FAULT_CLEAR (R157). -/
def execFaultClear (dt : Time) (params : List Byte) (s : State) : Host.Outcome State Fault Refusal :=
  .next (answerRequest false 0 params decideFaultClear (advance dt s))

/-! ### The engine and calibration (R40, R184, R185, R190) -/

/-- A running seek is abandoned (R40): the end cause and STOP, ABANDONED at once, then the return if at standstill. -/
def abandonSeek (c : SeekContext) (s : State) : State :=
  let c := { c with endCause := some .abandoned, endDetail := 0 }
  let s := engineWrite (.stop .seek) (s.setEngine { s.engine with operation := .seek c })
  let s := raiseFault .abandoned (if c.step.isSome then .hold else .note) c.step 1 s
  if s.still then seekReturn c .abandoned s else s

/-- A running survey is abandoned (R40). -/
def abandonSurvey (c : SurveyContext) (s : State) : State :=
  let c := { c with endCause := some .abandoned }
  let s := engineWrite (.stop .survey) (s.setEngine { s.engine with operation := .survey c })
  let s := noteFault .abandoned .note none 2 s
  if s.still then surveyReturn c .abandoned s else s

/-- ABANDON decided (R40); staging may follow the end of a survey (R191). -/
def decideAbandon (s : State) : Reply :=
  match s.engine.operation with
  | .seek c =>
    if s.engine.refState ≠ .seeking then .refuse .tooLate s
    else if c.endCause.isSome then .refuse .tooLate s
    else .ok [] (abandonSeek c s)
  | .survey c => if c.endCause.isSome then .refuse .tooLate s else .ok [] (stageTest (abandonSurvey c s))
  | _ => .refuse .idle s

/-- ABANDON (R40). -/
def execAbandon (dt : Time) (params : List Byte) (s : State) : Host.Outcome State Fault Refusal :=
  .next (answerRequest false 0 params decideAbandon (advance dt s))

/-- A sighting is in progress, or the own proposal is present (R184, R185). -/
def State.calHeld (s : State) : Bool := s.cal.sighting.isSome || s.cal.proposal.isSome

/-- A survey kind by its code (chapter 10 "The requests"). -/
def SurveyKind.ofCode : Nat → Option SurveyKind
  | 0 => some .backlash
  | 1 => some .ratio
  | _ => none

/-- The mark of a survey lies inside the travel range (R185). -/
def SurveyKind.inTravel (k : SurveyKind) (m : Int) (c : Configuration) : Bool :=
  match k with
  | .backlash => decide (c.travelMin ≤ m) && decide (m ≤ c.travelMax)
  | .ratio => decide (c.travelMin ≤ m) && decide (m + 1 ≤ c.travelMax)

/-- A survey is taken (R185, R186). -/
def startSurvey (k : SurveyKind) (m : Int) (s : State) : State :=
  let c : SurveyContext :=
    { kind := k, mark := m, phase := 1, first := none, second := none, measure := none, start := s.standby.counter,
      phaseStart := s.standby.counter, base := s.standby.counter, stall := s.stallNow, endCause := none,
      failPhase := 0 }
  let s := s.setEngine { s.engine with refState := .surveying, parked := false, operation := .survey c }
  let s := gateUpdate (s.setCal { s.cal with result := none })
  surveyEnterApproach c 1 s

/-- The status an engine refusal is answered with (R29). -/
def EngineAnswer.refusal : EngineAnswer → Option PortStatus
  | .taken => none
  | .invalid => some .invalid
  | .busy => some .busy
  | .refusedHold => some .refusedHold

/-- SURVEY decided, its conditions in the order of R185. -/
def decideSurvey (p : List Byte) (s : State) : Reply :=
  if s.coord.phase ≠ .ready then .refuse .refusedPhase s
  else match s.referencedAnswer.refusal with
    | some st => .refuse st s
    | none =>
      if s.calHeld then .refuse .busy s
      else match SurveyKind.ofCode (rd p 0 1) with
        | none => .refuse .invalid s
        | some k =>
          if k.inTravel (rdSigned16 p 1) s.cfg then .ok [] (startSurvey k (rdSigned16 p 1) s)
          else .refuse .invalid s

/-- SURVEY (R185). -/
def execSurvey (dt : Time) (params : List Byte) (s : State) : Host.Outcome State Fault Refusal :=
  .next (answerRequest false 3 params (decideSurvey params) (advance dt s))

/-- The value TRIM computes (R184). -/
def State.trimValue (s : State) (target : Position) : Int := s.cal.committedTrim + (s.counter - target.toInt)

/-- TRIM decided, its conditions in the order of R184. -/
def decideTrim (p : List Byte) (s : State) : Reply :=
  if s.coord.phase ≠ .ready then .refuse .refusedPhase s
  else match s.trimAnswer.refusal with
    | some st => .refuse st s
    | none =>
      if s.calHeld then .refuse .busy s
      else
        let v := s.trimValue (rdPosition p 0)
        if s.cfg.cps ≤ v.natAbs then .refuse .invalid s
        else .ok (be32 (BitVec.ofInt 32 v)) (s.setCal { s.cal with pendTrim := some v })

/-- TRIM (R184). -/
def execTrim (dt : Time) (params : List Byte) (s : State) : Host.Outcome State Fault Refusal :=
  .next (answerRequest false 5 params (decideTrim params) (advance dt s))

/-- The BUSY conditions of CAL_COMMIT (R190). -/
def State.commitBusy (s : State) : Bool :=
  !(s.arm.all fun j => match s.heardRecord j with
    | some r => decide (r.committed = s.cal.generation) && decide (r.proposal = 0)
    | none => false)
  || s.calHeld || decide (s.engine.refState = .surveying) || s.store.calBusy

/-- The own proposal of generation `g` begins, with its sighting (R190, R191). -/
def propose (g : BitVec 16) (s : State) : State :=
  stageTest (sightingUpdate (s.setCal { s.cal with proposal := some ⟨g, s.now, false⟩ }))

/-- CAL_COMMIT decided, its conditions in the order of R190. -/
def decideCalCommit (s : State) : Reply :=
  if s.coord.phase ≠ .ready then .refuse .refusedPhase s
  else if s.hold.level ≠ .none then .refuse .refusedHold s
  else match s.cal.nextGeneration with
    | none => .refuse .invalid s
    | some g =>
      if s.cal.flipFailed then .refuse .invalid s
      else if s.commitBusy then .refuse .busy s
      else .ok (be16 g) (propose g s)

/-- CAL_COMMIT (R190). -/
def execCalCommit (dt : Time) (params : List Byte) (s : State) : Host.Outcome State Fault Refusal :=
  .next (answerRequest false 0 params decideCalCommit (advance dt s))

/-! ### Holds (R86, R174, R177, R179) -/

/-- RESUME decided (R174). -/
def decideResume (s : State) : Reply :=
  match s.hold.level with
  | .none => .refuse .idle s
  | .lockout => .refuse .refusedHold s
  | .stop | .drop =>
    if s.hold.complete then
      .ok [] (resumeHold (s.setHold { s.hold with resume := true, resumeFor := s.hold.seq }))
    else .refuse .busy s

/-- RESUME (R174). -/
def execResume (dt : Time) (params : List Byte) (s : State) : Host.Outcome State Fault Refusal :=
  .next (answerRequest false 0 params decideResume (advance dt s))

/-- RESTART decided (R86). -/
def decideRestart (s : State) : Reply :=
  if s.coord.phase ≠ .halted then .refuse .refusedPhase s
  else if s.mayRestart then .ok [] (restartStation s)
  else .refuse .refusedHold s

/-- RESTART (R86). -/
def execRestart (dt : Time) (params : List Byte) (s : State) : Host.Outcome State Fault Refusal :=
  .next (answerRequest false 0 params decideRestart (advance dt s))

/-- The key count with a value. -/
def setKeyCount (n : Nat) (s : State) : State := s.setHold { s.hold with keyCount := n }

/-- The last key instant lies within 2 s (R177). -/
def State.keyInTime (s : State) : Bool :=
  match s.hold.lastKey with
  | some t => decide (s.now ≤ t + ms 2000)
  | none => false

/-- LOCKOUT_CLEAR decided (R177); the data are the key count after the request. -/
def decideLockoutClear (s : State) : Reply :=
  if s.coord.phase = .isolated then .refuse .refusedPhase (setKeyCount 0 s)
  else if s.hold.level ≠ .lockout then .refuse .idle (setKeyCount 0 s)
  else if !s.sensing.keySw.level then .refuse .notKey (setKeyCount 0 s)
  else
    let inTime := s.keyInTime
    let s := s.setHold { s.hold with lastKey := some s.now }
    if s.hold.keyCount = 0 ∨ inTime = false then .ok [1] (setKeyCount 1 s)
    else if s.hold.keyCount = 1 then .ok [2] (setKeyCount 2 s)
    else .ok [0] (clearLockout (setKeyCount 0 s))

/-- LOCKOUT_CLEAR (R177). With a wrong length byte it is answered INVALID (R201) and keeps the key count, the model's
choice (log entry 65). -/
def execLockoutClear (dt : Time) (params : List Byte) (s : State) : Host.Outcome State Fault Refusal :=
  .next (answerRequest true 0 params decideLockoutClear (advance dt s))

/-- SHUTDOWN decided (R179). -/
def decideShutdown (s : State) : Reply :=
  if !s.still || !s.braked then .refuse .busy s
  else if decide (s.hold.level = .lockout) || (s.hold.level.entering && !s.hold.complete) then .refuse .refusedHold s
  else .ok [] (raiseHold .shutdown 0 s)

/-- SHUTDOWN (R179). -/
def execShutdown (dt : Time) (params : List Byte) (s : State) : Host.Outcome State Fault Refusal :=
  .next (answerRequest false 0 params decideShutdown (advance dt s))

/-! ### RESET and the transaction events (R177, R201, R211, R212) -/

/-- RESET decided (R212): the port reset is armed for the rise of nCS. -/
def decideReset (s : State) : Reply := .ok [] (s.setPort { s.port with resetArmed := true })

/-- RESET (R212). -/
def execReset (dt : Time) (params : List Byte) (s : State) : Host.Outcome State Fault Refusal :=
  .next (answerRequest false 0 params decideReset (advance dt s))

/-- UNKNOWN_REQUEST_CODE (R201): answered INVALID whatever its length. -/
def execUnknownRequestCode (dt : Time) (_code : Byte) (params : List Byte) (s : State) : Host.Outcome State Fault Refusal :=
  .next (answerRequest false params.length params (.refuse .invalid) (advance dt s))

/-- The code of a request has been received (R177, R201, R211; log entry 39). -/
def receiveCode (code : Byte) (s : State) : State :=
  let s := s.setPort { s.port with receiving := some code, reported := .empty, response := none }
  if code = lockoutClearCode then s else s.setHold { s.hold with keyCount := 0 }

/-- REQUEST_CODE_RECEIVED (R177). -/
def execRequestCodeReceived (dt : Time) (code : Byte) (s : State) : Host.Outcome State Fault Refusal :=
  let s := advance dt s
  .next (if s.portReady then receiveCode code s else s)

/-- TRANSACTION_CUT (R201): the partial record is discarded and no response is sent. -/
def execTransactionCut (dt : Time) (s : State) : Host.Outcome State Fault Refusal :=
  let s := advance dt s
  .next (if s.portReady then s.setPort { s.port with receiving := none, reported := .empty, response := none } else s)

/-- STATUS_RESPONSE_END (R211): the reported causes are removed. -/
def execStatusResponseEnd (dt : Time) (s : State) : Host.Outcome State Fault Refusal :=
  let s := advance dt s
  .next (if s.portReady then
      s.setPort { s.port with attention := s.port.attention.diff s.port.reported, reported := .empty }
    else s)

end Sys2Proof.Machine
end

