-- ==== Sys2Proof/Machine/Dispatch.lean ====
section
/-! DEFINITION. The dispatch of a command to its meaning, one arm for each constructor of Instr. -/

namespace Sys2Proof.Machine

/-- The command's effect on everything but the queue. -/
def exec (i : Instr) (s : State) : Host.Outcome State Fault Refusal :=
  match i with
  | .configure dt params => Sys2Proof.Machine.execConfigure dt params s
  | .planClear dt params => Sys2Proof.Machine.execPlanClear dt params s
  | .planStep dt params => Sys2Proof.Machine.execPlanStep dt params s
  | .planSeal dt params => Sys2Proof.Machine.execPlanSeal dt params s
  | .join dt params => Sys2Proof.Machine.execJoin dt params s
  | .status dt params => Sys2Proof.Machine.execStatus dt params s
  | .peers dt params => Sys2Proof.Machine.execPeers dt params s
  | .position dt params => Sys2Proof.Machine.execPosition dt params s
  | .order dt params => Sys2Proof.Machine.execOrder dt params s
  | .faults dt params => Sys2Proof.Machine.execFaults dt params s
  | .calRead dt params => Sys2Proof.Machine.execCalRead dt params s
  | .journalRead dt params => Sys2Proof.Machine.execJournalRead dt params s
  | .faultClear dt params => Sys2Proof.Machine.execFaultClear dt params s
  | .abandon dt params => Sys2Proof.Machine.execAbandon dt params s
  | .survey dt params => Sys2Proof.Machine.execSurvey dt params s
  | .trim dt params => Sys2Proof.Machine.execTrim dt params s
  | .calCommit dt params => Sys2Proof.Machine.execCalCommit dt params s
  | .resume dt params => Sys2Proof.Machine.execResume dt params s
  | .restart dt params => Sys2Proof.Machine.execRestart dt params s
  | .lockoutClear dt params => Sys2Proof.Machine.execLockoutClear dt params s
  | .shutdown dt params => Sys2Proof.Machine.execShutdown dt params s
  | .reset dt params => Sys2Proof.Machine.execReset dt params s
  | .unknownRequestCode dt code params => Sys2Proof.Machine.execUnknownRequestCode dt code params s
  | .requestCodeReceived dt code => Sys2Proof.Machine.execRequestCodeReceived dt code s
  | .transactionCut dt => Sys2Proof.Machine.execTransactionCut dt s
  | .statusResponseEnd dt => Sys2Proof.Machine.execStatusResponseEnd dt s
  | .portReset dt straps => Sys2Proof.Machine.execPortReset dt straps s
  | .switchSample dt input level => Sys2Proof.Machine.execSwitchSample dt input level s
  | .pfailSample dt level => Sys2Proof.Machine.execPfailSample dt level s
  | .encTransition dt a b => Sys2Proof.Machine.execEncTransition dt a b s
  | .standbyDecoderRead dt a b => Sys2Proof.Machine.execStandbyDecoderRead dt a b s
  | .sectorSample dt lines => Sys2Proof.Machine.execSectorSample dt lines s
  | .indexEdge dt => Sys2Proof.Machine.execIndexEdge dt s
  | .motionCheck dt => Sys2Proof.Machine.execMotionCheck dt s
  | .settlingWindowEnd dt => Sys2Proof.Machine.execSettlingWindowEnd dt s
  | .mainSupplyLoss dt => Sys2Proof.Machine.execMainSupplyLoss dt s
  | .standbyDomainLoss dt => Sys2Proof.Machine.execStandbyDomainLoss dt s
  | .coldStart dt straps => Sys2Proof.Machine.execColdStart dt straps s
  | .warmStart dt straps => Sys2Proof.Machine.execWarmStart dt straps s
  | .nresetAssert dt => Sys2Proof.Machine.execNresetAssert dt s
  | .nresetRelease dt straps => Sys2Proof.Machine.execNresetRelease dt straps s
  | .scanDone dt => Sys2Proof.Machine.execScanDone dt s
  | .linkCycleStart dt => Sys2Proof.Machine.execLinkCycleStart dt s
  | .ownSlotStart dt => Sys2Proof.Machine.execOwnSlotStart dt s
  | .readbackMismatch dt => Sys2Proof.Machine.execReadbackMismatch dt s
  | .frameTransmitEnd dt => Sys2Proof.Machine.execFrameTransmitEnd dt s
  | .frameReceived dt ago bytes => Sys2Proof.Machine.execFrameReceived dt ago bytes s
  | .cycleEndEval dt => Sys2Proof.Machine.execCycleEndEval dt s
  | .slotEndAging dt slot => Sys2Proof.Machine.execSlotEndAging dt slot s
  | .listenPeriodEnd dt => Sys2Proof.Machine.execListenPeriodEnd dt s
  | .listenTimeout dt => Sys2Proof.Machine.execListenTimeout dt s
  | .gatherTimeout dt => Sys2Proof.Machine.execGatherTimeout dt s
  | .beatEnd dt readback => Sys2Proof.Machine.execBeatEnd dt readback s
  | .stallTimeout dt => Sys2Proof.Machine.execStallTimeout dt s
  | .parkNoStart dt => Sys2Proof.Machine.execParkNoStart dt s
  | .surveyStallTimeout dt => Sys2Proof.Machine.execSurveyStallTimeout dt s
  | .retryTimerEnd dt step => Sys2Proof.Machine.execRetryTimerEnd dt step s
  | .entryDeadline dt => Sys2Proof.Machine.execEntryDeadline dt s
  | .proposalTimeout dt => Sys2Proof.Machine.execProposalTimeout dt s
  | .standbySupplyReturn dt => Sys2Proof.Machine.execStandbySupplyReturn dt s

end Sys2Proof.Machine
end

