-- ==== Sys2Proof/Safety.lean ====
section
/-! DEFINITION. The words the statements are written in: what a command carries, how a request is opened and answered,
and the invariants of the node. -/

namespace Sys2Proof

/-- The time since the command before it (log entry 2). -/
def Instr.elapsed : Instr → Time
  | .configure dt _ | .planClear dt _ | .planStep dt _ | .planSeal dt _ | .join dt _ | .status dt _ | .peers dt _
  | .position dt _ | .order dt _ | .faults dt _ | .calRead dt _ | .journalRead dt _ | .faultClear dt _
  | .abandon dt _ | .survey dt _ | .trim dt _ | .calCommit dt _ | .resume dt _ | .restart dt _
  | .lockoutClear dt _ | .shutdown dt _ | .reset dt _ | .unknownRequestCode dt _ _ | .requestCodeReceived dt _
  | .transactionCut dt | .statusResponseEnd dt | .portReset dt _ | .switchSample dt _ _ | .pfailSample dt _
  | .encTransition dt _ _ | .standbyDecoderRead dt _ _ | .sectorSample dt _ | .indexEdge dt | .motionCheck dt
  | .settlingWindowEnd dt | .mainSupplyLoss dt | .standbyDomainLoss dt | .coldStart dt _ | .warmStart dt _
  | .nresetAssert dt | .nresetRelease dt _ | .scanDone dt | .linkCycleStart dt | .ownSlotStart dt
  | .readbackMismatch dt | .frameTransmitEnd dt | .frameReceived dt _ _ | .cycleEndEval dt | .slotEndAging dt _
  | .listenPeriodEnd dt | .listenTimeout dt | .gatherTimeout dt | .beatEnd dt _ | .stallTimeout dt
  | .parkNoStart dt | .surveyStallTimeout dt | .retryTimerEnd dt _ | .entryDeadline dt | .proposalTimeout dt
  | .standbySupplyReturn dt => dt

/-- The commands that also act while the main domain stands still: the supplies, the reset pin and the standby decoder
(R5, R12, R14, R17, R18). -/
def Instr.actsStopped : Instr → Bool
  | .standbyDecoderRead _ _ _ | .mainSupplyLoss _ | .standbyDomainLoss _ | .coldStart _ _ | .warmStart _ _
  | .nresetAssert _ | .nresetRelease _ _ | .standbySupplyReturn _ => true
  | _ => false

/-- A request's fixed parameter length and the parameters it came with (R201; chapter 10 "The requests"). -/
def Instr.request : Instr → Option (Nat × List Byte)
  | .configure _ ps => some (61, ps)
  | .planStep _ ps => some (20, ps)
  | .journalRead _ ps => some (1, ps)
  | .survey _ ps => some (3, ps)
  | .trim _ ps => some (5, ps)
  | .planClear _ ps | .planSeal _ ps | .join _ ps | .status _ ps | .peers _ ps | .position _ ps | .order _ ps
  | .faults _ ps | .calRead _ ps | .faultClear _ ps | .abandon _ ps | .calCommit _ ps | .resume _ ps
  | .restart _ ps | .lockoutClear _ ps | .shutdown _ ps | .reset _ ps => some (0, ps)
  | _ => none

/-- The commands of a drive port transaction: the requests, and the events of one that has begun (R200, R201, R211). -/
def Instr.ofTransaction : Instr → Bool
  | .unknownRequestCode _ _ _ | .requestCodeReceived _ _ | .transactionCut _ | .statusResponseEnd _ => true
  | c => c.request.isSome

/-- The command is LOCKOUT_CLEAR. -/
def Instr.isLockoutClear : Instr → Bool
  | .lockoutClear _ _ => true
  | _ => false

namespace Machine

/-- The same state `dt` later. -/
def State.later (s : State) (dt : Time) : State := { s with now := s.now + dt }

/-- What a request finds at its arrival `dt` later: the record being received is complete, and no earlier response or
reported cause stands (R200, R211; log entry 39). -/
def State.arrived (s : State) (dt : Time) : State :=
  { s with now := s.now + dt, port := { s.port with receiving := none, reported := .empty, response := none } }

/-- `State.arrived` for a request other than LOCKOUT_CLEAR, which resets the key count (R177). -/
def State.opened (s : State) (dt : Time) : State :=
  { s.arrived dt with hold := { s.hold with keyCount := 0 } }

/-- The state with a response record (R200). -/
def State.respond (s : State) (st : PortStatus) (data : List Byte) : State :=
  { s with port := { s.port with response := some ⟨st, data⟩ } }

/-- A request is refused: nothing changes but the response (R202). -/
def State.refused (s : State) (dt : Time) (st : PortStatus) : State := (s.opened dt).respond st []

/-- The node right after a main-domain start `dt` later (R18, R20, R48, R66, R71, R104, R110, R111, R128, R158, R165,
R180, R203, R211): every block of the main domain at its start values, the standby domain, the retained store and the
queue as they stood, the standby decoder counting from the reference the counting decoder had (R5; log entries 6, 15,
41). -/
def State.restarted (s : State) (dt : Time) (kind : StartKind) (alive : Bool) (straps : Station) (power : Power) : State :=
  { pending := s.pending, now := s.now + dt, freeCount := s.freeCount, power := power, standby := s.standby
    decoder := { s.decoder with
      standbyFeeds := true, lastAccepted := if s.decoder.standbyFeeds = true then s.decoder.lastAccepted else none }
    sensing := .initial (s.now + dt), engine := .initial, link := .initial straps, peers := peersInitial
    coord := .initial kind alive, plan := .initial, hold := .initial straps, gate := .closed, cal := .initial
    store := .initial, mem := s.mem, port := .initial }

/-- The filter length of the switch inputs: SWITCH_FILTER once CONFIGURE has been taken, and 4 before then (R1). -/
def State.switchLength (s : State) : Nat := match s.port.config with | some c => c.switchFilter | none => 4

/-- The order of the encoder lines for a positive transition: A-rises, B-rises, A-falls, B-falls (R4). -/
def positiveStep (a b a' b' : Bool) : Prop :=
  (a = false ∧ b = false ∧ a' = true ∧ b' = false) ∨ (a = true ∧ b = false ∧ a' = true ∧ b' = true)
  ∨ (a = true ∧ b = true ∧ a' = false ∧ b' = true) ∨ (a = false ∧ b = true ∧ a' = false ∧ b' = false)

/-- The sector the lines show for SECTORS 8, 16 and 32: the reflected binary Gray code of the lines read (R6). -/
def graySector (sectors : Nat) (lines : BitVec 5) (n : Nat) : Prop :=
  n < sectors ∧ n ^^^ (n / 2) = lines.toNat % sectors

/-- A fault record stands in the fault list. -/
def State.hasFault (s : State) (code : FaultCode) (cls : FaultClass) (step : Option Nat) (detail : Int) : Prop :=
  ∃ r ∈ s.hold.faults, r.code = code.byte ∧ r.cls = cls ∧ r.origin = s.own ∧ r.step = step ∧ r.detail = sat32 detail

/-- A frame whose record the station accepts with its timing (R55, R60 to R62): it carries the record of another station
of the arm, and it is adopted in ALONE, or it has this cycle's number and began within 25 us of a nominal instant of that
station's slot (over all cycles, log entry 31). -/
def State.hears (s : State) (dt ago : Time) (bytes : List Byte) (r : StatusRecord) : Prop :=
  s.running = true ∧ parseFrame bytes = some r ∧ r.station ≠ s.own ∧ r.station.val < s.cfg.armSize
  ∧ (s.link.state = .alone ∧ (r.link = .synced ∨ (r.link = .alone ∧ r.station.val < s.own.val))
    ∨ (s.link.state = .synced ∨ s.link.state = .alone) ∧ s.link.cycle = some r.cycle
      ∧ ∃ (n : Int) (slot off : Rat), slot = (s.cfg.cyclePeriod * 1000000 : Nat) / 8 ∧ 0 < slot
        ∧ ((s.now + dt : Nat) : Rat) - ago
            = s.link.cycleStart + 4000 + ((r.station.val : Int) + 8 * n : Int) * slot + off
        ∧ - slot / 2 < off ∧ off < slot / 2 ∧ -25000 ≤ off ∧ off ≤ 25000)

/-- A record's sequence and level change no sequence, level, cause or origin at the station (R159, R162, R163). -/
def StatusRecord.sequenceIdle (r : StatusRecord) (s : State) : Prop :=
  (seqNewer r.holdSeq s.hold.seq = true → r.level = .none)
  ∧ (r.holdSeq = s.hold.seq → (s.hold.level = .stop ∨ s.hold.level = .drop) → r.level.rank ≤ s.hold.level.rank)
  ∧ (r.holdSeq = s.hold.seq → r.level ≠ .none → s.hold.level ≠ .none → s.hold.origin.val ≤ r.origin.val)

/-- A record brings no restart, no retained lockout, no restarted peer, and no claim that could raise DRIFT at the station
(R87, R88, R124, R164). -/
def StatusRecord.restIdle (r : StatusRecord) (s : State) : Prop :=
  r.restart = false
  ∧ ((s.coord.phase = .gathering ∨ s.coord.phase = .recovering) → ∀ pd cd c, r.block ≠ .gather pd cd 1 c)
  ∧ ((s.coord.phase = .homing ∨ s.coord.phase = .ready ∨ s.coord.phase = .halted) →
      r.phase ≠ .isolated ∧ r.phase ≠ .gathering)
  ∧ (s.coord.phase = .recovering → s.standby.excursion ≤ s.cfg.driftThreshold)

/-- Beside its sequence and level a record brings nothing that acts on the hold or the phase (R164, R175, R178). -/
def StatusRecord.flagsIdle (r : StatusRecord) (s : State) : Prop :=
  r.resume = false
  ∧ (r.lockClear = true → s.coord.phase = .isolated ∨ (s.hold.level ≠ .lockout ∧ r.level ≠ .lockout))
  ∧ r.restIdle s

/-- The retained store is in canonical form. -/
def State.memoryCanonical (s : State) : Prop := Memory.wf s.mem = true

/-- The timed flag is true exactly in SYNCED and ALONE (R48). -/
def State.linkTimely (s : State) : Prop := s.link.timed = s.link.state.sends

/-- What the motion gate never does (R165, R168, R170): at DROP and LOCKOUT it is CLOSED; an entry is complete only at
STOP or DROP and with the gate CLOSED; it is OPEN only at level NONE in HOMING or READY. -/
def State.gateSafe (s : State) : Prop :=
  (s.hold.level.dropped = true → s.gate = .closed)
  ∧ (s.hold.complete = true → s.hold.level.entering = true ∧ s.gate = .closed)
  ∧ (s.gate = .opened → s.hold.level = .none ∧ (s.coord.phase = .homing ∨ s.coord.phase = .ready))

/-- The bounded lists keep their bounds: 8 fault records (R157), 4 captures (R10), 32 plan steps (R128), each plan step
standing at its index (R130). -/
def State.listsBounded (s : State) : Prop :=
  s.hold.faults.length ≤ 8 ∧ s.sensing.captures.length ≤ 4 ∧ s.plan.steps.length ≤ 32
  ∧ ∀ (k : Nat) (x : StepRecord), s.plan.steps[k]? = some x → x.index = k

/-- The tail a station holds with its JOURNAL claim has a reference state of standing REFERENCED (R121). -/
def State.tailReferenced (s : State) : Prop :=
  ∃ p, s.coord.tailParts = some p ∧ (p.refState = .captured ∨ p.refState = .referenced ∨ p.refState = .surveying)

/-- A JOURNAL claim whose tail closed a run, FINAL or ORDERLY, in the given run (R119). -/
def Claim.closesIn (c : Claim) (run : Option (BitVec 16)) : Prop :=
  c.kind = .journal ∧ (c.tailKind = some .final ∨ c.tailKind = some .orderly) ∧ some c.tailRun = run

end Machine

end Sys2Proof
end

