-- ==== Sys2Proof/Certificates/Slice0/Obligations.lean ====
section
/-! DEFINITION. The statements about the node, for the provers. -/

open Sys2Proof Sys2Proof.Machine

/-! ### The step and the commands as a whole -/

/-- A step executes the command at the front of the queue on the state with the queue's rest. On an empty queue it
changes nothing: the model's own choice (log entry 1). -/
def Obligations.StepExecutesFrontCommand : Prop :=
  (∀ (c : Instr) (rest : List Instr) (s : State), s.pending = c :: rest →
     step s = exec c { s with pending := rest })
  ∧ (∀ s : State, s.pending = [] → step s = .next s)

/-- Every command of the table answers a next state, in every state: none stops the node. It leaves the queue and moves
the clock by its own time (log entry 2). -/
def Obligations.EveryCommandAnswersNext : Prop :=
  ∀ (c : Instr) (s : State), ∃ t, exec c s = .next t ∧ t.pending = s.pending ∧ t.now = s.now + c.elapsed

/-- While the main supply is absent or nRESET is asserted, a command of the main domain does nothing (R14, R18). While a
RESET waits for the rise of nCS, no transaction begins: a request or a transaction event does nothing (R212). -/
def Obligations.StoppedDomainTakesNothing : Prop :=
  (∀ (c : Instr) (s : State), c.actsStopped = false → (s.power.vdd = false ∨ s.power.nreset = true) →
     exec c s = .next (s.later c.elapsed))
  ∧ (∀ (c : Instr) (s : State), c.ofTransaction = true → s.port.resetArmed = true →
      exec c s = .next (s.later c.elapsed))

/-- Requests out of form, and the partial events of a transaction. A request whose length byte is not its fixed length
is answered INVALID and has no other effect than on the key count, which LOCKOUT_CLEAR alone keeps, the model's choice
(log entry 65); a code that names no request is answered INVALID whatever parameters it comes with (R177, R201). A
request code received is being received and resets the key count unless it is LOCKOUT_CLEAR's; a cut transaction leaves
no record, reported cause or response; the rise of nCS after a whole STATUS response removes the causes it reported
from the attention cause set (R211). RESET is answered OK in every phase and at every level and until nCS rises only
arms the port reset (R212). Nothing else changes. -/
def Obligations.RequestsOutOfFormAndTransactionEvents : Prop :=
  (∀ (c : Instr) (n : Nat) (ps : List Byte) (s : State), s.portReady = true → c.request = some (n, ps) → ps.length ≠ n →
     exec c s = .next
       ((if c.isLockoutClear = true then s.arrived c.elapsed else s.opened c.elapsed).respond .invalid []))
  ∧ (∀ (dt : Time) (code : Byte) (ps : List Byte) (s : State), s.portReady = true →
      exec (.unknownRequestCode dt code ps) s = .next (s.refused dt .invalid))
  ∧ (∀ (dt : Time) (code : Byte) (s : State), s.portReady = true →
     (code ≠ 0x42 → exec (.requestCodeReceived dt code) s = .next
       { s.opened dt with port := { (s.opened dt).port with receiving := some code } })
     ∧ (code = 0x42 → exec (.requestCodeReceived dt code) s = .next
       { s.arrived dt with port := { (s.arrived dt).port with receiving := some code } })
     ∧ exec (.transactionCut dt) s = .next (s.arrived dt)
     ∧ ∃ t, exec (.statusResponseEnd dt) s = .next t
       ∧ t = { s.later dt with port := { s.port with attention := t.port.attention, reported := .empty } }
       ∧ (t.port.attention.orderChanged = (s.port.attention.orderChanged && !s.port.reported.orderChanged))
       ∧ (t.port.attention.faultRecorded = (s.port.attention.faultRecorded && !s.port.reported.faultRecorded))
       ∧ (t.port.attention.phaseChanged = (s.port.attention.phaseChanged && !s.port.reported.phaseChanged))
       ∧ (t.port.attention.holdChanged = (s.port.attention.holdChanged && !s.port.reported.holdChanged))
       ∧ (t.port.attention.surveyDone = (s.port.attention.surveyDone && !s.port.reported.surveyDone))
       ∧ (t.port.attention.calChanged = (s.port.attention.calChanged && !s.port.reported.calChanged)))
  ∧ (∀ (dt : Time) (s : State), s.portReady = true →
      exec (.reset dt []) s = .next
        { (s.opened dt).respond .ok [] with port := { ((s.opened dt).respond .ok []).port with resetArmed := true } })

/-! ### The drive port's reads and setting up (chapters 07 and 10) -/

/-- The reads change nothing but what the arrival of a request changes. STATUS, PEERS, ORDER and FAULTS are answered OK
in every phase and at every level, with the data the node holds at the arrival; the statement spells a field of each
group of STATUS, the entries of PEERS, the fields of ORDER and the records of FAULTS at their places, and STATUS makes
the causes it shows the reported ones (R207, R209, R210, R211). POSITION is answered NOT_SETTLED while the settling
window is open, and OK with its data at every other time; the data spell the counter, the supply-loss value and the
flags beside them at their places (R11, R208). JOURNAL_READ and CAL_READ are answered by the first condition of R210
that holds, JOURNAL_READ with the ring slot n places back from the tail, its seal verdict and its 32 bytes as stored,
CAL_READ with both slots, their seals, the committed and staged generations and the values in use (R109, R199, R210).
What an absent value reads as is the model's choice (log entry 37). -/
def Obligations.ReadsAnswerAndChangeNothing : Prop :=
  (∀ (dt : Time) (s : State), s.portReady = true →
       (∃ d, exec (.status dt []) s = .next
           { (s.opened dt).respond .ok d with
             port := { ((s.opened dt).respond .ok d).port with reported := s.port.attention } }
         ∧ byteAt d 0 = s.port.attention.byte ∧ byteAt d 1 = byteOf s.own.val ∧ byteAt d 3 = byteOf s.plan.steps.length
         ∧ rd d 4 4 = (s.plan.digest.getD 0).toNat ∧ rd d 8 2 = (s.port.configDigest.getD 0).toNat
         ∧ byteAt d 10 = byteOf s.coord.phase.code ∧ rd d 11 2 = (s.coord.run.getD 0).toNat
         ∧ byteAt d 19 = byteOf s.link.state.code ∧ rd d 21 4 = (s.link.cycle.getD 0).toNat
         ∧ rd d 25 2 = s.hold.seq.toNat ∧ rd d 27 2 = s.hold.newest.toNat ∧ byteAt d 29 = byteOf s.hold.level.code
         ∧ byteAt d 30 = s.hold.cause ∧ byteAt d 31 = byteOf s.hold.origin.val ∧ byteAt d 32 = boolByte s.hold.complete
         ∧ byteAt d 40 = boolByte s.store.retainedLockout ∧ byteAt d 42 = byteOf s.gate.code
         ∧ byteAt d 44 = byteOf s.engine.refState.code ∧ byteAt d 45 = boolByte s.engine.parked
         ∧ (s.plan.claim = none → byteAt d 50 = 0xFF) ∧ (∀ i, s.plan.claim = some i → byteAt d 50 = byteOf i)
         ∧ (∀ i : Fin 32, byteAt d (52 + i.val) = s.stepStatusByte i.val)
         ∧ byteAt d 87 = byteOf s.coord.confidence.code)
       ∧ (∃ d, exec (.peers dt []) s = .next ((s.opened dt).respond .ok d)
         ∧ byteAt d 0 = byteOf s.link.state.code ∧ rd d 2 4 = (s.link.cycle.getD 0).toNat
         ∧ byteAt d 6 = byteOf s.link.mismatches ∧ byteAt d 7 = byteOf s.link.silentCycles
         ∧ byteAt d 8 = byteOf s.link.foreignCycles
         ∧ ∀ j : Station, byteAt d (9 + 38 * j.val) = byteOf (s.peers.get j).loss.code
           ∧ byteAt d (10 + 38 * j.val) = byteOf (s.peers.get j).silence
           ∧ (d.drop (11 + 38 * j.val)).take 36
              = match (s.peers.get j).record with | some r => r.pack | none => List.replicate 36 0)
       ∧ (∃ d, exec (.order dt []) s = .next ((s.opened dt).respond .ok d) ∧ d.length = 10
         ∧ (s.engine.order = .none → byteAt d 0 = 0 ∧ byteAt d 9 = 0xFF)
         ∧ (∀ x v q, s.engine.order = .jog x v q → byteAt d 0 = 1
             ∧ byteAt d 1 = (match x with | .positive => 0 | .negative => 1) ∧ rd d 7 2 = v % 65536
             ∧ byteAt d 9 = byteOf q.code)
         ∧ (∀ g v q, s.engine.order = .goto g v q → byteAt d 0 = 2 ∧ rdPosition d 2 = g ∧ rd d 7 2 = v % 65536
             ∧ byteAt d 9 = byteOf q.code)
         ∧ (∀ q, s.engine.order = .stop q → byteAt d 0 = 3 ∧ byteAt d 9 = byteOf q.code))
       ∧ (∃ d, exec (.faults dt []) s = .next ((s.opened dt).respond .ok d)
         ∧ byteAt d 0 = byteOf s.hold.faults.length
         ∧ ∀ (i : Nat) (f : FaultRecord), s.hold.faults[i]? = some f → byteAt d (1 + 17 * i) = f.code
           ∧ byteAt d (2 + 17 * i) = byteOf f.cls.code ∧ byteAt d (3 + 17 * i) = byteOf f.origin.val
           ∧ rd d (14 + 17 * i) 4 = f.detail.toNat))
  ∧ (∀ (dt : Time) (s : State), s.portReady = true →
       (s.sensing.settling = true → exec (.position dt []) s = .next (s.refused dt .notSettled))
       ∧ (s.sensing.settling = false → ∃ d, exec (.position dt []) s = .next ((s.opened dt).respond .ok d)
           ∧ rdPosition d 0 = s.standby.counter
           ∧ byteAt d 5 = boolByte s.standby.continuity
           ∧ byteAt d 6 = byteOf s.standby.error.code
           ∧ byteAt d 7 = boolByte s.standby.alive
           ∧ rdPosition d 8 = BitVec.ofNat 40 s.standby.excursion
           ∧ rdPosition d 13 = s.standby.supplyLoss
           ∧ byteAt d 19 = boolByte s.sensing.moving
           ∧ byteAt d 20 = byteOf s.engine.refState.code
           ∧ byteAt d 28 = byteOf s.sensing.captures.length))
  ∧ (∀ (dt : Time) (n : Byte) (s : State), s.portReady = true →
       (95 < n.toNat → exec (.journalRead dt [n]) s = .next (s.refused dt .invalid))
       ∧ (n.toNat ≤ 95 → s.store.scanDone = false → exec (.journalRead dt [n]) s = .next (s.refused dt .busy))
       ∧ (n.toNat ≤ 95 → s.store.scanDone = true → s.store.tail = none →
           exec (.journalRead dt [n]) s = .next (s.refused dt .idle))
       ∧ (∀ t, n.toNat ≤ 95 → s.store.scanDone = true → s.store.tail = some t →
           ∃ i : Fin 96, (i.val + n.toNat) % 96 = t.slot.val ∧
             exec (.journalRead dt [n]) s = .next ((s.opened dt).respond .ok
               ([byteOf i.val, boolByte (frameSealed (s.ringSlot i))] ++ Memory.readBytes s.mem (i.val * 32) 32)))
       ∧ (s.store.scanDone = false → exec (.calRead dt []) s = .next (s.refused dt .busy))
       ∧ (s.store.scanDone = true → ∃ d, exec (.calRead dt []) s = .next ((s.opened dt).respond .ok d)
           ∧ d.take 32 = s.calSlot .a ∧ byteAt d 32 = boolByte (calSealed (s.calSlot .a))
           ∧ (d.drop 34).take 32 = s.calSlot .b ∧ byteAt d 66 = boolByte (calSealed (s.calSlot .b))
           ∧ (s.cal.committed = none → byteAt d 68 = 0xFF ∧ rd d 69 2 = 0)
           ∧ (∀ k x, s.cal.committed = some (k, x) → byteAt d 68 = k.code ∧ rd d 69 2 = x.generation.toNat)
           ∧ (s.cal.staged = none → byteAt d 71 = 0xFF ∧ rd d 72 2 = 0)
           ∧ (∀ x, s.cal.staged = some x → byteAt d 71 = s.cal.spare.code ∧ rd d 72 2 = x.generation.toNat)
           ∧ byteAt d 74 = boolByte s.cal.sealedInSighting
           ∧ rd d 75 4 = (BitVec.ofInt 32 s.cal.trim).toNat ∧ rd d 79 4 = (BitVec.ofInt 32 s.cal.backlash).toNat
           ∧ byteAt d 84 = boolByte s.cal.pendTrim.isSome ∧ byteAt d 89 = boolByte s.cal.pendBacklash.isSome
           ∧ byteAt d 103 = boolByte s.cal.result.isSome))

/-- A fault recorded joins the end of the fault list, which keeps the eight most recent; FAULT_CLEAR empties it in
every phase and at every level and changes nothing of the hold, the last fault code or the attention causes; a
main-domain reset leaves it empty; FAULTS returns it as it stands (R157). -/
def Obligations.FaultListKeepsEightMostRecent : Prop :=
  (∀ (code : Byte) (cls : FaultClass) (o : Station) (step : Option Nat) (d : BitVec 32) (s : State),
    (recordFault code cls o step d s).hold.faults =
      (s.hold.faults ++ [FaultRecord.mk code cls o step s.coord.run s.link.cycle s.hold.seq d]).drop
        (s.hold.faults.length + 1 - 8)
    ∧ (recordFault code cls o step d s).hold.faults.length ≤ 8)
  ∧ (∀ (dt : Time) (s : State), s.portReady = true →
    exec (.faultClear dt []) s = .next
      { (s.opened dt).respond .ok [] with hold := { (s.opened dt).hold with faults := [] } }
    ∧ exec (.faults dt []) s = .next ((s.opened dt).respond .ok
        (byteOf s.hold.faults.length :: s.hold.faults.flatMap FaultRecord.bytes)))
  ∧ (∀ (kind : StartKind) (alive : Bool) (straps : Station) (s : State),
    (resetMainDomain kind alive straps s).hold.faults = [])

/-- CONFIGURE is answered by the first condition of R203 that holds; taken, the record becomes the configuration with
the CRC-16 of its first 13 bytes as the config digest and the dispositions it gives, and nothing else changes. -/
def Obligations.ConfigureAnswersInOrder : Prop :=
  ∀ (dt : Time) (p : List Byte) (s : State), s.portReady = true → p.length = 61 →
    (s.coord.phase ≠ .isolated → exec (.configure dt p) s = .next (s.refused dt .refusedPhase))
    ∧ (s.coord.phase = .isolated → (s.port.config.isSome = true ∨ (armFieldsOk s.own p && stationFieldsOk p) = false) →
        exec (.configure dt p) s = .next (s.refused dt .invalid))
    ∧ (s.coord.phase = .isolated → s.port.config = none → armFieldsOk s.own p = true → stationFieldsOk p = true →
        exec (.configure dt p) s = .next
          { (s.opened dt).respond .ok [] with
            port := { ((s.opened dt).respond .ok []).port with
              config := some (decodeConfiguration p), configDigest := some (crc16 (p.take 13)) }
            hold := { (s.opened dt).hold with
              spuriousHold := (byteAt p 60).getLsbD 0, backlashHold := (byteAt p 60).getLsbD 1,
              ratioHold := (byteAt p 60).getLsbD 2, driftHold := (byteAt p 60).getLsbD 3 } })

/-- PLAN_STEP is answered by the first condition of R130 that holds; taken, the step the record spells is appended to
the plan, and a refused one leaves the plan as it was. PLAN_CLEAR empties the plan. PLAN_SEAL seals a plan that has
steps and a configuration whose arm holds its stations: the digest is computed and every step becomes PENDING with
RETRY_LIMIT retries and no timer (R131). Outside ISOLATED all three are refused; nothing else changes. -/
def Obligations.PlanIsLoadedClearedAndSealed : Prop :=
  (∀ (dt : Time) (p : List Byte) (s : State), s.portReady = true → p.length = 20 →
     (s.coord.phase ≠ .isolated → exec (.planStep dt p) s = .next (s.refused dt .refusedPhase))
     ∧ (s.coord.phase = .isolated → s.plan.isSealed = true → exec (.planStep dt p) s = .next (s.refused dt .invalid))
     ∧ (s.coord.phase = .isolated → s.plan.isSealed = false → 32 ≤ s.plan.steps.length →
         exec (.planStep dt p) s = .next (s.refused dt .full))
     ∧ (s.coord.phase = .isolated → s.plan.isSealed = false → s.plan.steps.length < 32 →
         (s.port.config = none ∨ rd p 0 1 ≠ s.plan.steps.length ∨ parseStep p = none) →
         exec (.planStep dt p) s = .next (s.refused dt .invalid))
     ∧ (∀ r c, s.coord.phase = .isolated → s.plan.isSealed = false → s.plan.steps.length < 32 → s.port.config = some c →
         rd p 0 1 = s.plan.steps.length → parseStep p = some r →
         (c.armSize ≤ r.owner.val ∨ (∃ g ∈ r.guards, c.armSize ≤ g.1.val) →
           exec (.planStep dt p) s = .next (s.refused dt .invalid))
         ∧ (r.owner.val < c.armSize → (∀ g ∈ r.guards, g.1.val < c.armSize) →
           exec (.planStep dt p) s = .next
             { (s.opened dt).respond .ok [] with plan := { s.plan with steps := s.plan.steps ++ [r] } })))
  ∧ (∀ (dt : Time) (s : State), s.portReady = true →
      (s.coord.phase ≠ .isolated →
        exec (.planClear dt []) s = .next (s.refused dt .refusedPhase)
        ∧ exec (.planSeal dt []) s = .next (s.refused dt .refusedPhase))
      ∧ (s.coord.phase = .isolated →
        exec (.planClear dt []) s = .next
          { (s.opened dt).respond .ok [] with
            plan := { s.plan with steps := [], table := [], isSealed := false, digest := none } }
        ∧ (s.plan.isSealed = true ∨ s.plan.steps = [] ∨ s.port.config = none →
            exec (.planSeal dt []) s = .next (s.refused dt .invalid))
        ∧ (∀ c, s.port.config = some c → s.plan.isSealed = false → s.plan.steps ≠ [] →
            ((∃ r ∈ s.plan.steps, c.armSize ≤ r.owner.val ∨ ∃ g ∈ r.guards, c.armSize ≤ g.1.val) →
              exec (.planSeal dt []) s = .next (s.refused dt .invalid))
            ∧ ((∀ r ∈ s.plan.steps, r.owner.val < c.armSize ∧ ∀ g ∈ r.guards, g.1.val < c.armSize) →
              exec (.planSeal dt []) s = .next
                { (s.opened dt).respond .ok (be32 (planDigest s.plan.steps)) with
                  plan := { s.plan with
                    isSealed := true, digest := some (planDigest s.plan.steps),
                    table := s.plan.steps.map fun _ => ⟨.pending, c.retryLimit, none⟩ } }))))

/-! ### Requests that act (chapters 02, 04, 08, 09) -/

/-- JOIN is answered by the first condition of R73 that holds. Taken: the phase is GATHERING with a new deadline, the
verdict is the lowest own step that fails the checks of R132, the link listens, the own peer entry is ACTIVE with the
own GATHER record, PHASE_CHANGED is added; what stands beside them is left (R49, R67, R72, R73). -/
def Obligations.JoinStartsGathering : Prop :=
  ∀ (dt : Time) (s : State), s.portReady = true →
    (s.coord.phase ≠ .isolated → exec (.join dt []) s = .next (s.refused dt .refusedPhase))
    ∧ (s.coord.phase = .isolated → (s.port.config = none ∨ s.plan.isSealed = false) →
        exec (.join dt []) s = .next (s.refused dt .invalid))
    ∧ (∀ c, s.coord.phase = .isolated → s.port.config = some c → s.plan.isSealed = true →
        (s.store.scanDone = false → exec (.join dt []) s = .next (s.refused dt .busy))
        ∧ (s.store.scanDone = true → ∃ t, exec (.join dt []) s = .next t
          ∧ t.port.response = some ⟨.ok, []⟩
          ∧ t.coord.phase = .gathering ∧ t.coord.agreement = 0
          ∧ t.coord.deadline = some (s.now + dt + ms (c.gatherLimit * 1000))
          ∧ t.coord.verdict = (s.plan.steps.find? fun r => decide (r.owner = s.own) && r.failsAtJoin c).map (·.index)
          ∧ t.link.state = .listening ∧ t.link.timed = false ∧ t.link.cycle = s.link.cycle
          ∧ (∃ r, t.peers.get s.own = ⟨.active, 0, some r⟩ ∧ r.station = s.own ∧ r.phase = .gathering
              ∧ r.link = .listening ∧ r.block = .gather (s.plan.digest.getD 0) (s.port.configDigest.getD 0)
                  (boolByte s.store.retainedLockout) s.retainedCause)
          ∧ (∀ j, j ≠ s.own → t.peers.get j = s.peers.get j)
          ∧ t.port.attention.phaseChanged = true
          ∧ t.power = s.power ∧ t.standby = s.standby ∧ t.decoder = s.decoder ∧ t.sensing = s.sensing
          ∧ t.engine = s.engine ∧ t.plan = s.plan ∧ t.mem = s.mem ∧ t.port.config = s.port.config
          ∧ t.coord.run = s.coord.run ∧ t.coord.journalActive = s.coord.journalActive))

/-- ABANDON is answered IDLE with no seek or survey held, and TOO_LATE for an ending or captured one. A running seek
takes the end cause ABANDONED, and ABANDONED is raised with detail 1, HOLD for a plan step and NOTE otherwise; a
running survey likewise with NOTE and detail 2. At standstill the operation returns at once, else it stays ending (R39,
R40). That ABANDONED of a seek names the seek's step, and of a survey none, is read from R156 (log entry 20). -/
def Obligations.AbandonEndsRunningOperation : Prop :=
  ∀ (dt : Time) (s : State), s.portReady = true →
    ((∀ c, s.engine.operation ≠ .seek c) → (∀ c, s.engine.operation ≠ .survey c) →
      exec (.abandon dt []) s = .next (s.refused dt .idle))
    ∧ (∀ c, s.engine.operation = .seek c →
      ((s.engine.refState ≠ .seeking ∨ c.endCause.isSome = true) →
        exec (.abandon dt []) s = .next (s.refused dt .tooLate))
      ∧ (s.engine.refState = .seeking → c.endCause = none → ∃ t, exec (.abandon dt []) s = .next t
        ∧ t.port.response = some ⟨.ok, []⟩
        ∧ t.hasFault .abandoned (if c.step.isSome then .hold else .note) c.step 1
        ∧ (s.still = false → t.engine.refState = .seeking
            ∧ t.engine.operation = .seek { c with endCause := some .abandoned, endDetail := 0 })
        ∧ (s.still = true → t.engine.operation = .none
            ∧ (s.plan.demote = false → t.engine.refState = c.entry.state))
        ∧ t.standby = s.standby ∧ t.sensing = s.sensing ∧ t.peers = s.peers ∧ t.mem = s.mem ∧ t.power = s.power
        ∧ t.decoder = s.decoder ∧ t.plan.steps = s.plan.steps ∧ t.coord.phase = s.coord.phase
        ∧ t.link.state = s.link.state))
    ∧ (∀ c, s.engine.operation = .survey c →
      (c.endCause.isSome = true → exec (.abandon dt []) s = .next (s.refused dt .tooLate))
      ∧ (c.endCause = none → ∃ t, exec (.abandon dt []) s = .next t
        ∧ t.port.response = some ⟨.ok, []⟩
        ∧ t.hasFault .abandoned .note none 2
        ∧ (s.still = false → t.engine.refState = s.engine.refState
            ∧ t.engine.operation = .survey { c with endCause := some .abandoned })
        ∧ (s.still = true → t.engine.operation = .none ∧ (s.plan.demote = false → t.engine.refState = .referenced)
            ∧ t.port.attention.surveyDone = true ∧ ∃ r, t.cal.result = some r ∧ r.outcome = .abandoned)
        ∧ t.standby = s.standby ∧ t.sensing = s.sensing ∧ t.peers = s.peers ∧ t.mem = s.mem ∧ t.power = s.power
        ∧ t.decoder = s.decoder ∧ t.plan.steps = s.plan.steps ∧ t.coord.phase = s.coord.phase
        ∧ t.hold.level = s.hold.level ∧ t.hold.seq = s.hold.seq ∧ t.link.state = s.link.state))

/-- SURVEY is answered by the first condition of R185 that holds; taken, it is answered OK. With no active limit on its
way it is SURVEYING with the last result absent and the gate OPEN: in its first phase, GOTO toward E - Q at SLOW, unless
DRV_STILL is active and the counter within CPS/16 of E - Q; then that phase has ended at once, and it is in the second,
JOG POSITIVE at CREEP for BACKLASH and SLOW for RATIO (R22, R185, R186, R187, R188; CPS/16 with integer division is log
entry 52). An order toward an active limit raises OVERTRAVEL (R28). -/
def Obligations.SurveyEntersItsFirstPhase : Prop :=
  ∀ (dt : Time) (p : List Byte) (s : State), s.portReady = true → p.length = 3 →
    (s.coord.phase ≠ .ready → exec (.survey dt p) s = .next (s.refused dt .refusedPhase))
    ∧ (s.coord.phase = .ready →
      ((s.engine.refState = .unreferenced ∨ s.engine.refState = .provisional) →
        exec (.survey dt p) s = .next (s.refused dt .invalid))
      ∧ ((s.engine.refState = .seeking ∨ s.engine.refState = .captured ∨ s.engine.refState = .surveying
          ∨ (s.engine.refState = .referenced ∧ ∃ k, s.engine.operation = .park k)) →
        exec (.survey dt p) s = .next (s.refused dt .busy))
      ∧ (s.engine.refState = .referenced → (∀ k, s.engine.operation ≠ .park k) →
        (s.hold.level ≠ .none → exec (.survey dt p) s = .next (s.refused dt .refusedHold))
        ∧ (s.hold.level = .none →
          ((s.cal.sighting.isSome = true ∨ s.cal.proposal.isSome = true) →
            exec (.survey dt p) s = .next (s.refused dt .busy))
          ∧ (s.cal.sighting = none → s.cal.proposal = none →
            ((SurveyKind.ofCode (rd p 0 1) = none
              ∨ (∃ k, SurveyKind.ofCode (rd p 0 1) = some k ∧ k.inTravel (rdSigned16 p 1) s.cfg = false)) →
              exec (.survey dt p) s = .next (s.refused dt .invalid))
            ∧ (∀ k, SurveyKind.ofCode (rd p 0 1) = some k → k.inTravel (rdSigned16 p 1) s.cfg = true →
              s.engine.order.reason ≠ some .hold →
              ∀ g : Position, g = BitVec.ofInt 40 (rdSigned16 p 1 * s.cps - s.cal.trim - s.cps / 4) →
              ∀ atOnce : Prop, (atOnce ↔ s.still = true ∧ |s.counter - g.toInt| ≤ (s.cfg.cps : Int) / 16) →
              ∃ t, exec (.survey dt p) s = .next t ∧ t.port.response = some ⟨.ok, []⟩
              ∧ t.standby = s.standby ∧ t.sensing = s.sensing ∧ t.coord = s.coord ∧ t.peers = s.peers ∧ t.mem = s.mem
              ∧ t.power = s.power ∧ t.decoder = s.decoder
              ∧ (s.counter < g.toInt → s.sensing.limPos.level = true → t.hasFault .overtravel .hold none 1)
              ∧ (g.toInt < s.counter → s.sensing.limNeg.level = true → t.hasFault .overtravel .hold none (-1))
              ∧ ((s.counter < g.toInt → s.sensing.limPos.level = false) →
                (g.toInt < s.counter → s.sensing.limNeg.level = false) →
                (atOnce → s.sensing.limPos.level = true → t.hasFault .overtravel .hold none 1)
                ∧ ((atOnce → s.sensing.limPos.level = false) →
                  t.engine.refState = .surveying ∧ t.engine.parked = false
                  ∧ (∃ c, t.engine.operation = .survey c ∧ c.kind = k ∧ c.mark = rdSigned16 p 1
                      ∧ c.start = s.standby.counter ∧ c.first = none ∧ c.second = none ∧ c.endCause = none
                      ∧ (¬ atOnce → c.phase = 1) ∧ (atOnce → c.phase = 2))
                  ∧ (¬ atOnce → t.engine.order = .goto g s.cfg.slow .survey)
                  ∧ (atOnce → k = .backlash → t.engine.order = .jog .positive s.cfg.creep .survey)
                  ∧ (atOnce → k = .ratio → t.engine.order = .jog .positive s.cfg.slow .survey)
                  ∧ t.cal = { s.cal with result := none } ∧ t.gate = .opened ∧ t.hold = (s.opened dt).hold
                  ∧ t.plan = s.plan ∧ t.link = s.link ∧ t.store = s.store)))))))

/-- TRIM is answered by the first condition of R184 that holds; taken, the committed ZERO_TRIM plus the counter less
the target becomes the pending ZERO_TRIM, the response carries it, and nothing else changes. That BUSY without DRV_STILL
comes before REFUSED_HOLD is the model's choice (R29; log entry 18). -/
def Obligations.TrimFillsPendingTrim : Prop :=
  ∀ (dt : Time) (p : List Byte) (s : State), s.portReady = true → p.length = 5 →
    (s.coord.phase ≠ .ready → exec (.trim dt p) s = .next (s.refused dt .refusedPhase))
    ∧ (s.coord.phase = .ready →
      ((s.engine.refState = .unreferenced ∨ s.engine.refState = .provisional) →
        exec (.trim dt p) s = .next (s.refused dt .invalid))
      ∧ ((s.engine.refState = .seeking ∨ s.engine.refState = .captured ∨ s.engine.refState = .surveying
          ∨ (s.engine.refState = .referenced ∧ ((∃ k, s.engine.operation = .park k) ∨ s.still = false))) →
        exec (.trim dt p) s = .next (s.refused dt .busy))
      ∧ (s.engine.refState = .referenced → (∀ k, s.engine.operation ≠ .park k) → s.still = true →
        (s.hold.level ≠ .none → exec (.trim dt p) s = .next (s.refused dt .refusedHold))
        ∧ (s.hold.level = .none →
          ((s.cal.sighting.isSome = true ∨ s.cal.proposal.isSome = true) →
            exec (.trim dt p) s = .next (s.refused dt .busy))
          ∧ (s.cal.sighting = none → s.cal.proposal = none →
            ∀ v : Int, v = s.cal.committedTrim + (s.standby.counter.toInt - (rdPosition p 0).toInt) →
              ((s.cfg.cps : Int) ≤ |v| → exec (.trim dt p) s = .next (s.refused dt .invalid))
              ∧ (|v| < (s.cfg.cps : Int) → exec (.trim dt p) s = .next
                  { (s.opened dt).respond .ok (be32 (BitVec.ofInt 32 v)) with
                    cal := { s.cal with pendTrim := some v } })))))

/-- CAL_COMMIT is answered by the first condition of R190 that holds; taken, the own proposal is the next generation
with its start at the arrival, and its sighting begins; motion, hold, phase, link, peers and positions are left. -/
def Obligations.CalCommitProposesNextGeneration : Prop :=
  ∀ (dt : Time) (s : State), s.portReady = true →
    (s.coord.phase ≠ .ready → exec (.calCommit dt []) s = .next (s.refused dt .refusedPhase))
    ∧ (s.coord.phase = .ready → s.hold.level ≠ .none → exec (.calCommit dt []) s = .next (s.refused dt .refusedHold))
    ∧ (s.coord.phase = .ready → s.hold.level = .none → (s.cal.generation = 0xFFFF ∨ s.cal.flipFailed = true) →
        exec (.calCommit dt []) s = .next (s.refused dt .invalid))
    ∧ (s.coord.phase = .ready → s.hold.level = .none → s.cal.generation ≠ 0xFFFF → s.cal.flipFailed = false →
      (s.commitBusy = true → exec (.calCommit dt []) s = .next (s.refused dt .busy))
      ∧ (s.commitBusy = false → ∃ t, exec (.calCommit dt []) s = .next t
        ∧ t.port.response = some ⟨.ok, be16 (s.cal.generation + 1)⟩
        ∧ t.cal.proposal = some ⟨s.cal.generation + 1, s.now + dt, false⟩
        ∧ t.cal.sighting = some (s.cal.generation + 1)
        ∧ t.cal.committed = s.cal.committed ∧ t.cal.trim = s.cal.trim ∧ t.cal.backlash = s.cal.backlash
        ∧ t.cal.pendTrim = s.cal.pendTrim ∧ t.cal.pendBacklash = s.cal.pendBacklash
        ∧ (t.cal.stagedInSighting = true ↔ s.sensing.pfail.level = false)
        ∧ t.standby = s.standby ∧ t.sensing = s.sensing ∧ t.engine = s.engine ∧ t.hold = (s.opened dt).hold
        ∧ t.gate = s.gate ∧ t.coord = s.coord ∧ t.plan = s.plan ∧ t.link = s.link ∧ t.peers = s.peers
        ∧ t.mem = s.mem ∧ t.power = s.power ∧ t.decoder = s.decoder))

/-- RESUME is answered by the table of R174; taken, the level becomes NONE with the sequence, cause and origin kept,
the resume flag names that sequence, a HOLD order is cleared, a permitted gate is OPEN, and a DROP resumed in READY
returns to HOMING; positions, peers, the store and the supplies are left (R84, R174, R176). -/
def Obligations.ResumeEndsCompleteHold : Prop :=
  ∀ (dt : Time) (s : State), s.portReady = true →
    (s.hold.level = .none → exec (.resume dt []) s = .next (s.refused dt .idle))
    ∧ (s.hold.level = .lockout → exec (.resume dt []) s = .next (s.refused dt .refusedHold))
    ∧ (s.hold.level = .stop ∨ s.hold.level = .drop → s.hold.complete = false →
        exec (.resume dt []) s = .next (s.refused dt .busy))
    ∧ (s.hold.level = .stop ∨ s.hold.level = .drop → s.hold.complete = true →
        ∃ t, exec (.resume dt []) s = .next t
        ∧ t.port.response = some ⟨.ok, []⟩
        ∧ t.hold.level = .none ∧ t.hold.complete = false ∧ t.hold.deadline = none
        ∧ t.hold.seq = s.hold.seq ∧ t.hold.cause = s.hold.cause ∧ t.hold.origin = s.hold.origin
        ∧ t.hold.resume = true ∧ t.hold.resumeFor = s.hold.seq
        ∧ t.engine.order = (if s.engine.order.reason = some .hold then .none else s.engine.order)
        ∧ t.store.closing = none ∧ t.port.attention.holdChanged = true
        ∧ (t.permitted = true → t.gate = .opened)
        ∧ t.coord.phase = (if s.hold.level = .drop ∧ s.coord.phase = .ready then .homing else s.coord.phase)
        ∧ t.standby = s.standby ∧ t.sensing = s.sensing ∧ t.peers = s.peers ∧ t.mem = s.mem ∧ t.power = s.power
        ∧ t.decoder = s.decoder ∧ t.link.state = s.link.state ∧ t.coord.run = s.coord.run
        ∧ t.plan.steps = s.plan.steps)

/-- RESTART is answered by the table of R86; taken, the level is NONE with its sequence kept, a HOLD order is cleared,
the last run claim is the run where known, the restart flag is set with PEER_LOSS_LIMIT packings left, and the phase is
GATHERING with a new deadline; the link, the counter, the reference state, the run, journal-active, the fault list and
the plan are kept. -/
def Obligations.RestartReturnsToGathering : Prop :=
  ∀ (dt : Time) (s : State), s.portReady = true →
    (s.coord.phase ≠ .halted → exec (.restart dt []) s = .next (s.refused dt .refusedPhase))
    ∧ (s.coord.phase = .halted →
        (s.hold.level = .drop ∨ s.hold.level = .lockout ∨ (s.hold.level = .stop ∧ s.hold.complete = false)) →
        exec (.restart dt []) s = .next (s.refused dt .refusedHold))
    ∧ (s.coord.phase = .halted → (s.hold.level = .none ∨ (s.hold.level = .stop ∧ s.hold.complete = true)) →
        ∃ t, exec (.restart dt []) s = .next t
        ∧ t.port.response = some ⟨.ok, []⟩
        ∧ t.hold.level = .none ∧ t.hold.seq = s.hold.seq ∧ t.hold.cause = s.hold.cause
        ∧ t.hold.origin = s.hold.origin ∧ t.hold.resume = false
        ∧ t.engine.order = (if s.engine.order.reason = some .hold then .none else s.engine.order)
        ∧ t.coord.lastRunClaim = (match s.coord.run with | some r => some r | none => s.coord.lastRunClaim)
        ∧ t.coord.restart = true ∧ t.coord.restartLeft = s.cfg.peerLossLimit
        ∧ t.coord.phase = .gathering ∧ t.coord.agreement = 0 ∧ t.coord.verdictTested = false
        ∧ t.coord.deadline = some (s.now + dt + ms (s.cfg.gatherLimit * 1000))
        ∧ t.coord.run = s.coord.run ∧ t.coord.journalActive = s.coord.journalActive
        ∧ t.engine.refState = s.engine.refState ∧ t.engine.operation = s.engine.operation
        ∧ t.hold.faults = s.hold.faults
        ∧ t.link = { s.link with outOfArm := [] }
        ∧ t.standby = s.standby ∧ t.sensing = s.sensing ∧ t.plan = s.plan ∧ t.peers = s.peers ∧ t.cal = s.cal
        ∧ t.mem = s.mem ∧ t.power = s.power ∧ t.decoder = s.decoder)

/-- LOCKOUT_CLEAR is answered by the table of R177: refused it sets the key count to 0; the first and second request
within 2 s count 1 and 2; the third clears the lockout: LOCK_CLEAR is posted, the lockout-clear flag is set with
PEER_LOSS_LIMIT packings left, the level is NONE and the phase HALTED (R107, R108, R178). -/
def Obligations.LockoutClearNeedsThreeKeys : Prop :=
  ∀ (dt : Time) (s : State), s.portReady = true →
    (s.coord.phase = .isolated → exec (.lockoutClear dt []) s = .next (s.refused dt .refusedPhase))
    ∧ (s.coord.phase ≠ .isolated → s.hold.level ≠ .lockout →
        exec (.lockoutClear dt []) s = .next (s.refused dt .idle))
    ∧ (s.coord.phase ≠ .isolated → s.hold.level = .lockout → s.sensing.keySw.level = false →
        exec (.lockoutClear dt []) s = .next (s.refused dt .notKey))
    ∧ (s.coord.phase ≠ .isolated → s.hold.level = .lockout → s.sensing.keySw.level = true →
      (s.hold.keyCount = 0 ∨ (∀ k, s.hold.lastKey = some k → k + ms 2000 < s.now + dt) →
        exec (.lockoutClear dt []) s = .next
          { (s.opened dt).respond .ok [1] with
            hold := { s.hold with keyCount := 1, lastKey := some (s.now + dt) } })
      ∧ (∀ k, s.hold.lastKey = some k → s.now + dt ≤ k + ms 2000 →
        (s.hold.keyCount = 1 → exec (.lockoutClear dt []) s = .next
          { (s.opened dt).respond .ok [2] with
            hold := { s.hold with keyCount := 2, lastKey := some (s.now + dt) } })
        ∧ (s.hold.keyCount = 2 → ∃ t, exec (.lockoutClear dt []) s = .next t
          ∧ t.port.response = some ⟨.ok, [0]⟩
          ∧ t.hold.keyCount = 0 ∧ t.hold.lastKey = some (s.now + dt)
          ∧ t.hold.level = .none ∧ t.hold.complete = false ∧ t.hold.deadline = none
          ∧ t.hold.seq = s.hold.seq ∧ t.hold.cause = s.hold.cause ∧ t.hold.origin = s.hold.origin
          ∧ t.hold.lockClear = true ∧ t.hold.lockClearLeft = s.cfg.peerLossLimit
          ∧ t.coord.phase = .halted
          ∧ t.store.busyWith .lockClear = true ∧ t.store.isPending .lockRecord = false
          ∧ t.engine.order = (if s.engine.order.reason = some .hold then .none else s.engine.order)
          ∧ t.standby = s.standby ∧ t.sensing = s.sensing ∧ t.peers = s.peers ∧ t.mem = s.mem ∧ t.power = s.power
          ∧ t.decoder = s.decoder ∧ t.link.state = s.link.state)))

/-- SHUTDOWN is answered by the table of R179; taken, it raises SHUTDOWN of class HOLD with detail 0: a new sequence
with cause SHUTDOWN and this station as origin, at STOP from NONE and at the same level otherwise, and STOP with reason
HOLD ordered (R26, R159, R160, R161). -/
def Obligations.ShutdownRaisesItsHold : Prop :=
  ∀ (dt : Time) (s : State), s.portReady = true →
    (s.still = false ∨ s.braked = false → exec (.shutdown dt []) s = .next (s.refused dt .busy))
    ∧ (s.still = true → s.braked = true →
      (s.hold.level = .lockout ∨ ((s.hold.level = .stop ∨ s.hold.level = .drop) ∧ s.hold.complete = false) →
        exec (.shutdown dt []) s = .next (s.refused dt .refusedHold))
      ∧ (s.hold.level = .none ∨ ((s.hold.level = .stop ∨ s.hold.level = .drop) ∧ s.hold.complete = true) →
        ∃ t, exec (.shutdown dt []) s = .next t
        ∧ t.port.response = some ⟨.ok, []⟩
        ∧ t.hold.level = (if s.hold.level = .drop then .drop else .stop)
        ∧ t.hold.seq = (if s.hold.newest + 1 = 0 then 1 else s.hold.newest + 1)
        ∧ t.hold.cause = FaultCode.byte .shutdown ∧ t.hold.origin = s.own ∧ t.hold.resume = false
        ∧ t.engine.order = .stop .hold
        ∧ t.hasFault .shutdown .hold none 0
        ∧ t.port.attention.holdChanged = true
        ∧ t.standby = s.standby ∧ t.sensing = s.sensing ∧ t.peers = s.peers ∧ t.mem = s.mem ∧ t.power = s.power
        ∧ t.decoder = s.decoder ∧ t.coord.phase = s.coord.phase ∧ t.coord.run = s.coord.run
        ∧ t.plan.steps = s.plan.steps ∧ t.link.state = s.link.state))

/-! ### Supplies, the reset pin and the starts of the main domain (chapter 01) -/

/-- The starts of the main domain and the reset pin (R17, R18, R20, R48, R66, R71, R104, R110, R111, R128, R158, R165,
R180, R203, R211). PORT_RESET at the armed rise of nCS, NRESET_RELEASE with the main supply present (a PIN start, or
the POWER start that waited, R111), and WARM_START with nRESET released: every block of the main domain takes its start
values, the standby domain keeps its six items, the standby decoder counts from the reference it had, and the retained
store is untouched (R89, R212). COLD_START initialises the six items first: counter 0, continuity false, SUPPLY_LOST,
excursion 0, supply-loss value 0, standby-alive true; the start is POWER with standby-alive false. The assertion of
nRESET while the main domain runs puts every block of it into its reset values, the standby domain and the store
keeping theirs; with the main supply absent it only shows on the pin. The model's: the reference line levels of a cold
start (log entry 5), the start values the manual gives no item (log entry 6), that no earlier transition counts for
OVERSPEED when the standby decoder takes over (log entry 15), what the registers read while nRESET is held (log entry
38), and that a beat in flight leaves its bytes (log entry 41). -/
def Obligations.MainDomainStartsTakeTheirValues : Prop :=
  (∀ (dt : Time) (straps : Station) (s : State),
    (s.running = true → s.port.resetArmed = true →
      exec (.portReset dt straps) s = .next (s.restarted dt .port true straps s.power))
    ∧ (s.running = true → s.port.resetArmed = false → exec (.portReset dt straps) s = .next (s.later dt))
    ∧ (s.power.nreset = true → s.power.vdd = true →
      exec (.nresetRelease dt straps) s = .next
        (match s.power.pendingPower with
          | some alive => s.restarted dt .power alive straps { s.power with nreset := false, pendingPower := none }
          | none => s.restarted dt .pin true straps { s.power with nreset := false, pendingPower := none }))
    ∧ (s.power.nreset = true → s.power.vdd = false →
      exec (.nresetRelease dt straps) s = .next
        { s.later dt with power := { s.power with nreset := false, pendingPower := none } })
    ∧ (s.power.vdd = false → s.standby.alive = true → s.power.nreset = false →
      exec (.warmStart dt straps) s = .next
        (s.restarted dt .power true straps { s.power with vdd := true, domainUp := true }))
    ∧ (s.power.vdd = false → s.standby.alive = true → s.power.nreset = true →
      exec (.warmStart dt straps) s = .next
        { s.later dt with power := { s.power with vdd := true, domainUp := true, pendingPower := some true } }))
  ∧ (∀ (dt : Time) (straps : Station) (s : State), s.power.vdd = false → s.standby.alive = false →
    ∃ t, exec (.coldStart dt straps) s = .next t
    ∧ t.standby = ⟨0, false, .supplyLost, 0, 0, true⟩
    ∧ t.mem = s.mem ∧ t.pending = s.pending ∧ t.now = s.now + dt ∧ t.power.vdd = true ∧ t.power.nreset = s.power.nreset
    ∧ (s.power.nreset = false →
      t.coord.start = ⟨.power, false, none⟩ ∧ t.sensing = .initial (s.now + dt) ∧ t.decoder.standbyFeeds = true
      ∧ t.link = .initial straps ∧ t.engine = .initial ∧ t.peers = peersInitial ∧ t.plan = .initial
      ∧ t.hold = .initial straps ∧ t.gate = .closed ∧ t.cal = .initial ∧ t.store = .initial ∧ t.port = .initial
      ∧ t.coord = .initial .power false)
    ∧ (s.power.nreset = true → t.power.pendingPower = some false))
  ∧ (∀ (dt : Time) (s : State), s.power.nreset = false →
    (s.power.vdd = true → ∃ t, exec (.nresetAssert dt) s = .next t
      ∧ t.standby = s.standby ∧ t.power = { s.power with nreset := true } ∧ t.decoder.standbyFeeds = true
      ∧ t.decoder.lineA = s.decoder.lineA ∧ t.decoder.lineB = s.decoder.lineB
      ∧ t.sensing = .initial (s.now + dt) ∧ t.engine = .initial ∧ t.link = .initial s.own ∧ t.peers = peersInitial
      ∧ t.coord = .initial s.coord.start.kind s.coord.start.aliveAtStart ∧ t.plan = .initial ∧ t.hold = .initial s.own
      ∧ t.gate = .closed ∧ t.cal = .initial ∧ t.store = .initial ∧ t.port = .initial ∧ t.mem = s.mem
      ∧ t.pending = s.pending ∧ t.now = s.now + dt
      ∧ t.running = false ∧ t.moveOk = false ∧ t.brakeOk = false ∧ t.attn = false)
    ∧ (s.power.vdd = false → exec (.nresetAssert dt) s = .next
      { s.later dt with power := { s.power with nreset := true } }))

/-- A main-supply loss stops the main domain at once: the standby domain takes the counter as the supply-loss value and
sets the excursion to 0, and counting passes to the standby decoder from the main decoder's last sample; the counter,
continuity, error kind and alive flag stay (R5, R14). That every block of the main domain keeps its contents while it
stands still, but for a beat in progress, is the model's choice (log entry 38). With the main supply absent, the loss of
the standby supply loses all six items, whatever they become, and the standby-alive flag reads false; its return makes
the domain alive again with its contents still lost. With the main supply present VSTBY has no effect (R12). -/
def Obligations.SupplyLossesReachTheStandbyDomain : Prop :=
  (∀ (dt : Time) (s : State), s.power.vdd = true →
    ∃ t, exec (.mainSupplyLoss dt) s = .next t
    ∧ t.standby = { s.standby with supplyLoss := s.standby.counter, excursion := 0 }
    ∧ t.power.vdd = false ∧ t.power.nreset = s.power.nreset ∧ t.power.domainUp = s.power.domainUp ∧ t.running = false
    ∧ t.decoder.standbyFeeds = true ∧ t.decoder.lineA = s.decoder.lineA ∧ t.decoder.lineB = s.decoder.lineB
    ∧ (s.store.port = none → t.mem = s.mem)
    ∧ (∀ f, s.store.port = some f → s.memoryCanonical → ∀ a, (a < f.address ∨ f.address + 8 ≤ a) →
        Memory.read t.mem a = Memory.read s.mem a)
    ∧ t.sensing = s.sensing ∧ t.engine = s.engine ∧ t.link = s.link ∧ t.peers = s.peers ∧ t.coord = s.coord
    ∧ t.plan = s.plan ∧ t.hold = s.hold ∧ t.gate = s.gate ∧ t.cal = s.cal ∧ t.store = s.store ∧ t.port = s.port
    ∧ t.pending = s.pending ∧ t.now = s.now + dt)
  ∧ (∀ (dt : Time) (s : State),
    (s.power.vdd = false → s.power.domainUp = true → ∃ x n, x.alive = false ∧
      exec (.standbyDomainLoss dt) s = .next
        { s.later dt with standby := x, freeCount := n, power := { s.power with domainUp := false } })
    ∧ (s.power.vdd = true → exec (.standbyDomainLoss dt) s = .next (s.later dt)
        ∧ exec (.standbySupplyReturn dt) s = .next (s.later dt))
    ∧ (s.power.vdd = false → s.power.domainUp = false →
      exec (.standbySupplyReturn dt) s = .next { s.later dt with power := { s.power with domainUp := true } }))

/-! ### The Joint Sensing Unit (chapter 01) -/

/-- A sample of a switch-type input: equal levels set its count to 0; differing ones add 1 to it, and at the filter
length the filtered level takes the raw level and the count is 0; no other filter moves. Without an accepted change
nothing else changes (R1). At a change, KEYSW's fall sets the key count to 0 (R177) and LOAD_IN acts on nothing; a fall
of DRV_STILL is noted by a park alone (R43), and its arrival is stated in StandstillEndsTheOperation and
SurveyTakesCapturesAndCompletes. HOME_SW (R34): the edge a running SWITCH seek in TO_SWITCH looks for - the fall going
POSITIVE, the arrival going NEGATIVE - takes it to TO_MARK with the counter as phase start and a new stall window,
jogging on at CREEP; any other edge acts on nothing. LIM_POS and LIM_NEG (R28): an arrival while the order is JOG or
GOTO, or while moving, raises OVERTRAVEL (HOLD) with +1 or -1, naming the step of the seek or park in progress (R156;
log entry 20); any other arrival, and a fall, acts on nothing. BRK_FB (R167, R170): the gate takes its next state,
CLOSED from AWAIT_BRAKE at an arrival, and an entry whose stations are all settled then is complete. The counter, the
peer table, the store and the supplies are left by all. LOAD_IN is not sampled outside LOAD_STATION (R1). -/
def Obligations.SwitchFilterFollowsSamples : Prop :=
  ∀ (dt : Time) (i : SwitchInput) (raw : Bool) (s : State), s.running = true →
    ((i = .loadIn ∧ (s.port.config.bind fun c => c.loadStation) ≠ some s.own) →
      exec (.switchSample dt i raw) s = .next (s.later dt))
    ∧ ((i ≠ .loadIn ∨ (s.port.config.bind fun c => c.loadStation) = some s.own) →
      (raw = (s.sensing.filter i).level →
        exec (.switchSample dt i raw) s = .next
          { s.later dt with sensing := s.sensing.putFilter i ⟨(s.sensing.filter i).level, 0⟩ })
      ∧ (raw ≠ (s.sensing.filter i).level → (s.sensing.filter i).count + 1 < s.switchLength →
        exec (.switchSample dt i raw) s = .next
          { s.later dt with
            sensing := s.sensing.putFilter i ⟨(s.sensing.filter i).level, (s.sensing.filter i).count + 1⟩ })
      ∧ (raw ≠ (s.sensing.filter i).level → s.switchLength ≤ (s.sensing.filter i).count + 1 →
        ∃ t, exec (.switchSample dt i raw) s = .next t
          ∧ t.sensing = s.sensing.putFilter i ⟨raw, 0⟩
          ∧ (i = .keySw → t = { s.later dt with
              sensing := s.sensing.putFilter i ⟨raw, 0⟩
              hold := { s.hold with keyCount := if raw = true then s.hold.keyCount else 0 } })
          ∧ (i = .loadIn → t = { s.later dt with sensing := s.sensing.putFilter i ⟨raw, 0⟩ })
          ∧ (i = .drvStill → raw = false → t = { s.later dt with
              sensing := s.sensing.putFilter i ⟨raw, 0⟩
              engine := { s.engine with operation := match s.engine.operation with
                | .park p => .park { p with leftStill := true }
                | o => o } })
          ∧ (i = .homeSw → ∀ sought : SeekContext → Prop, (∀ k, sought k ↔ s.engine.operation = .seek k
                ∧ s.engine.refState = .seeking ∧ k.kind = .switch ∧ k.phase = .toSwitch ∧ k.endCause = none
                ∧ (k.dir = .positive ∧ raw = false ∨ k.dir = .negative ∧ raw = true)) →
              (∀ k, sought k →
                ((s.engine.order.reason = some .hold ∨ (k.dir = .positive → s.sensing.limPos.level = false)
                    ∧ (k.dir = .negative → s.sensing.limNeg.level = false)) →
                  t.engine = { s.engine with
                    operation := .seek { k with
                      phase := .toMark, phaseStart := s.standby.counter, stall := ⟨s.standby.counter, s.now + dt⟩ }
                    order := if s.engine.order.reason = some .hold then s.engine.order
                      else .jog k.dir s.cfg.creep .seek }
                  ∧ t.hold = s.hold ∧ t.plan = s.plan ∧ t.gate = s.gate)
                ∧ (s.engine.order.reason ≠ some .hold →
                  (k.dir = .positive → s.sensing.limPos.level = true → t.hasFault .overtravel .hold k.step 1)
                  ∧ (k.dir = .negative → s.sensing.limNeg.level = true → t.hasFault .overtravel .hold k.step (-1))))
              ∧ ((∀ k, ¬ sought k) → t = { s.later dt with sensing := s.sensing.putFilter i ⟨raw, 0⟩ }))
          ∧ (∀ v : Int, (i = .limPos ∧ v = 1 ∨ i = .limNeg ∧ v = -1) →
              (raw = true → ((∃ d w q, s.engine.order = .jog d w q) ∨ (∃ g w q, s.engine.order = .goto g w q)
                  ∨ s.sensing.moving = true) →
                t.hasFault .overtravel .hold s.engine.operation.step v
                ∧ (s.hold.level ≠ .lockout → t.engine.order = .stop .hold)
                ∧ (s.hold.level = .none → t.hold.level = .stop ∧ t.hold.seq = s.hold.freshSeq
                    ∧ t.hold.cause = FaultCode.byte .overtravel ∧ t.hold.origin = s.own))
              ∧ ((raw = false ∨ ((∀ d w q, s.engine.order ≠ .jog d w q) ∧ (∀ g w q, s.engine.order ≠ .goto g w q)
                  ∧ s.sensing.moving = false)) →
                t = { s.later dt with sensing := s.sensing.putFilter i ⟨raw, 0⟩ }))
          ∧ (i = .brkFb → t.gate = (gateUpdate { s.later dt with sensing := s.sensing.putFilter i ⟨raw, 0⟩ }).gate
              ∧ (s.gate = .awaitBrake → s.permitted = false → raw = true → t.gate = .closed)
              ∧ (s.gate = .awaitBrake → s.permitted = false → raw = false → s.hold.level.dropped = false →
                  t.gate = .awaitBrake)
              ∧ ((s.hold.level = .stop ∨ s.hold.level = .drop) → s.hold.complete = false →
                (raw = true → s.still = true → t.gate = .closed →
                  (∀ y ∈ s.peerRecords, y.2.settledFor s.hold.seq = true) →
                  t.hold.complete = true ∧ t.hold.deadline = none)
                ∧ ((raw = false ∨ s.still = false ∨ t.gate ≠ .closed
                    ∨ ∃ y ∈ s.peerRecords, y.2.settledFor s.hold.seq = false) → t.hold = s.hold))
              ∧ t.hold.level = s.hold.level ∧ t.hold.seq = s.hold.seq ∧ t.engine = s.engine ∧ t.plan = s.plan
              ∧ t.coord = s.coord)
          ∧ t.standby = s.standby ∧ t.decoder = s.decoder ∧ t.peers = s.peers ∧ t.mem = s.mem ∧ t.power = s.power
          ∧ t.pending = s.pending ∧ t.now = s.now + dt ∧ t.coord.phase = s.coord.phase ∧ t.link.state = s.link.state
          ∧ t.plan.steps = s.plan.steps ∧ t.port.config = s.port.config))

/-- The PFAIL filter has a fixed length of 2 (R2). At every arrival the dip flag is set (R101); with journal-active
false, or a FINAL outstanding, nothing more happens (R99). Else a ROUTINE or CAL_STAGE in flight is cut and any other
write runs on, pending ROUTINE and CAL_STAGE requests are dropped, and unless the closing flag is set or an ORDERLY is
pending or in flight, a FINAL is latched and posted and marks the dip (R98, R100, R101). That it is latched too in
RECOVERING with a LIVE claim, where journal-active is true and R127 says that none is, is the model's choice (log entry
55). A dropped CAL_STAGE ends its write: the roll-forward test is made (R193, R197). At the withdrawal POWER_DIP (HOLD)
is raised with detail 1 for a dip that latched a FINAL and 0 otherwise (R101). No byte of the store changes at once. -/
def Obligations.PfailFilterAndDip : Prop :=
  ∀ (dt : Time) (raw : Bool) (s : State), s.running = true →
    (raw = s.sensing.pfail.level → exec (.pfailSample dt raw) s = .next
      { s.later dt with sensing := { s.sensing with pfail := ⟨s.sensing.pfail.level, 0⟩ } })
    ∧ (raw ≠ s.sensing.pfail.level → s.sensing.pfail.count = 0 → exec (.pfailSample dt raw) s = .next
      { s.later dt with sensing := { s.sensing with pfail := ⟨s.sensing.pfail.level, 1⟩ } })
    ∧ (raw ≠ s.sensing.pfail.level → 0 < s.sensing.pfail.count → raw = true →
      ((s.coord.journalActive = false ∨ s.store.finalOut = true) → exec (.pfailSample dt raw) s = .next
        { s.later dt with
          sensing := { s.sensing with pfail := ⟨true, 0⟩ }, store := { s.store with dip := some false } })
      ∧ (s.coord.journalActive = true → s.store.finalOut = false → ∃ t, exec (.pfailSample dt raw) s = .next t
        ∧ t.sensing = { s.sensing with pfail := ⟨true, 0⟩ }
        ∧ t.store.isPending .routine = false ∧ t.store.isPending .calStage = false
        ∧ (∀ f, s.store.port = some f → (f.request.kind = .routine ∨ f.request.kind = .calStage) →
            t.store.port = some { f with isCut := true })
        ∧ (∀ f, s.store.port = some f → f.request.kind ≠ .routine → f.request.kind ≠ .calStage → t.store.port = some f)
        ∧ ((s.store.closing.isSome = true ∨ s.store.busyWith .orderly = true) →
            t.store.dip = some false ∧ t.store.finalOut = false ∧ t.store.lastTag = s.store.lastTag)
        ∧ (s.store.closing = none → s.store.busyWith .orderly = false →
            t.store.dip = some true ∧ t.store.finalOut = true ∧ t.store.busyWith .final = true
            ∧ t.store.lastTag = some s.nextTag)
        ∧ (s.store.isPending .calStage = false → t.cal = s.cal)
        ∧ (∀ x, s.store.isPending .calStage = true → s.store.inFlight .calStage = false →
            s.store.busyWith .calFlip = false → s.store.busyWith .calDiscard = false → s.cal.staged = some x →
            s.cal.flipFailed = false → s.coord.phase ≠ .isolated → (∃ y ∈ s.peerRecords, y.2.committed = x.generation) →
            t.store.busyWith .calFlip = true)
        ∧ t.standby = s.standby ∧ t.engine = s.engine ∧ t.link = s.link ∧ t.peers = s.peers ∧ t.coord = s.coord
        ∧ t.plan = s.plan ∧ t.hold = s.hold ∧ t.gate = s.gate ∧ t.mem = s.mem ∧ t.port = s.port))
    ∧ (raw ≠ s.sensing.pfail.level → 0 < s.sensing.pfail.count → raw = false →
      ∃ t, exec (.pfailSample dt raw) s = .next t
        ∧ t.sensing = { s.sensing with pfail := ⟨false, 0⟩ } ∧ t.store.dip = none
        ∧ t.hasFault .powerDip .hold none (if s.store.dip = some true then 1 else 0)
        ∧ t.standby = s.standby ∧ t.peers = s.peers ∧ t.mem = s.mem ∧ t.coord = s.coord ∧ t.plan.steps = s.plan.steps)

/-- A sample of the main decoder outside the settling window in which exactly one line has changed moves the counter by
one, up for the order A-rises, B-rises, A-falls, B-falls and down for the reverse; the levels become the reference, and
the other five items of the standby domain are left. An unchanged sample changes nothing, and in the settling window
the main decoder does not count (R4, R11). A sample of the main decoder in which both lines have changed leaves the
counter, takes the new levels as its reference, loses continuity with cause QUAD_ERROR where it stood, empties the mark
capture list and the pending edge, sends the engine to UNREFERENCED with no operation, and raises QUAD_ERROR (HOLD)
with detail 1, naming the step of the seek or park it ends (R4, R10, R13, R25, R156; log entry 20). A read of the
standby decoder while it feeds the counter: one line changed counts as R4 says, and loses continuity with cause
OVERSPEED when less than 50 us have passed since the last accepted transition; both lines changed lose continuity with
cause QUAD_ERROR and leave the counter; the excursion takes the larger distance from the supply-loss value only while
main power is absent; a lost continuity keeps its first cause (R5, R13, R14). With no transition accepted since it took
over, the first is not tested: read from the manual (log entry 15). -/
def Obligations.DecodersCountOrLoseContinuity : Prop :=
  (∀ (dt : Time) (a b : Bool) (s : State), s.running = true →
     (s.decoder.standbyFeeds = true → exec (.encTransition dt a b) s = .next (s.later dt))
     ∧ (s.decoder.standbyFeeds = false → a = s.decoder.lineA → b = s.decoder.lineB →
       exec (.encTransition dt a b) s = .next (s.later dt))
     ∧ (s.decoder.standbyFeeds = false →
       ((a ≠ s.decoder.lineA ∧ b = s.decoder.lineB) ∨ (a = s.decoder.lineA ∧ b ≠ s.decoder.lineB)) →
       ∃ t, exec (.encTransition dt a b) s = .next t
         ∧ (positiveStep s.decoder.lineA s.decoder.lineB a b →
             t.standby = { s.standby with counter := s.standby.counter + 1 })
         ∧ (¬ positiveStep s.decoder.lineA s.decoder.lineB a b →
             t.standby = { s.standby with counter := s.standby.counter - 1 })
         ∧ t.decoder = { s.decoder with lineA := a, lineB := b }
         ∧ t.sensing.captures = s.sensing.captures ∧ t.sensing.accepted = s.sensing.accepted
         ∧ t.peers = s.peers ∧ t.mem = s.mem ∧ t.power = s.power ∧ t.coord = s.coord ∧ t.link.state = s.link.state
         ∧ t.plan.steps = s.plan.steps ∧ t.port.config = s.port.config))
  ∧ (∀ (dt : Time) (a b : Bool) (s : State), s.running = true → s.decoder.standbyFeeds = false →
      a ≠ s.decoder.lineA → b ≠ s.decoder.lineB →
      ∃ t, exec (.encTransition dt a b) s = .next t
        ∧ t.standby = { s.standby with
            continuity := false, error := if s.standby.continuity = true then .quadError else s.standby.error }
        ∧ t.decoder = { s.decoder with lineA := a, lineB := b }
        ∧ t.sensing = { s.sensing with captures := [], pendingEdge := none }
        ∧ ((s.engine.refState ≠ .unreferenced ∨ s.engine.operation = .none) →
            t.engine.refState = .unreferenced ∧ t.engine.operation = .none)
        ∧ t.hasFault .quadError .hold s.engine.operation.step 1
        ∧ t.peers = s.peers ∧ t.mem = s.mem ∧ t.power = s.power ∧ t.coord.phase = s.coord.phase
        ∧ t.plan.steps = s.plan.steps ∧ t.port.config = s.port.config)
  ∧ (∀ (dt : Time) (a b : Bool) (s : State), (s.power.vdd = true ∨ s.power.domainUp = true) → s.decoder.standbyFeeds = true →
    (a = s.decoder.lineA → b = s.decoder.lineB → exec (.standbyDecoderRead dt a b) s = .next (s.later dt))
    ∧ (((a ≠ s.decoder.lineA ∧ b = s.decoder.lineB) ∨ (a = s.decoder.lineA ∧ b ≠ s.decoder.lineB)) →
      ∃ x y, exec (.standbyDecoderRead dt a b) s = .next
          { s.later dt with standby := x, coord := y, decoder := ⟨a, b, true, some (s.now + dt)⟩ }
        ∧ (positiveStep s.decoder.lineA s.decoder.lineB a b → x.counter = s.standby.counter + 1)
        ∧ (¬ positiveStep s.decoder.lineA s.decoder.lineB a b → x.counter = s.standby.counter - 1)
        ∧ x.excursion = (if s.power.vdd = true then s.standby.excursion
            else max s.standby.excursion (x.counter.toInt - s.standby.supplyLoss.toInt).natAbs)
        ∧ x.supplyLoss = s.standby.supplyLoss ∧ x.alive = s.standby.alive
        ∧ ((∀ p, s.decoder.lastAccepted = some p → p + 50000 ≤ s.now + dt) →
            x.continuity = s.standby.continuity ∧ x.error = s.standby.error ∧ y = s.coord)
        ∧ (∀ p, s.decoder.lastAccepted = some p → s.now + dt < p + 50000 →
            x.continuity = false
            ∧ (x.error = if s.standby.continuity = true then .overspeed else s.standby.error))
        ∧ y.phase = s.coord.phase)
    ∧ (a ≠ s.decoder.lineA → b ≠ s.decoder.lineB →
      ∃ y, exec (.standbyDecoderRead dt a b) s = .next
          { s.later dt with
            standby := { s.standby with
              continuity := false, error := if s.standby.continuity = true then .quadError else s.standby.error }
            coord := y, decoder := { s.decoder with lineA := a, lineB := b } }
        ∧ y.phase = s.coord.phase))

/-- A read of the sector lines counts equal sectors against the candidate; below SECTOR_FILTER, or when the candidate
is already accepted, nothing else changes. The first acceptance records no last change. An accepted step records the
last change with the counter and, with no pending edge, leaves it unused; an accepted jump records it used, empties the
capture list and the pending edge, sends the engine to UNREFERENCED, and raises SECTOR_JUMP (HOLD) with old x 256 +
new, naming the step of the seek or park it ends; neither touches the counter or its continuity. Before CONFIGURE the
track is not read (R6, R7, R25, R156). That the count stops at SECTOR_FILTER (log entry 16), and which step a fault
names (log entry 20), are the model's. -/
def Obligations.SectorTrackFiltersStepsAndJumps : Prop :=
  ∀ (dt : Time) (lines : BitVec 5) (s : State), s.running = true →
    (s.port.config = none → exec (.sectorSample dt lines) s = .next (s.later dt))
    ∧ (∀ c n k, s.port.config = some c → (c.sectors = 8 ∨ c.sectors = 16 ∨ c.sectors = 32) → graySector c.sectors lines n →
      k = (if s.sensing.sectorCandidate = some n then min c.sectorFilter (s.sensing.sectorCount + 1) else 1) →
      ((k < c.sectorFilter ∨ s.sensing.accepted = some n) → exec (.sectorSample dt lines) s = .next
        { s.later dt with sensing := { s.sensing with sectorCandidate := some n, sectorCount := k } })
      ∧ (c.sectorFilter ≤ k → s.sensing.accepted = none → ∃ t, exec (.sectorSample dt lines) s = .next t
        ∧ t.sensing = { s.sensing with sectorCandidate := some n, sectorCount := k, accepted := some n }
        ∧ t.standby = s.standby ∧ t.mem = s.mem ∧ t.peers = s.peers)
      ∧ (∀ a, c.sectorFilter ≤ k → s.sensing.accepted = some a → a ≠ n →
        (n = (a + 1) % c.sectors ∨ a = (n + 1) % c.sectors) → s.sensing.pendingEdge = none →
        ∃ t, exec (.sectorSample dt lines) s = .next t
        ∧ t.sensing = { s.sensing with
            sectorCandidate := some n, sectorCount := k, accepted := some n,
            lastChange := some ⟨a, n, s.standby.counter, false⟩ }
        ∧ t.standby = s.standby ∧ t.mem = s.mem ∧ t.peers = s.peers)
      ∧ (∀ a, c.sectorFilter ≤ k → s.sensing.accepted = some a → a ≠ n →
        n ≠ (a + 1) % c.sectors → a ≠ (n + 1) % c.sectors →
        ∃ t, exec (.sectorSample dt lines) s = .next t
        ∧ t.sensing = { s.sensing with
            sectorCandidate := some n, sectorCount := k, accepted := some n,
            lastChange := some ⟨a, n, s.standby.counter, true⟩, captures := [], pendingEdge := none }
        ∧ t.standby = s.standby ∧ t.mem = s.mem ∧ t.peers = s.peers
        ∧ ((s.engine.refState ≠ .unreferenced ∨ s.engine.operation = .none) →
            t.engine.refState = .unreferenced ∧ t.engine.operation = .none)
        ∧ t.hasFault .sectorJump .hold s.engine.operation.step ((a * 256 + n : Nat) : Int)))

/-- A rising edge of IDX is ignored before CONFIGURE, in the settling window and with no accepted sector. Latched with
an unused step as the last change within CPS/8 of the counter, it is qualified at once: the step is used and a capture
of the counter with the step's mark sector, its direction and the link cycle joins the list, a fifth removing the
oldest. Otherwise, with no pending edge, it becomes the pending edge (R8, R10). -/
def Obligations.IndexEdgeIsQualifiedOrPending : Prop :=
  ∀ (dt : Time) (s : State), s.running = true →
    ((s.port.config = none ∨ s.sensing.settling = true ∨ s.sensing.accepted = none) →
      exec (.indexEdge dt) s = .next (s.later dt))
    ∧ (∀ c a, s.port.config = some c → s.sensing.settling = false → s.sensing.accepted = some a →
      s.sensing.pendingEdge = none →
      ((∀ l, s.sensing.lastChange = some l → l.used = true
          ∨ (c.cps : Int) / 8 < |l.counter.toInt - s.standby.counter.toInt|
          ∨ (l.new ≠ (l.old + 1) % c.sectors ∧ l.old ≠ (l.new + 1) % c.sectors)) →
        exec (.indexEdge dt) s = .next
          { s.later dt with sensing := { s.sensing with
            pendingEdge := some ⟨s.standby.counter, a, if s.link.timed = true then s.link.cycle else none⟩ } })
      ∧ (∀ l, s.sensing.lastChange = some l → l.used = false →
          |l.counter.toInt - s.standby.counter.toInt| ≤ (c.cps : Int) / 8 →
          ((l.new = (l.old + 1) % c.sectors → s.engine.refState = .unreferenced →
            exec (.indexEdge dt) s = .next
              { s.later dt with sensing := { s.sensing with
                lastChange := some { l with used := true }
                captures := (s.sensing.captures ++ [Capture.mk s.standby.counter l.new .positive
                  (if s.link.timed = true then s.link.cycle else none) none]).drop (s.sensing.captures.length + 1 - 4) } })
          ∧ (l.new ≠ (l.old + 1) % c.sectors → l.old = (l.new + 1) % c.sectors → s.engine.refState = .unreferenced →
            exec (.indexEdge dt) s = .next
              { s.later dt with sensing := { s.sensing with
                lastChange := some { l with used := true }
                captures := (s.sensing.captures ++ [Capture.mk s.standby.counter l.old .negative
                  (if s.link.timed = true then s.link.cycle else none) none]).drop (s.sensing.captures.length + 1 - 4) } }))))

/-- The 10 ms comparison sets moving exactly when the counter has moved 16 counts or more, and keeps the counter for
the next one; not before the settling window has ended (R3). The end of the settling window, 2 ms after the start,
hands the counter to the main decoder with the standby decoder's reference; the window is not ended before (R5, R11). -/
def Obligations.MotionCheckAndSettlingEnd : Prop :=
  ∀ (dt : Time) (s : State), s.running = true →
    (s.sensing.settling = true → exec (.motionCheck dt) s = .next (s.later dt))
    ∧ (∀ p, s.sensing.settling = false → s.sensing.earlier = some p → s.hold.level.dropped = false →
      exec (.motionCheck dt) s = .next
        { s.later dt with sensing := { s.sensing with
          moving := decide (16 ≤ |s.standby.counter.toInt - p.toInt|), earlier := some s.standby.counter } })
    ∧ (∀ p, s.sensing.settling = false → s.sensing.earlier = some p → s.hold.level.dropped = true →
      exec (.motionCheck dt) s = .next
        { s.later dt with
          sensing := { s.sensing with
            moving := decide (16 ≤ |s.standby.counter.toInt - p.toInt|), earlier := some s.standby.counter }
          plan := { s.plan with dropMotion := s.plan.dropMotion
            || (decide (16 ≤ |s.standby.counter.toInt - p.toInt|) && !s.sensing.moving) } })
    ∧ (s.sensing.settling = true → s.now + dt < s.sensing.settleStart + 2000000 →
      exec (.settlingWindowEnd dt) s = .next (s.later dt))
    ∧ (s.sensing.settling = true → s.sensing.settleStart + 2000000 ≤ s.now + dt → s.cal.heldShift = false →
      exec (.settlingWindowEnd dt) s = .next
        { s.later dt with
          sensing := { s.sensing with settling := false, earlier := some s.standby.counter }
          decoder := { s.decoder with standbyFeeds := false } })
    ∧ (s.sensing.settling = true → s.sensing.settleStart + 2000000 ≤ s.now + dt → s.cal.heldShift = true →
      ∃ t, exec (.settlingWindowEnd dt) s = .next t
        ∧ t.sensing.settling = false ∧ t.decoder = { s.decoder with standbyFeeds := false }
        ∧ t.standby = { s.standby with
            counter := s.standby.counter + BitVec.ofInt 40 (-(s.cal.committedTrim - s.cal.trim)) }
        ∧ t.cal.trim = s.cal.committedTrim ∧ t.cal.backlash = s.cal.committedBacklash ∧ t.cal.heldShift = false
        ∧ t.mem = s.mem ∧ t.peers = s.peers ∧ t.hold = s.hold ∧ t.coord = s.coord)

/-- A pending edge is resolved by the first that comes (R9): an accepted step near it, POSITIVE or NEGATIVE, qualifies
it with the step's mark sector and direction and the edge's own raw value and cycle, in every reference state and
phase, and in UNREFERENCED outside RECOVERING nothing else changes; a counted transition that takes the counter beyond
CPS/8 from it, or a newer latched edge, resolves it as spurious, raising SPURIOUS_INDEX in the class of its disposition
with the accepted sector at the edge, whatever operation is in progress (R8, R9, R155). The model's: the step it names,
that of the seek or park in progress (R156; log entry 20), the distance test before the travel checks (log entry 51),
and the older edge before the newer is examined (log entry 14). -/
def Obligations.PendingEdgeIsResolved : Prop :=
  ∀ (dt : Time) (s : State) (c : Configuration) (e : PendingEdge), s.running = true → s.port.config = some c →
    s.sensing.pendingEdge = some e →
    (∀ a b, s.decoder.standbyFeeds = false →
      ((a ≠ s.decoder.lineA ∧ b = s.decoder.lineB) ∨ (a = s.decoder.lineA ∧ b ≠ s.decoder.lineB)) →
      ∃ t, exec (.encTransition dt a b) s = .next t
      ∧ (|t.standby.counter.toInt - e.value.toInt| ≤ (c.cps : Int) / 8 → t.sensing = s.sensing)
      ∧ ((c.cps : Int) / 8 < |t.standby.counter.toInt - e.value.toInt| →
          t.sensing = { s.sensing with pendingEdge := none }
          ∧ t.hasFault .spuriousIndex (if s.hold.spuriousHold = true then .hold else .note) s.engine.operation.step
              (e.sector : Int)))
    ∧ (∀ a, s.sensing.settling = false → s.sensing.accepted = some a → s.sensing.lastChange = none →
      ∃ t, exec (.indexEdge dt) s = .next t
      ∧ t.sensing = { s.sensing with
          pendingEdge := some ⟨s.standby.counter, a, if s.link.timed = true then s.link.cycle else none⟩ }
      ∧ t.hasFault .spuriousIndex (if s.hold.spuriousHold = true then .hold else .note) s.engine.operation.step
          (e.sector : Int)
      ∧ t.standby = s.standby ∧ t.mem = s.mem ∧ t.peers = s.peers)
    ∧ (∀ lines a n k d m, (c.sectors = 8 ∨ c.sectors = 16 ∨ c.sectors = 32) → graySector c.sectors lines n →
      k = (if s.sensing.sectorCandidate = some n then min c.sectorFilter (s.sensing.sectorCount + 1) else 1) →
      c.sectorFilter ≤ k → s.sensing.accepted = some a → a ≠ n →
      |s.standby.counter.toInt - e.value.toInt| ≤ (c.cps : Int) / 8 →
      (d = .positive ∧ m = n ∧ n = (a + 1) % c.sectors
        ∨ d = .negative ∧ m = a ∧ n ≠ (a + 1) % c.sectors ∧ a = (n + 1) % c.sectors) →
      (∃ t x, exec (.sectorSample dt lines) s = .next t
        ∧ t.sensing.accepted = some n ∧ t.sensing.sectorCandidate = some n ∧ t.sensing.sectorCount = k
        ∧ t.sensing.pendingEdge = none
        ∧ (∃ l, t.sensing.lastChange = some l ∧ l.old = a ∧ l.new = n ∧ l.used = true)
        ∧ t.sensing.captures.getLast? = some x ∧ x.sector = m ∧ x.dir = d ∧ x.cycle = e.cycle)
      ∧ (s.engine.refState = .unreferenced → s.coord.phase ≠ .recovering →
        exec (.sectorSample dt lines) s = .next
          { s.later dt with sensing := { s.sensing with
            sectorCandidate := some n, sectorCount := k, accepted := some n, pendingEdge := none
            lastChange := some ⟨a, n, s.standby.counter, true⟩
            captures := (s.sensing.captures ++ [Capture.mk e.value m d e.cycle none]).drop
              (s.sensing.captures.length + 1 - 4) } }))

/-! ### The Reference Engine's rules (chapter 02) and the motion gate (chapter 08) -/

/-- Claims (R15, R16, R22): none is taken in the settling window, and none naming a record that is gone. A SET of V
with reference value R sets the counter to V + (counter - R), continuity true and the error kind NONE; a SHIFT of D
adds D and leaves both; each moves every held position by its amount and not the supply-loss value or the excursion.
The counter keeps its wrapped range (R12). Which of the engine's positions are held ones - the phase starts and a
survey's stall window and base among them - is read from R22 (log entry 22). -/
def Obligations.ClaimsMoveTheCounterAndHeldPositions : Prop :=
  ∀ (s : State) (v d : Int),
    (s.sensing.settling = true → setClaimNow v s = none ∧ setClaimNewest v s = none ∧ shiftClaim d s = none)
    ∧ (s.sensing.captures = [] → setClaimNewest v s = none)
    ∧ (s.sensing.settling = false →
      (∃ t, shiftClaim d s = some t
        ∧ t.standby = { s.standby with counter := s.standby.counter + BitVec.ofInt 40 d }
        ∧ t.sensing = { s.sensing with
            captures := s.sensing.captures.map fun c => { c with raw := c.raw + BitVec.ofInt 40 d }
            pendingEdge := s.sensing.pendingEdge.map fun e => { e with value := e.value + BitVec.ofInt 40 d }
            lastChange := s.sensing.lastChange.map fun l => { l with counter := l.counter + BitVec.ofInt 40 d }
            earlier := s.sensing.earlier.map fun p => p + BitVec.ofInt 40 d }
        ∧ t.engine.operation = s.engine.operation.moved d ∧ t.engine.refState = s.engine.refState
        ∧ t.mem = s.mem ∧ t.hold = s.hold ∧ t.cal = s.cal ∧ t.plan = s.plan)
      ∧ (∃ t, setClaimNow v s = some t
        ∧ t.standby = { s.standby with counter := BitVec.ofInt 40 v, continuity := true, error := .none }
        ∧ shiftClaim (v - s.standby.counter.toInt) s
            = some { t with standby := { s.standby with counter := BitVec.ofInt 40 v } })
      ∧ (∀ c, s.sensing.captures.getLast? = some c → ∃ t, setClaimNewest v s = some t
        ∧ t.standby = { s.standby with
            counter := s.standby.counter + BitVec.ofInt 40 (v - c.raw.toInt), continuity := true, error := .none }
        ∧ shiftClaim (v - c.raw.toInt) s = some { t with
            standby := { s.standby with counter := s.standby.counter + BitVec.ofInt 40 (v - c.raw.toInt) } }))

/-- The target of a WITNESS (R31): the positive candidate is the lowest mark whose positive expected position is greater
than the counter, the negative one the highest whose negative expected position is less; NEAREST takes the closer, the
positive one when they lie equally close. The nearest rule (R23): the mark found has the capture's sector as its
remainder by SECTORS, no other such mark lies nearer the raw value by its expected position for the capture's direction,
and among those equally near it is the lowest. -/
def Obligations.MarksAreFoundByTheCandidateAndNearestRules : Prop :=
  (∀ (s : State), 0 < s.cfg.cps →
    (s.witnessTarget .positive).1 = .positive
    ∧ s.counter < s.expected (s.witnessTarget .positive).2 .positive
    ∧ (∀ m, s.counter < s.expected m .positive → (s.witnessTarget .positive).2 ≤ m)
    ∧ (s.witnessTarget .negative).1 = .negative
    ∧ s.expected (s.witnessTarget .negative).2 .negative < s.counter
    ∧ (∀ m, s.expected m .negative < s.counter → m ≤ (s.witnessTarget .negative).2)
    ∧ ((s.expected (s.witnessTarget .positive).2 .positive - s.counter).natAbs
          ≤ (s.expected (s.witnessTarget .negative).2 .negative - s.counter).natAbs →
        s.witnessTarget .nearest = s.witnessTarget .positive)
    ∧ ((s.expected (s.witnessTarget .negative).2 .negative - s.counter).natAbs
          < (s.expected (s.witnessTarget .positive).2 .positive - s.counter).natAbs →
        s.witnessTarget .nearest = s.witnessTarget .negative))
  ∧ (∀ (s : State) (c : Capture), 0 < s.cfg.cps → c.sector < s.cfg.sectors →
    s.nearestMark c % (s.cfg.sectors : Int) = (c.sector : Int)
    ∧ (∀ m : Int, m % (s.cfg.sectors : Int) = (c.sector : Int) →
      |c.raw.toInt - s.expected (s.nearestMark c) c.dir| ≤ |c.raw.toInt - s.expected m c.dir|
      ∧ (|c.raw.toInt - s.expected m c.dir| = |c.raw.toInt - s.expected (s.nearestMark c) c.dir| →
        s.nearestMark c ≤ m)))

/-- A capture in REFERENCED, POSITIVE or NEGATIVE, is resolved by the nearest rule and checked against its direction's
expected position (R22, R24): within MARK_TOLERANCE its deviation becomes the last mark deviation and nothing else of
the engine changes; beyond it SLIP (HOLD) is raised with the deviation and the step of the park it ends, read from R156
(log entry 20), and the engine is UNREFERENCED with no operation, not parked (R25). The counter is left either way. -/
def Obligations.ReferencedCaptureIsChecked : Prop :=
  ∀ (dt : Time) (s : State) (c : Configuration) (a : Nat) (l : LastChange) (d : Direction) (x : Capture) (m : Int),
    s.running = true → s.port.config = some c → s.sensing.settling = false → s.sensing.accepted = some a →
    s.sensing.pendingEdge = none → s.sensing.lastChange = some l → l.used = false →
    |l.counter.toInt - s.standby.counter.toInt| ≤ (c.cps : Int) / 8 →
    (d = .positive ∧ l.new = (l.old + 1) % c.sectors
      ∨ d = .negative ∧ l.new ≠ (l.old + 1) % c.sectors ∧ l.old = (l.new + 1) % c.sectors) →
    s.engine.refState = .referenced →
    x = ⟨s.standby.counter, if d = .positive then l.new else l.old, d,
      if s.link.timed = true then s.link.cycle else none, none⟩ →
    m = s.nearestMark x →
    (|s.standby.counter.toInt - s.expected m d| ≤ (c.markTolerance : Int) →
      exec (.indexEdge dt) s = .next
        { s.later dt with
          sensing := { s.sensing with
            lastChange := some { l with used := true }
            captures := ((s.sensing.captures ++ [x]).drop (s.sensing.captures.length + 1 - 4)).dropLast
              ++ [{ x with mark := some m }] }
          engine := { s.engine with lastDeviation := some (s.standby.counter.toInt - s.expected m d) } })
    ∧ ((c.markTolerance : Int) < |s.standby.counter.toInt - s.expected m d| →
      ∃ t, exec (.indexEdge dt) s = .next t
        ∧ t.engine.refState = .unreferenced ∧ t.engine.operation = .none ∧ t.engine.parked = false
        ∧ t.engine.lastDeviation = s.engine.lastDeviation
        ∧ t.hasFault .slip .hold s.engine.operation.step (s.standby.counter.toInt - s.expected m d)
        ∧ t.standby = s.standby ∧ t.mem = s.mem ∧ t.peers = s.peers ∧ t.sensing.accepted = s.sensing.accepted)

/-- A capture in SEEKING, PROVISIONAL and CAPTURED. A running seek takes a capture of its direction: a WITNESS one that
the nearest rule resolves to its target, within WITNESS_TOLERANCE of it (R32); an INDEX the one whose mark lies in the
travel range (R33); a SWITCH in TO_MARK one beyond the phase start whose sector is the home mark's (R35). The SET claim
sets the counter to the mark's expected position; the state is CAPTURED with STOP and reason SEEK, or with DRV_STILL
active REFERENCED with no operation and the step DONE (R37). A WITNESS that does not confirm raises WITNESS_MISMATCH
(NOTE) with the deviation from the target and the seek's step, read from R156 (log entry 20), and leaves the joint
UNREFERENCED, the counter as it was, the step DONE at standstill (R32). A capture a seek does not take, an ending
seek's included, is resolved by the nearest rule unless the entry state is UNREFERENCED, and so are those of
PROVISIONAL and CAPTURED (R23, R30, R37); nothing else changes. -/
def Obligations.SeekTakesItsCapture : Prop :=
  ∀ (dt : Time) (s : State) (c : Configuration) (a : Nat) (l : LastChange) (d : Direction) (x : Capture),
    s.running = true → s.port.config = some c → s.sensing.settling = false → s.sensing.accepted = some a →
    s.sensing.pendingEdge = none → s.sensing.lastChange = some l → l.used = false →
    |l.counter.toInt - s.standby.counter.toInt| ≤ (c.cps : Int) / 8 →
    (d = .positive ∧ l.new = (l.old + 1) % c.sectors
      ∨ d = .negative ∧ l.new ≠ (l.old + 1) % c.sectors ∧ l.old = (l.new + 1) % c.sectors) →
    x = ⟨s.standby.counter, if d = .positive then l.new else l.old, d,
      if s.link.timed = true then s.link.cycle else none, none⟩ →
    (∀ k : SeekContext, s.engine.refState = .seeking → s.engine.operation = .seek k → k.endCause = none → d = k.dir →
      (∀ m : Int,
        (k.kind = .witness ∧ m = k.target ∧ s.nearestMark x = m
            ∧ |s.standby.counter.toInt - s.expected m d| ≤ (c.witnessTolerance : Int)
          ∨ k.kind = .index ∧ c.travelMin ≤ m ∧ m ≤ c.travelMax ∧ m % (c.sectors : Int) = (x.sector : Int)
            ∧ c.travelMax - c.travelMin < (c.sectors : Int)
          ∨ k.kind = .switch ∧ k.phase = .toMark
            ∧ (d = .positive → k.phaseStart.toInt < s.standby.counter.toInt)
            ∧ (d = .negative → s.standby.counter.toInt < k.phaseStart.toInt)
            ∧ m = (if d = .positive then c.homeMarkPos else c.homeMarkNeg) ∧ (x.sector : Int) = m % (c.sectors : Int)) →
        ∃ t, exec (.indexEdge dt) s = .next t
          ∧ t.standby = { s.standby with
              counter := BitVec.ofInt 40 (s.expected m d), continuity := true, error := .none }
          ∧ t.sensing.captures.getLast? = some { x with raw := BitVec.ofInt 40 (s.expected m d), mark := some m }
          ∧ (s.sensing.drvStill.level = false → t.engine.refState = .captured
              ∧ (∃ q, t.engine.operation = .seek q ∧ q.kind = k.kind ∧ q.step = k.step ∧ q.endCause = none)
              ∧ t.engine.order = (if s.engine.order.reason = some .hold then s.engine.order else .stop .seek)
              ∧ t.plan = s.plan)
          ∧ (s.sensing.drvStill.level = true → t.engine.operation = .none
              ∧ (s.plan.demote = false → t.engine.refState = .referenced)
              ∧ t.engine.order = (if s.engine.order.reason = some .hold then s.engine.order else .none)
              ∧ (∀ i n, k.step = some i → s.plan.table[i]? = some ⟨.running, n, none⟩ →
                  t.plan.table[i]? = some ⟨.done, n, none⟩ ∧ t.plan.claim = none ∧ t.plan.running = false))
          ∧ t.hold = s.hold ∧ t.mem = s.mem ∧ t.peers = s.peers ∧ t.coord = s.coord ∧ t.cal = s.cal)
      ∧ (k.kind = .witness →
        (s.nearestMark x ≠ k.target
          ∨ (c.witnessTolerance : Int) < |s.standby.counter.toInt - s.expected k.target d|) →
        ∃ t, exec (.indexEdge dt) s = .next t
          ∧ t.hasFault .witnessMismatch .note k.step (s.standby.counter.toInt - s.expected k.target d)
          ∧ t.engine.refState = .unreferenced ∧ t.engine.parked = false ∧ t.engine.operation = .none
          ∧ (s.sensing.drvStill.level = false →
              t.engine.order = (if s.engine.order.reason = some .hold then s.engine.order else .stop .seek)
              ∧ t.plan.table = s.plan.table ∧ t.plan.running = s.plan.running ∧ t.plan.claim = s.plan.claim)
          ∧ (s.sensing.drvStill.level = true →
              t.engine.order = (if s.engine.order.reason = some .hold then s.engine.order else .none)
              ∧ (∀ i n, k.step = some i → s.plan.table[i]? = some ⟨.running, n, none⟩ →
                  t.plan.table[i]? = some ⟨.done, n, none⟩ ∧ t.plan.claim = none ∧ t.plan.running = false))
          ∧ t.hold.level = s.hold.level ∧ t.hold.seq = s.hold.seq
          ∧ t.standby = s.standby ∧ t.mem = s.mem ∧ t.peers = s.peers ∧ t.coord = s.coord ∧ t.cal = s.cal))
    ∧ (∀ m : Option Int,
      ((∃ k : SeekContext, s.engine.refState = .seeking ∧ s.engine.operation = .seek k
          ∧ m = (if k.entry = .unreferenced then none else some (s.nearestMark x))
          ∧ (k.endCause ≠ none ∨ d ≠ k.dir
            ∨ k.kind = .index ∧ (∀ n : Int, c.travelMin ≤ n → n ≤ c.travelMax → n % (c.sectors : Int) ≠ (x.sector : Int))
              ∧ 0 < c.sectors
            ∨ k.kind = .switch ∧ (k.phase = .toSwitch
              ∨ (d = .positive ∧ s.standby.counter.toInt ≤ k.phaseStart.toInt)
              ∨ (d = .negative ∧ k.phaseStart.toInt ≤ s.standby.counter.toInt)
              ∨ (x.sector : Int) ≠ (if d = .positive then c.homeMarkPos else c.homeMarkNeg) % (c.sectors : Int))))
        ∨ ((s.engine.refState = .provisional ∨ s.engine.refState = .captured) ∧ m = some (s.nearestMark x))) →
      exec (.indexEdge dt) s = .next
        { s.later dt with sensing := { s.sensing with
          lastChange := some { l with used := true }
          captures := ((s.sensing.captures ++ [x]).drop (s.sensing.captures.length + 1 - 4)).dropLast
            ++ [{ x with mark := m }] } })

/-- The motion gate (R165 to R168): at DROP and LOCKOUT it becomes CLOSED from any state; permitted it becomes OPEN; no
longer permitted it waits for DRV_STILL from OPEN and then for BRK_FB, passing a wait whose input is active already; a
fall of DRV_STILL in AWAIT_BRAKE changes nothing; CLOSED it stays. Its outputs are those of R165's table. -/
def Obligations.GateFollowsPermissionAndStandstill : Prop :=
  ∀ (s : State),
    (∃ g, gateUpdate s = { s with gate := g }
      ∧ ((s.hold.level = .drop ∨ s.hold.level = .lockout) → g = .closed)
      ∧ (s.hold.level = .none → (s.coord.phase = .homing ∨ s.coord.phase = .ready) → s.moveRequested = true → g = .opened)
      ∧ ((s.hold.level = .stop ∨ (s.hold.level = .none
            ∧ ((s.coord.phase ≠ .homing ∧ s.coord.phase ≠ .ready) ∨ s.moveRequested = false))) →
          (s.gate = .closed → g = .closed)
          ∧ ((s.gate = .opened ∨ s.gate = .awaitStill) → s.sensing.drvStill.level = false → g = .awaitStill)
          ∧ ((s.gate = .opened ∨ s.gate = .awaitStill) → s.sensing.drvStill.level = true →
              s.sensing.brkFb.level = false → g = .awaitBrake)
          ∧ ((s.gate = .opened ∨ s.gate = .awaitStill) → s.sensing.drvStill.level = true →
              s.sensing.brkFb.level = true → g = .closed)
          ∧ (s.gate = .awaitBrake → s.sensing.brkFb.level = false → g = .awaitBrake)
          ∧ (s.gate = .awaitBrake → s.sensing.brkFb.level = true → g = .closed)))
    ∧ (s.running = true →
        (s.moveOk = true ↔ s.gate ≠ .closed) ∧ (s.brakeOk = true ↔ (s.gate = .opened ∨ s.gate = .awaitStill)))
    ∧ (s.moveRequested = true ↔
        (s.plan.running = true ∨ (∃ c, s.engine.operation = .survey c) ∨ s.coord.phase = .ready))

/-! ### Timers (R38, R43, R147, R171, R79, R186, R198) -/

/-- STALL_TIMEOUT: a running seek whose stall window has stood for STALL_TIME is ended STALLED, with the counts
travelled in the window as detail (R38; log entry 19). Away from standstill it is ending, with STOP and reason SEEK
unless the record holds reason HOLD, and nothing else changes; at standstill it returns to its entry state at once
(R39): the step it serves is FAILED-WAIT for 500 ms with one retry fewer after SEEK_STALLED (RETRY), or with none left
PENDING after RETRIES_EXHAUSTED (HOLD) too (R146). Before that, or with the seek ending, nothing happens. -/
def Obligations.SeekStallEndsTheSeek : Prop :=
  ∀ (dt : Time) (s : State) (c : SeekContext) (w : Int), s.running = true → s.engine.refState = .seeking →
    s.engine.operation = .seek c → w = ((s.standby.counter.toInt - c.stall.position.toInt).natAbs : Int) →
    ((c.endCause ≠ none ∨ s.now + dt < c.stall.since + s.cfg.stallTime * 1000000) →
      exec (.stallTimeout dt) s = .next (s.later dt))
    ∧ (c.endCause = none → c.stall.since + s.cfg.stallTime * 1000000 ≤ s.now + dt → s.sensing.drvStill.level = false →
      ∃ x : Port, exec (.stallTimeout dt) s = .next
          { s.later dt with
            engine := { s.engine with
              operation := .seek { c with endCause := some .stalled, endDetail := w }
              order := if s.engine.order.reason = some .hold then s.engine.order else .stop .seek }
            port := { s.port with attention := x.attention, reported := x.reported } }
        ∧ (s.engine.order.reason ≠ some .hold → s.engine.order ≠ .stop .seek → x.attention.orderChanged = true)
        ∧ (s.engine.order.reason = some .hold ∨ s.engine.order = .stop .seek → x = s.port))
    ∧ (c.endCause = none → c.stall.since + s.cfg.stallTime * 1000000 ≤ s.now + dt → s.sensing.drvStill.level = true →
      ∃ t, exec (.stallTimeout dt) s = .next t
        ∧ t.engine.operation = .none ∧ (s.plan.demote = false → t.engine.refState = c.entry.state)
        ∧ (∀ i k, c.step = some i → s.plan.table[i]? = some ⟨.running, k, none⟩ →
          t.hasFault .seekStalled .retry (some i) w
          ∧ (0 < k → t.plan.table[i]? = some ⟨.failedWait, k - 1, some (s.now + dt + 500000000)⟩
              ∧ t.plan.claim = none ∧ t.plan.running = false ∧ t.hold.level = s.hold.level)
          ∧ (k = 0 → t.plan.status i = some .pending ∧ t.hasFault .retriesExhausted .hold (some i) 7))
        ∧ t.standby = s.standby ∧ t.sensing = s.sensing ∧ t.mem = s.mem ∧ t.peers = s.peers
        ∧ t.coord = s.coord ∧ t.plan.steps = s.plan.steps ∧ t.port.config = s.port.config)

/-- PARK_NO_START: a park whose drive has never left standstill for STALL_TIME from its GOTO ends as at a standstill
(R43): the operation is gone and the record NONE unless it holds reason HOLD; within PARK_TOLERANCE parked is true and
the step DONE (the model's reading, log entry 53); else parked is left and PARK_MISSED (RETRY) is recorded with
P - PARK_POSITION: the step is FAILED-WAIT for 500 ms with one retry fewer, or with none left PENDING after
RETRIES_EXHAUSTED (HOLD), whose hold orders STOP (R146, R161). It ends no other park. -/
def Obligations.ParkThatNeverStartsEnds : Prop :=
  ∀ (dt : Time) (s : State) (p : ParkOperation) (e : Int), s.running = true → s.engine.operation = .park p →
    e = s.standby.counter.toInt - s.cfg.parkPosition.toInt →
    ((p.leftStill = true ∨ s.sensing.drvStill.level = false ∨ p.withdrawn = true
        ∨ s.now + dt < p.since + s.cfg.stallTime * 1000000) →
      exec (.parkNoStart dt) s = .next (s.later dt))
    ∧ (p.leftStill = false → s.sensing.drvStill.level = true → p.withdrawn = false →
      p.since + s.cfg.stallTime * 1000000 ≤ s.now + dt →
      ∃ t, exec (.parkNoStart dt) s = .next t
        ∧ t.engine.operation = .none ∧ t.engine.refState = s.engine.refState
        ∧ (|e| ≤ (s.cfg.parkTolerance : Int) → t.engine.parked = true
            ∧ t.engine.order = (if s.engine.order.reason = some .hold then s.engine.order else .none)
            ∧ t.hold = s.hold
            ∧ (∀ i k, p.step = some i → s.plan.table[i]? = some ⟨.running, k, none⟩ →
                t.plan.table[i]? = some ⟨.done, k, none⟩ ∧ t.plan.claim = none ∧ t.plan.running = false))
        ∧ ((s.cfg.parkTolerance : Int) < |e| → t.engine.parked = s.engine.parked
            ∧ ((∀ i, p.step = some i → s.plan.status i ≠ some .running) →
                t.engine.order = (if s.engine.order.reason = some .hold then s.engine.order else .none)
                ∧ t.hold = s.hold ∧ t.plan.table = s.plan.table)
            ∧ (∀ i k, p.step = some i → s.plan.table[i]? = some ⟨.running, k, none⟩ →
                t.hasFault .parkMissed .retry (some i) e
                ∧ (0 < k → t.plan.table[i]? = some ⟨.failedWait, k - 1, some (s.now + dt + 500000000)⟩
                    ∧ t.plan.claim = none ∧ t.plan.running = false
                    ∧ t.engine.order = (if s.engine.order.reason = some .hold then s.engine.order else .none))
                ∧ (k = 0 → t.plan.status i = some .pending ∧ t.hasFault .retriesExhausted .hold (some i) 9
                    ∧ (s.hold.level ≠ .lockout → t.engine.order = .stop .hold)
                    ∧ (s.hold.level = .lockout →
                        t.engine.order = (if s.engine.order.reason = some .hold then s.engine.order else .none)))))
        ∧ t.standby = s.standby ∧ t.sensing = s.sensing ∧ t.mem = s.mem ∧ t.peers = s.peers
        ∧ t.coord = s.coord ∧ t.plan.steps = s.plan.steps ∧ t.port.config = s.port.config)

/-- An arrival of DRV_STILL, by the operation it finds. CAPTURED completes (R37): REFERENCED with no operation, the
record NONE unless it holds reason HOLD, the step DONE. An ending seek returns to its entry state (R39): EXHAUSTED and
STALLED report SEEK_EXHAUSTED and SEEK_STALLED (RETRY), the step FAILED-WAIT for 500 ms with one retry fewer, or with
none left PENDING after RETRIES_EXHAUSTED (HOLD) (R146); ABANDONED and HOLD leave it PENDING (R145). A running seek
goes on. A park within PARK_TOLERANCE is DONE, parked true; beyond it PARK_MISSED (RETRY) is recorded with P -
PARK_POSITION (R43); a withdrawn one leaves its step PENDING, or CLAIMING after a yield (R144, R145). The step of a
WITNESS mismatch is DONE (R32). With no operation the engine and the plan are left. Then a permitted gate is OPEN and
any other is CLOSED, or in AWAIT_BRAKE while BRK_FB is not active (R167), and an entry whose stations are all settled
is complete (R170). That the engine acts first, then the gate, the entry test and the staging test, is the model's
choice (log entry 12). Surveys are stated in SurveyTakesCapturesAndCompletes. -/
def Obligations.StandstillEndsTheOperation : Prop :=
  ∀ (dt : Time) (s : State) (o : MotionOrder), s.running = true → s.sensing.drvStill.level = false →
    s.switchLength ≤ s.sensing.drvStill.count + 1 →
    o = (if s.engine.order.reason = some .hold then s.engine.order else .none) →
    (∀ k, s.engine.operation ≠ .survey k) →
    ∃ t, exec (.switchSample dt .drvStill true) s = .next t
    ∧ t.sensing = { s.sensing with drvStill := ⟨true, 0⟩ } ∧ t.standby = s.standby ∧ t.mem = s.mem ∧ t.peers = s.peers
    ∧ t.coord = s.coord ∧ t.plan.steps = s.plan.steps ∧ t.port.config = s.port.config
    ∧ (s.engine.mismatch = none →
      (∀ c, s.engine.operation = .seek c →
        (s.engine.refState = .captured → t.engine.operation = .none
          ∧ (s.plan.demote = false → t.engine.refState = .referenced) ∧ t.engine.order = o
          ∧ (∀ i n, c.step = some i → s.plan.table[i]? = some ⟨.running, n, none⟩ →
              t.plan.table[i]? = some ⟨.done, n, none⟩ ∧ t.plan.claim = none ∧ t.plan.running = false))
        ∧ (∀ e, s.engine.refState ≠ .captured → c.endCause = some e → t.engine.operation = .none
          ∧ (s.plan.demote = false → t.engine.refState = c.entry.state)
          ∧ (∀ i n, c.step = some i → s.plan.table[i]? = some ⟨.running, n, none⟩ →
            (∀ code : FaultCode, (e = .exhausted ∧ code = .seekExhausted ∨ e = .stalled ∧ code = .seekStalled) →
              t.hasFault code .retry (some i) c.endDetail
              ∧ (0 < n → t.plan.table[i]? = some ⟨.failedWait, n - 1, some (s.now + dt + 500000000)⟩
                  ∧ t.plan.claim = none ∧ t.plan.running = false ∧ t.engine.order = o ∧ t.hold.level = s.hold.level)
              ∧ (n = 0 → t.plan.status i = some .pending
                  ∧ t.hasFault .retriesExhausted .hold (some i) (code.num : Int)))
            ∧ ((e = .abandoned ∨ e = .hold) → (s.plan.yieldReturn = false ∨ s.hold.level ≠ .none) →
              t.plan.table[i]? = some ⟨.pending, n, none⟩ ∧ t.plan.claim = none ∧ t.plan.running = false
              ∧ t.engine.order = o)))
        ∧ (s.engine.refState ≠ .captured → c.endCause = none → t.engine = s.engine ∧ t.plan = s.plan))
      ∧ (∀ p, s.engine.operation = .park p → t.engine.operation = .none ∧ t.engine.refState = s.engine.refState
        ∧ (∀ e : Int, p.withdrawn = false → e = s.standby.counter.toInt - s.cfg.parkPosition.toInt →
          (|e| ≤ (s.cfg.parkTolerance : Int) → t.engine.parked = true ∧ t.engine.order = o
            ∧ (∀ i n, p.step = some i → s.plan.table[i]? = some ⟨.running, n, none⟩ →
                t.plan.table[i]? = some ⟨.done, n, none⟩ ∧ t.plan.claim = none ∧ t.plan.running = false))
          ∧ ((s.cfg.parkTolerance : Int) < |e| → t.engine.parked = s.engine.parked
            ∧ (∀ i n, p.step = some i → s.plan.table[i]? = some ⟨.running, n, none⟩ →
              t.hasFault .parkMissed .retry (some i) e
              ∧ (0 < n → t.plan.table[i]? = some ⟨.failedWait, n - 1, some (s.now + dt + 500000000)⟩
                  ∧ t.plan.claim = none ∧ t.plan.running = false ∧ t.engine.order = o)
              ∧ (n = 0 → t.plan.status i = some .pending ∧ t.hasFault .retriesExhausted .hold (some i) 9))))
        ∧ (p.withdrawn = true → t.engine.parked = s.engine.parked ∧ t.engine.order = o
          ∧ (∀ i n, p.step = some i → s.plan.table[i]? = some ⟨.running, n, none⟩ →
            t.plan.running = false
            ∧ (s.plan.yieldReturn = true → s.hold.level = .none → t.plan.table[i]? = some ⟨.claiming, n, none⟩
                ∧ t.plan.claim = s.plan.claim ∧ t.plan.claimSent = none)
            ∧ ((s.plan.yieldReturn = false ∨ s.hold.level ≠ .none) → t.plan.table[i]? = some ⟨.pending, n, none⟩
                ∧ t.plan.claim = none))))
      ∧ (s.engine.operation = .none → t.engine = s.engine ∧ t.plan = s.plan))
    ∧ (∀ w, s.engine.mismatch = some w → s.engine.operation = .none →
        t.engine = { s.engine with mismatch := none, order := o }
        ∧ (∀ i n, w = some i → s.plan.table[i]? = some ⟨.running, n, none⟩ →
            t.plan.table[i]? = some ⟨.done, n, none⟩ ∧ t.plan.claim = none ∧ t.plan.running = false))
    ∧ ((t.hold.level = .drop ∨ t.hold.level = .lockout) → t.gate = .closed)
    ∧ (t.permitted = true → t.gate = .opened)
    ∧ (t.permitted = false → (s.sensing.brkFb.level = true → t.gate = .closed)
        ∧ (s.sensing.brkFb.level = false → t.gate = .closed ∨ t.gate = .awaitBrake))
    ∧ ((t.hold.level = .stop ∨ t.hold.level = .drop) → s.sensing.brkFb.level = true → t.gate = .closed →
        (∀ y ∈ s.peerRecords, y.2.settledFor t.hold.seq = true) → t.hold.complete = true)

/-- A survey's captures, phases, travel and completion. CAPTURES (R23, R186 to R188): a capture is resolved by the
nearest rule, and taken when a capture phase looks for its mark in its direction beyond the phase start. The first of
BACKLASH is Cpos and enters phase 3, GOTO E + Q, or phase 4 at once at standstill within CPS/16 of it; the second is
Cneg, B is |Cpos - Cneg|, and phase 5 is GOTO the start; the first of RATIO is C1, which the 2 x CPS are measured from;
the second is C2, the deviation is in ppm truncated toward zero, and phase 3 is GOTO the start. A capture not taken
only gets its mark. A GOTO or JOG toward an active limit raises OVERTRAVEL (R28). STANDSTILL (R186, R189): an approach
within CPS/16 of its target enters the next phase, JOG at CREEP or SLOW; beyond it the survey fails; a capture phase
goes on; the return phase completes: DONE, the pending BACKLASH filled with a B within BACKLASH_LIMIT, else
BACKLASH_HIGH, or RATIO_OFF, in the class of its disposition; an ending survey ends by its cause. Each end leaves no
operation, REFERENCED, SURVEY_DONE and the result. TRAVEL (R186): beyond 2 x CPS without the capture the survey fails.
CPS/16 with integer division is log entry 52, the places of captures a survey has kept log entry 22. -/
def Obligations.SurveyTakesCapturesAndCompletes : Prop :=
  (∀ (dt : Time) (s : State) (c : Configuration) (a : Nat) (l : LastChange) (d : Direction) (x : Capture)
      (k : SurveyContext) (m : Int),
    s.running = true → s.port.config = some c → s.sensing.settling = false → s.sensing.accepted = some a →
    s.sensing.pendingEdge = none → s.sensing.lastChange = some l → l.used = false →
    |l.counter.toInt - s.standby.counter.toInt| ≤ (c.cps : Int) / 8 →
    (d = .positive ∧ l.new = (l.old + 1) % c.sectors
      ∨ d = .negative ∧ l.new ≠ (l.old + 1) % c.sectors ∧ l.old = (l.new + 1) % c.sectors) →
    x = ⟨s.standby.counter, if d = .positive then l.new else l.old, d,
      if s.link.timed = true then s.link.cycle else none, none⟩ →
    s.engine.refState = .surveying → s.engine.operation = .survey k → m = s.nearestMark x →
    ∀ u : Sensing, u = { s.sensing with
      lastChange := some { l with used := true }
      captures := ((s.sensing.captures ++ [x]).drop (s.sensing.captures.length + 1 - 4)).dropLast
        ++ [{ x with mark := some m }] } →
    ((k.endCause ≠ none ∨ ¬(k.phase = 2 ∨ k.kind = .backlash ∧ k.phase = 4)
        ∨ (k.phase = 2 ∧ (d = .negative ∨ s.standby.counter.toInt ≤ k.phaseStart.toInt))
        ∨ (k.phase = 4 ∧ (d = .positive ∨ k.phaseStart.toInt ≤ s.standby.counter.toInt))
        ∨ (m ≠ k.mark ∧ (k.kind = .backlash ∨ k.first = none)) ∨ (m ≠ k.mark + 1 ∧ k.kind = .ratio ∧ k.first ≠ none)) →
      exec (.indexEdge dt) s = .next { s.later dt with sensing := u })
    ∧ (k.endCause = none → k.kind = .ratio → k.phase = 2 → k.first = none → d = .positive →
      k.phaseStart.toInt < s.standby.counter.toInt → m = k.mark →
      exec (.indexEdge dt) s = .next
        { s.later dt with
          sensing := u
          engine := { s.engine with
            operation := .survey { k with first := some s.standby.counter, base := s.standby.counter } } })
    ∧ (∀ (q : SurveyContext) (g : Position), k.endCause = none → s.engine.order.reason ≠ some .hold →
      (k.kind = .backlash ∧ k.phase = 2 ∧ d = .positive ∧ k.phaseStart.toInt < s.standby.counter.toInt ∧ m = k.mark
          ∧ q = { k with first := some s.standby.counter, phase := 3 }
          ∧ g = BitVec.ofInt 40 (s.expected m .positive + s.cps / 4)
        ∨ (∃ f : Position, k.kind = .backlash ∧ k.phase = 4 ∧ d = .negative
          ∧ s.standby.counter.toInt < k.phaseStart.toInt ∧ m = k.mark ∧ k.first = some f
          ∧ q = { k with
            second := some s.standby.counter, measure := some |f.toInt - s.standby.counter.toInt|, phase := 5 }
          ∧ g = k.start)
        ∨ (∃ f : Position, k.kind = .ratio ∧ k.phase = 2 ∧ d = .positive
          ∧ k.phaseStart.toInt < s.standby.counter.toInt ∧ m = k.mark + 1 ∧ k.first = some f
          ∧ q = { k with
            second := some s.standby.counter
            measure := some (((s.standby.counter.toInt - f.toInt - s.cps) * 1000000).tdiv s.cps), phase := 3 }
          ∧ g = k.start)) →
      ∀ atOnce : Prop, (atOnce ↔ k.kind = .backlash ∧ k.phase = 2 ∧ s.still = true
          ∧ |s.counter - g.toInt| ≤ (s.cfg.cps : Int) / 16) →
      ∃ t, exec (.indexEdge dt) s = .next t
      ∧ t.standby = s.standby ∧ t.mem = s.mem ∧ t.peers = s.peers ∧ t.coord = s.coord
      ∧ (s.counter < g.toInt → s.sensing.limPos.level = true → t.hasFault .overtravel .hold none 1)
      ∧ (g.toInt < s.counter → s.sensing.limNeg.level = true → t.hasFault .overtravel .hold none (-1))
      ∧ ((s.counter < g.toInt → s.sensing.limPos.level = false) →
        (g.toInt < s.counter → s.sensing.limNeg.level = false) →
        (¬ atOnce → t.engine = { s.engine with
            operation := .survey { q with
              phaseStart := s.standby.counter, base := s.standby.counter, stall := ⟨s.standby.counter, s.now + dt⟩ }
            order := .goto g s.cfg.slow .survey }
          ∧ t.sensing = u ∧ t.hold = s.hold ∧ t.cal = s.cal ∧ t.plan = s.plan ∧ t.gate = s.gate)
        ∧ (atOnce → s.sensing.limNeg.level = true → t.hasFault .overtravel .hold none (-1))
        ∧ (atOnce → s.sensing.limNeg.level = false → t.engine = { s.engine with
            operation := .survey { q with
              phase := 4, phaseStart := s.standby.counter, base := s.standby.counter
              stall := ⟨s.standby.counter, s.now + dt⟩ }
            order := .jog .negative s.cfg.creep .survey }
          ∧ t.sensing = u ∧ t.hold = s.hold ∧ t.cal = s.cal ∧ t.plan = s.plan ∧ t.gate = s.gate))))
  ∧ (∀ (dt : Time) (s : State) (k : SurveyContext) (o : MotionOrder) (res : SurveyOutcome → Option Int → Bool → SurveyResult),
    s.running = true → s.sensing.drvStill.level = false → s.switchLength ≤ s.sensing.drvStill.count + 1 →
    s.engine.refState = .surveying → s.engine.operation = .survey k → s.engine.mismatch = none →
    o = (if s.engine.order.reason = some .hold then s.engine.order else .none) →
    res = (fun outcome v filled =>
      { kind := k.kind, mark := k.mark, outcome := outcome, failPhase := 0, first := k.first, second := k.second
        result := v, pendingFilled := filled, cycle := s.link.cycle }) →
    ∃ t, exec (.switchSample dt .drvStill true) s = .next t
    ∧ t.sensing = { s.sensing with drvStill := ⟨true, 0⟩ } ∧ t.standby = s.standby ∧ t.mem = s.mem ∧ t.peers = s.peers
    ∧ t.coord = s.coord ∧ t.plan.steps = s.plan.steps ∧ t.cal.pendTrim = s.cal.pendTrim
    ∧ t.cal.committed = s.cal.committed
    ∧ (∀ ended : Prop, (ended ↔ t.engine.operation = .none ∧ (s.plan.demote = false → t.engine.refState = .referenced)
        ∧ t.port.attention.surveyDone = true) →
      (k.endCause = none →
        (∀ (g : Position) (e : Direction), s.engine.order.reason ≠ some .hold →
          (k.phase = 1 ∧ g = BitVec.ofInt 40 (s.expected k.mark .positive - s.cps / 4) ∧ e = .positive
            ∨ k.kind = .backlash ∧ k.phase = 3 ∧ g = BitVec.ofInt 40 (s.expected k.mark .positive + s.cps / 4)
              ∧ e = .negative) →
          (|s.counter - g.toInt| ≤ (s.cfg.cps : Int) / 16 →
            ((e = .positive ∧ s.sensing.limPos.level = true → t.hasFault .overtravel .hold none 1)
              ∧ (e = .negative ∧ s.sensing.limNeg.level = true → t.hasFault .overtravel .hold none (-1)))
            ∧ ((e = .positive → s.sensing.limPos.level = false) → (e = .negative → s.sensing.limNeg.level = false) →
              t.engine = { s.engine with
                operation := .survey { k with
                  phase := k.phase + 1, phaseStart := s.standby.counter, base := s.standby.counter
                  stall := ⟨s.standby.counter, s.now + dt⟩ }
                order := .jog e (if k.kind = .backlash then s.cfg.creep else s.cfg.slow) .survey }
              ∧ t.cal.result = s.cal.result ∧ t.hold.level = s.hold.level ∧ t.plan = s.plan))
          ∧ ((s.cfg.cps : Int) / 16 < |s.counter - g.toInt| → ended ∧ t.engine.order = o
            ∧ t.cal.result = some { res .failed none false with failPhase := k.phase }
            ∧ t.hasFault .surveyFailed .note none (k.phase : Int) ∧ t.cal.pendBacklash = s.cal.pendBacklash
            ∧ t.hold.level = s.hold.level))
        ∧ ((k.phase = 2 ∨ k.kind = .backlash ∧ k.phase = 4) → t.engine = s.engine ∧ t.plan = s.plan
            ∧ t.cal.result = s.cal.result ∧ t.hold.level = s.hold.level)
        ∧ (∀ v : Int, k.kind = .backlash → k.phase = 5 → k.measure = some v → ended
          ∧ (v ≤ (s.cfg.backlashLimit : Int) → t.cal.pendBacklash = some v ∧ t.cal.result = some (res .done (some v) true)
              ∧ t.engine.order = o ∧ t.hold.faults = s.hold.faults)
          ∧ ((s.cfg.backlashLimit : Int) < v → t.cal.pendBacklash = s.cal.pendBacklash
              ∧ t.cal.result = some (res .done (some v) false)
              ∧ t.hasFault .backlashHigh (if s.hold.backlashHold = true then .hold else .note) none v))
        ∧ (∀ v : Int, k.kind = .ratio → k.phase = 3 → k.measure = some v → ended
          ∧ t.cal.pendBacklash = s.cal.pendBacklash ∧ t.cal.result = some (res .done (some v) false)
          ∧ (|v| ≤ (s.cfg.ratioTolerance : Int) → t.engine.order = o ∧ t.hold.faults = s.hold.faults)
          ∧ ((s.cfg.ratioTolerance : Int) < |v| →
              t.hasFault .ratioOff (if s.hold.ratioHold = true then .hold else .note) none v)))
      ∧ (∀ e, k.endCause = some e → ended ∧ t.engine.order = o ∧ t.cal.pendBacklash = s.cal.pendBacklash
        ∧ t.hold.level = s.hold.level
        ∧ (e = .failed → t.cal.result = some { res .failed none false with failPhase := k.failPhase }
            ∧ t.hasFault .surveyFailed .note none (k.failPhase : Int))
        ∧ (e = .abandoned → t.cal.result = some (res .abandoned none false) ∧ t.hold.faults = s.hold.faults)
        ∧ (e = .hold → t.cal.result = some (res .held none false) ∧ t.hold.faults = s.hold.faults))))
  ∧ (∀ (dt : Time) (a b : Bool) (s : State) (k : SurveyContext) (p : Position) (gone : Int), s.running = true →
    s.decoder.standbyFeeds = false → s.sensing.pendingEdge = none → s.engine.operation = .survey k →
    k.endCause = none →
    ((a ≠ s.decoder.lineA ∧ b = s.decoder.lineB) ∨ (a = s.decoder.lineA ∧ b ≠ s.decoder.lineB)) →
    (positiveStep s.decoder.lineA s.decoder.lineB a b → p = s.standby.counter + 1) →
    (¬ positiveStep s.decoder.lineA s.decoder.lineB a b → p = s.standby.counter - 1) →
    gone = (if k.phase = 4 then k.base.toInt - p.toInt else p.toInt - k.base.toInt) →
    ∃ t, exec (.encTransition dt a b) s = .next t ∧ t.standby.counter = p
    ∧ t.hold.level = s.hold.level
    ∧ (((k.phase = 2 ∨ k.kind = .backlash ∧ k.phase = 4) ∧ 2 * s.cps < gone →
        (s.sensing.drvStill.level = false → t.engine.refState = s.engine.refState
          ∧ t.engine.operation = .survey { k with endCause := some .failed, failPhase := k.phase }
          ∧ t.engine.order = (if s.engine.order.reason = some .hold then s.engine.order else .stop .survey))
        ∧ (s.sensing.drvStill.level = true → t.engine.operation = .none
          ∧ (s.plan.demote = false → t.engine.refState = .referenced) ∧ t.port.attention.surveyDone = true
          ∧ (∃ r, t.cal.result = some r ∧ r.outcome = .failed ∧ r.failPhase = k.phase)
          ∧ t.hasFault .surveyFailed .note none (k.phase : Int))))
    ∧ ((¬(k.phase = 2 ∨ k.kind = .backlash ∧ k.phase = 4) ∨ gone ≤ 2 * s.cps) →
        t.engine.refState = s.engine.refState ∧ t.engine.order = s.engine.order
        ∧ t.engine.operation = .survey { k with
            stall := if (s.cfg.cps : Int) / 16 ≤ |p.toInt - k.stall.position.toInt| then ⟨p, s.now + dt⟩ else k.stall }))

/-- SURVEY_STALL_TIMEOUT: a running survey whose stall window has stood for STALL_TIME fails in its phase (R186). Away
from standstill it is ending FAILED, with STOP and reason SURVEY unless the record holds reason HOLD; at standstill it
ends at once (R189): REFERENCED with no operation, SURVEY_DONE, the last survey result FAILED with the phase, and
SURVEY_FAILED (NOTE) with the phase. The pending BACKLASH and the calibration in force are left. -/
def Obligations.SurveyStallFailsTheSurvey : Prop :=
  ∀ (dt : Time) (s : State) (c : SurveyContext), s.running = true → s.engine.refState = .surveying →
    s.engine.operation = .survey c →
    ((c.endCause ≠ none ∨ s.now + dt < c.stall.since + s.cfg.stallTime * 1000000) →
      exec (.surveyStallTimeout dt) s = .next (s.later dt))
    ∧ (c.endCause = none → c.stall.since + s.cfg.stallTime * 1000000 ≤ s.now + dt → s.sensing.drvStill.level = false →
      ∃ x : Port, exec (.surveyStallTimeout dt) s = .next
          { s.later dt with
            engine := { s.engine with
              operation := .survey { c with endCause := some .failed, failPhase := c.phase }
              order := if s.engine.order.reason = some .hold then s.engine.order else .stop .survey }
            port := { s.port with attention := x.attention, reported := x.reported } }
        ∧ (s.engine.order.reason ≠ some .hold → s.engine.order ≠ .stop .survey → x.attention.orderChanged = true))
    ∧ (c.endCause = none → c.stall.since + s.cfg.stallTime * 1000000 ≤ s.now + dt → s.sensing.drvStill.level = true →
      ∃ t, exec (.surveyStallTimeout dt) s = .next t
        ∧ t.engine.operation = .none ∧ (s.plan.demote = false → t.engine.refState = .referenced)
        ∧ t.port.attention.surveyDone = true
        ∧ t.cal.result = some
            { kind := c.kind, mark := c.mark, outcome := .failed, failPhase := c.phase, first := c.first
              second := c.second, result := none, pendingFilled := false, cycle := s.link.cycle }
        ∧ t.hasFault .surveyFailed .note none (c.phase : Int)
        ∧ t.cal.pendBacklash = s.cal.pendBacklash ∧ t.cal.pendTrim = s.cal.pendTrim ∧ t.cal.committed = s.cal.committed
        ∧ t.hold.level = s.hold.level ∧ t.hold.seq = s.hold.seq
        ∧ t.standby = s.standby ∧ t.sensing = s.sensing ∧ t.mem = s.mem ∧ t.peers = s.peers
        ∧ t.coord = s.coord ∧ t.plan.steps = s.plan.steps ∧ t.port.config = s.port.config)

/-- RETRY_TIMER_END: a FAILED-WAIT step becomes PENDING when its timer ends, its retries as they are and no timer left,
whatever the hold level, the link state or the phase; every other step, and every other thing, is left (R147).
PROPOSAL_TIMEOUT: an own proposal whose flip has not been posted ends 2 s after its start with CAL_ABORTED (NOTE)
detail 1; before that, after the flip's posting, or with none, nothing happens (R198). -/
def Obligations.RetryTimerAndProposalTimeout : Prop :=
  (∀ (dt : Time) (i : Fin 32) (s : State) (k : Nat) (d : Time), s.running = true →
    (s.plan.table[i.val]? = some ⟨.failedWait, k, some d⟩ → d ≤ s.now + dt →
      ∃ l, exec (.retryTimerEnd dt i) s = .next { s.later dt with plan := { s.plan with table := l } }
        ∧ l[i.val]? = some ⟨.pending, k, none⟩ ∧ l.length = s.plan.table.length
        ∧ ∀ j : Nat, j ≠ i.val → l[j]? = s.plan.table[j]?)
    ∧ (s.plan.table[i.val]? = some ⟨.failedWait, k, some d⟩ → s.now + dt < d →
      exec (.retryTimerEnd dt i) s = .next (s.later dt))
    ∧ ((∀ x, s.plan.table[i.val]? = some x → x.status ≠ .failedWait) →
      exec (.retryTimerEnd dt i) s = .next (s.later dt)))
  ∧ (∀ (dt : Time) (s : State), s.running = true →
    ((s.cal.proposal = none ∨ ∃ p, s.cal.proposal = some p ∧ (p.flipPosted = true ∨ s.now + dt < p.start + 2000000000)) →
      exec (.proposalTimeout dt) s = .next (s.later dt))
    ∧ (∀ p, s.cal.proposal = some p → p.flipPosted = false → p.start + 2000000000 ≤ s.now + dt →
      ∃ t, exec (.proposalTimeout dt) s = .next t
        ∧ t.cal.proposal = none ∧ t.hasFault .calAborted .note none 1
        ∧ ((∀ x ∈ s.peerRecords, x.2.proposal ≠ p.generation) → t.cal.sighting ≠ some p.generation)
        ∧ t.cal.committed = s.cal.committed ∧ t.cal.staged = s.cal.staged ∧ t.cal.spare = s.cal.spare
        ∧ t.cal.pendTrim = s.cal.pendTrim ∧ t.cal.pendBacklash = s.cal.pendBacklash
        ∧ t.hold.level = s.hold.level ∧ t.hold.seq = s.hold.seq
        ∧ t.standby = s.standby ∧ t.sensing = s.sensing ∧ t.mem = s.mem ∧ t.peers = s.peers ∧ t.store = s.store
        ∧ t.coord = s.coord ∧ t.engine = s.engine ∧ t.plan = s.plan))

/-- ENTRY_DEADLINE: when it passes with the entry not complete, a STOP becomes a DROP with its own entry after
STOP_TIMEOUT (ESCALATION), and a DROP a LOCKOUT, its record posted, after DROP_TIMEOUT (ESCALATION); the detail has bit
i for the own station not settled and for each ACTIVE peer entry not read as settled; the sequence, cause and origin
stay; the gate is CLOSED (R107, R161, R168, R171). An entry that is complete or whose time is not out is left. That the
LOCK_RECORD is posted in every phase, ISOLATED and the scan included, is the model's choice (R104 against R107 and R161;
log entry 58). -/
def Obligations.EntryDeadlineEscalates : Prop :=
  ∀ (dt : Time) (s : State) (b : Nat), s.running = true → b < 256 →
    (∀ j : Station, b.testBit j.val = if j = s.own then !s.settled
      else match s.heardRecord j with | some r => !r.settledFor s.hold.seq | none => false) →
    ((s.hold.complete = true ∨ s.hold.deadline = none ∨ (∃ d, s.hold.deadline = some d ∧ s.now + dt < d)) →
      exec (.entryDeadline dt) s = .next (s.later dt))
    ∧ (∀ d, s.hold.complete = false → s.hold.deadline = some d → d ≤ s.now + dt →
      (s.hold.level = .stop ∨ s.hold.level = .drop) →
      ∃ t, exec (.entryDeadline dt) s = .next t
        ∧ (s.hold.level = .stop → t.hold.level = .drop ∧ t.hasFault .stopTimeout .escalation none b
            ∧ t.hold.deadline = if t.hold.complete = true then none
                else some (s.now + dt + s.cfg.dropLimit * 1000000))
        ∧ (s.hold.level = .drop → t.hold.level = .lockout ∧ t.hasFault .dropTimeout .escalation none b
            ∧ t.hold.deadline = none ∧ t.hold.complete = false ∧ t.store.busyWith .lockRecord = true)
        ∧ t.hold.seq = s.hold.seq ∧ t.hold.cause = s.hold.cause ∧ t.hold.origin = s.hold.origin
        ∧ t.gate = .closed ∧ t.engine.order = .stop .hold ∧ t.port.attention.holdChanged = true
        ∧ t.standby = s.standby ∧ t.sensing = s.sensing ∧ t.mem = s.mem ∧ t.peers = s.peers
        ∧ t.coord = s.coord ∧ t.plan.steps = s.plan.steps ∧ t.port.config = s.port.config ∧ t.link.state = s.link.state)

/-- GATHER_TIMEOUT: when the phase deadline passes in GATHERING or RECOVERING, GATHER_TIMEOUT (ABORT) is raised and the
phase is HALTED; in RECOVERING the detail has bit i for each station of the arm whose entry is not ACTIVE, or whose
record is neither RECOVER nor RUN in HOMING or READY, or shows class none; in GATHERING it has the bit of every entry
not ACTIVE (R79, R85). In another phase, or before the deadline, nothing happens. -/
def Obligations.GatherTimeoutHaltsTheStation : Prop :=
  ∀ (dt : Time) (s : State), s.running = true →
    (((s.coord.phase ≠ .gathering ∧ s.coord.phase ≠ .recovering) ∨ s.coord.deadline = none
        ∨ (∃ d, s.coord.deadline = some d ∧ s.now + dt < d)) →
      exec (.gatherTimeout dt) s = .next (s.later dt))
    ∧ (∀ d, (s.coord.phase = .gathering ∨ s.coord.phase = .recovering) → s.coord.deadline = some d → d ≤ s.now + dt →
      ∃ (t : State) (b : Nat), exec (.gatherTimeout dt) s = .next t
        ∧ t.coord.phase = .halted ∧ t.coord.deadline = none ∧ t.coord.agreement = 0
        ∧ t.hasFault .gatherTimeout .abort none b ∧ b < 256
        ∧ (∀ j : Station, s.cfg.armSize ≤ j.val → b.testBit j.val = false)
        ∧ (∀ j : Station, j.val < s.cfg.armSize → s.heardRecord j = none → b.testBit j.val = true)
        ∧ (s.coord.phase = .recovering → ∀ (j : Station) (r : StatusRecord), j.val < s.cfg.armSize →
            s.heardRecord j = some r → b.testBit j.val = !(r.movedOn && decide (r.confidence ≠ .none)))
        ∧ (s.hold.level = .none → t.hold.level = .stop ∧ t.hold.seq = s.hold.freshSeq
            ∧ t.hold.cause = FaultCode.byte .gatherTimeout ∧ t.hold.origin = s.own)
        ∧ t.standby = s.standby ∧ t.sensing = s.sensing ∧ t.mem = s.mem ∧ t.peers = s.peers
        ∧ t.plan.steps = s.plan.steps ∧ t.port.config = s.port.config ∧ t.link.state = s.link.state)

/-! ### The arm link (chapter 03) -/

/-- LINK_CYCLE_START: while SYNCED or ALONE, a cycle start that has come counts the cycle modulo 2^32 and places the
next one after CYCLE_PERIOD and the correction (R48, R52). Where the mark latch is due - journal-active, the cycle a
multiple of JOURNAL_EVERY, PFAIL not active, no FINAL outstanding, no ORDERLY posted, the closing flag clear (R95, R96)
- a ROUTINE frame of the items as they stand is posted, with the tag R93 gives; else nothing more happens. In OFF and
LISTENING, and before the instant, nothing happens. -/
def Obligations.CycleStartCountsAndLatches : Prop :=
  ∀ (dt : Time) (s : State) (start : Rat) (l : Link) (n : Nat), s.running = true →
    start = s.link.cycleStart + (s.cfg.cyclePeriod * 1000000 : Nat) + s.link.correction →
    l = { s.link with
      cycle := s.link.cycle.map (· + 1), cycleStart := start, correction := 0, heard := [], offsets := []
      acceptedInCycle := false, foreignInCycle := false } →
    n = (l.cycle.getD 0).toNat % s.cfg.journalEvery →
    ((s.link.state = .off ∨ s.link.state = .listening ∨ ((s.now + dt : Nat) : Rat) < start) →
      exec (.linkCycleStart dt) s = .next (s.later dt))
    ∧ ((s.link.state = .synced ∨ s.link.state = .alone) → start ≤ ((s.now + dt : Nat) : Rat) →
      ((s.coord.journalActive = false ∨ n ≠ 0 ∨ s.sensing.pfail.level = true ∨ s.store.finalOut = true
          ∨ s.store.busyWith .orderly = true ∨ s.store.closing ≠ none) →
        exec (.linkCycleStart dt) s = .next { s.later dt with link := l })
      ∧ (s.coord.journalActive = true → n = 0 → s.sensing.pfail.level = false → s.store.finalOut = false →
        s.store.busyWith .orderly = false → s.store.closing = none →
        ∃ f x, exec (.linkCycleStart dt) s = .next { s.later dt with link := l, store := x }
          ∧ f.kind = .routine ∧ f.position = s.standby.counter ∧ f.refState = s.engine.refState
          ∧ f.parked = s.engine.parked ∧ f.confidence = s.coord.confidence ∧ f.phase = s.coord.phase
          ∧ f.brake = s.sensing.brkFb.level ∧ f.moving = s.sensing.moving ∧ f.load = s.loadFlag
          ∧ f.level = s.hold.level ∧ f.holdSeq = s.hold.seq ∧ f.generation = s.cal.generation
          ∧ f.trim = BitVec.ofInt 32 s.cal.trim
          ∧ f.sector = (match s.sensing.accepted with | some k => BitVec.ofNat 8 k | none => 0xFF)
          ∧ (s.store.lastTag = none → f.tag = ⟨s.coord.run.getD 0, l.cycle.getD 0⟩)
          ∧ (∀ t, s.store.lastTag = some t → tagNewer ⟨s.coord.run.getD 0, l.cycle.getD 0⟩ t = true →
              f.tag = ⟨s.coord.run.getD 0, l.cycle.getD 0⟩)
          ∧ (∀ t, s.store.lastTag = some t → tagNewer ⟨s.coord.run.getD 0, l.cycle.getD 0⟩ t = false →
              f.tag = ⟨s.coord.run.getD 0, t.cycle + 1⟩)
          ∧ (s.store.port = none → (∀ k : WriteKind, s.store.isPending k = false) →
              x = { s.store with lastTag := some f.tag, port := some ⟨.routine f, .ring s.store.pointer, 0, false⟩ })
          ∧ ((s.store.port ≠ none ∨ ∃ k : WriteKind, s.store.isPending k = true) →
              x = { s.store with lastTag := some f.tag, pending := vput s.store.pending 7 (some (.routine f)) })))

/-- OWN_SLOT_START: while SYNCED or ALONE, at the start of the own slot the own entry is refreshed, ACTIVE with silence
count 0, from the record packed then, no other entry being touched, and that record's frame is sent from the nominal
instant, 4 us after the slot's start, unless the station is muted (R47, R57, R59, R67). In ISOLATED, READY and HALTED
no evaluation comes first and the record shows the station as it stands (R64); for the other phases the evaluation is
stated in OwnSlotAgreesTheRunAndEndsRecovery and OwnSlotClaimsAndGrantsSteps. Each packing while the restart flag is
set takes one packing from it, and it clears at 0 (R86). In OFF and LISTENING, and before the slot, nothing happens. -/
def Obligations.OwnSlotSendsThePackedRecord : Prop :=
  ∀ (dt : Time) (s : State) (start : Rat), s.running = true →
    start = s.link.cycleStart + (s.own.val : Rat) * ((s.cfg.cyclePeriod * 1000000 : Nat) / 8) →
    ((s.link.state = .off ∨ s.link.state = .listening ∨ ((s.now + dt : Nat) : Rat) < start) →
      exec (.ownSlotStart dt) s = .next (s.later dt))
    ∧ ((s.link.state = .synced ∨ s.link.state = .alone) → start ≤ ((s.now + dt : Nat) : Rat) →
      ∃ t r, exec (.ownSlotStart dt) s = .next t
        ∧ t.peers.get s.own = ⟨.active, 0, some r⟩ ∧ (∀ j, j ≠ s.own → t.peers.get j = s.peers.get j)
        ∧ (s.link.muted = false → t.link.tx = some ⟨start + 4000, r.frame⟩) ∧ (s.link.muted = true → t.link.tx = s.link.tx)
        ∧ r.station = s.own ∧ r.link = s.link.state ∧ r.cycle = s.link.cycle.getD 0
        ∧ ((s.coord.phase = .isolated ∨ s.coord.phase = .ready ∨ s.coord.phase = .halted) →
            r.phase = s.coord.phase ∧ r.run = s.coord.run.getD 0 ∧ r.level = s.hold.level ∧ r.holdSeq = s.hold.seq
            ∧ r.cause = (if s.hold.seq = 0 then 0 else s.hold.cause) ∧ r.origin = s.hold.origin
            ∧ r.resume = s.hold.resume ∧ r.resumeFor = (if s.hold.resume = true then s.hold.resumeFor else 0)
            ∧ r.lockClear = s.hold.lockClear ∧ r.restart = s.coord.restart ∧ r.closing = s.store.closing.isSome
            ∧ r.refState = s.engine.refState ∧ r.parked = s.engine.parked ∧ r.moving = s.sensing.moving
            ∧ r.brake = s.sensing.brkFb.level ∧ r.still = s.sensing.drvStill.level ∧ r.load = s.sensing.loadIn.level
            ∧ r.confidence = s.coord.confidence ∧ r.position = s.standby.counter ∧ r.committed = s.cal.generation
            ∧ r.running = s.plan.running ∧ r.claim = s.plan.claim.map (BitVec.ofNat 5)
            ∧ t.standby = s.standby ∧ t.coord.phase = s.coord.phase)
        ∧ (s.coord.restart = true → t.coord.restartLeft = s.coord.restartLeft - 1
            ∧ t.coord.restart = decide (1 < s.coord.restartLeft))
        ∧ (s.coord.restart = false → t.coord.restart = false)
        ∧ t.mem = s.mem ∧ t.sensing.accepted = s.sensing.accepted ∧ t.link.state = s.link.state
        ∧ t.link.cycle = s.link.cycle ∧ t.plan.steps = s.plan.steps ∧ t.port.config = s.port.config)

/-- The evaluation that comes first at the own slot in GATHERING and RECOVERING. GATHERING: when every station of the
arm, the own one read as it would be packed then (log entry 24), is ACTIVE and shows the own digests in GATHER or has
moved on, with the own committed generation, the agreement count rises; it is 0 again when an entry is not ACTIVE
(R74). At 2 the run number is agreed - that of the lowest-numbered station that has moved on, else the newest last run
claim + 1, never 0 - a staged record is discarded, and the phase is RECOVERING with a new deadline, its record carrying
the claim built (R80). A step that failed the checks at JOIN raises PLAN_INVALID (ABORT), the step its detail and its
step index (R78, R156; log entry 20). RECOVERING: when every station of the arm has moved on with a class other than
none the count rises, else it is 0; at 2 journal-active is true, the engine takes the initial-state claim by the own
class (R21, R125), and the phase is HOMING, or HALTED at LOCKOUT (R82). That parked is false then is read from the
manual (log entry 17). -/
def Obligations.OwnSlotAgreesTheRunAndEndsRecovery : Prop :=
  ∀ (dt : Time) (s : State), s.running = true → (s.link.state = .synced ∨ s.link.state = .alone) →
    s.link.cycleStart + (s.own.val : Rat) * ((s.cfg.cyclePeriod * 1000000 : Nat) / 8) ≤ ((s.now + dt : Nat) : Rat) →
    s.own.val < s.cfg.armSize →
    (s.coord.phase = .gathering →
      (∀ (j : Station) (x : StatusRecord), j.val < s.cfg.armSize → s.armRecord j = some x → x.committed = s.cal.generation
        ∧ (x.movedOn = true ∨ ∃ d g a b, x.block = .gather d g a b ∧ s.plan.digest = some d
            ∧ s.port.configDigest = some g)) →
      (∀ i, s.coord.verdictTested = false → s.coord.verdict = some i →
        ∃ t, exec (.ownSlotStart dt) s = .next t
        ∧ t.hasFault .planInvalid .abort (some i) (i : Int) ∧ t.coord.phase = .halted ∧ t.coord.run = s.coord.run)
      ∧ ((s.coord.verdictTested = true ∨ s.coord.verdict = none) →
        ((∃ j : Station, j.val < s.cfg.armSize ∧ s.armRecord j = none) → ∃ t, exec (.ownSlotStart dt) s = .next t
          ∧ t.coord.phase = .gathering ∧ t.coord.agreement = 0 ∧ t.coord.run = s.coord.run ∧ t.hold.faults = s.hold.faults)
        ∧ (∀ view : Station → StatusRecord, (∀ j : Station, j.val < s.cfg.armSize → s.armRecord j = some (view j)) →
          ∃ t r, exec (.ownSlotStart dt) s = .next t ∧ t.peers.get s.own = ⟨.active, 0, some r⟩
          ∧ (s.coord.agreement = 0 → t.coord.phase = .gathering ∧ t.coord.agreement = 1 ∧ t.coord.run = s.coord.run
              ∧ r.run = s.coord.lastRunClaim.getD 0)
          ∧ (1 ≤ s.coord.agreement → t.coord.phase = .recovering ∧ t.coord.agreement = 0
              ∧ t.coord.deadline = some (s.now + dt + ms (s.cfg.gatherLimit * 1000))
              ∧ (s.cal.staged.isSome = true → t.store.busyWith .calDiscard = true)
              ∧ r.phase = .recovering
              ∧ (∃ c, t.coord.ownClaim = some c ∧ r.block = .recover c
                  ∧ c.kind = if s.coord.journalActive = true then .live else .journal)
              ∧ ∃ n, t.coord.run = some n ∧ r.run = n
                ∧ (∀ j : Station, j.val < s.cfg.armSize → (view j).movedOn = true →
                    (∀ k : Station, k.val < j.val → (view k).movedOn = false) → n = (view j).run)
                ∧ ((∀ j : Station, j.val < s.cfg.armSize → (view j).movedOn = false) →
                    ∀ j : Station, j.val < s.cfg.armSize →
                    (∀ k : Station, k.val < s.cfg.armSize → (view k).run = (view j).run
                      ∨ serialNewer (view j).run (view k).run = true) →
                    n = if (view j).run + 1 = 0 then 1 else (view j).run + 1))
          ∧ t.standby = s.standby ∧ t.sensing = s.sensing ∧ t.mem = s.mem ∧ t.plan.steps = s.plan.steps
          ∧ t.port.config = s.port.config ∧ ∀ j, j ≠ s.own → t.peers.get j = s.peers.get j)))
    ∧ (s.coord.phase = .recovering →
      ((∃ j : Station, j.val < s.cfg.armSize ∧ ∀ x, s.armRecord j = some x → x.movedOn = false ∨ x.confidence = .none) →
        ∃ t, exec (.ownSlotStart dt) s = .next t ∧ t.coord.phase = .recovering ∧ t.coord.agreement = 0
        ∧ t.standby = s.standby ∧ t.engine = s.engine)
      ∧ ((∀ j : Station, j.val < s.cfg.armSize → ∃ x, s.armRecord j = some x ∧ x.movedOn = true ∧ x.confidence ≠ .none) →
        ∃ t, exec (.ownSlotStart dt) s = .next t ∧ t.coord.run = s.coord.run
        ∧ (s.coord.agreement = 0 → t.coord.phase = .recovering ∧ t.coord.agreement = 1
            ∧ t.standby = s.standby ∧ t.engine = s.engine)
        ∧ (1 ≤ s.coord.agreement → t.coord.journalActive = true ∧ t.coord.agreement = 0
            ∧ t.coord.phase = (if s.hold.level = .lockout then .halted else .homing) ∧ t.engine.parked = false
            ∧ (s.coord.confidence = .kept → t.engine.refState = .referenced ∧ t.standby = s.standby)
            ∧ (s.coord.confidence = .doubtful → t.engine.refState = .unreferenced ∧ t.standby = s.standby)
            ∧ (s.coord.confidence = .live → t.engine.refState = s.engine.refState ∧ t.standby = s.standby)
            ∧ (∀ p, s.coord.confidence = .journalled → s.coord.tailParts = some p → s.sensing.settling = false →
                t.engine.refState = .provisional
                ∧ t.standby = { s.standby with
                    counter := p.position + BitVec.ofInt 40 (-(s.cal.trim - p.trim.toInt))
                    continuity := true, error := .none }))
        ∧ t.mem = s.mem ∧ t.plan.steps = s.plan.steps ∧ t.port.config = s.port.config
        ∧ ∀ j, j ≠ s.own → t.peers.get j = s.peers.get j))

/-- The plan evaluation at the own slot in HOMING at level NONE, for an own step whose requires list is resolved, whose
guards and load rule are met, and whose applies-to set holds the own standing (R136, R137). With no own claim, the
first such PENDING step of the own ones, no WAIT_ALL, becomes CLAIMING with this slot's cycle as its claim sent cycle
(R138). A CLAIMING step is not granted in the slot that first sends its claim, nor while as many stations as
CONCURRENCY run a step or claim a lower one (R140, R141); a claim kept by a yield takes this slot's cycle (R145; log
entry 26). Granted, it is RUNNING, the gate OPEN, and the engine starts its seek or park (R142); the record packed then
shows the claim and the running flag. A PARK taken at standstill within PARK_TOLERANCE is DONE at once, parked true,
with no order (R42). An answer BUSY leaves the step PENDING with its retries, INVALID raises PLAN_INVALID (ABORT) too,
with the step as detail and step index (R142, R156; log entry 20); REFUSED_HOLD cannot come, the level being NONE.
RE-TEST (R140): a claim whose step's applies-to set no longer holds the standing is withdrawn, the step SKIPPED; one
whose requires list, guards or load rule is no longer met is withdrawn, the step PENDING, and the scan may claim
another step in the same slot. -/
def Obligations.OwnSlotClaimsAndGrantsSteps : Prop :=
  ∀ (dt : Time) (s : State) (i : Nat) (r : StepRecord), s.running = true →
    (s.link.state = .synced ∨ s.link.state = .alone) →
    s.link.cycleStart + (s.own.val : Rat) * ((s.cfg.cyclePeriod * 1000000 : Nat) / 8) ≤ ((s.now + dt : Nat) : Rat) →
    s.coord.phase = .homing → s.hold.level = .none → s.plan.steps[i]? = some r → r.index = i → r.owner = s.own →
    s.plan.running = false →
    (r.appliesTo s.engine.standing = true → (∀ n ∈ r.needs, s.indexResolved n = true) →
    (∀ g ∈ r.guards, s.guardMet g = true) → (r.noLoad = true → s.loadFlag = false) →
    (s.plan.claim = none → s.plan.status i = some .pending → r.action ≠ .waitAll →
      (∀ x ∈ s.plan.steps.take i, x.owner = s.own → s.plan.status x.index ≠ some .pending) →
      ∃ t y, exec (.ownSlotStart dt) s = .next t
      ∧ t.plan.claim = some i ∧ t.plan.claimSent = s.link.cycle ∧ t.plan.status i = some .claiming
      ∧ (∀ j, j ≠ i → t.plan.table[j]? = s.plan.table[j]?) ∧ t.plan.running = false
      ∧ t.peers.get s.own = ⟨.active, 0, some y⟩ ∧ y.claim = some (BitVec.ofNat 5 i) ∧ y.running = false
      ∧ t.engine = s.engine ∧ t.standby = s.standby ∧ t.sensing = s.sensing ∧ t.mem = s.mem
      ∧ t.coord.phase = .homing ∧ t.hold.level = .none)
    ∧ (s.plan.claim = some i → s.plan.status i = some .claiming →
      (s.plan.claimSent = none → ∃ t, exec (.ownSlotStart dt) s = .next t
        ∧ t.plan = { s.plan with claimSent := s.link.cycle } ∧ t.engine = s.engine)
      ∧ (∀ c q, s.link.cycle = some c → s.plan.claimSent = some q →
        (serialNewer c q = false ∨ s.cfg.concurrency ≤ s.runningPeers.length + s.lowerClaims i →
          ∃ t, exec (.ownSlotStart dt) s = .next t ∧ t.plan = s.plan ∧ t.engine = s.engine)
        ∧ (serialNewer c q = true → s.runningPeers.length + s.lowerClaims i < s.cfg.concurrency →
          (s.stepAnswer r = .taken → s.sensing.limPos.level = false → s.sensing.limNeg.level = false →
            s.engine.order.reason ≠ some .hold →
            (r.action = .park → s.still = true →
              (s.cfg.parkTolerance : Int) < |s.counter - s.cfg.parkPosition.toInt|) → r.action ≠ .waitAll →
            ∃ t y, exec (.ownSlotStart dt) s = .next t
            ∧ t.plan.running = true ∧ t.plan.status i = some .running ∧ t.plan.claim = some i
            ∧ (∀ j, j ≠ i → t.plan.table[j]? = s.plan.table[j]?) ∧ t.gate = .opened
            ∧ t.peers.get s.own = ⟨.active, 0, some y⟩ ∧ y.claim = some (BitVec.ofNat 5 i) ∧ y.running = true
            ∧ (r.action = .park → t.engine.refState = s.engine.refState
                ∧ t.engine.operation = .park ⟨some i, s.now + dt, !s.still, false⟩
                ∧ t.engine.order = .goto s.cfg.parkPosition s.cfg.slow .park)
            ∧ (r.action ≠ .park → t.engine.refState = .seeking ∧ t.engine.parked = false
                ∧ ∃ k, t.engine.operation = .seek k ∧ k.step = some i ∧ k.travelLimit = r.travelLimit
                  ∧ k.start = s.standby.counter ∧ k.entry = s.engine.standing ∧ k.endCause = none
                  ∧ (k.kind = .witness ↔ r.action = .witness) ∧ (k.kind = .index ↔ r.action = .seekIndex)
                  ∧ t.engine.order = .jog k.dir (s.cfg.speedOf (if r.action = .witness then .creep else r.speed)) .seek)
            ∧ t.standby = s.standby ∧ t.sensing = s.sensing ∧ t.mem = s.mem ∧ t.coord.phase = .homing
            ∧ t.hold.level = .none)
          ∧ (s.stepAnswer r = .taken → r.action = .park → s.still = true →
            |s.counter - s.cfg.parkPosition.toInt| ≤ (s.cfg.parkTolerance : Int) →
            ∃ t, exec (.ownSlotStart dt) s = .next t
            ∧ t.plan.status i = some .done ∧ t.plan.running = false
            ∧ (s.engine.operation = .none → t.engine.parked = true ∧ t.engine.operation = .none)
            ∧ ((∃ x ∈ s.plan.steps, x.owner ≠ s.own ∧ s.stepResolved x = false) →
                t.engine = { s.engine with parked := true } ∧ t.coord.phase = .homing ∧ t.hold.faults = s.hold.faults)
            ∧ t.standby = s.standby ∧ t.sensing = s.sensing ∧ t.mem = s.mem)
          ∧ (s.stepAnswer r = .busy → ∃ t, exec (.ownSlotStart dt) s = .next t
            ∧ t.plan.running = false ∧ t.plan.claim = none ∧ t.plan.claimSent = none
            ∧ t.plan.status i = some .pending
            ∧ (∀ x, s.plan.table[i]? = some x → t.plan.table[i]? = some ⟨.pending, x.retries, none⟩)
            ∧ (∀ j, j ≠ i → t.plan.table[j]? = s.plan.table[j]?)
            ∧ t.engine = s.engine ∧ t.hold.level = .none ∧ t.hold.faults = s.hold.faults ∧ t.coord.phase = .homing
            ∧ t.standby = s.standby ∧ t.sensing = s.sensing ∧ t.mem = s.mem)
          ∧ s.stepAnswer r ≠ .refusedHold
          ∧ (s.stepAnswer r = .invalid → ∃ t, exec (.ownSlotStart dt) s = .next t
            ∧ t.hasFault .planInvalid .abort (some i) (i : Int) ∧ t.coord.phase = .halted ∧ t.plan.running = false
            ∧ t.plan.claim = none ∧ t.standby = s.standby ∧ t.sensing = s.sensing ∧ t.mem = s.mem)))))
    ∧ (s.plan.claim = some i → s.plan.status i = some .claiming →
      (r.appliesTo s.engine.standing = false → ∃ t, exec (.ownSlotStart dt) s = .next t
        ∧ t.plan.status i = some .skipped ∧ t.plan.claim ≠ some i ∧ t.plan.running = false
        ∧ t.standby = s.standby ∧ t.sensing = s.sensing ∧ t.mem = s.mem)
      ∧ (r.appliesTo s.engine.standing = true →
        ((∃ n ∈ r.needs, s.indexResolved n = false) ∨ (∃ g ∈ r.guards, s.guardMet g = false)
          ∨ (r.noLoad = true ∧ s.loadFlag = true)) →
        (∀ (k : Nat) (x : StepRecord), s.plan.steps[k]? = some x → x.index = k) →
        ((∀ x ∈ s.plan.steps, x.owner = s.own → s.plan.status x.index ≠ some .pending) →
          ∃ t, exec (.ownSlotStart dt) s = .next t
          ∧ t.plan.status i = some .pending ∧ t.plan.claim = none ∧ t.plan.claimSent = none ∧ t.plan.running = false
          ∧ (∀ j, j ≠ i → t.plan.table[j]? = s.plan.table[j]?) ∧ t.engine = s.engine ∧ t.coord.phase = .homing
          ∧ t.hold.faults = s.hold.faults ∧ t.standby = s.standby ∧ t.sensing = s.sensing ∧ t.mem = s.mem)
        ∧ (∀ (j : Nat) (q : StepRecord), s.plan.steps[j]? = some q → q.index = j → q.owner = s.own →
          s.plan.status j = some .pending → (∀ x ∈ s.plan.steps.take j, x.owner = s.own →
            s.plan.status x.index ≠ some .pending) →
          (∀ n ∈ q.needs, s.indexResolved n = true) → (∀ g ∈ q.guards, s.guardMet g = true) →
          (q.noLoad = true → s.loadFlag = false) → q.appliesTo s.engine.standing = true → q.action ≠ .waitAll →
          ∃ t, exec (.ownSlotStart dt) s = .next t
          ∧ t.plan.status i = some .pending ∧ t.plan.claim = some j ∧ t.plan.claimSent = s.link.cycle
          ∧ t.plan.status j = some .claiming ∧ t.plan.running = false
          ∧ (∀ k, k ≠ i → k ≠ j → t.plan.table[k]? = s.plan.table[k]?) ∧ t.engine = s.engine
          ∧ t.coord.phase = .homing ∧ t.standby = s.standby ∧ t.sensing = s.sensing ∧ t.mem = s.mem)))

/-- The rest of the plan evaluation at the own slot in HOMING at level NONE. YIELD (R144): a running step whose station
is, with the peers that run, more than CONCURRENCY, and whose index is above each of their claims, raises YIELDED
(NOTE) with the count, and its seek or park is withdrawn; at standstill the step is CLAIMING again at once, its claim
kept and its claim sent cycle left to the next own slot (R145; log entry 26); else nothing of the plan or the engine
changes. The step YIELDED names is read from R156 (log entry 20). SCAN (R138): the first own PENDING step, eligible,
becomes SKIPPED when its applies-to set does not hold the standing; a WAIT_ALL becomes DONE when every lower step is
resolved and else stays PENDING. END (R152): with every step resolved the phase is READY and the gate OPEN when every
station of the arm is REFERENCED; PLAN_INCOMPLETE (ABORT) with the lowest that is not halts the station; with a step
unresolved or an entry not ACTIVE, HOMING continues. -/
def Obligations.OwnSlotYieldsWaitsAndEndsHoming : Prop :=
  ∀ (dt : Time) (s : State), s.running = true → (s.link.state = .synced ∨ s.link.state = .alone) →
    s.link.cycleStart + (s.own.val : Rat) * ((s.cfg.cyclePeriod * 1000000 : Nat) / 8) ≤ ((s.now + dt : Nat) : Rat) →
    s.coord.phase = .homing → s.hold.level = .none →
    (∀ (i : Nat) (r : StepRecord), s.plan.claim = some i → s.plan.steps[i]? = some r → r.index = i → r.owner = s.own →
      s.plan.status i = some .running → s.plan.running = true → s.plan.yieldReturn = false →
      ((s.runningPeers.length + 1 ≤ s.cfg.concurrency ∨ ∃ y ∈ s.runningPeers, ∃ q, y.claim = some q ∧ i ≤ q.toNat) →
        ∃ t, exec (.ownSlotStart dt) s = .next t ∧ t.plan.table = s.plan.table ∧ t.plan.running = true
        ∧ t.plan.yieldReturn = false ∧ t.engine = s.engine ∧ t.hold.faults = s.hold.faults ∧ t.coord.phase = .homing)
      ∧ (s.cfg.concurrency < s.runningPeers.length + 1 →
        (∀ y ∈ s.runningPeers, ∀ q, y.claim = some q → q.toNat < i) →
        ((∃ k, s.engine.operation = .seek k ∧ s.engine.refState = .seeking ∧ k.endCause = none ∧ k.step = some i)
          ∨ (∃ p, s.engine.operation = .park p ∧ p.withdrawn = false ∧ p.step = some i)) →
        (s.sensing.drvStill.level = false → ∃ t, exec (.ownSlotStart dt) s = .next t
          ∧ t.hasFault .yielded .note (some i) ((s.runningPeers.length + 1 : Nat) : Int)
          ∧ t.plan.yieldReturn = true ∧ t.plan.running = true ∧ t.plan.table = s.plan.table ∧ t.plan.claim = some i
          ∧ (∀ k, s.engine.operation = .seek k →
              t.engine.operation = .seek { k with endCause := some .hold, endDetail := 0 }
              ∧ t.engine.order = (if s.engine.order.reason = some .hold then s.engine.order else .stop .seek))
          ∧ (∀ p, s.engine.operation = .park p → t.engine.operation = .park { p with withdrawn := true }
              ∧ t.engine.order = (if s.engine.order.reason = some .hold then s.engine.order else .stop .park))
          ∧ t.engine.refState = s.engine.refState ∧ t.standby = s.standby ∧ t.mem = s.mem ∧ t.coord.phase = .homing)
        ∧ (s.sensing.drvStill.level = true → s.plan.demote = false → r.appliesTo s.engine.standing = true →
          (∀ n ∈ r.needs, s.indexResolved n = true) → (∀ g ∈ r.guards, s.guardMet g = true) →
          (r.noLoad = true → s.loadFlag = false) →
          ∃ t, exec (.ownSlotStart dt) s = .next t
          ∧ t.hasFault .yielded .note (some i) ((s.runningPeers.length + 1 : Nat) : Int)
          ∧ t.plan.status i = some .claiming ∧ t.plan.claim = some i ∧ t.plan.claimSent = none
          ∧ t.plan.running = false ∧ t.plan.yieldReturn = false ∧ (∀ j, j ≠ i → t.plan.table[j]? = s.plan.table[j]?)
          ∧ t.engine.operation = .none
          ∧ (∀ k, s.engine.operation = .seek k → t.engine.refState = k.entry.state)
          ∧ (∀ p, s.engine.operation = .park p → t.engine.refState = s.engine.refState ∧ t.engine.parked = s.engine.parked)
          ∧ t.engine.order = (if s.engine.order.reason = some .hold then s.engine.order else .none)
          ∧ t.standby = s.standby ∧ t.mem = s.mem ∧ t.coord.phase = .homing)))
    ∧ (∀ (i : Nat) (r : StepRecord), s.plan.claim = none → s.plan.steps[i]? = some r →
      (∀ (j : Nat) (x : StepRecord), s.plan.steps[j]? = some x → x.index = j) → r.owner = s.own → s.plan.status i = some .pending →
      (∀ x ∈ s.plan.steps.take i, x.owner = s.own → s.plan.status x.index ≠ some .pending) →
      (∀ n ∈ r.needs, s.indexResolved n = true) → (∀ g ∈ r.guards, s.guardMet g = true) →
      (r.noLoad = true → s.loadFlag = false) →
      ∃ t, exec (.ownSlotStart dt) s = .next t
      ∧ (r.appliesTo s.engine.standing = false → t.plan.status i = some .skipped)
      ∧ (r.appliesTo s.engine.standing = true → r.action = .waitAll →
          ((∀ x ∈ s.plan.steps.take i, s.stepResolved x = true) → t.plan.status i = some .done)
          ∧ ((∃ x ∈ s.plan.steps.take i, s.stepResolved x = false) → t.plan.status i = some .pending))
      ∧ t.standby = s.standby ∧ t.sensing = s.sensing ∧ t.mem = s.mem)
    ∧ (s.plan.claim = none → (∀ x ∈ s.plan.steps, x.owner = s.own → s.plan.status x.index ≠ some .pending) →
      ((∀ x ∈ s.plan.steps, s.stepResolved x = true) →
        ((∀ j : Station, j.val < s.cfg.armSize → s.armState j = some .referenced) →
          ∃ t r, exec (.ownSlotStart dt) s = .next t ∧ t.coord.phase = .ready ∧ t.gate = .opened ∧ t.plan = s.plan
          ∧ t.peers.get s.own = ⟨.active, 0, some r⟩ ∧ r.phase = .ready
          ∧ t.hold.level = .none ∧ t.engine = s.engine ∧ t.standby = s.standby ∧ t.sensing = s.sensing ∧ t.mem = s.mem)
        ∧ (∀ j : Station, j.val < s.cfg.armSize → s.armState j ≠ some .referenced →
          (∀ k : Station, k.val < s.cfg.armSize → s.armState k ≠ none) →
          (∀ k : Station, k.val < j.val → s.armState k = some .referenced) →
          ∃ t, exec (.ownSlotStart dt) s = .next t ∧ t.hasFault .planIncomplete .abort none (j.val : Int)
          ∧ t.coord.phase = .halted ∧ t.standby = s.standby ∧ t.sensing = s.sensing ∧ t.mem = s.mem))
      ∧ (((∃ x ∈ s.plan.steps, s.stepResolved x = false) ∨ ∃ j : Station, j.val < s.cfg.armSize ∧ s.armState j = none) →
        ∃ t, exec (.ownSlotStart dt) s = .next t ∧ t.coord.phase = .homing ∧ t.plan = s.plan ∧ t.engine = s.engine
        ∧ t.hold.faults = s.hold.faults ∧ t.standby = s.standby ∧ t.sensing = s.sensing ∧ t.mem = s.mem))

/-- READBACK_MISMATCH during a transmission: the frame is abandoned, the count rises by one, and the station goes to
LISTENING, its cycle timer stopped and its agreement count 0 (R48, R58, R74); at the third the count is 0, the station
is muted and DUPLICATE_STATION (ABORT) is raised with the own number (R59). FRAME_TRANSMIT_END sets the count to 0
(R58). Without a transmission, before the frame of the slot has begun, neither does anything. -/
def Obligations.ReadbackCountsAndMutes : Prop :=
  ∀ (dt : Time) (s : State), s.running = true →
    (((∀ x, s.link.tx = some x → ((s.now + dt : Nat) : Rat) < x.start) ∨ s.link.state = .off ∨ s.link.state = .listening) →
      exec (.readbackMismatch dt) s = .next (s.later dt) ∧ exec (.frameTransmitEnd dt) s = .next (s.later dt))
    ∧ (∀ x, s.link.tx = some x → x.start ≤ ((s.now + dt : Nat) : Rat) → (s.link.state = .synced ∨ s.link.state = .alone) →
      exec (.frameTransmitEnd dt) s = .next
        { s.later dt with link := { s.link with mismatches := 0, tx := none } }
      ∧ (s.link.mismatches + 1 < 3 → exec (.readbackMismatch dt) s = .next
        { s.later dt with
          link := { s.link with
            mismatches := s.link.mismatches + 1, state := .listening, timed := false, listenSince := s.now + dt
            heard := [], offsets := [], acceptedInCycle := false, foreignInCycle := false, correction := 0, tx := none }
          coord := { s.coord with agreement := 0 } })
      ∧ (3 ≤ s.link.mismatches + 1 → ∃ t, exec (.readbackMismatch dt) s = .next t
        ∧ t.link.mismatches = 0 ∧ t.link.muted = true ∧ t.link.state = .listening ∧ t.link.timed = false
        ∧ t.link.tx = none ∧ t.link.cycle = s.link.cycle
        ∧ t.hasFault .duplicateStation .abort none (s.own.val : Int)
        ∧ ((s.coord.phase = .gathering ∨ s.coord.phase = .recovering ∨ s.coord.phase = .homing ∨ s.coord.phase = .ready) →
            t.coord.phase = .halted)
        ∧ t.standby = s.standby ∧ t.sensing = s.sensing ∧ t.mem = s.mem ∧ t.peers = s.peers
        ∧ t.plan.steps = s.plan.steps ∧ t.port.config = s.port.config))

/-- A received frame is discarded with no effect when it is shorter than 40 bytes, when its CRC-16 does not match its
body, when a field lies outside its encoding, when it carries the own number, or in OFF (R60). In SYNCED, and in ALONE
for a frame that is not adopted (R55), it is attributed to the slot whose nominal instant lies nearest its start; with
another number than the slot's it is discarded, and of a slot of ARM_SIZE or more it raises CONFIG_MISMATCH (ABORT)
once in each phase (R61); with another cycle number it counts as foreign only (R62), off by more than 25 us it takes
the station to LISTENING unless it is transmitting its own frame, which begins at the nominal instant (R47, R53), and
else it is accepted: the entry of its station is ACTIVE, silence 0, with its record, no other entry being touched
(R62), its offset kept in SYNCED alone (R52). The model's choices: attribution runs over the nominal instants of all
cycles (log entry 31), whether the station is transmitting is judged at the frame's last bit (log entry 56), and the
slot joins the set of those reported after the raise (log entry 49). -/
def Obligations.ReceivedFrameIsDiscardedOrAccepted : Prop :=
  ∀ (dt ago : Time) (bytes : List Byte) (s : State), s.running = true →
    (bytes.length < 40 → exec (.frameReceived dt ago bytes) s = .next (s.later dt))
    ∧ (rd bytes 38 2 ≠ (crc16 ((bytes.drop 2).take 36)).toNat →
      exec (.frameReceived dt ago bytes) s = .next (s.later dt))
    ∧ ((parseFrame bytes = none ∨ s.link.state = .off) → exec (.frameReceived dt ago bytes) s = .next (s.later dt))
    ∧ (∀ r, parseFrame bytes = some r → r.station = s.own →
      exec (.frameReceived dt ago bytes) s = .next (s.later dt))
    ∧ (∀ (r : StatusRecord) (k : Station) (n : Int) (slot off : Rat), parseFrame bytes = some r → r.station ≠ s.own →
      (s.link.state = .synced ∨ (s.link.state = .alone
        ∧ (s.cfg.armSize ≤ r.station.val
          ∨ (r.link ≠ .synced ∧ (r.link = .alone → s.own.val ≤ r.station.val))))) →
      slot = (s.cfg.cyclePeriod * 1000000 : Nat) / 8 → 0 < slot →
      ((s.now + dt : Nat) : Rat) - ago = s.link.cycleStart + 4000 + ((k.val : Int) + 8 * n : Int) * slot + off →
      - slot / 2 < off → off < slot / 2 →
      (r.station ≠ k → exec (.frameReceived dt ago bytes) s = .next (s.later dt))
      ∧ (r.station = k → s.cfg.armSize ≤ k.val →
        (k ∈ s.link.outOfArm → exec (.frameReceived dt ago bytes) s = .next (s.later dt))
        ∧ (k ∉ s.link.outOfArm → ∃ t, exec (.frameReceived dt ago bytes) s = .next t
          ∧ k ∈ t.link.outOfArm ∧ t.hasFault .configMismatch .abort none (k.val : Int)
          ∧ t.link.state = s.link.state ∧ t.link.cycle = s.link.cycle ∧ t.peers = s.peers ∧ t.standby = s.standby
          ∧ t.mem = s.mem))
      ∧ (r.station = k → k.val < s.cfg.armSize → s.link.cycle ≠ some r.cycle →
        exec (.frameReceived dt ago bytes) s = .next { s.later dt with link := { s.link with foreignInCycle := true } })
      ∧ (r.station = k → k.val < s.cfg.armSize → s.link.cycle = some r.cycle → (off < -25000 ∨ 25000 < off) →
        ((∃ x, s.link.tx = some x ∧ x.start ≤ ((s.now + dt : Nat) : Rat)) → exec (.frameReceived dt ago bytes) s = .next (s.later dt))
        ∧ ((∀ x, s.link.tx = some x → ((s.now + dt : Nat) : Rat) < x.start) → ∃ t, exec (.frameReceived dt ago bytes) s = .next t
          ∧ t.link.state = .listening ∧ t.link.timed = false ∧ t.link.cycle = s.link.cycle ∧ t.coord.agreement = 0
          ∧ t.peers = s.peers ∧ t.hold = s.hold ∧ t.standby = s.standby ∧ t.mem = s.mem ∧ t.engine = s.engine))
      ∧ (r.station = k → k.val < s.cfg.armSize → s.link.cycle = some r.cycle → -25000 ≤ off → off ≤ 25000 →
        ∃ t, exec (.frameReceived dt ago bytes) s = .next t
          ∧ t.peers.get k = ⟨.active, 0, some r⟩ ∧ (∀ j, j ≠ k → t.peers.get j = s.peers.get j)
          ∧ t.link.acceptedInCycle = true
          ∧ (s.link.state = .synced → t.link.offsets = s.link.offsets ++ [off])
          ∧ (s.link.state = .alone → t.link.offsets = s.link.offsets)
          ∧ t.link.state = s.link.state ∧ t.link.cycle = s.link.cycle ∧ t.link.cycleStart = s.link.cycleStart
          ∧ t.standby = s.standby ∧ t.sensing = s.sensing ∧ t.mem = s.mem ∧ t.plan.steps = s.plan.steps
          ∧ t.port.config = s.port.config))

/-- Adoption (R50, R55): the first frame of another station of the arm that a LISTENING station hears is adopted, and
so is one that an ALONE station hears from a SYNCED station, or from an ALONE one of lower number: the link is SYNCED
and timed with the frame's cycle number, its slot of the current cycle begins 4 us before the frame's start, and the
entry of its station is ACTIVE, silence 0, with its record. A LISTENING station does not adopt a station of ARM_SIZE or
more: CONFIG_MISMATCH (ABORT) is raised once in each phase (R61); that the station joins the set of those reported after
the raise, whose ABORT changes the phase, is the model's choice (log entry 49). -/
def Obligations.FrameIsAdopted : Prop :=
  ∀ (dt ago : Time) (bytes : List Byte) (s : State) (r : StatusRecord), s.running = true → parseFrame bytes = some r →
    r.station ≠ s.own →
    ((s.link.state = .listening ∨ (s.link.state = .alone
        ∧ (r.link = .synced ∨ (r.link = .alone ∧ r.station.val < s.own.val)))) →
      r.station.val < s.cfg.armSize →
      ∃ t, exec (.frameReceived dt ago bytes) s = .next t
        ∧ t.link.state = .synced ∧ t.link.timed = true ∧ t.link.cycle = some r.cycle
        ∧ t.link.cycleStart + (r.station.val : Rat) * ((s.cfg.cyclePeriod * 1000000 : Nat) / 8)
            = ((s.now + dt : Nat) : Rat) - ago - 4000
        ∧ t.peers.get r.station = ⟨.active, 0, some r⟩
        ∧ (s.link.state = .alone → ∀ j, j ≠ r.station → t.peers.get j = s.peers.get j)
        ∧ t.standby = s.standby ∧ t.sensing = s.sensing ∧ t.mem = s.mem ∧ t.plan.steps = s.plan.steps
        ∧ t.port.config = s.port.config)
    ∧ (s.link.state = .listening → s.cfg.armSize ≤ r.station.val →
      (r.station ∈ s.link.outOfArm → exec (.frameReceived dt ago bytes) s = .next (s.later dt))
      ∧ (r.station ∉ s.link.outOfArm → ∃ t, exec (.frameReceived dt ago bytes) s = .next t
        ∧ r.station ∈ t.link.outOfArm ∧ t.hasFault .configMismatch .abort none (r.station.val : Int)
        ∧ t.link.state = .listening ∧ t.peers = s.peers ∧ t.standby = s.standby ∧ t.mem = s.mem))

/-- An accepted record's sequence and level at the Hold Unit (R62, R159, R162, R163, R164), the record bringing nothing
else that acts. ADOPTION (R162): a newer sequence with a level not NONE gives its sequence, cause and origin, the
higher level, STOP with reason HOLD unless LOCKOUT was held, and a fault record with its cause, its origin and the
sender's number (R156), of class HOLD at LOCKOUT and else the cause code's; class ABORT halts a station that has joined
(R85); a LOCKOUT newly met posts LOCK_RECORD (R107); LOCKOUT upon LOCKOUT records nothing. EQUAL SEQUENCE (R163): a
STOP or DROP rises to the record's higher level with that level's entry (R161), recording nothing, and a lower origin
gives its cause and origin. Else level, sequence, faults, gate, engine and plan are left, and only the newest known
sequence may follow (R159); where the station and every ACTIVE entry are settled the entry is complete (R170). RETAINED
LOCKOUT (R164, R81): in GATHERING and RECOVERING a GATHER record that shows one gives a fresh sequence, LOCKOUT, its
cause and the sender as origin, with LOCK_RECORD posted and no change of phase. The order of the parts is log entry 27,
the class of a cause that is no fault code log entry 30. -/
def Obligations.AcceptedRecordActsOnTheHold : Prop :=
  ∀ (dt ago : Time) (bytes : List Byte) (s : State) (r : StatusRecord), s.hears dt ago bytes r →
    (r.flagsIdle s →
      (∀ cls : FaultClass, cls = (if r.level = .lockout then .hold else adoptedClass r.cause) →
        seqNewer r.holdSeq s.hold.seq = true → r.level ≠ .none →
        (cls = .abort → r.phase ≠ .isolated ∧ r.phase ≠ .gathering) →
        ∃ t, exec (.frameReceived dt ago bytes) s = .next t
        ∧ t.hold.seq = r.holdSeq ∧ t.hold.cause = r.cause ∧ t.hold.origin = r.origin ∧ t.hold.resume = false
        ∧ t.hold.level = (if s.hold.level.rank < r.level.rank then r.level else s.hold.level)
        ∧ (s.hold.level ≠ .lockout → t.engine.order = .stop .hold)
        ∧ ((t.hold.level = .drop ∨ t.hold.level = .lockout) → s.hold.level ≠ .lockout → t.gate = .closed)
        ∧ (s.hold.level ≠ .lockout → r.level = .lockout → t.store.busyWith .lockRecord = true)
        ∧ (s.hold.level = .lockout → r.level = .lockout → t.hold.faults = s.hold.faults)
        ∧ ((s.hold.level ≠ .lockout ∨ r.level ≠ .lockout) → ∃ f ∈ t.hold.faults, f.code = r.cause ∧ f.cls = cls
            ∧ f.origin = r.origin ∧ f.step = none ∧ f.detail = BitVec.ofNat 32 r.station.val)
        ∧ (cls = .abort → s.coord.phase ≠ .isolated → t.coord.phase = .halted)
        ∧ ((cls ≠ .abort ∨ s.coord.phase = .isolated) → t.coord.phase = s.coord.phase)
        ∧ t.standby = s.standby ∧ t.sensing = s.sensing ∧ t.mem = s.mem ∧ t.plan.steps = s.plan.steps
        ∧ t.port.config = s.port.config)
      ∧ (r.holdSeq = s.hold.seq → (s.hold.level = .stop ∨ s.hold.level = .drop) → s.hold.level.rank < r.level.rank →
        ∃ t, exec (.frameReceived dt ago bytes) s = .next t
        ∧ t.hold.level = r.level ∧ t.hold.seq = s.hold.seq
        ∧ (r.origin.val < s.hold.origin.val → t.hold.cause = r.cause ∧ t.hold.origin = r.origin)
        ∧ (s.hold.origin.val ≤ r.origin.val → t.hold.cause = s.hold.cause ∧ t.hold.origin = s.hold.origin)
        ∧ t.engine.order = .stop .hold ∧ t.gate = .closed
        ∧ (r.level = .lockout → t.store.busyWith .lockRecord = true ∧ t.hold.deadline = none ∧ t.hold.complete = false)
        ∧ (r.level = .drop → t.hold.deadline =
            if t.hold.complete = true then none else some (s.now + dt + s.cfg.dropLimit * 1000000))
        ∧ (s.cal.proposal = none → t.hold.faults = s.hold.faults)
        ∧ t.coord.phase = s.coord.phase ∧ t.standby = s.standby ∧ t.sensing = s.sensing ∧ t.mem = s.mem
        ∧ t.plan.steps = s.plan.steps ∧ t.port.config = s.port.config)
      ∧ ((seqNewer r.holdSeq s.hold.seq = true → r.level = .none) →
        (r.holdSeq = s.hold.seq → (s.hold.level = .stop ∨ s.hold.level = .drop) → r.level.rank ≤ s.hold.level.rank) →
        ∃ t, exec (.frameReceived dt ago bytes) s = .next t
        ∧ t.hold.level = s.hold.level ∧ t.hold.seq = s.hold.seq ∧ t.hold.faults = s.hold.faults
        ∧ t.hold.newest = (if seqNewer r.holdSeq s.hold.newest = true then r.holdSeq else s.hold.newest)
        ∧ (r.holdSeq = s.hold.seq → r.level ≠ .none → s.hold.level ≠ .none → r.origin.val < s.hold.origin.val →
            t.hold.cause = r.cause ∧ t.hold.origin = r.origin)
        ∧ ((r.holdSeq ≠ s.hold.seq ∨ r.level = .none ∨ s.hold.level = .none ∨ s.hold.origin.val ≤ r.origin.val) →
            t.hold.cause = s.hold.cause ∧ t.hold.origin = s.hold.origin)
        ∧ ((s.hold.level = .stop ∨ s.hold.level = .drop) → s.settled = true → r.settledFor s.hold.seq = true →
            (∀ y ∈ s.peerRecords, y.1 ≠ r.station → y.2.settledFor s.hold.seq = true) →
            t.hold.complete = true ∧ (s.hold.complete = false → t.hold.deadline = none))
        ∧ t.gate = s.gate ∧ t.engine = s.engine ∧ t.plan = s.plan ∧ t.coord.phase = s.coord.phase
        ∧ t.standby = s.standby ∧ t.sensing = s.sensing ∧ t.mem = s.mem ∧ t.port.config = s.port.config))
    ∧ (∀ pd cd c, r.block = .gather pd cd 1 c → (s.coord.phase = .gathering ∨ s.coord.phase = .recovering) →
      s.hold.level ≠ .lockout → r.sequenceIdle s → seqNewer r.holdSeq s.hold.newest = false → r.resume = false →
      ∃ t, exec (.frameReceived dt ago bytes) s = .next t
      ∧ t.hold.level = .lockout ∧ t.hold.seq = (if s.hold.newest + 1 = 0 then 1 else s.hold.newest + 1)
      ∧ t.hold.cause = c ∧ t.hold.origin = r.station ∧ t.store.busyWith .lockRecord = true
      ∧ t.engine.order = .stop .hold ∧ t.gate = .closed ∧ t.coord.phase = s.coord.phase
      ∧ (s.cal.proposal = none → t.hold.faults = s.hold.faults)
      ∧ t.standby = s.standby ∧ t.sensing = s.sensing ∧ t.mem = s.mem ∧ t.plan.steps = s.plan.steps)

/-- An accepted record's flags and phase, at the Hold Unit and the Coordinator. RESUME (R175, R176): a resume naming
the own sequence at a complete STOP or DROP ends it, setting no resume flag here; one naming another sequence, or at an
entry whose station has not settled, leaves the level. LOCKOUT_CLEAR (R178): at LOCKOUT outside ISOLATED the level is
NONE, the flag spreads with PEER_LOSS_LIMIT packings, LOCK_CLEAR is posted and the phase is HALTED; a restart flag in
the same record acts after it (R87). RESTART (R87): a HALTED station at NONE, or at a complete STOP, is GATHERING with
its own restart flag set; at DROP, LOCKOUT or an unsettled STOP it stays HALTED; a station in another phase is left.
PEER_RESTARTED (R88): in HOMING, READY and HALTED a record in ISOLATED or GATHERING without the restart flag raises it
(ABORT) with the sender's number once in a phase (log entry 49). -/
def Obligations.AcceptedRecordEndsHoldsAndRestarts : Prop :=
  ∀ (dt ago : Time) (bytes : List Byte) (s : State) (r : StatusRecord), s.hears dt ago bytes r →
    (r.sequenceIdle s → r.restIdle s → r.resume = true → (s.hold.level = .stop ∨ s.hold.level = .drop) →
      (r.resumeFor = s.hold.seq → s.hold.complete = true → ∃ t, exec (.frameReceived dt ago bytes) s = .next t
        ∧ t.hold.level = .none ∧ t.hold.complete = false ∧ t.hold.deadline = none
        ∧ t.hold.seq = s.hold.seq ∧ t.hold.cause = s.hold.cause ∧ t.hold.origin = s.hold.origin
        ∧ (s.hold.resume = false → t.hold.resume = false)
        ∧ t.engine.order = (if s.engine.order.reason = some .hold then .none else s.engine.order)
        ∧ (t.permitted = true → t.gate = .opened) ∧ t.port.attention.holdChanged = true
        ∧ t.coord.phase = (if s.hold.level = .drop ∧ s.coord.phase = .ready then .homing else s.coord.phase)
        ∧ t.standby = s.standby ∧ t.sensing = s.sensing ∧ t.mem = s.mem ∧ t.plan.steps = s.plan.steps)
      ∧ ((r.resumeFor ≠ s.hold.seq ∨ (s.hold.complete = false ∧ s.settled = false)) →
        ∃ t, exec (.frameReceived dt ago bytes) s = .next t
        ∧ t.hold.level = s.hold.level ∧ t.hold.seq = s.hold.seq ∧ t.hold.faults = s.hold.faults
        ∧ (s.settled = false → t.hold.complete = s.hold.complete) ∧ t.coord.phase = s.coord.phase
        ∧ t.gate = s.gate ∧ t.engine = s.engine ∧ t.plan = s.plan))
    ∧ (r.lockClear = true → s.hold.level = .lockout → s.coord.phase ≠ .isolated →
      (r.restart = true ∨ (r.phase ≠ .isolated ∧ r.phase ≠ .gathering)) →
      ∃ t, exec (.frameReceived dt ago bytes) s = .next t
        ∧ t.hold.level = .none ∧ t.hold.complete = false ∧ t.hold.deadline = none
        ∧ t.hold.lockClear = true ∧ t.hold.lockClearLeft = s.cfg.peerLossLimit
        ∧ t.hold.seq = (if seqNewer r.holdSeq s.hold.seq = true ∧ r.level ≠ .none then r.holdSeq else s.hold.seq)
        ∧ t.store.busyWith .lockClear = true
        ∧ t.engine.order = (if s.engine.order.reason = some .hold then .none else s.engine.order)
        ∧ t.coord.phase = (if r.restart = true then .gathering else .halted)
        ∧ t.standby = s.standby ∧ t.sensing = s.sensing ∧ t.mem = s.mem ∧ t.plan.steps = s.plan.steps)
    ∧ (r.restart = true → r.sequenceIdle s →
      (s.coord.phase = .halted →
        ((s.hold.level = .none ∨ (s.hold.level = .stop ∧ s.hold.complete = true)) →
          ∃ t, exec (.frameReceived dt ago bytes) s = .next t
          ∧ t.coord.phase = .gathering ∧ t.coord.agreement = 0
          ∧ t.coord.deadline = some (s.now + dt + ms (s.cfg.gatherLimit * 1000))
          ∧ t.coord.restart = true ∧ t.coord.restartLeft = s.cfg.peerLossLimit
          ∧ t.coord.lastRunClaim = (match s.coord.run with | some n => some n | none => s.coord.lastRunClaim)
          ∧ t.coord.run = s.coord.run ∧ t.coord.journalActive = s.coord.journalActive
          ∧ t.hold.level = .none ∧ t.hold.resume = false ∧ t.hold.seq = s.hold.seq ∧ t.hold.cause = s.hold.cause
          ∧ t.hold.origin = s.hold.origin ∧ t.hold.faults = s.hold.faults
          ∧ t.engine.order = (if s.engine.order.reason = some .hold then .none else s.engine.order)
          ∧ t.engine.refState = s.engine.refState ∧ t.standby = s.standby ∧ t.sensing = s.sensing ∧ t.mem = s.mem
          ∧ t.plan.steps = s.plan.steps)
        ∧ ((s.hold.level = .drop ∨ s.hold.level = .lockout
              ∨ (s.hold.level = .stop ∧ s.hold.complete = false ∧ s.settled = false)) →
            r.resume = false → r.lockClear = false → ∃ t, exec (.frameReceived dt ago bytes) s = .next t
          ∧ t.coord = s.coord ∧ t.hold.level = s.hold.level ∧ t.hold.seq = s.hold.seq
          ∧ t.hold.faults = s.hold.faults))
      ∧ ((s.coord.phase = .isolated ∨ s.coord.phase = .homing ∨ s.coord.phase = .ready) →
        r.resume = false → (r.lockClear = true → s.hold.level = .lockout → s.coord.phase = .isolated) →
        ∃ t, exec (.frameReceived dt ago bytes) s = .next t
        ∧ t.coord = s.coord ∧ t.hold.level = s.hold.level ∧ t.hold.seq = s.hold.seq
        ∧ t.hold.faults = s.hold.faults)
      ∧ ((s.coord.phase = .gathering ∨ s.coord.phase = .recovering) →
        (r.lockClear = true → s.hold.level ≠ .lockout) → ∃ t, exec (.frameReceived dt ago bytes) s = .next t
        ∧ t.coord.phase = s.coord.phase ∧ t.coord.restart = s.coord.restart ∧ t.coord.run = s.coord.run))
    ∧ ((s.coord.phase = .homing ∨ s.coord.phase = .ready ∨ s.coord.phase = .halted) →
      (r.phase = .isolated ∨ r.phase = .gathering) → r.restart = false →
      (r.station ∉ s.coord.restartedReported → ∃ t, exec (.frameReceived dt ago bytes) s = .next t
        ∧ t.hasFault .peerRestarted .abort none (r.station.val : Int) ∧ t.coord.phase = .halted
        ∧ r.station ∈ t.coord.restartedReported
        ∧ t.standby = s.standby ∧ t.sensing = s.sensing ∧ t.mem = s.mem ∧ t.plan.steps = s.plan.steps)
      ∧ (r.station ∈ s.coord.restartedReported → r.sequenceIdle s → r.resume = false → r.lockClear = false →
        ∃ t, exec (.frameReceived dt ago bytes) s = .next t
        ∧ t.coord = s.coord ∧ t.hold.level = s.hold.level ∧ t.hold.seq = s.hold.seq
        ∧ t.hold.faults = s.hold.faults))

/-- An accepted record at the claim set and at calibration. CLAIMS (R117, R118): while RECOVERING a RECOVER record's
claim takes its station's entry, and RUN in HOMING or READY gives MOVED_ON to an empty one; a held claim, and every
other entry, stays, and another record gives nothing. A change that finds the set complete makes the station classify
again. SIGHTING (R191): a record that shows a proposal of G + 1 has the sighting in progress, and with no such
proposal, own or shown, there is none; the station stages once in it, when READY, at NONE, not SURVEYING and without
PFAIL (R193). FLIP (R194): with the staged record of G + 1 sealed in the sighting, every other station of the arm
showing G + 1 staged or committed, and no calibration write outstanding, CAL_FLIP is posted, an own proposal's
flip-posted true. ROLL-FORWARD (R197): a record showing G + 1 committed posts it too. With flip failed, and in
ISOLATED, neither does. -/
def Obligations.AcceptedRecordActsOnClaimsAndCalibration : Prop :=
  ∀ (dt ago : Time) (bytes : List Byte) (s : State) (r : StatusRecord), s.hears dt ago bytes r →
    (s.coord.phase = .recovering → r.sequenceIdle s → (r.lockClear = true → s.hold.level ≠ .lockout) →
      (∀ e : ClaimEntry, ((∃ c, r.block = .recover c ∧ e = .held c)
          ∨ (∃ a b d f g, r.block = .run a b d f g) ∧ (r.phase = .homing ∨ r.phase = .ready) ∧ e = .movedOn
            ∧ s.coord.claims.get r.station = .empty) → s.coord.claims.get r.station ≠ e →
        ∃ t u, exec (.frameReceived dt ago bytes) s = .next t
        ∧ u = { s with coord := { s.coord with claims := t.coord.claims } }
        ∧ t.coord.claims.get r.station = e ∧ (∀ k, k ≠ r.station → t.coord.claims.get k = s.coord.claims.get k)
        ∧ ((∀ k : Station, k.val < s.cfg.armSize → k ≠ r.station → s.coord.claims.get k ≠ .empty) →
            t.coord = (reclassify u).coord)
        ∧ ((∃ k : Station, k.val < s.cfg.armSize ∧ k ≠ r.station ∧ s.coord.claims.get k = .empty) →
            t.coord = u.coord)
        ∧ t.standby = s.standby ∧ t.sensing = s.sensing ∧ t.mem = s.mem)
      ∧ ((s.coord.claims.get r.station ≠ .empty ∧ (∃ a b d f g, r.block = .run a b d f g)
          ∨ (∃ a b d f g, r.block = .run a b d f g) ∧ r.phase ≠ .homing ∧ r.phase ≠ .ready
          ∨ (∃ pd cd f c, r.block = .gather pd cd f c)) →
        ∃ t, exec (.frameReceived dt ago bytes) s = .next t ∧ t.coord = s.coord))
    ∧ (s.cal.generation ≠ 0xFFFF →
      (r.proposal = s.cal.generation + 1 → ∃ t, exec (.frameReceived dt ago bytes) s = .next t
        ∧ t.cal.sighting = some (s.cal.generation + 1) ∧ t.cal.committed = s.cal.committed
        ∧ (r.sequenceIdle s → r.flagsIdle s → s.coord.phase = .ready → s.hold.level = .none →
          s.engine.refState ≠ .surveying → s.sensing.pfail.level = false →
          t.cal.stagedInSighting = true
          ∧ ((s.cal.sighting ≠ some (s.cal.generation + 1) ∨ s.cal.stagedInSighting = false) →
              t.store.busyWith .calStage = true)
          ∧ (s.cal.sighting = some (s.cal.generation + 1) → s.cal.stagedInSighting = true →
              t.store.busyWith .calStage = s.store.busyWith .calStage)))
      ∧ (r.proposal ≠ s.cal.generation + 1 → s.cal.proposal = none →
        (∀ y ∈ s.peerRecords, y.1 ≠ r.station → y.2.proposal ≠ s.cal.generation + 1) →
        ∃ t, exec (.frameReceived dt ago bytes) s = .next t ∧ t.cal.sighting = none)
      ∧ (∀ x, r.sequenceIdle s → r.flagsIdle s → s.cal.staged = some x → x.generation = s.cal.generation + 1 →
        s.cal.flipFailed = false → s.store.calBusy = false → s.coord.phase ≠ .isolated →
        (s.cal.sighting = some x.generation → s.cal.sealedInSighting = true → s.cal.stagedInSighting = true →
          (r.proposal = x.generation ∨ (∃ p, s.cal.proposal = some p ∧ p.generation = x.generation)
            ∨ (∃ y ∈ s.peerRecords, y.1 ≠ r.station ∧ y.2.proposal = x.generation)) →
          (r.staged = x.generation ∨ r.committed = x.generation) →
          (∀ k : Station, k.val < s.cfg.armSize → k ≠ s.own → k ≠ r.station →
            ∃ y, s.heardRecord k = some y ∧ (y.staged = x.generation ∨ y.committed = x.generation)) →
          ∃ t, exec (.frameReceived dt ago bytes) s = .next t ∧ t.store.busyWith .calFlip = true
            ∧ (∀ p, t.cal.proposal = some p → p.flipPosted = true))
        ∧ (r.committed = x.generation → (s.coord.phase = .ready → s.hold.level = .none → r.proposal ≠ x.generation
            ∧ s.cal.proposal = none ∧ ∀ y ∈ s.peerRecords, y.1 ≠ r.station → y.2.proposal ≠ x.generation) →
          ∃ t, exec (.frameReceived dt ago bytes) s = .next t ∧ t.store.busyWith .calFlip = true))
      ∧ (r.sequenceIdle s → r.flagsIdle s → (s.cal.flipFailed = true ∨ s.coord.phase = .isolated) →
        ∃ t, exec (.frameReceived dt ago bytes) s = .next t
        ∧ t.store.busyWith .calFlip = s.store.busyWith .calFlip))

/-- CYCLE_END_EVAL at the end of slot 7 (R52, R54, R56): the correction is the mean of the cycle's offsets in SYNCED,
within 2 us either way, 0 with none; the silent-cycle count, kept in SYNCED, becomes 0 with an accepted frame and else
rises; the foreign-cycle count becomes 0 with an accepted frame, rises with a foreign one, and else stands. At
PEER_LOSS_LIMIT foreign cycles the station goes to LISTENING; else in SYNCED at 4 silent ones it goes ALONE, with
LINK_ALONE (HOLD) detail 2 in HOMING, READY and HALTED. LISTEN_TIMEOUT: a station LISTENING for (2 + own number) cycle
periods times itself with cycle 0 and goes ALONE, with LINK_ALONE (HOLD) detail 1 in those phases (R51). -/
def Obligations.StationGoesAloneOrListening : Prop :=
  (∀ (dt : Time) (s : State) (silent foreign : Nat), s.running = true →
    silent = (if s.link.state = .synced then (if s.link.acceptedInCycle = true then 0 else s.link.silentCycles + 1)
      else s.link.silentCycles) →
    foreign = (if s.link.acceptedInCycle = true then 0
      else if s.link.foreignInCycle = true then s.link.foreignCycles + 1 else s.link.foreignCycles) →
    ((s.link.state = .off ∨ s.link.state = .listening
        ∨ ((s.now + dt : Nat) : Rat) < s.link.cycleStart + (s.cfg.cyclePeriod * 1000000 : Nat)) →
      exec (.cycleEndEval dt) s = .next (s.later dt))
    ∧ ((s.link.state = .synced ∨ s.link.state = .alone) →
      s.link.cycleStart + (s.cfg.cyclePeriod * 1000000 : Nat) ≤ ((s.now + dt : Nat) : Rat) →
      (foreign < s.cfg.peerLossLimit → (s.link.state = .alone ∨ silent < 4) →
        ∃ c, exec (.cycleEndEval dt) s = .next
            { s.later dt with
              link := { s.link with correction := c, silentCycles := silent, foreignCycles := foreign } }
          ∧ ((s.link.state = .alone ∨ s.link.offsets = []) → c = 0)
          ∧ (s.link.state = .synced → s.link.offsets ≠ [] →
              c = max (-2000) (min 2000 (s.link.offsets.sum / s.link.offsets.length))))
      ∧ (s.cfg.peerLossLimit ≤ foreign → ∃ t, exec (.cycleEndEval dt) s = .next t
        ∧ t.link.state = .listening ∧ t.link.timed = false ∧ t.link.listenSince = s.now + dt ∧ t.coord.agreement = 0
        ∧ t.link.cycle = s.link.cycle ∧ t.hold = s.hold ∧ t.peers = s.peers ∧ t.standby = s.standby ∧ t.mem = s.mem)
      ∧ (foreign < s.cfg.peerLossLimit → s.link.state = .synced → 4 ≤ silent →
        ∃ t, exec (.cycleEndEval dt) s = .next t
        ∧ t.link.state = .alone ∧ t.link.timed = s.link.timed ∧ t.link.cycle = s.link.cycle
        ∧ t.link.cycleStart = s.link.cycleStart
        ∧ ((s.coord.phase = .homing ∨ s.coord.phase = .ready ∨ s.coord.phase = .halted) →
            t.hasFault .linkAlone .hold none 2)
        ∧ ((s.coord.phase = .isolated ∨ s.coord.phase = .gathering ∨ s.coord.phase = .recovering) → t.hold = s.hold)
        ∧ t.coord = s.coord ∧ t.peers = s.peers ∧ t.standby = s.standby ∧ t.mem = s.mem)))
  ∧ (∀ (dt : Time) (s : State), s.running = true →
    ((s.link.state ≠ .listening
        ∨ s.now + dt < s.link.listenSince + (2 + s.own.val) * (s.cfg.cyclePeriod * 1000000)) →
      exec (.listenTimeout dt) s = .next (s.later dt))
    ∧ (s.link.state = .listening → s.link.listenSince + (2 + s.own.val) * (s.cfg.cyclePeriod * 1000000) ≤ s.now + dt →
      ∃ t, exec (.listenTimeout dt) s = .next t
      ∧ t.link.state = .alone ∧ t.link.timed = true ∧ t.link.cycle = some 0
      ∧ t.link.cycleStart = ((s.now + dt : Nat) : Rat)
      ∧ ((s.coord.phase = .homing ∨ s.coord.phase = .ready ∨ s.coord.phase = .halted) →
          t.hasFault .linkAlone .hold none 1)
      ∧ ((s.coord.phase = .isolated ∨ s.coord.phase = .gathering ∨ s.coord.phase = .recovering) → t.hold = s.hold)
      ∧ t.coord = s.coord ∧ t.peers = s.peers ∧ t.standby = s.standby ∧ t.mem = s.mem))

/-- SLOT_END_AGING at the end of another station's slot, and LISTEN_PERIOD_END at the end of a CYCLE_PERIOD spent
LISTENING (R67, R68, R69): an ACTIVE entry not heard ages by one and keeps its record; at PEER_LOSS_LIMIT it becomes
LOST, raising PEER_LOST (HOLD) with its number in HOMING, READY and HALTED unless its record shows the closing flag;
NEVER_HEARD and LOST entries do not age; no slot's end touches another entry. In LISTENING the own entry is refreshed
too. The silence count stays in a byte (the model's choice, log entry 50 for the order at LISTEN_PERIOD_END). -/
def Obligations.UnheardPeersAgeAndAreLost : Prop :=
  (∀ (dt : Time) (k : Station) (s : State) (e : PeerEntry), s.running = true → e = s.peers.get k →
    (s.link.state = .synced ∨ s.link.state = .alone) → k ≠ s.own →
    s.link.cycleStart + ((k.val + 1 : Nat) : Rat) * ((s.cfg.cyclePeriod * 1000000 : Nat) / 8)
      ≤ ((s.now + dt : Nat) : Rat) →
    (k ∈ s.link.heard → exec (.slotEndAging dt k) s = .next
      { s.later dt with link := { s.link with heard := s.link.heard.filter fun j => decide (j ≠ k) } })
    ∧ (k ∉ s.link.heard → e.loss ≠ .active → exec (.slotEndAging dt k) s = .next (s.later dt))
    ∧ (k ∉ s.link.heard → e.loss = .active → e.silence < 255 → e.silence + 1 < s.cfg.peerLossLimit →
      exec (.slotEndAging dt k) s = .next
        { s.later dt with peers := vput s.peers k { e with silence := e.silence + 1 } })
    ∧ (k ∉ s.link.heard → e.loss = .active → e.silence < 255 → s.cfg.peerLossLimit ≤ e.silence + 1 →
      ∃ t, exec (.slotEndAging dt k) s = .next t
        ∧ t.peers = vput s.peers k { e with loss := .lost, silence := e.silence + 1 }
        ∧ ((s.coord.phase = .homing ∨ s.coord.phase = .ready ∨ s.coord.phase = .halted) →
            (∀ r, e.record = some r → r.closing = false) → t.hasFault .peerLost .hold none (k.val : Int))
        ∧ t.coord = s.coord ∧ t.standby = s.standby ∧ t.sensing = s.sensing ∧ t.mem = s.mem
        ∧ t.plan.steps = s.plan.steps ∧ t.port.config = s.port.config ∧ t.link.state = s.link.state))
  ∧ (∀ (dt : Time) (k : Station) (s : State), s.running = true →
    (s.link.state = .off ∨ s.link.state = .listening ∨ k = s.own
      ∨ ((s.now + dt : Nat) : Rat)
          < s.link.cycleStart + ((k.val + 1 : Nat) : Rat) * ((s.cfg.cyclePeriod * 1000000 : Nat) / 8)) →
    exec (.slotEndAging dt k) s = .next (s.later dt))
  ∧ (∀ (dt : Time) (s : State), s.running = true →
    ((s.link.state ≠ .listening ∨ s.now + dt < s.link.listenSince + s.cfg.cyclePeriod * 1000000) →
      exec (.listenPeriodEnd dt) s = .next (s.later dt))
    ∧ (s.link.state = .listening → s.link.listenSince + s.cfg.cyclePeriod * 1000000 ≤ s.now + dt →
      ∃ t r, exec (.listenPeriodEnd dt) s = .next t
        ∧ t.peers.get s.own = ⟨.active, 0, some r⟩ ∧ r.station = s.own ∧ r.link = .listening
        ∧ (∀ j : Station, j ≠ s.own → (s.peers.get j).loss ≠ .active → t.peers.get j = s.peers.get j)
        ∧ (∀ j : Station, j ≠ s.own → (s.peers.get j).loss = .active → (s.peers.get j).silence < 255 →
          t.peers.get j = { s.peers.get j with
            loss := if s.cfg.peerLossLimit ≤ (s.peers.get j).silence + 1 then .lost else .active
            silence := (s.peers.get j).silence + 1 }
          ∧ (s.cfg.peerLossLimit ≤ (s.peers.get j).silence + 1 →
            (s.coord.phase = .homing ∨ s.coord.phase = .ready ∨ s.coord.phase = .halted) →
            (∀ y, (s.peers.get j).record = some y → y.closing = false) → t.hasFault .peerLost .hold none (j.val : Int)))
        ∧ t.standby = s.standby ∧ t.sensing = s.sensing ∧ t.mem = s.mem ∧ t.plan.steps = s.plan.steps
        ∧ t.port.config = s.port.config ∧ t.link.state = s.link.state))

/-! ### The retained store (chapter 05) -/

/-- BEAT_END: the eight bytes of the beat in progress read back as the hardware holds them and no other byte of the
store changes; then, read back as written, the next beat begins, or the write completes at its last beat or ends cut;
read back otherwise the write has failed and STORE_WRITE_FAILED (HOLD) is raised with the kind's number x 256 + the
beat's (R90). The end of a journal write, sealed, cut or failed, moves the write pointer one slot on, one further past
the tail, and one that seals makes its frame the tail (R94); a FINAL's end, sealed or failed, clears FINAL outstanding
(R99); a completed LOCK_RECORD sets and a LOCK_CLEAR clears the retained-lockout flag (R107, R108); a completed CAL_FLIP
empties the pending changes and adds CAL_CHANGED (R196). At the end of every write the pending request first in grant
order is granted, or one before it in that order which the end itself posted (R91); the posting first is the model's
choice (log entry 54), and a write cut in its last beat that reads back has completed (log entry 34). -/
def Obligations.BeatEndWritesChecksAndGrants : Prop :=
  ∀ (dt : Time) (rb : Vector Byte 8) (s : State), s.running = true →
    (s.store.port = none → exec (.beatEnd dt rb) s = .next (s.later dt))
    ∧ (∀ f, s.store.port = some f → s.memoryCanonical →
      ∃ t, exec (.beatEnd dt rb) s = .next t
        ∧ (∀ i : Fin 8, Memory.read t.mem (f.address + i.val) = rb.get i)
        ∧ (∀ a, (a < f.address ∨ f.address + 8 ≤ a) → Memory.read t.mem a = Memory.read s.mem a)
        ∧ t.sensing.accepted = s.sensing.accepted ∧ t.peers = s.peers ∧ t.power = s.power
        ∧ t.link.state = s.link.state ∧ t.link.cycle = s.link.cycle ∧ t.plan.steps = s.plan.steps
        ∧ t.port.config = s.port.config)
    ∧ (∀ f, s.store.port = some f → rb.toList = f.beatBytes → f.beat.val + 1 < f.request.kind.beats → f.isCut = false →
      ∃ m, exec (.beatEnd dt rb) s = .next
        { s.later dt with mem := m, store := { s.store with port := some { f with beat := f.beat + 1 } } })
    ∧ (∀ f, s.store.port = some f → rb.toList ≠ f.beatBytes →
      ∃ t, exec (.beatEnd dt rb) s = .next t
        ∧ t.hasFault .storeWriteFailed .hold none ((f.request.kind.num * 256 + (f.beat.val + 1) : Nat) : Int)
        ∧ (∀ j, (f.request = .final j ∨ f.request = .routine j ∨ ∃ q, f.request = .orderly j q) →
            t.store.tail = s.store.tail
            ∧ ((∀ u, s.store.tail = some u → u.slot ≠ s.store.pointer + 1) → t.store.pointer = s.store.pointer + 1)
            ∧ (∀ u, s.store.tail = some u → u.slot = s.store.pointer + 1 → t.store.pointer = s.store.pointer + 2)
            ∧ (f.request = .final j → t.store.finalOut = false)
            ∧ (f.request ≠ .final j → t.store.finalOut = s.store.finalOut)))
    ∧ (∀ f j, s.store.port = some f → rb.toList = f.beatBytes → f.beat.val + 1 = f.request.kind.beats →
      (f.request = .final j ∨ f.request = .routine j ∨ ∃ q, f.request = .orderly j q) →
      f.target = .ring s.store.pointer →
      ∃ t, exec (.beatEnd dt rb) s = .next t
        ∧ t.store.tail = some ⟨s.store.pointer, j⟩ ∧ t.store.pointer = s.store.pointer + 1
        ∧ (f.request = .final j → t.store.finalOut = false)
        ∧ (f.request ≠ .final j → t.store.finalOut = s.store.finalOut)
        ∧ t.standby = s.standby ∧ t.engine = s.engine ∧ t.coord = s.coord ∧ t.hold = s.hold ∧ t.peers = s.peers
        ∧ ((∀ k : WriteKind, s.store.isPending k = false) → t.store.port = none)
        ∧ (∀ (k : WriteKind) (r : WriteRequest), s.store.pending.get k.place = some r → r.kind = k →
            (∀ k' : WriteKind, k'.place < k.place → s.store.isPending k' = false) →
            t.store.port = some ⟨r, t.targetOf r, 0, false⟩ ∧ t.store.isPending k = false))
    ∧ (∀ f j, s.store.port = some f → rb.toList = f.beatBytes → f.beat.val + 1 < f.request.kind.beats →
      f.request = .routine j → f.isCut = true →
      ∃ t, exec (.beatEnd dt rb) s = .next t
        ∧ t.store.tail = s.store.tail
        ∧ ((∀ u, s.store.tail = some u → u.slot ≠ s.store.pointer + 1) → t.store.pointer = s.store.pointer + 1)
        ∧ (∀ u, s.store.tail = some u → u.slot = s.store.pointer + 1 → t.store.pointer = s.store.pointer + 2)
        ∧ t.standby = s.standby ∧ t.engine = s.engine ∧ t.coord = s.coord ∧ t.hold = s.hold ∧ t.peers = s.peers)
    ∧ (∀ f l, s.store.port = some f → rb.toList = f.beatBytes → f.beat = 0 →
      (f.request = .lockRecord l ∨ f.request = .lockClear l) →
      ∃ t, exec (.beatEnd dt rb) s = .next t
        ∧ (f.request = .lockRecord l → t.store.retainedLockout = true)
        ∧ (f.request = .lockClear l → t.store.retainedLockout = false)
        ∧ t.store.tail = s.store.tail ∧ t.store.pointer = s.store.pointer
        ∧ t.standby = s.standby ∧ t.engine = s.engine ∧ t.coord = s.coord ∧ t.hold = s.hold ∧ t.peers = s.peers
        ∧ ((∀ k : WriteKind, s.store.isPending k = false) → t.store.port = none)
        ∧ (∀ (k : WriteKind) (r : WriteRequest), s.store.pending.get k.place = some r → r.kind = k →
            (∀ k' : WriteKind, k'.place < k.place → s.store.isPending k' = false) →
            t.store.port = some ⟨r, s.targetOf r, 0, false⟩ ∧ t.store.isPending k = false))
    ∧ (∀ f, s.store.port = some f → rb.toList = f.beatBytes → f.beat = 0 → f.request = .calFlip →
      ∃ t, exec (.beatEnd dt rb) s = .next t
        ∧ t.cal.pendTrim = none ∧ t.cal.pendBacklash = none ∧ t.port.attention.calChanged = true)
    ∧ (∀ f (k : WriteKind) (r : WriteRequest), s.store.port = some f →
      (rb.toList ≠ f.beatBytes ∨ f.beat.val + 1 = f.request.kind.beats ∨ f.isCut = true) →
      s.store.pending.get k.place = some r → r.kind = k →
      (∀ k' : WriteKind, k'.place < k.place → s.store.isPending k' = false) →
      ∃ t g, exec (.beatEnd dt rb) s = .next t ∧ t.store.port = some g ∧ g.beat = 0 ∧ g.isCut = false
        ∧ g.request.kind.place ≤ k.place)

/-- SCAN_DONE: the tail is the sealed frame newer than every other, the write pointer the slot after it, the last
latched tag its tag and the last run claim its run; with no sealed frame there is no tail, the pointer is 0 and the
last run claim 0 (R105, R111). The committed record is that of the slot sealed COMMITTED, of the two that of the higher
generation and slot A at a tie, the other slot being spare, and the values in use become its (R106, R182). A sealed
present lockout record sets the retained-lockout flag and the level LOCKOUT with its cause and origin, and closes the
gate; else the flag is clear and the hold state is left (R106, R107, R161). The scan writes nothing. -/
def Obligations.ScanFindsTailCalibrationAndLockout : Prop :=
  ∀ (dt : Time) (s : State), s.running = true →
    (s.store.scanDone = true → exec (.scanDone dt) s = .next (s.later dt))
    ∧ (s.store.scanDone = false → ∃ t, exec (.scanDone dt) s = .next t
      ∧ t.store.scanDone = true ∧ t.mem = s.mem
      ∧ ((∀ i, JournalFrame.decode (s.ringSlot i) = none) →
          t.store.tail = none ∧ t.store.pointer = 0 ∧ t.store.lastTag = none ∧ t.coord.lastRunClaim = some 0
          ∧ t.coord.start.tailKind = none)
      ∧ (∀ i f, JournalFrame.decode (s.ringSlot i) = some f →
          (∀ j g, j ≠ i → JournalFrame.decode (s.ringSlot j) = some g → tagNewer f.tag g.tag = true) →
          t.store.tail = some ⟨i, f⟩ ∧ t.store.pointer = i + 1 ∧ t.store.lastTag = some f.tag
          ∧ t.coord.lastRunClaim = some f.tag.run ∧ t.coord.start.tailKind = some f.kind)
      ∧ (calRecordWith calCommittedByte (s.calSlot .a) = none → calRecordWith calCommittedByte (s.calSlot .b) = none →
          t.cal.committed = none ∧ t.cal.generation = 0 ∧ t.cal.trim = 0 ∧ t.cal.backlash = 0)
      ∧ (∀ x, calRecordWith calCommittedByte (s.calSlot .a) = some x →
          (∀ y, calRecordWith calCommittedByte (s.calSlot .b) = some y → y.generation.toNat ≤ x.generation.toNat) →
          t.cal.committed = some (.a, x) ∧ t.cal.spare = .b ∧ t.cal.trim = x.trim.toInt
          ∧ t.cal.backlash = (x.backlash.toNat : Int))
      ∧ (∀ y, calRecordWith calCommittedByte (s.calSlot .b) = some y →
          (∀ x, calRecordWith calCommittedByte (s.calSlot .a) = some x → x.generation.toNat < y.generation.toNat) →
          t.cal.committed = some (.b, y) ∧ t.cal.spare = .a ∧ t.cal.trim = y.trim.toInt
          ∧ t.cal.backlash = (y.backlash.toNat : Int))
      ∧ ((lockSealed s.lockBeat = false ∨ (LockRecord.decode s.lockBeat).present = false) →
          t.store.retainedLockout = false ∧ t.hold = s.hold ∧ t.gate = s.gate)
      ∧ (lockSealed s.lockBeat = true → (LockRecord.decode s.lockBeat).present = true →
          t.store.retainedLockout = true ∧ t.hold.level = .lockout ∧ t.hold.cause = (LockRecord.decode s.lockBeat).cause
          ∧ t.hold.origin = (LockRecord.decode s.lockBeat).origin ∧ t.gate = .closed ∧ t.engine.order = .stop .hold
          ∧ t.hold.seq = s.hold.seq)
      ∧ t.standby = s.standby ∧ t.sensing = s.sensing ∧ t.peers = s.peers ∧ t.link.state = s.link.state
      ∧ t.plan.steps = s.plan.steps ∧ t.port.config = s.port.config)

/-! ### The layouts another party sees -/

/-- ENCODING: what the node writes reads back as what it wrote, with every field at every value. A record packed for a
slot (no station that sends is OFF) comes back from its 40-byte frame (R47, R64, R65); a journal frame from its 32
bytes, sealed (R92); a calibration record whose generation is not 0, and every lockout record, from their stored bytes,
sealed (R107, R181). A response record is the start byte 5Ah, the status as its code, the number of data bytes and these
(R200, R202); SDO carries it after two idle bytes of FFh, and FFh after it and without it (R200). -/
def Obligations.WrittenLayoutsReadBack : Prop :=
  (∀ r : StatusRecord, r.link ≠ .off →
    r.pack.length = 36 ∧ r.frame.length = 40 ∧ r.frame.take 2 = [0x96, 0x4B] ∧ parseFrame r.frame = some r)
  ∧ (∀ f : JournalFrame, f.encode.length = 32 ∧ frameSealed f.encode = true ∧ JournalFrame.decode f.encode = some f)
  ∧ (∀ c : CalRecord, c.generation ≠ 0 → c.encode.length = 32 ∧ calSealed c.encode = true
      ∧ byteAt c.encode 0 = 0x5A ∧ CalRecord.decode c.encode = c)
  ∧ (∀ l : LockRecord, l.encode.length = 8 ∧ lockSealed l.encode = true ∧ LockRecord.decode l.encode = l)
  ∧ (∀ r : Response, r.data.length < 65536 → r.record.length = 4 + r.data.length ∧ byteAt r.record 0 = 0x5A
      ∧ byteAt r.record 1 = r.status.code ∧ rd r.record 2 2 = r.data.length ∧ r.record.drop 4 = r.data)
  ∧ ([PortStatus.ok, .busy, .refusedPhase, .refusedHold, .tooLate, .idle, .invalid, .full, .notSettled, .notKey].map
      PortStatus.code = [0, 1, 2, 3, 4, 5, 6, 7, 8, 9])
  ∧ (∀ (p : Port) (k : Nat),
      (p.response = none → p.sends k = 0xFF)
      ∧ (∀ r, p.response = some r → (k < 2 → p.sends k = 0xFF) ∧ (2 ≤ k → k < 6 + r.data.length →
          some (p.sends k) = r.record[k - 2]?) ∧ (6 + r.data.length ≤ k → p.sends k = 0xFF)))

/-! ### The classification of a recovery claim (chapter 06) -/

/-- A station classifies its own claim (R118, R121, R122): the agreed stop is computed, and the first test that settles
the class gives it with its reason. The stop run and the latest final are the newest by serial comparison among the
claims that take part, none when none does (R119). -/
def Obligations.OwnClaimIsClassified : Prop :=
  ∀ (s : State) (c : Claim), s.coord.ownClaim = some c →
    ∃ (t : State) (k : Confidence) (r : ClassReason) (stop : AgreedStop), t = reclassify s
    ∧ t.coord.stop = some stop ∧ stop = s.agreedStop ∧ t.coord.confidence = k ∧ t.coord.reason = some r
    ∧ (c.kind = .live → k = .live ∧ r = .restarted)
    ∧ (c.kind = .journal → c.continuity = true → c.tailKind ≠ none → s.tailReferenced → k = .kept ∧ r = .continuity)
    ∧ (c.kind = .journal → ¬(c.continuity = true ∧ c.tailKind ≠ none ∧ s.tailReferenced) →
      (c.tailKind = none → k = .doubtful ∧ r = .noTail)
      ∧ (c.tailKind ≠ none → ¬s.tailReferenced → k = .doubtful ∧ r = .tailNotReferenced)
      ∧ (c.tailKind = some .routine → s.tailReferenced → k = .doubtful ∧ r = .routineTail)
      ∧ ((c.tailKind = some .final ∨ c.tailKind = some .orderly) → s.tailReferenced →
        (stop.run ≠ some c.tailRun → k = .doubtful ∧ r = .oldRun)
        ∧ (stop.run = some c.tailRun →
          (∀ l, stop.latestFinal = some l → s.cfg.pfailSpread < (l - c.tailCycle).toNat → k = .doubtful ∧ r = .spread)
          ∧ ((∀ l, stop.latestFinal = some l → (l - c.tailCycle).toNat ≤ s.cfg.pfailSpread) →
            (c.sectorAgree = false → k = .doubtful ∧ r = .sector)
            ∧ (c.sectorAgree = true → k = .journalled
              ∧ (c.tailKind = some .final → r = .finalTail) ∧ (c.tailKind = some .orderly → r = .orderlyTail))))))
    ∧ ((∀ d ∈ s.heldClaims, d.kind = .journal → d.tailKind = none) → stop.run = none)
    ∧ (∀ d ∈ s.heldClaims, d.kind = .journal → d.tailKind ≠ none →
      (∀ e ∈ s.heldClaims, e.kind = .journal → e.tailKind ≠ none → e.tailRun = d.tailRun ∨ serialNewer d.tailRun e.tailRun = true) →
      stop.run = some d.tailRun)
    ∧ (∀ d ∈ s.heldClaims, d.closesIn stop.run →
      (∀ e ∈ s.heldClaims, e.closesIn stop.run → e.tailCycle = d.tailCycle ∨ serialNewer d.tailCycle e.tailCycle = true) →
      stop.latestFinal = some d.tailCycle)

/-! ### What holds in every state -/

/-- RESET: the node right after its first cold start holds the values the spec gives a cold start and a main-domain
start (R17, R18, R20, R48, R66, R71, R104, R128, R158, R165, R180, R203, R211), nothing waits in the queue, every byte
of the store reads 00h (R89), and the invariants below hold of it. That reset is this moment, with straps 0, is the
model's choice (log entry 4). -/
def Obligations.ResetStateIsTheDeliveredStart : Prop :=
  State.reset.pending = [] ∧ State.reset.running = true
  ∧ State.reset.standby = ⟨0, false, .supplyLost, 0, 0, true⟩ ∧ State.reset.decoder.standbyFeeds = true
  ∧ State.reset.sensing.accepted = none ∧ State.reset.sensing.lastChange = none ∧ State.reset.sensing.captures = []
  ∧ State.reset.sensing.pendingEdge = none ∧ State.reset.sensing.settling = true ∧ State.reset.sensing.moving = false
  ∧ State.reset.engine.refState = .unreferenced ∧ State.reset.engine.parked = false
  ∧ State.reset.engine.operation = .none ∧ State.reset.engine.order = .none ∧ State.reset.engine.lastDeviation = none
  ∧ State.reset.link.state = .off ∧ State.reset.link.timed = false ∧ State.reset.link.cycle = none
  ∧ State.reset.link.muted = false ∧ State.reset.link.mismatches = 0
  ∧ (∀ j : Station, State.reset.peers.get j = ⟨.neverHeard, 0, none⟩)
  ∧ State.reset.coord.phase = .isolated ∧ State.reset.coord.run = none ∧ State.reset.coord.journalActive = false
  ∧ State.reset.coord.confidence = .none ∧ State.reset.coord.start = ⟨.power, false, none⟩
  ∧ State.reset.plan.steps = [] ∧ State.reset.plan.isSealed = false ∧ State.reset.plan.digest = none
  ∧ State.reset.plan.table = []
  ∧ State.reset.hold.level = .none ∧ State.reset.hold.seq = 0 ∧ State.reset.hold.newest = 0 ∧ State.reset.hold.cause = 0
  ∧ State.reset.hold.complete = false ∧ State.reset.hold.deadline = none ∧ State.reset.hold.faults = []
  ∧ State.reset.gate = .closed ∧ State.reset.moveOk = false ∧ State.reset.brakeOk = false
  ∧ State.reset.cal.committed = none ∧ State.reset.cal.trim = 0 ∧ State.reset.cal.backlash = 0
  ∧ State.reset.cal.staged = none ∧ State.reset.cal.proposal = none ∧ State.reset.cal.result = none
  ∧ State.reset.store.port = none ∧ (∀ k : WriteKind, State.reset.store.isPending k = false)
  ∧ State.reset.store.finalOut = false ∧ State.reset.store.dip = none ∧ State.reset.store.closing = none
  ∧ State.reset.store.scanDone = false ∧ (∀ a, Memory.read State.reset.mem a = 0)
  ∧ State.reset.port.config = none ∧ State.reset.port.response = none ∧ State.reset.attn = false
  ∧ State.reset.gateSafe ∧ State.reset.linkTimely ∧ State.reset.listsBounded ∧ State.reset.memoryCanonical

/-- INVARIANT of every step: the motion gate and the hold agree. At DROP and LOCKOUT the gate is CLOSED; an entry is
complete only at STOP or DROP and with the gate CLOSED; the gate is OPEN only at level NONE in HOMING or READY (R165,
R168, R170). -/
def Obligations.EveryStepKeepsTheGateSafe : Prop :=
  ∀ s t : State, s.gateSafe → step s = .next t → t.gateSafe

/-- INVARIANT of every step, clause by clause: the timed flag is true exactly in SYNCED and ALONE (R48); the fault list
holds at most 8 records, the capture list at most 4 and the plan at most 32 steps, each at its index (R10, R128, R130,
R157); the retained store keeps its canonical form. -/
def Obligations.EveryStepKeepsTheBlocksWellFormed : Prop :=
  ∀ s t : State, step s = .next t →
    (s.linkTimely → t.linkTimely) ∧ (s.listsBounded → t.listsBounded) ∧ (s.memoryCanonical → t.memoryCanonical)

/-- NONINTERFERENCE of every step with the retained store: with no beat in progress no byte changes; with one only its
eight bytes may (R89, R90); the unused area from 0C60h on is never written (R89). -/
def Obligations.EveryStepWritesOnlyTheBeatInProgress : Prop :=
  ∀ s t : State, step s = .next t →
    (s.store.port = none → t.mem = s.mem)
    ∧ (∀ f, s.store.port = some f → s.memoryCanonical → ∀ a, (a < f.address ∨ f.address + 8 ≤ a) →
      Memory.read t.mem a = Memory.read s.mem a)
    ∧ (s.memoryCanonical → ∀ a, 0xC60 ≤ a → Memory.read t.mem a = Memory.read s.mem a)
end

