-- ==== Sys2Proof/Laws/State.lean ====
section
/-! SUPPORT. What each block update leaves and changes: one lemma a field and update. -/

namespace Sys2Proof.Machine

@[simp] theorem State.setPending_pending (s : State) (x : List Instr) : (s.setPending x).pending = x := rfl
@[simp] theorem State.setPending_now (s : State) (x : List Instr) : (s.setPending x).now = s.now := rfl
@[simp] theorem State.setPending_freeCount (s : State) (x : List Instr) : (s.setPending x).freeCount = s.freeCount := rfl
@[simp] theorem State.setPending_power (s : State) (x : List Instr) : (s.setPending x).power = s.power := rfl
@[simp] theorem State.setPending_standby (s : State) (x : List Instr) : (s.setPending x).standby = s.standby := rfl
@[simp] theorem State.setPending_decoder (s : State) (x : List Instr) : (s.setPending x).decoder = s.decoder := rfl
@[simp] theorem State.setPending_sensing (s : State) (x : List Instr) : (s.setPending x).sensing = s.sensing := rfl
@[simp] theorem State.setPending_engine (s : State) (x : List Instr) : (s.setPending x).engine = s.engine := rfl
@[simp] theorem State.setPending_link (s : State) (x : List Instr) : (s.setPending x).link = s.link := rfl
@[simp] theorem State.setPending_peers (s : State) (x : List Instr) : (s.setPending x).peers = s.peers := rfl
@[simp] theorem State.setPending_coord (s : State) (x : List Instr) : (s.setPending x).coord = s.coord := rfl
@[simp] theorem State.setPending_plan (s : State) (x : List Instr) : (s.setPending x).plan = s.plan := rfl
@[simp] theorem State.setPending_hold (s : State) (x : List Instr) : (s.setPending x).hold = s.hold := rfl
@[simp] theorem State.setPending_gate (s : State) (x : List Instr) : (s.setPending x).gate = s.gate := rfl
@[simp] theorem State.setPending_cal (s : State) (x : List Instr) : (s.setPending x).cal = s.cal := rfl
@[simp] theorem State.setPending_store (s : State) (x : List Instr) : (s.setPending x).store = s.store := rfl
@[simp] theorem State.setPending_mem (s : State) (x : List Instr) : (s.setPending x).mem = s.mem := rfl
@[simp] theorem State.setPending_port (s : State) (x : List Instr) : (s.setPending x).port = s.port := rfl

@[simp] theorem State.setNow_pending (s : State) (x : Time) : (s.setNow x).pending = s.pending := rfl
@[simp] theorem State.setNow_now (s : State) (x : Time) : (s.setNow x).now = x := rfl
@[simp] theorem State.setNow_freeCount (s : State) (x : Time) : (s.setNow x).freeCount = s.freeCount := rfl
@[simp] theorem State.setNow_power (s : State) (x : Time) : (s.setNow x).power = s.power := rfl
@[simp] theorem State.setNow_standby (s : State) (x : Time) : (s.setNow x).standby = s.standby := rfl
@[simp] theorem State.setNow_decoder (s : State) (x : Time) : (s.setNow x).decoder = s.decoder := rfl
@[simp] theorem State.setNow_sensing (s : State) (x : Time) : (s.setNow x).sensing = s.sensing := rfl
@[simp] theorem State.setNow_engine (s : State) (x : Time) : (s.setNow x).engine = s.engine := rfl
@[simp] theorem State.setNow_link (s : State) (x : Time) : (s.setNow x).link = s.link := rfl
@[simp] theorem State.setNow_peers (s : State) (x : Time) : (s.setNow x).peers = s.peers := rfl
@[simp] theorem State.setNow_coord (s : State) (x : Time) : (s.setNow x).coord = s.coord := rfl
@[simp] theorem State.setNow_plan (s : State) (x : Time) : (s.setNow x).plan = s.plan := rfl
@[simp] theorem State.setNow_hold (s : State) (x : Time) : (s.setNow x).hold = s.hold := rfl
@[simp] theorem State.setNow_gate (s : State) (x : Time) : (s.setNow x).gate = s.gate := rfl
@[simp] theorem State.setNow_cal (s : State) (x : Time) : (s.setNow x).cal = s.cal := rfl
@[simp] theorem State.setNow_store (s : State) (x : Time) : (s.setNow x).store = s.store := rfl
@[simp] theorem State.setNow_mem (s : State) (x : Time) : (s.setNow x).mem = s.mem := rfl
@[simp] theorem State.setNow_port (s : State) (x : Time) : (s.setNow x).port = s.port := rfl

@[simp] theorem State.setFreeCount_pending (s : State) (x : Nat) : (s.setFreeCount x).pending = s.pending := rfl
@[simp] theorem State.setFreeCount_now (s : State) (x : Nat) : (s.setFreeCount x).now = s.now := rfl
@[simp] theorem State.setFreeCount_freeCount (s : State) (x : Nat) : (s.setFreeCount x).freeCount = x := rfl
@[simp] theorem State.setFreeCount_power (s : State) (x : Nat) : (s.setFreeCount x).power = s.power := rfl
@[simp] theorem State.setFreeCount_standby (s : State) (x : Nat) : (s.setFreeCount x).standby = s.standby := rfl
@[simp] theorem State.setFreeCount_decoder (s : State) (x : Nat) : (s.setFreeCount x).decoder = s.decoder := rfl
@[simp] theorem State.setFreeCount_sensing (s : State) (x : Nat) : (s.setFreeCount x).sensing = s.sensing := rfl
@[simp] theorem State.setFreeCount_engine (s : State) (x : Nat) : (s.setFreeCount x).engine = s.engine := rfl
@[simp] theorem State.setFreeCount_link (s : State) (x : Nat) : (s.setFreeCount x).link = s.link := rfl
@[simp] theorem State.setFreeCount_peers (s : State) (x : Nat) : (s.setFreeCount x).peers = s.peers := rfl
@[simp] theorem State.setFreeCount_coord (s : State) (x : Nat) : (s.setFreeCount x).coord = s.coord := rfl
@[simp] theorem State.setFreeCount_plan (s : State) (x : Nat) : (s.setFreeCount x).plan = s.plan := rfl
@[simp] theorem State.setFreeCount_hold (s : State) (x : Nat) : (s.setFreeCount x).hold = s.hold := rfl
@[simp] theorem State.setFreeCount_gate (s : State) (x : Nat) : (s.setFreeCount x).gate = s.gate := rfl
@[simp] theorem State.setFreeCount_cal (s : State) (x : Nat) : (s.setFreeCount x).cal = s.cal := rfl
@[simp] theorem State.setFreeCount_store (s : State) (x : Nat) : (s.setFreeCount x).store = s.store := rfl
@[simp] theorem State.setFreeCount_mem (s : State) (x : Nat) : (s.setFreeCount x).mem = s.mem := rfl
@[simp] theorem State.setFreeCount_port (s : State) (x : Nat) : (s.setFreeCount x).port = s.port := rfl

@[simp] theorem State.setPower_pending (s : State) (x : Power) : (s.setPower x).pending = s.pending := rfl
@[simp] theorem State.setPower_now (s : State) (x : Power) : (s.setPower x).now = s.now := rfl
@[simp] theorem State.setPower_freeCount (s : State) (x : Power) : (s.setPower x).freeCount = s.freeCount := rfl
@[simp] theorem State.setPower_power (s : State) (x : Power) : (s.setPower x).power = x := rfl
@[simp] theorem State.setPower_standby (s : State) (x : Power) : (s.setPower x).standby = s.standby := rfl
@[simp] theorem State.setPower_decoder (s : State) (x : Power) : (s.setPower x).decoder = s.decoder := rfl
@[simp] theorem State.setPower_sensing (s : State) (x : Power) : (s.setPower x).sensing = s.sensing := rfl
@[simp] theorem State.setPower_engine (s : State) (x : Power) : (s.setPower x).engine = s.engine := rfl
@[simp] theorem State.setPower_link (s : State) (x : Power) : (s.setPower x).link = s.link := rfl
@[simp] theorem State.setPower_peers (s : State) (x : Power) : (s.setPower x).peers = s.peers := rfl
@[simp] theorem State.setPower_coord (s : State) (x : Power) : (s.setPower x).coord = s.coord := rfl
@[simp] theorem State.setPower_plan (s : State) (x : Power) : (s.setPower x).plan = s.plan := rfl
@[simp] theorem State.setPower_hold (s : State) (x : Power) : (s.setPower x).hold = s.hold := rfl
@[simp] theorem State.setPower_gate (s : State) (x : Power) : (s.setPower x).gate = s.gate := rfl
@[simp] theorem State.setPower_cal (s : State) (x : Power) : (s.setPower x).cal = s.cal := rfl
@[simp] theorem State.setPower_store (s : State) (x : Power) : (s.setPower x).store = s.store := rfl
@[simp] theorem State.setPower_mem (s : State) (x : Power) : (s.setPower x).mem = s.mem := rfl
@[simp] theorem State.setPower_port (s : State) (x : Power) : (s.setPower x).port = s.port := rfl

@[simp] theorem State.setStandby_pending (s : State) (x : Standby) : (s.setStandby x).pending = s.pending := rfl
@[simp] theorem State.setStandby_now (s : State) (x : Standby) : (s.setStandby x).now = s.now := rfl
@[simp] theorem State.setStandby_freeCount (s : State) (x : Standby) : (s.setStandby x).freeCount = s.freeCount := rfl
@[simp] theorem State.setStandby_power (s : State) (x : Standby) : (s.setStandby x).power = s.power := rfl
@[simp] theorem State.setStandby_standby (s : State) (x : Standby) : (s.setStandby x).standby = x := rfl
@[simp] theorem State.setStandby_decoder (s : State) (x : Standby) : (s.setStandby x).decoder = s.decoder := rfl
@[simp] theorem State.setStandby_sensing (s : State) (x : Standby) : (s.setStandby x).sensing = s.sensing := rfl
@[simp] theorem State.setStandby_engine (s : State) (x : Standby) : (s.setStandby x).engine = s.engine := rfl
@[simp] theorem State.setStandby_link (s : State) (x : Standby) : (s.setStandby x).link = s.link := rfl
@[simp] theorem State.setStandby_peers (s : State) (x : Standby) : (s.setStandby x).peers = s.peers := rfl
@[simp] theorem State.setStandby_coord (s : State) (x : Standby) : (s.setStandby x).coord = s.coord := rfl
@[simp] theorem State.setStandby_plan (s : State) (x : Standby) : (s.setStandby x).plan = s.plan := rfl
@[simp] theorem State.setStandby_hold (s : State) (x : Standby) : (s.setStandby x).hold = s.hold := rfl
@[simp] theorem State.setStandby_gate (s : State) (x : Standby) : (s.setStandby x).gate = s.gate := rfl
@[simp] theorem State.setStandby_cal (s : State) (x : Standby) : (s.setStandby x).cal = s.cal := rfl
@[simp] theorem State.setStandby_store (s : State) (x : Standby) : (s.setStandby x).store = s.store := rfl
@[simp] theorem State.setStandby_mem (s : State) (x : Standby) : (s.setStandby x).mem = s.mem := rfl
@[simp] theorem State.setStandby_port (s : State) (x : Standby) : (s.setStandby x).port = s.port := rfl

@[simp] theorem State.setDecoder_pending (s : State) (x : Decoder) : (s.setDecoder x).pending = s.pending := rfl
@[simp] theorem State.setDecoder_now (s : State) (x : Decoder) : (s.setDecoder x).now = s.now := rfl
@[simp] theorem State.setDecoder_freeCount (s : State) (x : Decoder) : (s.setDecoder x).freeCount = s.freeCount := rfl
@[simp] theorem State.setDecoder_power (s : State) (x : Decoder) : (s.setDecoder x).power = s.power := rfl
@[simp] theorem State.setDecoder_standby (s : State) (x : Decoder) : (s.setDecoder x).standby = s.standby := rfl
@[simp] theorem State.setDecoder_decoder (s : State) (x : Decoder) : (s.setDecoder x).decoder = x := rfl
@[simp] theorem State.setDecoder_sensing (s : State) (x : Decoder) : (s.setDecoder x).sensing = s.sensing := rfl
@[simp] theorem State.setDecoder_engine (s : State) (x : Decoder) : (s.setDecoder x).engine = s.engine := rfl
@[simp] theorem State.setDecoder_link (s : State) (x : Decoder) : (s.setDecoder x).link = s.link := rfl
@[simp] theorem State.setDecoder_peers (s : State) (x : Decoder) : (s.setDecoder x).peers = s.peers := rfl
@[simp] theorem State.setDecoder_coord (s : State) (x : Decoder) : (s.setDecoder x).coord = s.coord := rfl
@[simp] theorem State.setDecoder_plan (s : State) (x : Decoder) : (s.setDecoder x).plan = s.plan := rfl
@[simp] theorem State.setDecoder_hold (s : State) (x : Decoder) : (s.setDecoder x).hold = s.hold := rfl
@[simp] theorem State.setDecoder_gate (s : State) (x : Decoder) : (s.setDecoder x).gate = s.gate := rfl
@[simp] theorem State.setDecoder_cal (s : State) (x : Decoder) : (s.setDecoder x).cal = s.cal := rfl
@[simp] theorem State.setDecoder_store (s : State) (x : Decoder) : (s.setDecoder x).store = s.store := rfl
@[simp] theorem State.setDecoder_mem (s : State) (x : Decoder) : (s.setDecoder x).mem = s.mem := rfl
@[simp] theorem State.setDecoder_port (s : State) (x : Decoder) : (s.setDecoder x).port = s.port := rfl

@[simp] theorem State.setSensing_pending (s : State) (x : Sensing) : (s.setSensing x).pending = s.pending := rfl
@[simp] theorem State.setSensing_now (s : State) (x : Sensing) : (s.setSensing x).now = s.now := rfl
@[simp] theorem State.setSensing_freeCount (s : State) (x : Sensing) : (s.setSensing x).freeCount = s.freeCount := rfl
@[simp] theorem State.setSensing_power (s : State) (x : Sensing) : (s.setSensing x).power = s.power := rfl
@[simp] theorem State.setSensing_standby (s : State) (x : Sensing) : (s.setSensing x).standby = s.standby := rfl
@[simp] theorem State.setSensing_decoder (s : State) (x : Sensing) : (s.setSensing x).decoder = s.decoder := rfl
@[simp] theorem State.setSensing_sensing (s : State) (x : Sensing) : (s.setSensing x).sensing = x := rfl
@[simp] theorem State.setSensing_engine (s : State) (x : Sensing) : (s.setSensing x).engine = s.engine := rfl
@[simp] theorem State.setSensing_link (s : State) (x : Sensing) : (s.setSensing x).link = s.link := rfl
@[simp] theorem State.setSensing_peers (s : State) (x : Sensing) : (s.setSensing x).peers = s.peers := rfl
@[simp] theorem State.setSensing_coord (s : State) (x : Sensing) : (s.setSensing x).coord = s.coord := rfl
@[simp] theorem State.setSensing_plan (s : State) (x : Sensing) : (s.setSensing x).plan = s.plan := rfl
@[simp] theorem State.setSensing_hold (s : State) (x : Sensing) : (s.setSensing x).hold = s.hold := rfl
@[simp] theorem State.setSensing_gate (s : State) (x : Sensing) : (s.setSensing x).gate = s.gate := rfl
@[simp] theorem State.setSensing_cal (s : State) (x : Sensing) : (s.setSensing x).cal = s.cal := rfl
@[simp] theorem State.setSensing_store (s : State) (x : Sensing) : (s.setSensing x).store = s.store := rfl
@[simp] theorem State.setSensing_mem (s : State) (x : Sensing) : (s.setSensing x).mem = s.mem := rfl
@[simp] theorem State.setSensing_port (s : State) (x : Sensing) : (s.setSensing x).port = s.port := rfl

@[simp] theorem State.setEngine_pending (s : State) (x : Engine) : (s.setEngine x).pending = s.pending := rfl
@[simp] theorem State.setEngine_now (s : State) (x : Engine) : (s.setEngine x).now = s.now := rfl
@[simp] theorem State.setEngine_freeCount (s : State) (x : Engine) : (s.setEngine x).freeCount = s.freeCount := rfl
@[simp] theorem State.setEngine_power (s : State) (x : Engine) : (s.setEngine x).power = s.power := rfl
@[simp] theorem State.setEngine_standby (s : State) (x : Engine) : (s.setEngine x).standby = s.standby := rfl
@[simp] theorem State.setEngine_decoder (s : State) (x : Engine) : (s.setEngine x).decoder = s.decoder := rfl
@[simp] theorem State.setEngine_sensing (s : State) (x : Engine) : (s.setEngine x).sensing = s.sensing := rfl
@[simp] theorem State.setEngine_engine (s : State) (x : Engine) : (s.setEngine x).engine = x := rfl
@[simp] theorem State.setEngine_link (s : State) (x : Engine) : (s.setEngine x).link = s.link := rfl
@[simp] theorem State.setEngine_peers (s : State) (x : Engine) : (s.setEngine x).peers = s.peers := rfl
@[simp] theorem State.setEngine_coord (s : State) (x : Engine) : (s.setEngine x).coord = s.coord := rfl
@[simp] theorem State.setEngine_plan (s : State) (x : Engine) : (s.setEngine x).plan = s.plan := rfl
@[simp] theorem State.setEngine_hold (s : State) (x : Engine) : (s.setEngine x).hold = s.hold := rfl
@[simp] theorem State.setEngine_gate (s : State) (x : Engine) : (s.setEngine x).gate = s.gate := rfl
@[simp] theorem State.setEngine_cal (s : State) (x : Engine) : (s.setEngine x).cal = s.cal := rfl
@[simp] theorem State.setEngine_store (s : State) (x : Engine) : (s.setEngine x).store = s.store := rfl
@[simp] theorem State.setEngine_mem (s : State) (x : Engine) : (s.setEngine x).mem = s.mem := rfl
@[simp] theorem State.setEngine_port (s : State) (x : Engine) : (s.setEngine x).port = s.port := rfl

@[simp] theorem State.setLink_pending (s : State) (x : Link) : (s.setLink x).pending = s.pending := rfl
@[simp] theorem State.setLink_now (s : State) (x : Link) : (s.setLink x).now = s.now := rfl
@[simp] theorem State.setLink_freeCount (s : State) (x : Link) : (s.setLink x).freeCount = s.freeCount := rfl
@[simp] theorem State.setLink_power (s : State) (x : Link) : (s.setLink x).power = s.power := rfl
@[simp] theorem State.setLink_standby (s : State) (x : Link) : (s.setLink x).standby = s.standby := rfl
@[simp] theorem State.setLink_decoder (s : State) (x : Link) : (s.setLink x).decoder = s.decoder := rfl
@[simp] theorem State.setLink_sensing (s : State) (x : Link) : (s.setLink x).sensing = s.sensing := rfl
@[simp] theorem State.setLink_engine (s : State) (x : Link) : (s.setLink x).engine = s.engine := rfl
@[simp] theorem State.setLink_link (s : State) (x : Link) : (s.setLink x).link = x := rfl
@[simp] theorem State.setLink_peers (s : State) (x : Link) : (s.setLink x).peers = s.peers := rfl
@[simp] theorem State.setLink_coord (s : State) (x : Link) : (s.setLink x).coord = s.coord := rfl
@[simp] theorem State.setLink_plan (s : State) (x : Link) : (s.setLink x).plan = s.plan := rfl
@[simp] theorem State.setLink_hold (s : State) (x : Link) : (s.setLink x).hold = s.hold := rfl
@[simp] theorem State.setLink_gate (s : State) (x : Link) : (s.setLink x).gate = s.gate := rfl
@[simp] theorem State.setLink_cal (s : State) (x : Link) : (s.setLink x).cal = s.cal := rfl
@[simp] theorem State.setLink_store (s : State) (x : Link) : (s.setLink x).store = s.store := rfl
@[simp] theorem State.setLink_mem (s : State) (x : Link) : (s.setLink x).mem = s.mem := rfl
@[simp] theorem State.setLink_port (s : State) (x : Link) : (s.setLink x).port = s.port := rfl

@[simp] theorem State.setPeers_pending (s : State) (x : Vector PeerEntry 8) : (s.setPeers x).pending = s.pending := rfl
@[simp] theorem State.setPeers_now (s : State) (x : Vector PeerEntry 8) : (s.setPeers x).now = s.now := rfl
@[simp] theorem State.setPeers_freeCount (s : State) (x : Vector PeerEntry 8) : (s.setPeers x).freeCount = s.freeCount := rfl
@[simp] theorem State.setPeers_power (s : State) (x : Vector PeerEntry 8) : (s.setPeers x).power = s.power := rfl
@[simp] theorem State.setPeers_standby (s : State) (x : Vector PeerEntry 8) : (s.setPeers x).standby = s.standby := rfl
@[simp] theorem State.setPeers_decoder (s : State) (x : Vector PeerEntry 8) : (s.setPeers x).decoder = s.decoder := rfl
@[simp] theorem State.setPeers_sensing (s : State) (x : Vector PeerEntry 8) : (s.setPeers x).sensing = s.sensing := rfl
@[simp] theorem State.setPeers_engine (s : State) (x : Vector PeerEntry 8) : (s.setPeers x).engine = s.engine := rfl
@[simp] theorem State.setPeers_link (s : State) (x : Vector PeerEntry 8) : (s.setPeers x).link = s.link := rfl
@[simp] theorem State.setPeers_peers (s : State) (x : Vector PeerEntry 8) : (s.setPeers x).peers = x := rfl
@[simp] theorem State.setPeers_coord (s : State) (x : Vector PeerEntry 8) : (s.setPeers x).coord = s.coord := rfl
@[simp] theorem State.setPeers_plan (s : State) (x : Vector PeerEntry 8) : (s.setPeers x).plan = s.plan := rfl
@[simp] theorem State.setPeers_hold (s : State) (x : Vector PeerEntry 8) : (s.setPeers x).hold = s.hold := rfl
@[simp] theorem State.setPeers_gate (s : State) (x : Vector PeerEntry 8) : (s.setPeers x).gate = s.gate := rfl
@[simp] theorem State.setPeers_cal (s : State) (x : Vector PeerEntry 8) : (s.setPeers x).cal = s.cal := rfl
@[simp] theorem State.setPeers_store (s : State) (x : Vector PeerEntry 8) : (s.setPeers x).store = s.store := rfl
@[simp] theorem State.setPeers_mem (s : State) (x : Vector PeerEntry 8) : (s.setPeers x).mem = s.mem := rfl
@[simp] theorem State.setPeers_port (s : State) (x : Vector PeerEntry 8) : (s.setPeers x).port = s.port := rfl

@[simp] theorem State.setCoord_pending (s : State) (x : Coord) : (s.setCoord x).pending = s.pending := rfl
@[simp] theorem State.setCoord_now (s : State) (x : Coord) : (s.setCoord x).now = s.now := rfl
@[simp] theorem State.setCoord_freeCount (s : State) (x : Coord) : (s.setCoord x).freeCount = s.freeCount := rfl
@[simp] theorem State.setCoord_power (s : State) (x : Coord) : (s.setCoord x).power = s.power := rfl
@[simp] theorem State.setCoord_standby (s : State) (x : Coord) : (s.setCoord x).standby = s.standby := rfl
@[simp] theorem State.setCoord_decoder (s : State) (x : Coord) : (s.setCoord x).decoder = s.decoder := rfl
@[simp] theorem State.setCoord_sensing (s : State) (x : Coord) : (s.setCoord x).sensing = s.sensing := rfl
@[simp] theorem State.setCoord_engine (s : State) (x : Coord) : (s.setCoord x).engine = s.engine := rfl
@[simp] theorem State.setCoord_link (s : State) (x : Coord) : (s.setCoord x).link = s.link := rfl
@[simp] theorem State.setCoord_peers (s : State) (x : Coord) : (s.setCoord x).peers = s.peers := rfl
@[simp] theorem State.setCoord_coord (s : State) (x : Coord) : (s.setCoord x).coord = x := rfl
@[simp] theorem State.setCoord_plan (s : State) (x : Coord) : (s.setCoord x).plan = s.plan := rfl
@[simp] theorem State.setCoord_hold (s : State) (x : Coord) : (s.setCoord x).hold = s.hold := rfl
@[simp] theorem State.setCoord_gate (s : State) (x : Coord) : (s.setCoord x).gate = s.gate := rfl
@[simp] theorem State.setCoord_cal (s : State) (x : Coord) : (s.setCoord x).cal = s.cal := rfl
@[simp] theorem State.setCoord_store (s : State) (x : Coord) : (s.setCoord x).store = s.store := rfl
@[simp] theorem State.setCoord_mem (s : State) (x : Coord) : (s.setCoord x).mem = s.mem := rfl
@[simp] theorem State.setCoord_port (s : State) (x : Coord) : (s.setCoord x).port = s.port := rfl

@[simp] theorem State.setPlan_pending (s : State) (x : Plan) : (s.setPlan x).pending = s.pending := rfl
@[simp] theorem State.setPlan_now (s : State) (x : Plan) : (s.setPlan x).now = s.now := rfl
@[simp] theorem State.setPlan_freeCount (s : State) (x : Plan) : (s.setPlan x).freeCount = s.freeCount := rfl
@[simp] theorem State.setPlan_power (s : State) (x : Plan) : (s.setPlan x).power = s.power := rfl
@[simp] theorem State.setPlan_standby (s : State) (x : Plan) : (s.setPlan x).standby = s.standby := rfl
@[simp] theorem State.setPlan_decoder (s : State) (x : Plan) : (s.setPlan x).decoder = s.decoder := rfl
@[simp] theorem State.setPlan_sensing (s : State) (x : Plan) : (s.setPlan x).sensing = s.sensing := rfl
@[simp] theorem State.setPlan_engine (s : State) (x : Plan) : (s.setPlan x).engine = s.engine := rfl
@[simp] theorem State.setPlan_link (s : State) (x : Plan) : (s.setPlan x).link = s.link := rfl
@[simp] theorem State.setPlan_peers (s : State) (x : Plan) : (s.setPlan x).peers = s.peers := rfl
@[simp] theorem State.setPlan_coord (s : State) (x : Plan) : (s.setPlan x).coord = s.coord := rfl
@[simp] theorem State.setPlan_plan (s : State) (x : Plan) : (s.setPlan x).plan = x := rfl
@[simp] theorem State.setPlan_hold (s : State) (x : Plan) : (s.setPlan x).hold = s.hold := rfl
@[simp] theorem State.setPlan_gate (s : State) (x : Plan) : (s.setPlan x).gate = s.gate := rfl
@[simp] theorem State.setPlan_cal (s : State) (x : Plan) : (s.setPlan x).cal = s.cal := rfl
@[simp] theorem State.setPlan_store (s : State) (x : Plan) : (s.setPlan x).store = s.store := rfl
@[simp] theorem State.setPlan_mem (s : State) (x : Plan) : (s.setPlan x).mem = s.mem := rfl
@[simp] theorem State.setPlan_port (s : State) (x : Plan) : (s.setPlan x).port = s.port := rfl

@[simp] theorem State.setHold_pending (s : State) (x : Hold) : (s.setHold x).pending = s.pending := rfl
@[simp] theorem State.setHold_now (s : State) (x : Hold) : (s.setHold x).now = s.now := rfl
@[simp] theorem State.setHold_freeCount (s : State) (x : Hold) : (s.setHold x).freeCount = s.freeCount := rfl
@[simp] theorem State.setHold_power (s : State) (x : Hold) : (s.setHold x).power = s.power := rfl
@[simp] theorem State.setHold_standby (s : State) (x : Hold) : (s.setHold x).standby = s.standby := rfl
@[simp] theorem State.setHold_decoder (s : State) (x : Hold) : (s.setHold x).decoder = s.decoder := rfl
@[simp] theorem State.setHold_sensing (s : State) (x : Hold) : (s.setHold x).sensing = s.sensing := rfl
@[simp] theorem State.setHold_engine (s : State) (x : Hold) : (s.setHold x).engine = s.engine := rfl
@[simp] theorem State.setHold_link (s : State) (x : Hold) : (s.setHold x).link = s.link := rfl
@[simp] theorem State.setHold_peers (s : State) (x : Hold) : (s.setHold x).peers = s.peers := rfl
@[simp] theorem State.setHold_coord (s : State) (x : Hold) : (s.setHold x).coord = s.coord := rfl
@[simp] theorem State.setHold_plan (s : State) (x : Hold) : (s.setHold x).plan = s.plan := rfl
@[simp] theorem State.setHold_hold (s : State) (x : Hold) : (s.setHold x).hold = x := rfl
@[simp] theorem State.setHold_gate (s : State) (x : Hold) : (s.setHold x).gate = s.gate := rfl
@[simp] theorem State.setHold_cal (s : State) (x : Hold) : (s.setHold x).cal = s.cal := rfl
@[simp] theorem State.setHold_store (s : State) (x : Hold) : (s.setHold x).store = s.store := rfl
@[simp] theorem State.setHold_mem (s : State) (x : Hold) : (s.setHold x).mem = s.mem := rfl
@[simp] theorem State.setHold_port (s : State) (x : Hold) : (s.setHold x).port = s.port := rfl

@[simp] theorem State.setGate_pending (s : State) (x : GateState) : (s.setGate x).pending = s.pending := rfl
@[simp] theorem State.setGate_now (s : State) (x : GateState) : (s.setGate x).now = s.now := rfl
@[simp] theorem State.setGate_freeCount (s : State) (x : GateState) : (s.setGate x).freeCount = s.freeCount := rfl
@[simp] theorem State.setGate_power (s : State) (x : GateState) : (s.setGate x).power = s.power := rfl
@[simp] theorem State.setGate_standby (s : State) (x : GateState) : (s.setGate x).standby = s.standby := rfl
@[simp] theorem State.setGate_decoder (s : State) (x : GateState) : (s.setGate x).decoder = s.decoder := rfl
@[simp] theorem State.setGate_sensing (s : State) (x : GateState) : (s.setGate x).sensing = s.sensing := rfl
@[simp] theorem State.setGate_engine (s : State) (x : GateState) : (s.setGate x).engine = s.engine := rfl
@[simp] theorem State.setGate_link (s : State) (x : GateState) : (s.setGate x).link = s.link := rfl
@[simp] theorem State.setGate_peers (s : State) (x : GateState) : (s.setGate x).peers = s.peers := rfl
@[simp] theorem State.setGate_coord (s : State) (x : GateState) : (s.setGate x).coord = s.coord := rfl
@[simp] theorem State.setGate_plan (s : State) (x : GateState) : (s.setGate x).plan = s.plan := rfl
@[simp] theorem State.setGate_hold (s : State) (x : GateState) : (s.setGate x).hold = s.hold := rfl
@[simp] theorem State.setGate_gate (s : State) (x : GateState) : (s.setGate x).gate = x := rfl
@[simp] theorem State.setGate_cal (s : State) (x : GateState) : (s.setGate x).cal = s.cal := rfl
@[simp] theorem State.setGate_store (s : State) (x : GateState) : (s.setGate x).store = s.store := rfl
@[simp] theorem State.setGate_mem (s : State) (x : GateState) : (s.setGate x).mem = s.mem := rfl
@[simp] theorem State.setGate_port (s : State) (x : GateState) : (s.setGate x).port = s.port := rfl

@[simp] theorem State.setCal_pending (s : State) (x : Cal) : (s.setCal x).pending = s.pending := rfl
@[simp] theorem State.setCal_now (s : State) (x : Cal) : (s.setCal x).now = s.now := rfl
@[simp] theorem State.setCal_freeCount (s : State) (x : Cal) : (s.setCal x).freeCount = s.freeCount := rfl
@[simp] theorem State.setCal_power (s : State) (x : Cal) : (s.setCal x).power = s.power := rfl
@[simp] theorem State.setCal_standby (s : State) (x : Cal) : (s.setCal x).standby = s.standby := rfl
@[simp] theorem State.setCal_decoder (s : State) (x : Cal) : (s.setCal x).decoder = s.decoder := rfl
@[simp] theorem State.setCal_sensing (s : State) (x : Cal) : (s.setCal x).sensing = s.sensing := rfl
@[simp] theorem State.setCal_engine (s : State) (x : Cal) : (s.setCal x).engine = s.engine := rfl
@[simp] theorem State.setCal_link (s : State) (x : Cal) : (s.setCal x).link = s.link := rfl
@[simp] theorem State.setCal_peers (s : State) (x : Cal) : (s.setCal x).peers = s.peers := rfl
@[simp] theorem State.setCal_coord (s : State) (x : Cal) : (s.setCal x).coord = s.coord := rfl
@[simp] theorem State.setCal_plan (s : State) (x : Cal) : (s.setCal x).plan = s.plan := rfl
@[simp] theorem State.setCal_hold (s : State) (x : Cal) : (s.setCal x).hold = s.hold := rfl
@[simp] theorem State.setCal_gate (s : State) (x : Cal) : (s.setCal x).gate = s.gate := rfl
@[simp] theorem State.setCal_cal (s : State) (x : Cal) : (s.setCal x).cal = x := rfl
@[simp] theorem State.setCal_store (s : State) (x : Cal) : (s.setCal x).store = s.store := rfl
@[simp] theorem State.setCal_mem (s : State) (x : Cal) : (s.setCal x).mem = s.mem := rfl
@[simp] theorem State.setCal_port (s : State) (x : Cal) : (s.setCal x).port = s.port := rfl

@[simp] theorem State.setStore_pending (s : State) (x : Store) : (s.setStore x).pending = s.pending := rfl
@[simp] theorem State.setStore_now (s : State) (x : Store) : (s.setStore x).now = s.now := rfl
@[simp] theorem State.setStore_freeCount (s : State) (x : Store) : (s.setStore x).freeCount = s.freeCount := rfl
@[simp] theorem State.setStore_power (s : State) (x : Store) : (s.setStore x).power = s.power := rfl
@[simp] theorem State.setStore_standby (s : State) (x : Store) : (s.setStore x).standby = s.standby := rfl
@[simp] theorem State.setStore_decoder (s : State) (x : Store) : (s.setStore x).decoder = s.decoder := rfl
@[simp] theorem State.setStore_sensing (s : State) (x : Store) : (s.setStore x).sensing = s.sensing := rfl
@[simp] theorem State.setStore_engine (s : State) (x : Store) : (s.setStore x).engine = s.engine := rfl
@[simp] theorem State.setStore_link (s : State) (x : Store) : (s.setStore x).link = s.link := rfl
@[simp] theorem State.setStore_peers (s : State) (x : Store) : (s.setStore x).peers = s.peers := rfl
@[simp] theorem State.setStore_coord (s : State) (x : Store) : (s.setStore x).coord = s.coord := rfl
@[simp] theorem State.setStore_plan (s : State) (x : Store) : (s.setStore x).plan = s.plan := rfl
@[simp] theorem State.setStore_hold (s : State) (x : Store) : (s.setStore x).hold = s.hold := rfl
@[simp] theorem State.setStore_gate (s : State) (x : Store) : (s.setStore x).gate = s.gate := rfl
@[simp] theorem State.setStore_cal (s : State) (x : Store) : (s.setStore x).cal = s.cal := rfl
@[simp] theorem State.setStore_store (s : State) (x : Store) : (s.setStore x).store = x := rfl
@[simp] theorem State.setStore_mem (s : State) (x : Store) : (s.setStore x).mem = s.mem := rfl
@[simp] theorem State.setStore_port (s : State) (x : Store) : (s.setStore x).port = s.port := rfl

@[simp] theorem State.setMem_pending (s : State) (x : Memory) : (s.setMem x).pending = s.pending := rfl
@[simp] theorem State.setMem_now (s : State) (x : Memory) : (s.setMem x).now = s.now := rfl
@[simp] theorem State.setMem_freeCount (s : State) (x : Memory) : (s.setMem x).freeCount = s.freeCount := rfl
@[simp] theorem State.setMem_power (s : State) (x : Memory) : (s.setMem x).power = s.power := rfl
@[simp] theorem State.setMem_standby (s : State) (x : Memory) : (s.setMem x).standby = s.standby := rfl
@[simp] theorem State.setMem_decoder (s : State) (x : Memory) : (s.setMem x).decoder = s.decoder := rfl
@[simp] theorem State.setMem_sensing (s : State) (x : Memory) : (s.setMem x).sensing = s.sensing := rfl
@[simp] theorem State.setMem_engine (s : State) (x : Memory) : (s.setMem x).engine = s.engine := rfl
@[simp] theorem State.setMem_link (s : State) (x : Memory) : (s.setMem x).link = s.link := rfl
@[simp] theorem State.setMem_peers (s : State) (x : Memory) : (s.setMem x).peers = s.peers := rfl
@[simp] theorem State.setMem_coord (s : State) (x : Memory) : (s.setMem x).coord = s.coord := rfl
@[simp] theorem State.setMem_plan (s : State) (x : Memory) : (s.setMem x).plan = s.plan := rfl
@[simp] theorem State.setMem_hold (s : State) (x : Memory) : (s.setMem x).hold = s.hold := rfl
@[simp] theorem State.setMem_gate (s : State) (x : Memory) : (s.setMem x).gate = s.gate := rfl
@[simp] theorem State.setMem_cal (s : State) (x : Memory) : (s.setMem x).cal = s.cal := rfl
@[simp] theorem State.setMem_store (s : State) (x : Memory) : (s.setMem x).store = s.store := rfl
@[simp] theorem State.setMem_mem (s : State) (x : Memory) : (s.setMem x).mem = x := rfl
@[simp] theorem State.setMem_port (s : State) (x : Memory) : (s.setMem x).port = s.port := rfl

@[simp] theorem State.setPort_pending (s : State) (x : Port) : (s.setPort x).pending = s.pending := rfl
@[simp] theorem State.setPort_now (s : State) (x : Port) : (s.setPort x).now = s.now := rfl
@[simp] theorem State.setPort_freeCount (s : State) (x : Port) : (s.setPort x).freeCount = s.freeCount := rfl
@[simp] theorem State.setPort_power (s : State) (x : Port) : (s.setPort x).power = s.power := rfl
@[simp] theorem State.setPort_standby (s : State) (x : Port) : (s.setPort x).standby = s.standby := rfl
@[simp] theorem State.setPort_decoder (s : State) (x : Port) : (s.setPort x).decoder = s.decoder := rfl
@[simp] theorem State.setPort_sensing (s : State) (x : Port) : (s.setPort x).sensing = s.sensing := rfl
@[simp] theorem State.setPort_engine (s : State) (x : Port) : (s.setPort x).engine = s.engine := rfl
@[simp] theorem State.setPort_link (s : State) (x : Port) : (s.setPort x).link = s.link := rfl
@[simp] theorem State.setPort_peers (s : State) (x : Port) : (s.setPort x).peers = s.peers := rfl
@[simp] theorem State.setPort_coord (s : State) (x : Port) : (s.setPort x).coord = s.coord := rfl
@[simp] theorem State.setPort_plan (s : State) (x : Port) : (s.setPort x).plan = s.plan := rfl
@[simp] theorem State.setPort_hold (s : State) (x : Port) : (s.setPort x).hold = s.hold := rfl
@[simp] theorem State.setPort_gate (s : State) (x : Port) : (s.setPort x).gate = s.gate := rfl
@[simp] theorem State.setPort_cal (s : State) (x : Port) : (s.setPort x).cal = s.cal := rfl
@[simp] theorem State.setPort_store (s : State) (x : Port) : (s.setPort x).store = s.store := rfl
@[simp] theorem State.setPort_mem (s : State) (x : Port) : (s.setPort x).mem = s.mem := rfl
@[simp] theorem State.setPort_port (s : State) (x : Port) : (s.setPort x).port = x := rfl

end Sys2Proof.Machine
end

