-- ==== Sys2Proof/Laws/Frames.lean ====
section
/-! SUPPORT. What each operation leaves as it was: one lemma an operation. -/

namespace Sys2Proof.Machine

@[simp] theorem Plan.modifyStep_steps (p : Plan) (i : Nat) (f : StepState → StepState) :
    (p.modifyStep i f).steps = p.steps := rfl
@[simp] theorem Plan.modifyStep_isSealed (p : Plan) (i : Nat) (f : StepState → StepState) :
    (p.modifyStep i f).isSealed = p.isSealed := rfl
@[simp] theorem Plan.modifyStep_digest (p : Plan) (i : Nat) (f : StepState → StepState) :
    (p.modifyStep i f).digest = p.digest := rfl
@[simp] theorem Plan.modifyStep_running (p : Plan) (i : Nat) (f : StepState → StepState) :
    (p.modifyStep i f).running = p.running := rfl
@[simp] theorem Plan.modifyStep_claim (p : Plan) (i : Nat) (f : StepState → StepState) :
    (p.modifyStep i f).claim = p.claim := rfl

/-- Noting a sequence changes only the newest known one (R159). -/
@[simp] theorem Hold.see_keeps (h : Hold) (q : BitVec 16) :
    (h.see q).level = h.level ∧ (h.see q).complete = h.complete ∧ (h.see q).seq = h.seq ∧
    (h.see q).keyCount = h.keyCount ∧ (h.see q).faults = h.faults ∧ (h.see q).deadline = h.deadline ∧
    (h.see q).cause = h.cause ∧ (h.see q).origin = h.origin ∧ (h.see q).lockClear = h.lockClear ∧
    (h.see q).lockClearLeft = h.lockClearLeft := by
  unfold Hold.see; split <;> simp

/-- A claim moves held positions only (R15). -/
@[simp] theorem Sensing.moved_keeps (d : Int) (x : Sensing) :
    (x.moved d).settling = x.settling ∧ (x.moved d).accepted = x.accepted ∧ (x.moved d).drvStill = x.drvStill ∧
    (x.moved d).brkFb = x.brkFb ∧ (x.moved d).pfail = x.pfail := by
  simp [Sensing.moved]

/-- Replacing a switch filter leaves the unit's other parts (R1). -/
@[simp] theorem Sensing.putFilter_keeps (x : Sensing) (i : SwitchInput) (f : InputFilter) :
    (x.putFilter i f).settling = x.settling ∧ (x.putFilter i f).accepted = x.accepted ∧
    (x.putFilter i f).captures = x.captures ∧ (x.putFilter i f).pfail = x.pfail := by
  cases i <;> simp [Sensing.putFilter]

@[simp] theorem advance_keeps (dt : Time) (s : State) :
    (advance dt s).pending = s.pending ∧ (advance dt s).freeCount = s.freeCount ∧ (advance dt s).power = s.power ∧
    (advance dt s).standby = s.standby ∧ (advance dt s).decoder = s.decoder ∧ (advance dt s).sensing = s.sensing ∧
    (advance dt s).engine = s.engine ∧ (advance dt s).link = s.link ∧ (advance dt s).peers = s.peers ∧
    (advance dt s).coord = s.coord ∧ (advance dt s).plan = s.plan ∧ (advance dt s).hold = s.hold ∧
    (advance dt s).gate = s.gate ∧ (advance dt s).cal = s.cal ∧ (advance dt s).store = s.store ∧
    (advance dt s).mem = s.mem ∧ (advance dt s).port = s.port := by
  simp [advance]

@[simp] theorem bumpFree_keeps (s : State) :
    (bumpFree s).pending = s.pending ∧ (bumpFree s).now = s.now ∧ (bumpFree s).power = s.power ∧
    (bumpFree s).standby = s.standby ∧ (bumpFree s).decoder = s.decoder ∧ (bumpFree s).sensing = s.sensing ∧
    (bumpFree s).engine = s.engine ∧ (bumpFree s).link = s.link ∧ (bumpFree s).peers = s.peers ∧
    (bumpFree s).coord = s.coord ∧ (bumpFree s).plan = s.plan ∧ (bumpFree s).hold = s.hold ∧
    (bumpFree s).gate = s.gate ∧ (bumpFree s).cal = s.cal ∧ (bumpFree s).store = s.store ∧ (bumpFree s).mem = s.mem ∧
    (bumpFree s).port = s.port := by
  simp [bumpFree]

@[simp] theorem addCause_keeps (c : Cause) (s : State) :
    (addCause c s).pending = s.pending ∧ (addCause c s).now = s.now ∧ (addCause c s).freeCount = s.freeCount ∧
    (addCause c s).power = s.power ∧ (addCause c s).standby = s.standby ∧ (addCause c s).decoder = s.decoder ∧
    (addCause c s).sensing = s.sensing ∧ (addCause c s).engine = s.engine ∧ (addCause c s).link = s.link ∧
    (addCause c s).peers = s.peers ∧ (addCause c s).coord = s.coord ∧ (addCause c s).plan = s.plan ∧
    (addCause c s).hold = s.hold ∧ (addCause c s).gate = s.gate ∧ (addCause c s).cal = s.cal ∧
    (addCause c s).store = s.store ∧ (addCause c s).mem = s.mem ∧ (addCause c s).port.config = s.port.config ∧
    (addCause c s).port.configDigest = s.port.configDigest ∧ (addCause c s).port.receiving = s.port.receiving ∧
    (addCause c s).port.resetArmed = s.port.resetArmed ∧ (addCause c s).port.response = s.port.response := by
  simp [addCause]

@[simp] theorem writeOrder_keeps (o : MotionOrder) (s : State) :
    (writeOrder o s).pending = s.pending ∧ (writeOrder o s).now = s.now ∧ (writeOrder o s).freeCount = s.freeCount ∧
    (writeOrder o s).power = s.power ∧ (writeOrder o s).standby = s.standby ∧ (writeOrder o s).decoder = s.decoder ∧
    (writeOrder o s).sensing = s.sensing ∧ (writeOrder o s).link = s.link ∧ (writeOrder o s).peers = s.peers ∧
    (writeOrder o s).coord = s.coord ∧ (writeOrder o s).plan = s.plan ∧ (writeOrder o s).hold = s.hold ∧
    (writeOrder o s).gate = s.gate ∧ (writeOrder o s).cal = s.cal ∧ (writeOrder o s).store = s.store ∧
    (writeOrder o s).mem = s.mem ∧ (writeOrder o s).port.config = s.port.config ∧
    (writeOrder o s).port.configDigest = s.port.configDigest ∧ (writeOrder o s).port.receiving = s.port.receiving ∧
    (writeOrder o s).port.resetArmed = s.port.resetArmed ∧ (writeOrder o s).port.response = s.port.response ∧
    (writeOrder o s).engine.refState = s.engine.refState ∧ (writeOrder o s).engine.operation = s.engine.operation := by
  simp only [writeOrder]; (repeat' split) <;> simp

@[simp] theorem engineWrite_keeps (o : MotionOrder) (s : State) :
    (engineWrite o s).pending = s.pending ∧ (engineWrite o s).now = s.now ∧
    (engineWrite o s).freeCount = s.freeCount ∧ (engineWrite o s).power = s.power ∧
    (engineWrite o s).standby = s.standby ∧ (engineWrite o s).decoder = s.decoder ∧
    (engineWrite o s).sensing = s.sensing ∧ (engineWrite o s).link = s.link ∧ (engineWrite o s).peers = s.peers ∧
    (engineWrite o s).coord = s.coord ∧ (engineWrite o s).plan = s.plan ∧ (engineWrite o s).hold = s.hold ∧
    (engineWrite o s).gate = s.gate ∧ (engineWrite o s).cal = s.cal ∧ (engineWrite o s).store = s.store ∧
    (engineWrite o s).mem = s.mem ∧ (engineWrite o s).port.config = s.port.config ∧
    (engineWrite o s).port.configDigest = s.port.configDigest ∧ (engineWrite o s).port.receiving = s.port.receiving ∧
    (engineWrite o s).port.resetArmed = s.port.resetArmed ∧ (engineWrite o s).port.response = s.port.response ∧
    (engineWrite o s).engine.refState = s.engine.refState ∧ (engineWrite o s).engine.operation = s.engine.operation := by
  simp only [engineWrite]; (repeat' split) <;> simp

@[simp] theorem clearHoldOrder_keeps (s : State) :
    (clearHoldOrder s).pending = s.pending ∧ (clearHoldOrder s).now = s.now ∧
    (clearHoldOrder s).freeCount = s.freeCount ∧ (clearHoldOrder s).power = s.power ∧
    (clearHoldOrder s).standby = s.standby ∧ (clearHoldOrder s).decoder = s.decoder ∧
    (clearHoldOrder s).sensing = s.sensing ∧ (clearHoldOrder s).link = s.link ∧ (clearHoldOrder s).peers = s.peers ∧
    (clearHoldOrder s).coord = s.coord ∧ (clearHoldOrder s).plan = s.plan ∧ (clearHoldOrder s).hold = s.hold ∧
    (clearHoldOrder s).gate = s.gate ∧ (clearHoldOrder s).cal = s.cal ∧ (clearHoldOrder s).store = s.store ∧
    (clearHoldOrder s).mem = s.mem ∧ (clearHoldOrder s).port.config = s.port.config ∧
    (clearHoldOrder s).port.configDigest = s.port.configDigest ∧
    (clearHoldOrder s).port.receiving = s.port.receiving ∧ (clearHoldOrder s).port.resetArmed = s.port.resetArmed ∧
    (clearHoldOrder s).port.response = s.port.response ∧ (clearHoldOrder s).engine.refState = s.engine.refState ∧
    (clearHoldOrder s).engine.operation = s.engine.operation := by
  simp only [clearHoldOrder]; (repeat' split) <;> simp

@[simp] theorem recordFault_keeps (code : Byte) (cls : FaultClass) (origin : Station) (step : Option Nat) (detail : BitVec 32) (s : State) :
    (recordFault code cls origin step detail s).pending = s.pending ∧
    (recordFault code cls origin step detail s).now = s.now ∧
    (recordFault code cls origin step detail s).freeCount = s.freeCount ∧
    (recordFault code cls origin step detail s).power = s.power ∧
    (recordFault code cls origin step detail s).standby = s.standby ∧
    (recordFault code cls origin step detail s).decoder = s.decoder ∧
    (recordFault code cls origin step detail s).sensing = s.sensing ∧
    (recordFault code cls origin step detail s).engine = s.engine ∧
    (recordFault code cls origin step detail s).peers = s.peers ∧
    (recordFault code cls origin step detail s).coord = s.coord ∧
    (recordFault code cls origin step detail s).plan = s.plan ∧
    (recordFault code cls origin step detail s).gate = s.gate ∧
    (recordFault code cls origin step detail s).cal = s.cal ∧
    (recordFault code cls origin step detail s).store = s.store ∧
    (recordFault code cls origin step detail s).mem = s.mem ∧
    (recordFault code cls origin step detail s).link.station = s.link.station ∧
    (recordFault code cls origin step detail s).link.state = s.link.state ∧
    (recordFault code cls origin step detail s).link.timed = s.link.timed ∧
    (recordFault code cls origin step detail s).link.cycle = s.link.cycle ∧
    (recordFault code cls origin step detail s).link.cycleStart = s.link.cycleStart ∧
    (recordFault code cls origin step detail s).link.muted = s.link.muted ∧
    (recordFault code cls origin step detail s).link.mismatches = s.link.mismatches ∧
    (recordFault code cls origin step detail s).link.tx = s.link.tx ∧
    (recordFault code cls origin step detail s).link.offsets = s.link.offsets ∧
    (recordFault code cls origin step detail s).link.acceptedInCycle = s.link.acceptedInCycle ∧
    (recordFault code cls origin step detail s).link.foreignInCycle = s.link.foreignInCycle ∧
    (recordFault code cls origin step detail s).link.listenSince = s.link.listenSince ∧
    (recordFault code cls origin step detail s).hold.level = s.hold.level ∧
    (recordFault code cls origin step detail s).hold.complete = s.hold.complete ∧
    (recordFault code cls origin step detail s).hold.seq = s.hold.seq ∧
    (recordFault code cls origin step detail s).hold.keyCount = s.hold.keyCount ∧
    (recordFault code cls origin step detail s).hold.lockClear = s.hold.lockClear ∧
    (recordFault code cls origin step detail s).hold.lockClearLeft = s.hold.lockClearLeft ∧
    (recordFault code cls origin step detail s).port.config = s.port.config ∧
    (recordFault code cls origin step detail s).port.configDigest = s.port.configDigest ∧
    (recordFault code cls origin step detail s).port.receiving = s.port.receiving ∧
    (recordFault code cls origin step detail s).port.resetArmed = s.port.resetArmed ∧
    (recordFault code cls origin step detail s).port.response = s.port.response := by
  simp only [recordFault]; (repeat' split) <;> simp

@[simp] theorem noteFault_keeps (code : FaultCode) (cls : FaultClass) (step : Option Nat) (detail : Int) (s : State) :
    (noteFault code cls step detail s).pending = s.pending ∧ (noteFault code cls step detail s).now = s.now ∧
    (noteFault code cls step detail s).freeCount = s.freeCount ∧ (noteFault code cls step detail s).power = s.power ∧
    (noteFault code cls step detail s).standby = s.standby ∧ (noteFault code cls step detail s).decoder = s.decoder ∧
    (noteFault code cls step detail s).sensing = s.sensing ∧ (noteFault code cls step detail s).engine = s.engine ∧
    (noteFault code cls step detail s).peers = s.peers ∧ (noteFault code cls step detail s).coord = s.coord ∧
    (noteFault code cls step detail s).plan = s.plan ∧ (noteFault code cls step detail s).gate = s.gate ∧
    (noteFault code cls step detail s).cal = s.cal ∧ (noteFault code cls step detail s).store = s.store ∧
    (noteFault code cls step detail s).mem = s.mem ∧
    (noteFault code cls step detail s).link.station = s.link.station ∧
    (noteFault code cls step detail s).link.state = s.link.state ∧
    (noteFault code cls step detail s).link.timed = s.link.timed ∧
    (noteFault code cls step detail s).link.cycle = s.link.cycle ∧
    (noteFault code cls step detail s).link.cycleStart = s.link.cycleStart ∧
    (noteFault code cls step detail s).link.muted = s.link.muted ∧
    (noteFault code cls step detail s).link.mismatches = s.link.mismatches ∧
    (noteFault code cls step detail s).link.tx = s.link.tx ∧
    (noteFault code cls step detail s).link.offsets = s.link.offsets ∧
    (noteFault code cls step detail s).link.acceptedInCycle = s.link.acceptedInCycle ∧
    (noteFault code cls step detail s).link.foreignInCycle = s.link.foreignInCycle ∧
    (noteFault code cls step detail s).link.listenSince = s.link.listenSince ∧
    (noteFault code cls step detail s).hold.level = s.hold.level ∧
    (noteFault code cls step detail s).hold.complete = s.hold.complete ∧
    (noteFault code cls step detail s).hold.seq = s.hold.seq ∧
    (noteFault code cls step detail s).hold.keyCount = s.hold.keyCount ∧
    (noteFault code cls step detail s).hold.lockClear = s.hold.lockClear ∧
    (noteFault code cls step detail s).hold.lockClearLeft = s.hold.lockClearLeft ∧
    (noteFault code cls step detail s).port.config = s.port.config ∧
    (noteFault code cls step detail s).port.configDigest = s.port.configDigest ∧
    (noteFault code cls step detail s).port.receiving = s.port.receiving ∧
    (noteFault code cls step detail s).port.resetArmed = s.port.resetArmed ∧
    (noteFault code cls step detail s).port.response = s.port.response := by
  simp [noteFault]

@[simp] theorem gateUpdate_keeps (s : State) :
    (gateUpdate s).pending = s.pending ∧ (gateUpdate s).now = s.now ∧ (gateUpdate s).freeCount = s.freeCount ∧
    (gateUpdate s).power = s.power ∧ (gateUpdate s).standby = s.standby ∧ (gateUpdate s).decoder = s.decoder ∧
    (gateUpdate s).sensing = s.sensing ∧ (gateUpdate s).engine = s.engine ∧ (gateUpdate s).link = s.link ∧
    (gateUpdate s).peers = s.peers ∧ (gateUpdate s).coord = s.coord ∧ (gateUpdate s).plan = s.plan ∧
    (gateUpdate s).hold = s.hold ∧ (gateUpdate s).cal = s.cal ∧ (gateUpdate s).store = s.store ∧
    (gateUpdate s).mem = s.mem ∧ (gateUpdate s).port = s.port := by
  simp [gateUpdate]

@[simp] theorem parkedCheck_keeps (s : State) :
    (parkedCheck s).pending = s.pending ∧ (parkedCheck s).now = s.now ∧ (parkedCheck s).freeCount = s.freeCount ∧
    (parkedCheck s).power = s.power ∧ (parkedCheck s).standby = s.standby ∧ (parkedCheck s).decoder = s.decoder ∧
    (parkedCheck s).sensing = s.sensing ∧ (parkedCheck s).link = s.link ∧ (parkedCheck s).peers = s.peers ∧
    (parkedCheck s).coord = s.coord ∧ (parkedCheck s).plan = s.plan ∧ (parkedCheck s).hold = s.hold ∧
    (parkedCheck s).gate = s.gate ∧ (parkedCheck s).cal = s.cal ∧ (parkedCheck s).store = s.store ∧
    (parkedCheck s).mem = s.mem ∧ (parkedCheck s).port = s.port ∧
    (parkedCheck s).engine.refState = s.engine.refState ∧ (parkedCheck s).engine.operation = s.engine.operation ∧
    (parkedCheck s).engine.order = s.engine.order := by
  simp only [parkedCheck]; (repeat' split) <;> simp

@[simp] theorem moveCounter_keeps (d : Int) (s : State) :
    (moveCounter d s).pending = s.pending ∧ (moveCounter d s).now = s.now ∧
    (moveCounter d s).freeCount = s.freeCount ∧ (moveCounter d s).power = s.power ∧
    (moveCounter d s).decoder = s.decoder ∧ (moveCounter d s).link = s.link ∧ (moveCounter d s).peers = s.peers ∧
    (moveCounter d s).coord = s.coord ∧ (moveCounter d s).plan = s.plan ∧ (moveCounter d s).hold = s.hold ∧
    (moveCounter d s).gate = s.gate ∧ (moveCounter d s).cal = s.cal ∧ (moveCounter d s).store = s.store ∧
    (moveCounter d s).mem = s.mem ∧ (moveCounter d s).port = s.port ∧
    (moveCounter d s).engine.refState = s.engine.refState ∧ (moveCounter d s).engine.order = s.engine.order ∧
    (moveCounter d s).sensing.settling = s.sensing.settling ∧
    (moveCounter d s).sensing.accepted = s.sensing.accepted ∧
    (moveCounter d s).sensing.drvStill = s.sensing.drvStill ∧ (moveCounter d s).sensing.brkFb = s.sensing.brkFb ∧
    (moveCounter d s).sensing.pfail = s.sensing.pfail ∧ (moveCounter d s).standby.supplyLoss = s.standby.supplyLoss ∧
    (moveCounter d s).standby.excursion = s.standby.excursion ∧ (moveCounter d s).standby.alive = s.standby.alive := by
  simp [moveCounter]

@[simp] theorem applySet_keeps (v : Int) (r : Position) (s : State) :
    (applySet v r s).pending = s.pending ∧ (applySet v r s).now = s.now ∧ (applySet v r s).freeCount = s.freeCount ∧
    (applySet v r s).power = s.power ∧ (applySet v r s).decoder = s.decoder ∧ (applySet v r s).link = s.link ∧
    (applySet v r s).peers = s.peers ∧ (applySet v r s).coord = s.coord ∧ (applySet v r s).plan = s.plan ∧
    (applySet v r s).hold = s.hold ∧ (applySet v r s).gate = s.gate ∧ (applySet v r s).cal = s.cal ∧
    (applySet v r s).store = s.store ∧ (applySet v r s).mem = s.mem ∧ (applySet v r s).port = s.port ∧
    (applySet v r s).engine.refState = s.engine.refState ∧ (applySet v r s).engine.order = s.engine.order ∧
    (applySet v r s).sensing.settling = s.sensing.settling ∧ (applySet v r s).sensing.accepted = s.sensing.accepted ∧
    (applySet v r s).sensing.drvStill = s.sensing.drvStill ∧ (applySet v r s).sensing.brkFb = s.sensing.brkFb ∧
    (applySet v r s).sensing.pfail = s.sensing.pfail ∧ (applySet v r s).standby.supplyLoss = s.standby.supplyLoss ∧
    (applySet v r s).standby.excursion = s.standby.excursion ∧ (applySet v r s).standby.alive = s.standby.alive := by
  simp [applySet]

theorem setClaimNow_keeps (v : Int) (s t : State) (h : setClaimNow v s = some t) :
    t.pending = s.pending ∧ t.now = s.now ∧ t.freeCount = s.freeCount ∧ t.power = s.power ∧ t.decoder = s.decoder ∧
    t.link = s.link ∧ t.peers = s.peers ∧ t.coord = s.coord ∧ t.plan = s.plan ∧ t.hold = s.hold ∧ t.gate = s.gate ∧
    t.cal = s.cal ∧ t.store = s.store ∧ t.mem = s.mem ∧ t.port = s.port ∧ t.engine.refState = s.engine.refState ∧
    t.engine.order = s.engine.order ∧ t.sensing.settling = s.sensing.settling ∧
    t.sensing.accepted = s.sensing.accepted ∧ t.sensing.drvStill = s.sensing.drvStill ∧
    t.sensing.brkFb = s.sensing.brkFb ∧ t.sensing.pfail = s.sensing.pfail ∧
    t.standby.supplyLoss = s.standby.supplyLoss ∧ t.standby.excursion = s.standby.excursion ∧
    t.standby.alive = s.standby.alive := by
  unfold setClaimNow at h; split at h
  · simp at h
  · simp only [Option.some.injEq] at h; subst h; simp

theorem setClaimNewest_keeps (v : Int) (s t : State) (h : setClaimNewest v s = some t) :
    t.pending = s.pending ∧ t.now = s.now ∧ t.freeCount = s.freeCount ∧ t.power = s.power ∧ t.decoder = s.decoder ∧
    t.link = s.link ∧ t.peers = s.peers ∧ t.coord = s.coord ∧ t.plan = s.plan ∧ t.hold = s.hold ∧ t.gate = s.gate ∧
    t.cal = s.cal ∧ t.store = s.store ∧ t.mem = s.mem ∧ t.port = s.port ∧ t.engine.refState = s.engine.refState ∧
    t.engine.order = s.engine.order ∧ t.sensing.settling = s.sensing.settling ∧
    t.sensing.accepted = s.sensing.accepted ∧ t.sensing.drvStill = s.sensing.drvStill ∧
    t.sensing.brkFb = s.sensing.brkFb ∧ t.sensing.pfail = s.sensing.pfail ∧
    t.standby.supplyLoss = s.standby.supplyLoss ∧ t.standby.excursion = s.standby.excursion ∧
    t.standby.alive = s.standby.alive := by
  unfold setClaimNewest at h; split at h
  · simp at h
  · split at h
    · simp at h
    · simp only [Option.some.injEq] at h; subst h; simp

theorem shiftClaim_keeps (d : Int) (s t : State) (h : shiftClaim d s = some t) :
    t.pending = s.pending ∧ t.now = s.now ∧ t.freeCount = s.freeCount ∧ t.power = s.power ∧ t.decoder = s.decoder ∧
    t.link = s.link ∧ t.peers = s.peers ∧ t.coord = s.coord ∧ t.plan = s.plan ∧ t.hold = s.hold ∧ t.gate = s.gate ∧
    t.cal = s.cal ∧ t.store = s.store ∧ t.mem = s.mem ∧ t.port = s.port ∧ t.engine.refState = s.engine.refState ∧
    t.engine.order = s.engine.order ∧ t.sensing.settling = s.sensing.settling ∧
    t.sensing.accepted = s.sensing.accepted ∧ t.sensing.drvStill = s.sensing.drvStill ∧
    t.sensing.brkFb = s.sensing.brkFb ∧ t.sensing.pfail = s.sensing.pfail ∧
    t.standby.supplyLoss = s.standby.supplyLoss ∧ t.standby.excursion = s.standby.excursion ∧
    t.standby.alive = s.standby.alive := by
  unfold shiftClaim at h; split at h
  · simp at h
  · simp only [Option.some.injEq] at h; subst h; simp

@[simp] theorem setNewestMark_keeps (m : Option Int) (s : State) :
    (setNewestMark m s).pending = s.pending ∧ (setNewestMark m s).now = s.now ∧
    (setNewestMark m s).freeCount = s.freeCount ∧ (setNewestMark m s).power = s.power ∧
    (setNewestMark m s).standby = s.standby ∧ (setNewestMark m s).decoder = s.decoder ∧
    (setNewestMark m s).engine = s.engine ∧ (setNewestMark m s).link = s.link ∧ (setNewestMark m s).peers = s.peers ∧
    (setNewestMark m s).coord = s.coord ∧ (setNewestMark m s).plan = s.plan ∧ (setNewestMark m s).hold = s.hold ∧
    (setNewestMark m s).gate = s.gate ∧ (setNewestMark m s).cal = s.cal ∧ (setNewestMark m s).store = s.store ∧
    (setNewestMark m s).mem = s.mem ∧ (setNewestMark m s).port = s.port ∧
    (setNewestMark m s).sensing.settling = s.sensing.settling ∧
    (setNewestMark m s).sensing.accepted = s.sensing.accepted ∧
    (setNewestMark m s).sensing.drvStill = s.sensing.drvStill ∧ (setNewestMark m s).sensing.brkFb = s.sensing.brkFb ∧
    (setNewestMark m s).sensing.pfail = s.sensing.pfail := by
  simp only [setNewestMark]; (repeat' split) <;> simp

@[simp] theorem grant_keeps (r : WriteRequest) (s : State) :
    (grant r s).pending = s.pending ∧ (grant r s).now = s.now ∧ (grant r s).freeCount = s.freeCount ∧
    (grant r s).power = s.power ∧ (grant r s).standby = s.standby ∧ (grant r s).decoder = s.decoder ∧
    (grant r s).sensing = s.sensing ∧ (grant r s).engine = s.engine ∧ (grant r s).link = s.link ∧
    (grant r s).peers = s.peers ∧ (grant r s).coord = s.coord ∧ (grant r s).plan = s.plan ∧
    (grant r s).hold = s.hold ∧ (grant r s).gate = s.gate ∧ (grant r s).mem = s.mem ∧ (grant r s).port = s.port ∧
    (grant r s).store.scanDone = s.store.scanDone ∧ (grant r s).store.tail = s.store.tail ∧
    (grant r s).store.pointer = s.store.pointer ∧ (grant r s).store.lastTag = s.store.lastTag ∧
    (grant r s).store.finalOut = s.store.finalOut ∧ (grant r s).store.dip = s.store.dip ∧
    (grant r s).store.retainedLockout = s.store.retainedLockout ∧ (grant r s).cal.committed = s.cal.committed := by
  simp only [grant]; (repeat' split) <;> simp

@[simp] theorem addPending_keeps (r : WriteRequest) (s : State) :
    (addPending r s).pending = s.pending ∧ (addPending r s).now = s.now ∧ (addPending r s).freeCount = s.freeCount ∧
    (addPending r s).power = s.power ∧ (addPending r s).standby = s.standby ∧ (addPending r s).decoder = s.decoder ∧
    (addPending r s).sensing = s.sensing ∧ (addPending r s).engine = s.engine ∧ (addPending r s).link = s.link ∧
    (addPending r s).peers = s.peers ∧ (addPending r s).coord = s.coord ∧ (addPending r s).plan = s.plan ∧
    (addPending r s).hold = s.hold ∧ (addPending r s).gate = s.gate ∧ (addPending r s).cal = s.cal ∧
    (addPending r s).mem = s.mem ∧ (addPending r s).port = s.port ∧
    (addPending r s).store.scanDone = s.store.scanDone ∧ (addPending r s).store.port = s.store.port ∧
    (addPending r s).store.tail = s.store.tail ∧ (addPending r s).store.pointer = s.store.pointer ∧
    (addPending r s).store.lastTag = s.store.lastTag ∧ (addPending r s).store.finalOut = s.store.finalOut ∧
    (addPending r s).store.dip = s.store.dip ∧ (addPending r s).store.retainedLockout = s.store.retainedLockout := by
  simp [addPending]

@[simp] theorem dropPending_keeps (k : WriteKind) (s : State) :
    (dropPending k s).pending = s.pending ∧ (dropPending k s).now = s.now ∧
    (dropPending k s).freeCount = s.freeCount ∧ (dropPending k s).power = s.power ∧
    (dropPending k s).standby = s.standby ∧ (dropPending k s).decoder = s.decoder ∧
    (dropPending k s).sensing = s.sensing ∧ (dropPending k s).engine = s.engine ∧ (dropPending k s).link = s.link ∧
    (dropPending k s).peers = s.peers ∧ (dropPending k s).coord = s.coord ∧ (dropPending k s).plan = s.plan ∧
    (dropPending k s).hold = s.hold ∧ (dropPending k s).gate = s.gate ∧ (dropPending k s).cal = s.cal ∧
    (dropPending k s).mem = s.mem ∧ (dropPending k s).port = s.port ∧
    (dropPending k s).store.scanDone = s.store.scanDone ∧ (dropPending k s).store.port = s.store.port ∧
    (dropPending k s).store.tail = s.store.tail ∧ (dropPending k s).store.pointer = s.store.pointer ∧
    (dropPending k s).store.lastTag = s.store.lastTag ∧ (dropPending k s).store.finalOut = s.store.finalOut ∧
    (dropPending k s).store.dip = s.store.dip ∧ (dropPending k s).store.retainedLockout = s.store.retainedLockout := by
  simp [dropPending]

@[simp] theorem grantNext_keeps (s : State) :
    (grantNext s).pending = s.pending ∧ (grantNext s).now = s.now ∧ (grantNext s).freeCount = s.freeCount ∧
    (grantNext s).power = s.power ∧ (grantNext s).standby = s.standby ∧ (grantNext s).decoder = s.decoder ∧
    (grantNext s).sensing = s.sensing ∧ (grantNext s).engine = s.engine ∧ (grantNext s).link = s.link ∧
    (grantNext s).peers = s.peers ∧ (grantNext s).coord = s.coord ∧ (grantNext s).plan = s.plan ∧
    (grantNext s).hold = s.hold ∧ (grantNext s).gate = s.gate ∧ (grantNext s).mem = s.mem ∧
    (grantNext s).port = s.port ∧ (grantNext s).store.scanDone = s.store.scanDone ∧
    (grantNext s).store.tail = s.store.tail ∧ (grantNext s).store.pointer = s.store.pointer ∧
    (grantNext s).store.lastTag = s.store.lastTag ∧ (grantNext s).store.finalOut = s.store.finalOut ∧
    (grantNext s).store.dip = s.store.dip ∧ (grantNext s).store.retainedLockout = s.store.retainedLockout ∧
    (grantNext s).cal.committed = s.cal.committed := by
  simp only [grantNext]; (repeat' split) <;> simp

@[simp] theorem postWrite_keeps (r : WriteRequest) (s : State) :
    (postWrite r s).pending = s.pending ∧ (postWrite r s).now = s.now ∧ (postWrite r s).freeCount = s.freeCount ∧
    (postWrite r s).power = s.power ∧ (postWrite r s).standby = s.standby ∧ (postWrite r s).decoder = s.decoder ∧
    (postWrite r s).sensing = s.sensing ∧ (postWrite r s).engine = s.engine ∧ (postWrite r s).link = s.link ∧
    (postWrite r s).peers = s.peers ∧ (postWrite r s).coord = s.coord ∧ (postWrite r s).plan = s.plan ∧
    (postWrite r s).hold = s.hold ∧ (postWrite r s).gate = s.gate ∧ (postWrite r s).mem = s.mem ∧
    (postWrite r s).port = s.port ∧ (postWrite r s).store.scanDone = s.store.scanDone ∧
    (postWrite r s).store.tail = s.store.tail ∧ (postWrite r s).store.pointer = s.store.pointer ∧
    (postWrite r s).store.lastTag = s.store.lastTag ∧ (postWrite r s).store.finalOut = s.store.finalOut ∧
    (postWrite r s).store.dip = s.store.dip ∧ (postWrite r s).store.retainedLockout = s.store.retainedLockout ∧
    (postWrite r s).cal.committed = s.cal.committed := by
  simp only [postWrite]; (repeat' split) <;> simp

@[simp] theorem postLockRecord_keeps (s : State) :
    (postLockRecord s).pending = s.pending ∧ (postLockRecord s).now = s.now ∧
    (postLockRecord s).freeCount = s.freeCount ∧ (postLockRecord s).power = s.power ∧
    (postLockRecord s).standby = s.standby ∧ (postLockRecord s).decoder = s.decoder ∧
    (postLockRecord s).sensing = s.sensing ∧ (postLockRecord s).engine = s.engine ∧
    (postLockRecord s).link = s.link ∧ (postLockRecord s).peers = s.peers ∧ (postLockRecord s).coord = s.coord ∧
    (postLockRecord s).plan = s.plan ∧ (postLockRecord s).hold = s.hold ∧ (postLockRecord s).gate = s.gate ∧
    (postLockRecord s).mem = s.mem ∧ (postLockRecord s).port = s.port ∧
    (postLockRecord s).store.scanDone = s.store.scanDone ∧ (postLockRecord s).store.tail = s.store.tail ∧
    (postLockRecord s).store.pointer = s.store.pointer ∧ (postLockRecord s).store.lastTag = s.store.lastTag ∧
    (postLockRecord s).store.finalOut = s.store.finalOut ∧ (postLockRecord s).store.dip = s.store.dip ∧
    (postLockRecord s).store.retainedLockout = s.store.retainedLockout ∧
    (postLockRecord s).cal.committed = s.cal.committed := by
  simp [postLockRecord]

@[simp] theorem postLockClear_keeps (s : State) :
    (postLockClear s).pending = s.pending ∧ (postLockClear s).now = s.now ∧
    (postLockClear s).freeCount = s.freeCount ∧ (postLockClear s).power = s.power ∧
    (postLockClear s).standby = s.standby ∧ (postLockClear s).decoder = s.decoder ∧
    (postLockClear s).sensing = s.sensing ∧ (postLockClear s).engine = s.engine ∧ (postLockClear s).link = s.link ∧
    (postLockClear s).peers = s.peers ∧ (postLockClear s).coord = s.coord ∧ (postLockClear s).plan = s.plan ∧
    (postLockClear s).hold = s.hold ∧ (postLockClear s).gate = s.gate ∧ (postLockClear s).mem = s.mem ∧
    (postLockClear s).port = s.port ∧ (postLockClear s).store.scanDone = s.store.scanDone ∧
    (postLockClear s).store.tail = s.store.tail ∧ (postLockClear s).store.pointer = s.store.pointer ∧
    (postLockClear s).store.lastTag = s.store.lastTag ∧ (postLockClear s).store.finalOut = s.store.finalOut ∧
    (postLockClear s).store.dip = s.store.dip ∧ (postLockClear s).store.retainedLockout = s.store.retainedLockout ∧
    (postLockClear s).cal.committed = s.cal.committed := by
  simp [postLockClear]

@[simp] theorem noteLatch_keeps (f : JournalFrame) (s : State) :
    (noteLatch f s).pending = s.pending ∧ (noteLatch f s).now = s.now ∧ (noteLatch f s).freeCount = s.freeCount ∧
    (noteLatch f s).power = s.power ∧ (noteLatch f s).standby = s.standby ∧ (noteLatch f s).decoder = s.decoder ∧
    (noteLatch f s).sensing = s.sensing ∧ (noteLatch f s).engine = s.engine ∧ (noteLatch f s).link = s.link ∧
    (noteLatch f s).peers = s.peers ∧ (noteLatch f s).coord = s.coord ∧ (noteLatch f s).plan = s.plan ∧
    (noteLatch f s).hold = s.hold ∧ (noteLatch f s).gate = s.gate ∧ (noteLatch f s).cal = s.cal ∧
    (noteLatch f s).mem = s.mem ∧ (noteLatch f s).port = s.port ∧ (noteLatch f s).store.scanDone = s.store.scanDone ∧
    (noteLatch f s).store.port = s.store.port ∧ (noteLatch f s).store.tail = s.store.tail ∧
    (noteLatch f s).store.pointer = s.store.pointer ∧ (noteLatch f s).store.finalOut = s.store.finalOut ∧
    (noteLatch f s).store.dip = s.store.dip ∧ (noteLatch f s).store.retainedLockout = s.store.retainedLockout := by
  simp [noteLatch]

@[simp] theorem markLatch_keeps (s : State) :
    (markLatch s).pending = s.pending ∧ (markLatch s).now = s.now ∧ (markLatch s).freeCount = s.freeCount ∧
    (markLatch s).power = s.power ∧ (markLatch s).standby = s.standby ∧ (markLatch s).decoder = s.decoder ∧
    (markLatch s).sensing = s.sensing ∧ (markLatch s).engine = s.engine ∧ (markLatch s).link = s.link ∧
    (markLatch s).peers = s.peers ∧ (markLatch s).coord = s.coord ∧ (markLatch s).plan = s.plan ∧
    (markLatch s).hold = s.hold ∧ (markLatch s).gate = s.gate ∧ (markLatch s).mem = s.mem ∧
    (markLatch s).port = s.port ∧ (markLatch s).store.scanDone = s.store.scanDone ∧
    (markLatch s).store.tail = s.store.tail ∧ (markLatch s).store.pointer = s.store.pointer ∧
    (markLatch s).store.finalOut = s.store.finalOut ∧ (markLatch s).store.dip = s.store.dip ∧
    (markLatch s).store.retainedLockout = s.store.retainedLockout ∧ (markLatch s).cal.committed = s.cal.committed := by
  simp only [markLatch]; (repeat' split) <;> simp

@[simp] theorem finalLatch_keeps (s : State) :
    (finalLatch s).pending = s.pending ∧ (finalLatch s).now = s.now ∧ (finalLatch s).freeCount = s.freeCount ∧
    (finalLatch s).power = s.power ∧ (finalLatch s).standby = s.standby ∧ (finalLatch s).decoder = s.decoder ∧
    (finalLatch s).sensing = s.sensing ∧ (finalLatch s).engine = s.engine ∧ (finalLatch s).link = s.link ∧
    (finalLatch s).peers = s.peers ∧ (finalLatch s).coord = s.coord ∧ (finalLatch s).plan = s.plan ∧
    (finalLatch s).hold = s.hold ∧ (finalLatch s).gate = s.gate ∧ (finalLatch s).mem = s.mem ∧
    (finalLatch s).port = s.port ∧ (finalLatch s).store.scanDone = s.store.scanDone ∧
    (finalLatch s).store.tail = s.store.tail ∧ (finalLatch s).store.pointer = s.store.pointer ∧
    (finalLatch s).store.retainedLockout = s.store.retainedLockout ∧ (finalLatch s).cal.committed = s.cal.committed := by
  simp [finalLatch]

@[simp] theorem orderlyLatch_keeps (s : State) :
    (orderlyLatch s).pending = s.pending ∧ (orderlyLatch s).now = s.now ∧ (orderlyLatch s).freeCount = s.freeCount ∧
    (orderlyLatch s).power = s.power ∧ (orderlyLatch s).standby = s.standby ∧ (orderlyLatch s).decoder = s.decoder ∧
    (orderlyLatch s).sensing = s.sensing ∧ (orderlyLatch s).engine = s.engine ∧ (orderlyLatch s).link = s.link ∧
    (orderlyLatch s).peers = s.peers ∧ (orderlyLatch s).coord = s.coord ∧ (orderlyLatch s).plan = s.plan ∧
    (orderlyLatch s).hold = s.hold ∧ (orderlyLatch s).gate = s.gate ∧ (orderlyLatch s).mem = s.mem ∧
    (orderlyLatch s).port = s.port ∧ (orderlyLatch s).store.scanDone = s.store.scanDone ∧
    (orderlyLatch s).store.tail = s.store.tail ∧ (orderlyLatch s).store.pointer = s.store.pointer ∧
    (orderlyLatch s).store.finalOut = s.store.finalOut ∧ (orderlyLatch s).store.dip = s.store.dip ∧
    (orderlyLatch s).store.retainedLockout = s.store.retainedLockout ∧
    (orderlyLatch s).cal.committed = s.cal.committed := by
  simp only [orderlyLatch]; (repeat' split) <;> simp

@[simp] theorem planDone_keeps (step : Option Nat) (s : State) :
    (planDone step s).pending = s.pending ∧ (planDone step s).now = s.now ∧
    (planDone step s).freeCount = s.freeCount ∧ (planDone step s).power = s.power ∧
    (planDone step s).standby = s.standby ∧ (planDone step s).decoder = s.decoder ∧
    (planDone step s).sensing = s.sensing ∧ (planDone step s).engine = s.engine ∧ (planDone step s).link = s.link ∧
    (planDone step s).peers = s.peers ∧ (planDone step s).coord = s.coord ∧ (planDone step s).hold = s.hold ∧
    (planDone step s).cal = s.cal ∧ (planDone step s).store = s.store ∧ (planDone step s).mem = s.mem ∧
    (planDone step s).port = s.port ∧ (planDone step s).plan.steps = s.plan.steps ∧
    (planDone step s).plan.isSealed = s.plan.isSealed ∧ (planDone step s).plan.digest = s.plan.digest := by
  simp only [planDone]; (repeat' split) <;> simp

@[simp] theorem planHeld_keeps (step : Option Nat) (s : State) :
    (planHeld step s).pending = s.pending ∧ (planHeld step s).now = s.now ∧
    (planHeld step s).freeCount = s.freeCount ∧ (planHeld step s).power = s.power ∧
    (planHeld step s).standby = s.standby ∧ (planHeld step s).decoder = s.decoder ∧
    (planHeld step s).sensing = s.sensing ∧ (planHeld step s).engine = s.engine ∧ (planHeld step s).link = s.link ∧
    (planHeld step s).peers = s.peers ∧ (planHeld step s).coord = s.coord ∧ (planHeld step s).hold = s.hold ∧
    (planHeld step s).cal = s.cal ∧ (planHeld step s).store = s.store ∧ (planHeld step s).mem = s.mem ∧
    (planHeld step s).port = s.port ∧ (planHeld step s).plan.steps = s.plan.steps ∧
    (planHeld step s).plan.isSealed = s.plan.isSealed ∧ (planHeld step s).plan.digest = s.plan.digest := by
  simp only [planHeld]; (repeat' split) <;> simp

@[simp] theorem planHold_keeps (s : State) :
    (planHold s).pending = s.pending ∧ (planHold s).now = s.now ∧ (planHold s).freeCount = s.freeCount ∧
    (planHold s).power = s.power ∧ (planHold s).standby = s.standby ∧ (planHold s).decoder = s.decoder ∧
    (planHold s).sensing = s.sensing ∧ (planHold s).engine = s.engine ∧ (planHold s).link = s.link ∧
    (planHold s).peers = s.peers ∧ (planHold s).coord = s.coord ∧ (planHold s).hold = s.hold ∧
    (planHold s).gate = s.gate ∧ (planHold s).cal = s.cal ∧ (planHold s).store = s.store ∧ (planHold s).mem = s.mem ∧
    (planHold s).port = s.port ∧ (planHold s).plan.steps = s.plan.steps ∧
    (planHold s).plan.isSealed = s.plan.isSealed ∧ (planHold s).plan.digest = s.plan.digest ∧
    (planHold s).plan.running = s.plan.running := by
  simp only [planHold]; (repeat' split) <;> simp

@[simp] theorem planAbandon_keeps (s : State) :
    (planAbandon s).pending = s.pending ∧ (planAbandon s).now = s.now ∧ (planAbandon s).freeCount = s.freeCount ∧
    (planAbandon s).power = s.power ∧ (planAbandon s).standby = s.standby ∧ (planAbandon s).decoder = s.decoder ∧
    (planAbandon s).sensing = s.sensing ∧ (planAbandon s).engine = s.engine ∧ (planAbandon s).link = s.link ∧
    (planAbandon s).peers = s.peers ∧ (planAbandon s).coord = s.coord ∧ (planAbandon s).hold = s.hold ∧
    (planAbandon s).gate = s.gate ∧ (planAbandon s).cal = s.cal ∧ (planAbandon s).store = s.store ∧
    (planAbandon s).mem = s.mem ∧ (planAbandon s).port = s.port ∧ (planAbandon s).plan.steps = s.plan.steps ∧
    (planAbandon s).plan.isSealed = s.plan.isSealed ∧ (planAbandon s).plan.digest = s.plan.digest := by
  simp [planAbandon]

@[simp] theorem planReset_keeps (s : State) :
    (planReset s).pending = s.pending ∧ (planReset s).now = s.now ∧ (planReset s).freeCount = s.freeCount ∧
    (planReset s).power = s.power ∧ (planReset s).standby = s.standby ∧ (planReset s).decoder = s.decoder ∧
    (planReset s).sensing = s.sensing ∧ (planReset s).engine = s.engine ∧ (planReset s).link = s.link ∧
    (planReset s).peers = s.peers ∧ (planReset s).coord = s.coord ∧ (planReset s).hold = s.hold ∧
    (planReset s).gate = s.gate ∧ (planReset s).cal = s.cal ∧ (planReset s).store = s.store ∧
    (planReset s).mem = s.mem ∧ (planReset s).port = s.port ∧ (planReset s).plan.steps = s.plan.steps ∧
    (planReset s).plan.isSealed = s.plan.isSealed ∧ (planReset s).plan.digest = s.plan.digest := by
  simp [planReset]

@[simp] theorem demote_keeps (s : State) :
    (demote s).pending = s.pending ∧ (demote s).now = s.now ∧ (demote s).freeCount = s.freeCount ∧
    (demote s).power = s.power ∧ (demote s).standby = s.standby ∧ (demote s).decoder = s.decoder ∧
    (demote s).sensing = s.sensing ∧ (demote s).link = s.link ∧ (demote s).peers = s.peers ∧
    (demote s).coord = s.coord ∧ (demote s).plan = s.plan ∧ (demote s).hold = s.hold ∧ (demote s).gate = s.gate ∧
    (demote s).cal = s.cal ∧ (demote s).store = s.store ∧ (demote s).mem = s.mem ∧ (demote s).port = s.port ∧
    (demote s).engine.operation = s.engine.operation ∧ (demote s).engine.order = s.engine.order := by
  simp only [demote]; (repeat' split) <;> simp

@[simp] theorem operationEnded_keeps (s : State) :
    (operationEnded s).pending = s.pending ∧ (operationEnded s).now = s.now ∧
    (operationEnded s).freeCount = s.freeCount ∧ (operationEnded s).power = s.power ∧
    (operationEnded s).standby = s.standby ∧ (operationEnded s).decoder = s.decoder ∧
    (operationEnded s).sensing = s.sensing ∧ (operationEnded s).link = s.link ∧ (operationEnded s).peers = s.peers ∧
    (operationEnded s).coord = s.coord ∧ (operationEnded s).hold = s.hold ∧ (operationEnded s).gate = s.gate ∧
    (operationEnded s).cal = s.cal ∧ (operationEnded s).store = s.store ∧ (operationEnded s).mem = s.mem ∧
    (operationEnded s).port = s.port ∧ (operationEnded s).plan.steps = s.plan.steps ∧
    (operationEnded s).plan.isSealed = s.plan.isSealed ∧ (operationEnded s).plan.digest = s.plan.digest ∧
    (operationEnded s).plan.running = s.plan.running ∧ (operationEnded s).engine.operation = s.engine.operation ∧
    (operationEnded s).engine.order = s.engine.order := by
  simp only [operationEnded]; (repeat' split) <;> simp

@[simp] theorem useDropMotion_keeps (s : State) :
    (useDropMotion s).pending = s.pending ∧ (useDropMotion s).now = s.now ∧
    (useDropMotion s).freeCount = s.freeCount ∧ (useDropMotion s).power = s.power ∧
    (useDropMotion s).standby = s.standby ∧ (useDropMotion s).decoder = s.decoder ∧
    (useDropMotion s).sensing = s.sensing ∧ (useDropMotion s).link = s.link ∧ (useDropMotion s).peers = s.peers ∧
    (useDropMotion s).coord = s.coord ∧ (useDropMotion s).hold = s.hold ∧ (useDropMotion s).gate = s.gate ∧
    (useDropMotion s).cal = s.cal ∧ (useDropMotion s).store = s.store ∧ (useDropMotion s).mem = s.mem ∧
    (useDropMotion s).port = s.port ∧ (useDropMotion s).plan.steps = s.plan.steps ∧
    (useDropMotion s).plan.isSealed = s.plan.isSealed ∧ (useDropMotion s).plan.digest = s.plan.digest ∧
    (useDropMotion s).plan.running = s.plan.running ∧ (useDropMotion s).engine.operation = s.engine.operation ∧
    (useDropMotion s).engine.order = s.engine.order := by
  simp only [useDropMotion]; (repeat' split) <;> simp

@[simp] theorem noteDropMotion_keeps (s : State) :
    (noteDropMotion s).pending = s.pending ∧ (noteDropMotion s).now = s.now ∧
    (noteDropMotion s).freeCount = s.freeCount ∧ (noteDropMotion s).power = s.power ∧
    (noteDropMotion s).standby = s.standby ∧ (noteDropMotion s).decoder = s.decoder ∧
    (noteDropMotion s).sensing = s.sensing ∧ (noteDropMotion s).engine = s.engine ∧
    (noteDropMotion s).link = s.link ∧ (noteDropMotion s).peers = s.peers ∧ (noteDropMotion s).coord = s.coord ∧
    (noteDropMotion s).hold = s.hold ∧ (noteDropMotion s).gate = s.gate ∧ (noteDropMotion s).cal = s.cal ∧
    (noteDropMotion s).store = s.store ∧ (noteDropMotion s).mem = s.mem ∧ (noteDropMotion s).port = s.port ∧
    (noteDropMotion s).plan.steps = s.plan.steps ∧ (noteDropMotion s).plan.isSealed = s.plan.isSealed ∧
    (noteDropMotion s).plan.digest = s.plan.digest ∧ (noteDropMotion s).plan.running = s.plan.running := by
  simp only [noteDropMotion]; (repeat' split) <;> simp

@[simp] theorem seekFinish_keeps (c : SeekContext) (s : State) :
    (seekFinish c s).pending = s.pending ∧ (seekFinish c s).now = s.now ∧ (seekFinish c s).freeCount = s.freeCount ∧
    (seekFinish c s).power = s.power ∧ (seekFinish c s).standby = s.standby ∧ (seekFinish c s).decoder = s.decoder ∧
    (seekFinish c s).sensing = s.sensing ∧ (seekFinish c s).link = s.link ∧ (seekFinish c s).peers = s.peers ∧
    (seekFinish c s).coord = s.coord ∧ (seekFinish c s).hold = s.hold ∧ (seekFinish c s).gate = s.gate ∧
    (seekFinish c s).cal = s.cal ∧ (seekFinish c s).store = s.store ∧ (seekFinish c s).mem = s.mem ∧
    (seekFinish c s).plan.steps = s.plan.steps ∧ (seekFinish c s).plan.isSealed = s.plan.isSealed ∧
    (seekFinish c s).plan.digest = s.plan.digest ∧ (seekFinish c s).plan.running = s.plan.running ∧
    (seekFinish c s).port.config = s.port.config ∧ (seekFinish c s).port.configDigest = s.port.configDigest ∧
    (seekFinish c s).port.receiving = s.port.receiving ∧ (seekFinish c s).port.resetArmed = s.port.resetArmed ∧
    (seekFinish c s).port.response = s.port.response := by
  simp [seekFinish]

@[simp] theorem seekReturnHeld_keeps (c : SeekContext) (s : State) :
    (seekReturnHeld c s).pending = s.pending ∧ (seekReturnHeld c s).now = s.now ∧
    (seekReturnHeld c s).freeCount = s.freeCount ∧ (seekReturnHeld c s).power = s.power ∧
    (seekReturnHeld c s).standby = s.standby ∧ (seekReturnHeld c s).decoder = s.decoder ∧
    (seekReturnHeld c s).sensing = s.sensing ∧ (seekReturnHeld c s).link = s.link ∧
    (seekReturnHeld c s).peers = s.peers ∧ (seekReturnHeld c s).coord = s.coord ∧
    (seekReturnHeld c s).hold = s.hold ∧ (seekReturnHeld c s).cal = s.cal ∧ (seekReturnHeld c s).store = s.store ∧
    (seekReturnHeld c s).mem = s.mem ∧ (seekReturnHeld c s).plan.steps = s.plan.steps ∧
    (seekReturnHeld c s).plan.isSealed = s.plan.isSealed ∧ (seekReturnHeld c s).plan.digest = s.plan.digest ∧
    (seekReturnHeld c s).port.config = s.port.config ∧ (seekReturnHeld c s).port.configDigest = s.port.configDigest ∧
    (seekReturnHeld c s).port.receiving = s.port.receiving ∧
    (seekReturnHeld c s).port.resetArmed = s.port.resetArmed ∧ (seekReturnHeld c s).port.response = s.port.response := by
  simp [seekReturnHeld]

@[simp] theorem surveyFinish_keeps (c : SurveyContext) (o : SurveyOutcome) (filled : Bool) (s : State) :
    (surveyFinish c o filled s).pending = s.pending ∧ (surveyFinish c o filled s).now = s.now ∧
    (surveyFinish c o filled s).freeCount = s.freeCount ∧ (surveyFinish c o filled s).power = s.power ∧
    (surveyFinish c o filled s).standby = s.standby ∧ (surveyFinish c o filled s).decoder = s.decoder ∧
    (surveyFinish c o filled s).sensing = s.sensing ∧ (surveyFinish c o filled s).link = s.link ∧
    (surveyFinish c o filled s).peers = s.peers ∧ (surveyFinish c o filled s).coord = s.coord ∧
    (surveyFinish c o filled s).hold = s.hold ∧ (surveyFinish c o filled s).store = s.store ∧
    (surveyFinish c o filled s).mem = s.mem ∧ (surveyFinish c o filled s).plan.steps = s.plan.steps ∧
    (surveyFinish c o filled s).plan.isSealed = s.plan.isSealed ∧
    (surveyFinish c o filled s).plan.digest = s.plan.digest ∧
    (surveyFinish c o filled s).plan.running = s.plan.running ∧
    (surveyFinish c o filled s).port.config = s.port.config ∧
    (surveyFinish c o filled s).port.configDigest = s.port.configDigest ∧
    (surveyFinish c o filled s).port.receiving = s.port.receiving ∧
    (surveyFinish c o filled s).port.resetArmed = s.port.resetArmed ∧
    (surveyFinish c o filled s).port.response = s.port.response ∧
    (surveyFinish c o filled s).cal.committed = s.cal.committed ∧
    (surveyFinish c o filled s).cal.staged = s.cal.staged := by
  simp [surveyFinish]

@[simp] theorem surveyReturn_keeps (c : SurveyContext) (e : SurveyEnd) (s : State) :
    (surveyReturn c e s).pending = s.pending ∧ (surveyReturn c e s).now = s.now ∧
    (surveyReturn c e s).freeCount = s.freeCount ∧ (surveyReturn c e s).power = s.power ∧
    (surveyReturn c e s).standby = s.standby ∧ (surveyReturn c e s).decoder = s.decoder ∧
    (surveyReturn c e s).sensing = s.sensing ∧ (surveyReturn c e s).peers = s.peers ∧
    (surveyReturn c e s).coord = s.coord ∧ (surveyReturn c e s).store = s.store ∧ (surveyReturn c e s).mem = s.mem ∧
    (surveyReturn c e s).link.station = s.link.station ∧ (surveyReturn c e s).link.state = s.link.state ∧
    (surveyReturn c e s).link.timed = s.link.timed ∧ (surveyReturn c e s).link.cycle = s.link.cycle ∧
    (surveyReturn c e s).link.cycleStart = s.link.cycleStart ∧ (surveyReturn c e s).link.muted = s.link.muted ∧
    (surveyReturn c e s).link.mismatches = s.link.mismatches ∧ (surveyReturn c e s).link.tx = s.link.tx ∧
    (surveyReturn c e s).link.offsets = s.link.offsets ∧
    (surveyReturn c e s).link.acceptedInCycle = s.link.acceptedInCycle ∧
    (surveyReturn c e s).link.foreignInCycle = s.link.foreignInCycle ∧
    (surveyReturn c e s).link.listenSince = s.link.listenSince ∧ (surveyReturn c e s).hold.level = s.hold.level ∧
    (surveyReturn c e s).hold.complete = s.hold.complete ∧ (surveyReturn c e s).hold.seq = s.hold.seq ∧
    (surveyReturn c e s).hold.keyCount = s.hold.keyCount ∧ (surveyReturn c e s).hold.lockClear = s.hold.lockClear ∧
    (surveyReturn c e s).hold.lockClearLeft = s.hold.lockClearLeft ∧ (surveyReturn c e s).plan.steps = s.plan.steps ∧
    (surveyReturn c e s).plan.isSealed = s.plan.isSealed ∧ (surveyReturn c e s).plan.digest = s.plan.digest ∧
    (surveyReturn c e s).plan.running = s.plan.running ∧ (surveyReturn c e s).port.config = s.port.config ∧
    (surveyReturn c e s).port.configDigest = s.port.configDigest ∧
    (surveyReturn c e s).port.receiving = s.port.receiving ∧
    (surveyReturn c e s).port.resetArmed = s.port.resetArmed ∧ (surveyReturn c e s).port.response = s.port.response ∧
    (surveyReturn c e s).cal.committed = s.cal.committed ∧ (surveyReturn c e s).cal.staged = s.cal.staged := by
  simp only [surveyReturn]; (repeat' split) <;> simp

@[simp] theorem engineHold_keeps (s : State) :
    (engineHold s).pending = s.pending ∧ (engineHold s).now = s.now ∧ (engineHold s).freeCount = s.freeCount ∧
    (engineHold s).power = s.power ∧ (engineHold s).standby = s.standby ∧ (engineHold s).decoder = s.decoder ∧
    (engineHold s).sensing = s.sensing ∧ (engineHold s).peers = s.peers ∧ (engineHold s).coord = s.coord ∧
    (engineHold s).store = s.store ∧ (engineHold s).mem = s.mem ∧ (engineHold s).link.station = s.link.station ∧
    (engineHold s).link.state = s.link.state ∧ (engineHold s).link.timed = s.link.timed ∧
    (engineHold s).link.cycle = s.link.cycle ∧ (engineHold s).link.cycleStart = s.link.cycleStart ∧
    (engineHold s).link.muted = s.link.muted ∧ (engineHold s).link.mismatches = s.link.mismatches ∧
    (engineHold s).link.tx = s.link.tx ∧ (engineHold s).link.offsets = s.link.offsets ∧
    (engineHold s).link.acceptedInCycle = s.link.acceptedInCycle ∧
    (engineHold s).link.foreignInCycle = s.link.foreignInCycle ∧
    (engineHold s).link.listenSince = s.link.listenSince ∧ (engineHold s).hold.level = s.hold.level ∧
    (engineHold s).hold.complete = s.hold.complete ∧ (engineHold s).hold.seq = s.hold.seq ∧
    (engineHold s).hold.keyCount = s.hold.keyCount ∧ (engineHold s).hold.lockClear = s.hold.lockClear ∧
    (engineHold s).hold.lockClearLeft = s.hold.lockClearLeft ∧ (engineHold s).plan.steps = s.plan.steps ∧
    (engineHold s).plan.isSealed = s.plan.isSealed ∧ (engineHold s).plan.digest = s.plan.digest ∧
    (engineHold s).port.config = s.port.config ∧ (engineHold s).port.configDigest = s.port.configDigest ∧
    (engineHold s).port.receiving = s.port.receiving ∧ (engineHold s).port.resetArmed = s.port.resetArmed ∧
    (engineHold s).port.response = s.port.response ∧ (engineHold s).cal.committed = s.cal.committed ∧
    (engineHold s).cal.staged = s.cal.staged := by
  simp only [engineHold]; (repeat' split) <;> simp

@[simp] theorem sightingUpdate_keeps (s : State) :
    (sightingUpdate s).pending = s.pending ∧ (sightingUpdate s).now = s.now ∧
    (sightingUpdate s).freeCount = s.freeCount ∧ (sightingUpdate s).power = s.power ∧
    (sightingUpdate s).standby = s.standby ∧ (sightingUpdate s).decoder = s.decoder ∧
    (sightingUpdate s).sensing = s.sensing ∧ (sightingUpdate s).engine = s.engine ∧
    (sightingUpdate s).link = s.link ∧ (sightingUpdate s).peers = s.peers ∧ (sightingUpdate s).coord = s.coord ∧
    (sightingUpdate s).plan = s.plan ∧ (sightingUpdate s).hold = s.hold ∧ (sightingUpdate s).gate = s.gate ∧
    (sightingUpdate s).store = s.store ∧ (sightingUpdate s).mem = s.mem ∧ (sightingUpdate s).port = s.port ∧
    (sightingUpdate s).cal.committed = s.cal.committed ∧ (sightingUpdate s).cal.staged = s.cal.staged := by
  simp only [sightingUpdate]; (repeat' split) <;> simp

@[simp] theorem endProposal_keeps (detail : Option Int) (s : State) :
    (endProposal detail s).pending = s.pending ∧ (endProposal detail s).now = s.now ∧
    (endProposal detail s).freeCount = s.freeCount ∧ (endProposal detail s).power = s.power ∧
    (endProposal detail s).standby = s.standby ∧ (endProposal detail s).decoder = s.decoder ∧
    (endProposal detail s).sensing = s.sensing ∧ (endProposal detail s).engine = s.engine ∧
    (endProposal detail s).peers = s.peers ∧ (endProposal detail s).coord = s.coord ∧
    (endProposal detail s).plan = s.plan ∧ (endProposal detail s).gate = s.gate ∧
    (endProposal detail s).store = s.store ∧ (endProposal detail s).mem = s.mem ∧
    (endProposal detail s).link.station = s.link.station ∧ (endProposal detail s).link.state = s.link.state ∧
    (endProposal detail s).link.timed = s.link.timed ∧ (endProposal detail s).link.cycle = s.link.cycle ∧
    (endProposal detail s).link.cycleStart = s.link.cycleStart ∧ (endProposal detail s).link.muted = s.link.muted ∧
    (endProposal detail s).link.mismatches = s.link.mismatches ∧ (endProposal detail s).link.tx = s.link.tx ∧
    (endProposal detail s).link.offsets = s.link.offsets ∧
    (endProposal detail s).link.acceptedInCycle = s.link.acceptedInCycle ∧
    (endProposal detail s).link.foreignInCycle = s.link.foreignInCycle ∧
    (endProposal detail s).link.listenSince = s.link.listenSince ∧ (endProposal detail s).hold.level = s.hold.level ∧
    (endProposal detail s).hold.complete = s.hold.complete ∧ (endProposal detail s).hold.seq = s.hold.seq ∧
    (endProposal detail s).hold.keyCount = s.hold.keyCount ∧
    (endProposal detail s).hold.lockClear = s.hold.lockClear ∧
    (endProposal detail s).hold.lockClearLeft = s.hold.lockClearLeft ∧
    (endProposal detail s).port.config = s.port.config ∧
    (endProposal detail s).port.configDigest = s.port.configDigest ∧
    (endProposal detail s).port.receiving = s.port.receiving ∧
    (endProposal detail s).port.resetArmed = s.port.resetArmed ∧
    (endProposal detail s).port.response = s.port.response ∧ (endProposal detail s).cal.committed = s.cal.committed ∧
    (endProposal detail s).cal.staged = s.cal.staged := by
  simp only [endProposal]; (repeat' split) <;> simp

@[simp] theorem withdrawProposal_keeps (detail : Int) (s : State) :
    (withdrawProposal detail s).pending = s.pending ∧ (withdrawProposal detail s).now = s.now ∧
    (withdrawProposal detail s).freeCount = s.freeCount ∧ (withdrawProposal detail s).power = s.power ∧
    (withdrawProposal detail s).standby = s.standby ∧ (withdrawProposal detail s).decoder = s.decoder ∧
    (withdrawProposal detail s).sensing = s.sensing ∧ (withdrawProposal detail s).engine = s.engine ∧
    (withdrawProposal detail s).peers = s.peers ∧ (withdrawProposal detail s).coord = s.coord ∧
    (withdrawProposal detail s).plan = s.plan ∧ (withdrawProposal detail s).gate = s.gate ∧
    (withdrawProposal detail s).store = s.store ∧ (withdrawProposal detail s).mem = s.mem ∧
    (withdrawProposal detail s).link.station = s.link.station ∧
    (withdrawProposal detail s).link.state = s.link.state ∧ (withdrawProposal detail s).link.timed = s.link.timed ∧
    (withdrawProposal detail s).link.cycle = s.link.cycle ∧
    (withdrawProposal detail s).link.cycleStart = s.link.cycleStart ∧
    (withdrawProposal detail s).link.muted = s.link.muted ∧
    (withdrawProposal detail s).link.mismatches = s.link.mismatches ∧
    (withdrawProposal detail s).link.tx = s.link.tx ∧ (withdrawProposal detail s).link.offsets = s.link.offsets ∧
    (withdrawProposal detail s).link.acceptedInCycle = s.link.acceptedInCycle ∧
    (withdrawProposal detail s).link.foreignInCycle = s.link.foreignInCycle ∧
    (withdrawProposal detail s).link.listenSince = s.link.listenSince ∧
    (withdrawProposal detail s).hold.level = s.hold.level ∧
    (withdrawProposal detail s).hold.complete = s.hold.complete ∧ (withdrawProposal detail s).hold.seq = s.hold.seq ∧
    (withdrawProposal detail s).hold.keyCount = s.hold.keyCount ∧
    (withdrawProposal detail s).hold.lockClear = s.hold.lockClear ∧
    (withdrawProposal detail s).hold.lockClearLeft = s.hold.lockClearLeft ∧
    (withdrawProposal detail s).port.config = s.port.config ∧
    (withdrawProposal detail s).port.configDigest = s.port.configDigest ∧
    (withdrawProposal detail s).port.receiving = s.port.receiving ∧
    (withdrawProposal detail s).port.resetArmed = s.port.resetArmed ∧
    (withdrawProposal detail s).port.response = s.port.response ∧
    (withdrawProposal detail s).cal.committed = s.cal.committed ∧
    (withdrawProposal detail s).cal.staged = s.cal.staged := by
  simp only [withdrawProposal]; (repeat' split) <;> simp

@[simp] theorem stageTest_keeps (s : State) :
    (stageTest s).pending = s.pending ∧ (stageTest s).now = s.now ∧ (stageTest s).freeCount = s.freeCount ∧
    (stageTest s).power = s.power ∧ (stageTest s).standby = s.standby ∧ (stageTest s).decoder = s.decoder ∧
    (stageTest s).sensing = s.sensing ∧ (stageTest s).engine = s.engine ∧ (stageTest s).link = s.link ∧
    (stageTest s).peers = s.peers ∧ (stageTest s).coord = s.coord ∧ (stageTest s).plan = s.plan ∧
    (stageTest s).hold = s.hold ∧ (stageTest s).gate = s.gate ∧ (stageTest s).mem = s.mem ∧
    (stageTest s).port = s.port ∧ (stageTest s).store.scanDone = s.store.scanDone ∧
    (stageTest s).store.tail = s.store.tail ∧ (stageTest s).store.pointer = s.store.pointer ∧
    (stageTest s).store.lastTag = s.store.lastTag ∧ (stageTest s).store.finalOut = s.store.finalOut ∧
    (stageTest s).store.dip = s.store.dip ∧ (stageTest s).store.retainedLockout = s.store.retainedLockout ∧
    (stageTest s).cal.committed = s.cal.committed := by
  simp only [stageTest]; (repeat' split) <;> simp

@[simp] theorem postFlip_keeps (s : State) :
    (postFlip s).pending = s.pending ∧ (postFlip s).now = s.now ∧ (postFlip s).freeCount = s.freeCount ∧
    (postFlip s).power = s.power ∧ (postFlip s).standby = s.standby ∧ (postFlip s).decoder = s.decoder ∧
    (postFlip s).sensing = s.sensing ∧ (postFlip s).engine = s.engine ∧ (postFlip s).link = s.link ∧
    (postFlip s).peers = s.peers ∧ (postFlip s).coord = s.coord ∧ (postFlip s).plan = s.plan ∧
    (postFlip s).hold = s.hold ∧ (postFlip s).gate = s.gate ∧ (postFlip s).mem = s.mem ∧ (postFlip s).port = s.port ∧
    (postFlip s).store.scanDone = s.store.scanDone ∧ (postFlip s).store.tail = s.store.tail ∧
    (postFlip s).store.pointer = s.store.pointer ∧ (postFlip s).store.lastTag = s.store.lastTag ∧
    (postFlip s).store.finalOut = s.store.finalOut ∧ (postFlip s).store.dip = s.store.dip ∧
    (postFlip s).store.retainedLockout = s.store.retainedLockout ∧ (postFlip s).cal.committed = s.cal.committed := by
  simp [postFlip]

@[simp] theorem flipTest_keeps (s : State) :
    (flipTest s).pending = s.pending ∧ (flipTest s).now = s.now ∧ (flipTest s).freeCount = s.freeCount ∧
    (flipTest s).power = s.power ∧ (flipTest s).standby = s.standby ∧ (flipTest s).decoder = s.decoder ∧
    (flipTest s).sensing = s.sensing ∧ (flipTest s).engine = s.engine ∧ (flipTest s).link = s.link ∧
    (flipTest s).peers = s.peers ∧ (flipTest s).coord = s.coord ∧ (flipTest s).plan = s.plan ∧
    (flipTest s).hold = s.hold ∧ (flipTest s).gate = s.gate ∧ (flipTest s).mem = s.mem ∧ (flipTest s).port = s.port ∧
    (flipTest s).store.scanDone = s.store.scanDone ∧ (flipTest s).store.tail = s.store.tail ∧
    (flipTest s).store.pointer = s.store.pointer ∧ (flipTest s).store.lastTag = s.store.lastTag ∧
    (flipTest s).store.finalOut = s.store.finalOut ∧ (flipTest s).store.dip = s.store.dip ∧
    (flipTest s).store.retainedLockout = s.store.retainedLockout ∧ (flipTest s).cal.committed = s.cal.committed := by
  simp only [flipTest]; (repeat' split) <;> simp

@[simp] theorem rollForwardOn_keeps (r : StatusRecord) (s : State) :
    (rollForwardOn r s).pending = s.pending ∧ (rollForwardOn r s).now = s.now ∧
    (rollForwardOn r s).freeCount = s.freeCount ∧ (rollForwardOn r s).power = s.power ∧
    (rollForwardOn r s).standby = s.standby ∧ (rollForwardOn r s).decoder = s.decoder ∧
    (rollForwardOn r s).sensing = s.sensing ∧ (rollForwardOn r s).engine = s.engine ∧
    (rollForwardOn r s).link = s.link ∧ (rollForwardOn r s).peers = s.peers ∧ (rollForwardOn r s).coord = s.coord ∧
    (rollForwardOn r s).plan = s.plan ∧ (rollForwardOn r s).hold = s.hold ∧ (rollForwardOn r s).gate = s.gate ∧
    (rollForwardOn r s).mem = s.mem ∧ (rollForwardOn r s).port = s.port ∧
    (rollForwardOn r s).store.scanDone = s.store.scanDone ∧ (rollForwardOn r s).store.tail = s.store.tail ∧
    (rollForwardOn r s).store.pointer = s.store.pointer ∧ (rollForwardOn r s).store.lastTag = s.store.lastTag ∧
    (rollForwardOn r s).store.finalOut = s.store.finalOut ∧ (rollForwardOn r s).store.dip = s.store.dip ∧
    (rollForwardOn r s).store.retainedLockout = s.store.retainedLockout ∧
    (rollForwardOn r s).cal.committed = s.cal.committed := by
  simp only [rollForwardOn]; (repeat' split) <;> simp

@[simp] theorem rollForwardTable_keeps (s : State) :
    (rollForwardTable s).pending = s.pending ∧ (rollForwardTable s).now = s.now ∧
    (rollForwardTable s).freeCount = s.freeCount ∧ (rollForwardTable s).power = s.power ∧
    (rollForwardTable s).standby = s.standby ∧ (rollForwardTable s).decoder = s.decoder ∧
    (rollForwardTable s).sensing = s.sensing ∧ (rollForwardTable s).engine = s.engine ∧
    (rollForwardTable s).link = s.link ∧ (rollForwardTable s).peers = s.peers ∧
    (rollForwardTable s).coord = s.coord ∧ (rollForwardTable s).plan = s.plan ∧ (rollForwardTable s).hold = s.hold ∧
    (rollForwardTable s).gate = s.gate ∧ (rollForwardTable s).mem = s.mem ∧ (rollForwardTable s).port = s.port ∧
    (rollForwardTable s).store.scanDone = s.store.scanDone ∧ (rollForwardTable s).store.tail = s.store.tail ∧
    (rollForwardTable s).store.pointer = s.store.pointer ∧ (rollForwardTable s).store.lastTag = s.store.lastTag ∧
    (rollForwardTable s).store.finalOut = s.store.finalOut ∧ (rollForwardTable s).store.dip = s.store.dip ∧
    (rollForwardTable s).store.retainedLockout = s.store.retainedLockout ∧
    (rollForwardTable s).cal.committed = s.cal.committed := by
  simp only [rollForwardTable]; (repeat' split) <;> simp

@[simp] theorem proposalSuccess_keeps (s : State) :
    (proposalSuccess s).pending = s.pending ∧ (proposalSuccess s).now = s.now ∧
    (proposalSuccess s).freeCount = s.freeCount ∧ (proposalSuccess s).power = s.power ∧
    (proposalSuccess s).standby = s.standby ∧ (proposalSuccess s).decoder = s.decoder ∧
    (proposalSuccess s).sensing = s.sensing ∧ (proposalSuccess s).engine = s.engine ∧
    (proposalSuccess s).peers = s.peers ∧ (proposalSuccess s).coord = s.coord ∧ (proposalSuccess s).plan = s.plan ∧
    (proposalSuccess s).gate = s.gate ∧ (proposalSuccess s).store = s.store ∧ (proposalSuccess s).mem = s.mem ∧
    (proposalSuccess s).link.station = s.link.station ∧ (proposalSuccess s).link.state = s.link.state ∧
    (proposalSuccess s).link.timed = s.link.timed ∧ (proposalSuccess s).link.cycle = s.link.cycle ∧
    (proposalSuccess s).link.cycleStart = s.link.cycleStart ∧ (proposalSuccess s).link.muted = s.link.muted ∧
    (proposalSuccess s).link.mismatches = s.link.mismatches ∧ (proposalSuccess s).link.tx = s.link.tx ∧
    (proposalSuccess s).link.offsets = s.link.offsets ∧
    (proposalSuccess s).link.acceptedInCycle = s.link.acceptedInCycle ∧
    (proposalSuccess s).link.foreignInCycle = s.link.foreignInCycle ∧
    (proposalSuccess s).link.listenSince = s.link.listenSince ∧ (proposalSuccess s).hold.level = s.hold.level ∧
    (proposalSuccess s).hold.complete = s.hold.complete ∧ (proposalSuccess s).hold.seq = s.hold.seq ∧
    (proposalSuccess s).hold.keyCount = s.hold.keyCount ∧ (proposalSuccess s).hold.lockClear = s.hold.lockClear ∧
    (proposalSuccess s).hold.lockClearLeft = s.hold.lockClearLeft ∧ (proposalSuccess s).port.config = s.port.config ∧
    (proposalSuccess s).port.configDigest = s.port.configDigest ∧
    (proposalSuccess s).port.receiving = s.port.receiving ∧ (proposalSuccess s).port.resetArmed = s.port.resetArmed ∧
    (proposalSuccess s).port.response = s.port.response ∧ (proposalSuccess s).cal.committed = s.cal.committed ∧
    (proposalSuccess s).cal.staged = s.cal.staged := by
  simp only [proposalSuccess]; (repeat' split) <;> simp

@[simp] theorem changeSeq_keeps (q : BitVec 16) (s : State) :
    (changeSeq q s).pending = s.pending ∧ (changeSeq q s).now = s.now ∧ (changeSeq q s).freeCount = s.freeCount ∧
    (changeSeq q s).power = s.power ∧ (changeSeq q s).standby = s.standby ∧ (changeSeq q s).decoder = s.decoder ∧
    (changeSeq q s).sensing = s.sensing ∧ (changeSeq q s).engine = s.engine ∧ (changeSeq q s).link = s.link ∧
    (changeSeq q s).peers = s.peers ∧ (changeSeq q s).coord = s.coord ∧ (changeSeq q s).plan = s.plan ∧
    (changeSeq q s).gate = s.gate ∧ (changeSeq q s).cal = s.cal ∧ (changeSeq q s).mem = s.mem ∧
    (changeSeq q s).hold.level = s.hold.level ∧ (changeSeq q s).hold.complete = s.hold.complete ∧
    (changeSeq q s).hold.keyCount = s.hold.keyCount ∧ (changeSeq q s).hold.faults = s.hold.faults ∧
    (changeSeq q s).hold.lockClear = s.hold.lockClear ∧ (changeSeq q s).hold.lockClearLeft = s.hold.lockClearLeft ∧
    (changeSeq q s).store.scanDone = s.store.scanDone ∧ (changeSeq q s).store.port = s.store.port ∧
    (changeSeq q s).store.tail = s.store.tail ∧ (changeSeq q s).store.pointer = s.store.pointer ∧
    (changeSeq q s).store.lastTag = s.store.lastTag ∧ (changeSeq q s).store.finalOut = s.store.finalOut ∧
    (changeSeq q s).store.dip = s.store.dip ∧ (changeSeq q s).store.retainedLockout = s.store.retainedLockout ∧
    (changeSeq q s).port.config = s.port.config ∧ (changeSeq q s).port.configDigest = s.port.configDigest ∧
    (changeSeq q s).port.receiving = s.port.receiving ∧ (changeSeq q s).port.resetArmed = s.port.resetArmed ∧
    (changeSeq q s).port.response = s.port.response := by
  simp only [changeSeq]; (repeat' split) <;> simp

@[simp] theorem setLevel_keeps (l : HoldLevel) (s : State) :
    (setLevel l s).pending = s.pending ∧ (setLevel l s).now = s.now ∧ (setLevel l s).freeCount = s.freeCount ∧
    (setLevel l s).power = s.power ∧ (setLevel l s).standby = s.standby ∧ (setLevel l s).decoder = s.decoder ∧
    (setLevel l s).sensing = s.sensing ∧ (setLevel l s).engine = s.engine ∧ (setLevel l s).link = s.link ∧
    (setLevel l s).peers = s.peers ∧ (setLevel l s).coord = s.coord ∧ (setLevel l s).plan = s.plan ∧
    (setLevel l s).gate = s.gate ∧ (setLevel l s).cal = s.cal ∧ (setLevel l s).store = s.store ∧
    (setLevel l s).mem = s.mem ∧ (setLevel l s).hold.complete = s.hold.complete ∧
    (setLevel l s).hold.seq = s.hold.seq ∧ (setLevel l s).hold.keyCount = s.hold.keyCount ∧
    (setLevel l s).hold.faults = s.hold.faults ∧ (setLevel l s).hold.lockClear = s.hold.lockClear ∧
    (setLevel l s).hold.lockClearLeft = s.hold.lockClearLeft ∧ (setLevel l s).port.config = s.port.config ∧
    (setLevel l s).port.configDigest = s.port.configDigest ∧ (setLevel l s).port.receiving = s.port.receiving ∧
    (setLevel l s).port.resetArmed = s.port.resetArmed ∧ (setLevel l s).port.response = s.port.response := by
  simp only [setLevel]; (repeat' split) <;> simp

@[simp] theorem setComplete_keeps (b : Bool) (s : State) :
    (setComplete b s).pending = s.pending ∧ (setComplete b s).now = s.now ∧
    (setComplete b s).freeCount = s.freeCount ∧ (setComplete b s).power = s.power ∧
    (setComplete b s).standby = s.standby ∧ (setComplete b s).decoder = s.decoder ∧
    (setComplete b s).sensing = s.sensing ∧ (setComplete b s).engine = s.engine ∧ (setComplete b s).link = s.link ∧
    (setComplete b s).peers = s.peers ∧ (setComplete b s).coord = s.coord ∧ (setComplete b s).plan = s.plan ∧
    (setComplete b s).gate = s.gate ∧ (setComplete b s).cal = s.cal ∧ (setComplete b s).store = s.store ∧
    (setComplete b s).mem = s.mem ∧ (setComplete b s).hold.level = s.hold.level ∧
    (setComplete b s).hold.seq = s.hold.seq ∧ (setComplete b s).hold.keyCount = s.hold.keyCount ∧
    (setComplete b s).hold.faults = s.hold.faults ∧ (setComplete b s).hold.lockClear = s.hold.lockClear ∧
    (setComplete b s).hold.lockClearLeft = s.hold.lockClearLeft ∧ (setComplete b s).port.config = s.port.config ∧
    (setComplete b s).port.configDigest = s.port.configDigest ∧ (setComplete b s).port.receiving = s.port.receiving ∧
    (setComplete b s).port.resetArmed = s.port.resetArmed ∧ (setComplete b s).port.response = s.port.response := by
  simp only [setComplete]; (repeat' split) <;> simp

@[simp] theorem setCause_keeps (cause : Byte) (origin : Station) (s : State) :
    (setCause cause origin s).pending = s.pending ∧ (setCause cause origin s).now = s.now ∧
    (setCause cause origin s).freeCount = s.freeCount ∧ (setCause cause origin s).power = s.power ∧
    (setCause cause origin s).standby = s.standby ∧ (setCause cause origin s).decoder = s.decoder ∧
    (setCause cause origin s).sensing = s.sensing ∧ (setCause cause origin s).engine = s.engine ∧
    (setCause cause origin s).link = s.link ∧ (setCause cause origin s).peers = s.peers ∧
    (setCause cause origin s).coord = s.coord ∧ (setCause cause origin s).plan = s.plan ∧
    (setCause cause origin s).gate = s.gate ∧ (setCause cause origin s).cal = s.cal ∧
    (setCause cause origin s).store = s.store ∧ (setCause cause origin s).mem = s.mem ∧
    (setCause cause origin s).port = s.port ∧ (setCause cause origin s).hold.level = s.hold.level ∧
    (setCause cause origin s).hold.complete = s.hold.complete ∧ (setCause cause origin s).hold.seq = s.hold.seq ∧
    (setCause cause origin s).hold.keyCount = s.hold.keyCount ∧
    (setCause cause origin s).hold.faults = s.hold.faults ∧
    (setCause cause origin s).hold.lockClear = s.hold.lockClear ∧
    (setCause cause origin s).hold.lockClearLeft = s.hold.lockClearLeft := by
  simp [setCause]

@[simp] theorem newHold_keeps (l : HoldLevel) (cause : Byte) (s : State) :
    (newHold l cause s).pending = s.pending ∧ (newHold l cause s).now = s.now ∧
    (newHold l cause s).freeCount = s.freeCount ∧ (newHold l cause s).power = s.power ∧
    (newHold l cause s).standby = s.standby ∧ (newHold l cause s).decoder = s.decoder ∧
    (newHold l cause s).sensing = s.sensing ∧ (newHold l cause s).engine = s.engine ∧
    (newHold l cause s).link = s.link ∧ (newHold l cause s).peers = s.peers ∧ (newHold l cause s).coord = s.coord ∧
    (newHold l cause s).plan = s.plan ∧ (newHold l cause s).gate = s.gate ∧ (newHold l cause s).cal = s.cal ∧
    (newHold l cause s).mem = s.mem ∧ (newHold l cause s).hold.complete = s.hold.complete ∧
    (newHold l cause s).hold.keyCount = s.hold.keyCount ∧ (newHold l cause s).hold.faults = s.hold.faults ∧
    (newHold l cause s).hold.lockClear = s.hold.lockClear ∧
    (newHold l cause s).hold.lockClearLeft = s.hold.lockClearLeft ∧
    (newHold l cause s).store.scanDone = s.store.scanDone ∧ (newHold l cause s).store.port = s.store.port ∧
    (newHold l cause s).store.tail = s.store.tail ∧ (newHold l cause s).store.pointer = s.store.pointer ∧
    (newHold l cause s).store.lastTag = s.store.lastTag ∧ (newHold l cause s).store.finalOut = s.store.finalOut ∧
    (newHold l cause s).store.dip = s.store.dip ∧
    (newHold l cause s).store.retainedLockout = s.store.retainedLockout ∧
    (newHold l cause s).port.config = s.port.config ∧ (newHold l cause s).port.configDigest = s.port.configDigest ∧
    (newHold l cause s).port.receiving = s.port.receiving ∧ (newHold l cause s).port.resetArmed = s.port.resetArmed ∧
    (newHold l cause s).port.response = s.port.response := by
  simp [newHold]

@[simp] theorem entryTest_keeps (s : State) :
    (entryTest s).pending = s.pending ∧ (entryTest s).now = s.now ∧ (entryTest s).freeCount = s.freeCount ∧
    (entryTest s).power = s.power ∧ (entryTest s).standby = s.standby ∧ (entryTest s).decoder = s.decoder ∧
    (entryTest s).sensing = s.sensing ∧ (entryTest s).engine = s.engine ∧ (entryTest s).link = s.link ∧
    (entryTest s).peers = s.peers ∧ (entryTest s).coord = s.coord ∧ (entryTest s).plan = s.plan ∧
    (entryTest s).gate = s.gate ∧ (entryTest s).mem = s.mem ∧ (entryTest s).hold.level = s.hold.level ∧
    (entryTest s).hold.seq = s.hold.seq ∧ (entryTest s).hold.keyCount = s.hold.keyCount ∧
    (entryTest s).hold.faults = s.hold.faults ∧ (entryTest s).hold.lockClear = s.hold.lockClear ∧
    (entryTest s).hold.lockClearLeft = s.hold.lockClearLeft ∧ (entryTest s).store.scanDone = s.store.scanDone ∧
    (entryTest s).store.tail = s.store.tail ∧ (entryTest s).store.pointer = s.store.pointer ∧
    (entryTest s).store.finalOut = s.store.finalOut ∧ (entryTest s).store.dip = s.store.dip ∧
    (entryTest s).store.retainedLockout = s.store.retainedLockout ∧ (entryTest s).port.config = s.port.config ∧
    (entryTest s).port.configDigest = s.port.configDigest ∧ (entryTest s).port.receiving = s.port.receiving ∧
    (entryTest s).port.resetArmed = s.port.resetArmed ∧ (entryTest s).port.response = s.port.response ∧
    (entryTest s).cal.committed = s.cal.committed := by
  simp only [entryTest]; (repeat' split) <;> simp

@[simp] theorem holdReaches_keeps (s : State) :
    (holdReaches s).pending = s.pending ∧ (holdReaches s).now = s.now ∧ (holdReaches s).freeCount = s.freeCount ∧
    (holdReaches s).power = s.power ∧ (holdReaches s).standby = s.standby ∧ (holdReaches s).decoder = s.decoder ∧
    (holdReaches s).sensing = s.sensing ∧ (holdReaches s).peers = s.peers ∧ (holdReaches s).coord = s.coord ∧
    (holdReaches s).store = s.store ∧ (holdReaches s).mem = s.mem ∧ (holdReaches s).link.station = s.link.station ∧
    (holdReaches s).link.state = s.link.state ∧ (holdReaches s).link.timed = s.link.timed ∧
    (holdReaches s).link.cycle = s.link.cycle ∧ (holdReaches s).link.cycleStart = s.link.cycleStart ∧
    (holdReaches s).link.muted = s.link.muted ∧ (holdReaches s).link.mismatches = s.link.mismatches ∧
    (holdReaches s).link.tx = s.link.tx ∧ (holdReaches s).link.offsets = s.link.offsets ∧
    (holdReaches s).link.acceptedInCycle = s.link.acceptedInCycle ∧
    (holdReaches s).link.foreignInCycle = s.link.foreignInCycle ∧
    (holdReaches s).link.listenSince = s.link.listenSince ∧ (holdReaches s).hold.level = s.hold.level ∧
    (holdReaches s).hold.complete = s.hold.complete ∧ (holdReaches s).hold.seq = s.hold.seq ∧
    (holdReaches s).hold.keyCount = s.hold.keyCount ∧ (holdReaches s).hold.lockClear = s.hold.lockClear ∧
    (holdReaches s).hold.lockClearLeft = s.hold.lockClearLeft ∧ (holdReaches s).plan.steps = s.plan.steps ∧
    (holdReaches s).plan.isSealed = s.plan.isSealed ∧ (holdReaches s).plan.digest = s.plan.digest ∧
    (holdReaches s).port.config = s.port.config ∧ (holdReaches s).port.configDigest = s.port.configDigest ∧
    (holdReaches s).port.receiving = s.port.receiving ∧ (holdReaches s).port.resetArmed = s.port.resetArmed ∧
    (holdReaches s).port.response = s.port.response ∧ (holdReaches s).cal.committed = s.cal.committed ∧
    (holdReaches s).cal.staged = s.cal.staged := by
  simp [holdReaches]

@[simp] theorem beginEntry_keeps (s : State) :
    (beginEntry s).pending = s.pending ∧ (beginEntry s).now = s.now ∧ (beginEntry s).freeCount = s.freeCount ∧
    (beginEntry s).power = s.power ∧ (beginEntry s).standby = s.standby ∧ (beginEntry s).decoder = s.decoder ∧
    (beginEntry s).sensing = s.sensing ∧ (beginEntry s).peers = s.peers ∧ (beginEntry s).coord = s.coord ∧
    (beginEntry s).mem = s.mem ∧ (beginEntry s).link.station = s.link.station ∧
    (beginEntry s).link.state = s.link.state ∧ (beginEntry s).link.timed = s.link.timed ∧
    (beginEntry s).link.cycle = s.link.cycle ∧ (beginEntry s).link.cycleStart = s.link.cycleStart ∧
    (beginEntry s).link.muted = s.link.muted ∧ (beginEntry s).link.mismatches = s.link.mismatches ∧
    (beginEntry s).link.tx = s.link.tx ∧ (beginEntry s).link.offsets = s.link.offsets ∧
    (beginEntry s).link.acceptedInCycle = s.link.acceptedInCycle ∧
    (beginEntry s).link.foreignInCycle = s.link.foreignInCycle ∧
    (beginEntry s).link.listenSince = s.link.listenSince ∧ (beginEntry s).hold.level = s.hold.level ∧
    (beginEntry s).hold.seq = s.hold.seq ∧ (beginEntry s).hold.keyCount = s.hold.keyCount ∧
    (beginEntry s).hold.lockClear = s.hold.lockClear ∧ (beginEntry s).hold.lockClearLeft = s.hold.lockClearLeft ∧
    (beginEntry s).plan.steps = s.plan.steps ∧ (beginEntry s).plan.isSealed = s.plan.isSealed ∧
    (beginEntry s).plan.digest = s.plan.digest ∧ (beginEntry s).store.scanDone = s.store.scanDone ∧
    (beginEntry s).store.tail = s.store.tail ∧ (beginEntry s).store.pointer = s.store.pointer ∧
    (beginEntry s).store.finalOut = s.store.finalOut ∧ (beginEntry s).store.dip = s.store.dip ∧
    (beginEntry s).store.retainedLockout = s.store.retainedLockout ∧ (beginEntry s).port.config = s.port.config ∧
    (beginEntry s).port.configDigest = s.port.configDigest ∧ (beginEntry s).port.receiving = s.port.receiving ∧
    (beginEntry s).port.resetArmed = s.port.resetArmed ∧ (beginEntry s).port.response = s.port.response ∧
    (beginEntry s).cal.committed = s.cal.committed := by
  simp only [beginEntry]; (repeat' split) <;> simp

@[simp] theorem enterLockout_keeps (post : Bool) (s : State) :
    (enterLockout post s).pending = s.pending ∧ (enterLockout post s).now = s.now ∧
    (enterLockout post s).freeCount = s.freeCount ∧ (enterLockout post s).power = s.power ∧
    (enterLockout post s).standby = s.standby ∧ (enterLockout post s).decoder = s.decoder ∧
    (enterLockout post s).sensing = s.sensing ∧ (enterLockout post s).peers = s.peers ∧
    (enterLockout post s).coord = s.coord ∧ (enterLockout post s).mem = s.mem ∧
    (enterLockout post s).link.station = s.link.station ∧ (enterLockout post s).link.state = s.link.state ∧
    (enterLockout post s).link.timed = s.link.timed ∧ (enterLockout post s).link.cycle = s.link.cycle ∧
    (enterLockout post s).link.cycleStart = s.link.cycleStart ∧ (enterLockout post s).link.muted = s.link.muted ∧
    (enterLockout post s).link.mismatches = s.link.mismatches ∧ (enterLockout post s).link.tx = s.link.tx ∧
    (enterLockout post s).link.offsets = s.link.offsets ∧
    (enterLockout post s).link.acceptedInCycle = s.link.acceptedInCycle ∧
    (enterLockout post s).link.foreignInCycle = s.link.foreignInCycle ∧
    (enterLockout post s).link.listenSince = s.link.listenSince ∧ (enterLockout post s).hold.level = s.hold.level ∧
    (enterLockout post s).hold.seq = s.hold.seq ∧ (enterLockout post s).hold.keyCount = s.hold.keyCount ∧
    (enterLockout post s).hold.lockClear = s.hold.lockClear ∧
    (enterLockout post s).hold.lockClearLeft = s.hold.lockClearLeft ∧
    (enterLockout post s).plan.steps = s.plan.steps ∧ (enterLockout post s).plan.isSealed = s.plan.isSealed ∧
    (enterLockout post s).plan.digest = s.plan.digest ∧ (enterLockout post s).store.scanDone = s.store.scanDone ∧
    (enterLockout post s).store.tail = s.store.tail ∧ (enterLockout post s).store.pointer = s.store.pointer ∧
    (enterLockout post s).store.lastTag = s.store.lastTag ∧ (enterLockout post s).store.finalOut = s.store.finalOut ∧
    (enterLockout post s).store.dip = s.store.dip ∧
    (enterLockout post s).store.retainedLockout = s.store.retainedLockout ∧
    (enterLockout post s).port.config = s.port.config ∧
    (enterLockout post s).port.configDigest = s.port.configDigest ∧
    (enterLockout post s).port.receiving = s.port.receiving ∧
    (enterLockout post s).port.resetArmed = s.port.resetArmed ∧
    (enterLockout post s).port.response = s.port.response ∧ (enterLockout post s).cal.committed = s.cal.committed := by
  simp only [enterLockout]; (repeat' split) <;> simp

@[simp] theorem enterLevel_keeps (s : State) :
    (enterLevel s).pending = s.pending ∧ (enterLevel s).now = s.now ∧ (enterLevel s).freeCount = s.freeCount ∧
    (enterLevel s).power = s.power ∧ (enterLevel s).standby = s.standby ∧ (enterLevel s).decoder = s.decoder ∧
    (enterLevel s).sensing = s.sensing ∧ (enterLevel s).peers = s.peers ∧ (enterLevel s).coord = s.coord ∧
    (enterLevel s).mem = s.mem ∧ (enterLevel s).link.station = s.link.station ∧
    (enterLevel s).link.state = s.link.state ∧ (enterLevel s).link.timed = s.link.timed ∧
    (enterLevel s).link.cycle = s.link.cycle ∧ (enterLevel s).link.cycleStart = s.link.cycleStart ∧
    (enterLevel s).link.muted = s.link.muted ∧ (enterLevel s).link.mismatches = s.link.mismatches ∧
    (enterLevel s).link.tx = s.link.tx ∧ (enterLevel s).link.offsets = s.link.offsets ∧
    (enterLevel s).link.acceptedInCycle = s.link.acceptedInCycle ∧
    (enterLevel s).link.foreignInCycle = s.link.foreignInCycle ∧
    (enterLevel s).link.listenSince = s.link.listenSince ∧ (enterLevel s).hold.level = s.hold.level ∧
    (enterLevel s).hold.seq = s.hold.seq ∧ (enterLevel s).hold.keyCount = s.hold.keyCount ∧
    (enterLevel s).hold.lockClear = s.hold.lockClear ∧ (enterLevel s).hold.lockClearLeft = s.hold.lockClearLeft ∧
    (enterLevel s).plan.steps = s.plan.steps ∧ (enterLevel s).plan.isSealed = s.plan.isSealed ∧
    (enterLevel s).plan.digest = s.plan.digest ∧ (enterLevel s).store.scanDone = s.store.scanDone ∧
    (enterLevel s).store.tail = s.store.tail ∧ (enterLevel s).store.pointer = s.store.pointer ∧
    (enterLevel s).store.finalOut = s.store.finalOut ∧ (enterLevel s).store.dip = s.store.dip ∧
    (enterLevel s).store.retainedLockout = s.store.retainedLockout ∧ (enterLevel s).port.config = s.port.config ∧
    (enterLevel s).port.configDigest = s.port.configDigest ∧ (enterLevel s).port.receiving = s.port.receiving ∧
    (enterLevel s).port.resetArmed = s.port.resetArmed ∧ (enterLevel s).port.response = s.port.response ∧
    (enterLevel s).cal.committed = s.cal.committed := by
  simp only [enterLevel]; (repeat' split) <;> simp

@[simp] theorem setPhase_keeps (p : ArmPhase) (s : State) :
    (setPhase p s).pending = s.pending ∧ (setPhase p s).now = s.now ∧ (setPhase p s).freeCount = s.freeCount ∧
    (setPhase p s).power = s.power ∧ (setPhase p s).standby = s.standby ∧ (setPhase p s).decoder = s.decoder ∧
    (setPhase p s).sensing = s.sensing ∧ (setPhase p s).engine = s.engine ∧ (setPhase p s).peers = s.peers ∧
    (setPhase p s).store = s.store ∧ (setPhase p s).mem = s.mem ∧ (setPhase p s).link.station = s.link.station ∧
    (setPhase p s).link.state = s.link.state ∧ (setPhase p s).link.timed = s.link.timed ∧
    (setPhase p s).link.cycle = s.link.cycle ∧ (setPhase p s).link.cycleStart = s.link.cycleStart ∧
    (setPhase p s).link.muted = s.link.muted ∧ (setPhase p s).link.mismatches = s.link.mismatches ∧
    (setPhase p s).link.tx = s.link.tx ∧ (setPhase p s).link.offsets = s.link.offsets ∧
    (setPhase p s).link.acceptedInCycle = s.link.acceptedInCycle ∧
    (setPhase p s).link.foreignInCycle = s.link.foreignInCycle ∧
    (setPhase p s).link.listenSince = s.link.listenSince ∧ (setPhase p s).hold.level = s.hold.level ∧
    (setPhase p s).hold.complete = s.hold.complete ∧ (setPhase p s).hold.seq = s.hold.seq ∧
    (setPhase p s).hold.keyCount = s.hold.keyCount ∧ (setPhase p s).hold.lockClear = s.hold.lockClear ∧
    (setPhase p s).hold.lockClearLeft = s.hold.lockClearLeft ∧ (setPhase p s).coord.run = s.coord.run ∧
    (setPhase p s).coord.journalActive = s.coord.journalActive ∧ (setPhase p s).coord.start = s.coord.start ∧
    (setPhase p s).coord.restart = s.coord.restart ∧ (setPhase p s).coord.restartLeft = s.coord.restartLeft ∧
    (setPhase p s).coord.lastRunClaim = s.coord.lastRunClaim ∧ (setPhase p s).plan.steps = s.plan.steps ∧
    (setPhase p s).plan.isSealed = s.plan.isSealed ∧ (setPhase p s).plan.digest = s.plan.digest ∧
    (setPhase p s).port.config = s.port.config ∧ (setPhase p s).port.configDigest = s.port.configDigest ∧
    (setPhase p s).port.receiving = s.port.receiving ∧ (setPhase p s).port.resetArmed = s.port.resetArmed ∧
    (setPhase p s).port.response = s.port.response ∧ (setPhase p s).cal.committed = s.cal.committed ∧
    (setPhase p s).cal.staged = s.cal.staged := by
  simp only [setPhase]; (repeat' split) <;> simp

@[simp] theorem haltPhase_keeps (s : State) :
    (haltPhase s).pending = s.pending ∧ (haltPhase s).now = s.now ∧ (haltPhase s).freeCount = s.freeCount ∧
    (haltPhase s).power = s.power ∧ (haltPhase s).standby = s.standby ∧ (haltPhase s).decoder = s.decoder ∧
    (haltPhase s).sensing = s.sensing ∧ (haltPhase s).engine = s.engine ∧ (haltPhase s).peers = s.peers ∧
    (haltPhase s).store = s.store ∧ (haltPhase s).mem = s.mem ∧ (haltPhase s).link.station = s.link.station ∧
    (haltPhase s).link.state = s.link.state ∧ (haltPhase s).link.timed = s.link.timed ∧
    (haltPhase s).link.cycle = s.link.cycle ∧ (haltPhase s).link.cycleStart = s.link.cycleStart ∧
    (haltPhase s).link.muted = s.link.muted ∧ (haltPhase s).link.mismatches = s.link.mismatches ∧
    (haltPhase s).link.tx = s.link.tx ∧ (haltPhase s).link.offsets = s.link.offsets ∧
    (haltPhase s).link.acceptedInCycle = s.link.acceptedInCycle ∧
    (haltPhase s).link.foreignInCycle = s.link.foreignInCycle ∧ (haltPhase s).link.listenSince = s.link.listenSince ∧
    (haltPhase s).hold.level = s.hold.level ∧ (haltPhase s).hold.complete = s.hold.complete ∧
    (haltPhase s).hold.seq = s.hold.seq ∧ (haltPhase s).hold.keyCount = s.hold.keyCount ∧
    (haltPhase s).hold.lockClear = s.hold.lockClear ∧ (haltPhase s).hold.lockClearLeft = s.hold.lockClearLeft ∧
    (haltPhase s).coord.run = s.coord.run ∧ (haltPhase s).coord.journalActive = s.coord.journalActive ∧
    (haltPhase s).coord.start = s.coord.start ∧ (haltPhase s).coord.restart = s.coord.restart ∧
    (haltPhase s).coord.restartLeft = s.coord.restartLeft ∧ (haltPhase s).coord.lastRunClaim = s.coord.lastRunClaim ∧
    (haltPhase s).plan.steps = s.plan.steps ∧ (haltPhase s).plan.isSealed = s.plan.isSealed ∧
    (haltPhase s).plan.digest = s.plan.digest ∧ (haltPhase s).port.config = s.port.config ∧
    (haltPhase s).port.configDigest = s.port.configDigest ∧ (haltPhase s).port.receiving = s.port.receiving ∧
    (haltPhase s).port.resetArmed = s.port.resetArmed ∧ (haltPhase s).port.response = s.port.response ∧
    (haltPhase s).cal.committed = s.cal.committed ∧ (haltPhase s).cal.staged = s.cal.staged := by
  simp only [haltPhase]; (repeat' split) <;> simp

@[simp] theorem raiseFault_keeps (code : FaultCode) (cls : FaultClass) (step : Option Nat) (detail : Int) (s : State) :
    (raiseFault code cls step detail s).pending = s.pending ∧ (raiseFault code cls step detail s).now = s.now ∧
    (raiseFault code cls step detail s).freeCount = s.freeCount ∧
    (raiseFault code cls step detail s).power = s.power ∧ (raiseFault code cls step detail s).standby = s.standby ∧
    (raiseFault code cls step detail s).decoder = s.decoder ∧
    (raiseFault code cls step detail s).sensing = s.sensing ∧ (raiseFault code cls step detail s).peers = s.peers ∧
    (raiseFault code cls step detail s).mem = s.mem ∧
    (raiseFault code cls step detail s).link.station = s.link.station ∧
    (raiseFault code cls step detail s).link.state = s.link.state ∧
    (raiseFault code cls step detail s).link.timed = s.link.timed ∧
    (raiseFault code cls step detail s).link.cycle = s.link.cycle ∧
    (raiseFault code cls step detail s).link.cycleStart = s.link.cycleStart ∧
    (raiseFault code cls step detail s).link.muted = s.link.muted ∧
    (raiseFault code cls step detail s).link.mismatches = s.link.mismatches ∧
    (raiseFault code cls step detail s).link.tx = s.link.tx ∧
    (raiseFault code cls step detail s).link.offsets = s.link.offsets ∧
    (raiseFault code cls step detail s).link.acceptedInCycle = s.link.acceptedInCycle ∧
    (raiseFault code cls step detail s).link.foreignInCycle = s.link.foreignInCycle ∧
    (raiseFault code cls step detail s).link.listenSince = s.link.listenSince ∧
    (raiseFault code cls step detail s).hold.keyCount = s.hold.keyCount ∧
    (raiseFault code cls step detail s).hold.lockClear = s.hold.lockClear ∧
    (raiseFault code cls step detail s).hold.lockClearLeft = s.hold.lockClearLeft ∧
    (raiseFault code cls step detail s).coord.run = s.coord.run ∧
    (raiseFault code cls step detail s).coord.journalActive = s.coord.journalActive ∧
    (raiseFault code cls step detail s).coord.start = s.coord.start ∧
    (raiseFault code cls step detail s).coord.restart = s.coord.restart ∧
    (raiseFault code cls step detail s).coord.restartLeft = s.coord.restartLeft ∧
    (raiseFault code cls step detail s).coord.lastRunClaim = s.coord.lastRunClaim ∧
    (raiseFault code cls step detail s).plan.steps = s.plan.steps ∧
    (raiseFault code cls step detail s).plan.isSealed = s.plan.isSealed ∧
    (raiseFault code cls step detail s).plan.digest = s.plan.digest ∧
    (raiseFault code cls step detail s).store.scanDone = s.store.scanDone ∧
    (raiseFault code cls step detail s).store.tail = s.store.tail ∧
    (raiseFault code cls step detail s).store.pointer = s.store.pointer ∧
    (raiseFault code cls step detail s).store.finalOut = s.store.finalOut ∧
    (raiseFault code cls step detail s).store.dip = s.store.dip ∧
    (raiseFault code cls step detail s).store.retainedLockout = s.store.retainedLockout ∧
    (raiseFault code cls step detail s).port.config = s.port.config ∧
    (raiseFault code cls step detail s).port.configDigest = s.port.configDigest ∧
    (raiseFault code cls step detail s).port.receiving = s.port.receiving ∧
    (raiseFault code cls step detail s).port.resetArmed = s.port.resetArmed ∧
    (raiseFault code cls step detail s).port.response = s.port.response ∧
    (raiseFault code cls step detail s).cal.committed = s.cal.committed := by
  simp only [raiseFault]; (repeat' split) <;> simp

@[simp] theorem raiseHold_keeps (code : FaultCode) (detail : Int) (s : State) :
    (raiseHold code detail s).pending = s.pending ∧ (raiseHold code detail s).now = s.now ∧
    (raiseHold code detail s).freeCount = s.freeCount ∧ (raiseHold code detail s).power = s.power ∧
    (raiseHold code detail s).standby = s.standby ∧ (raiseHold code detail s).decoder = s.decoder ∧
    (raiseHold code detail s).sensing = s.sensing ∧ (raiseHold code detail s).peers = s.peers ∧
    (raiseHold code detail s).mem = s.mem ∧ (raiseHold code detail s).link.station = s.link.station ∧
    (raiseHold code detail s).link.state = s.link.state ∧ (raiseHold code detail s).link.timed = s.link.timed ∧
    (raiseHold code detail s).link.cycle = s.link.cycle ∧
    (raiseHold code detail s).link.cycleStart = s.link.cycleStart ∧
    (raiseHold code detail s).link.muted = s.link.muted ∧
    (raiseHold code detail s).link.mismatches = s.link.mismatches ∧ (raiseHold code detail s).link.tx = s.link.tx ∧
    (raiseHold code detail s).link.offsets = s.link.offsets ∧
    (raiseHold code detail s).link.acceptedInCycle = s.link.acceptedInCycle ∧
    (raiseHold code detail s).link.foreignInCycle = s.link.foreignInCycle ∧
    (raiseHold code detail s).link.listenSince = s.link.listenSince ∧
    (raiseHold code detail s).hold.keyCount = s.hold.keyCount ∧
    (raiseHold code detail s).hold.lockClear = s.hold.lockClear ∧
    (raiseHold code detail s).hold.lockClearLeft = s.hold.lockClearLeft ∧
    (raiseHold code detail s).coord.run = s.coord.run ∧
    (raiseHold code detail s).coord.journalActive = s.coord.journalActive ∧
    (raiseHold code detail s).coord.start = s.coord.start ∧
    (raiseHold code detail s).coord.restart = s.coord.restart ∧
    (raiseHold code detail s).coord.restartLeft = s.coord.restartLeft ∧
    (raiseHold code detail s).coord.lastRunClaim = s.coord.lastRunClaim ∧
    (raiseHold code detail s).plan.steps = s.plan.steps ∧ (raiseHold code detail s).plan.isSealed = s.plan.isSealed ∧
    (raiseHold code detail s).plan.digest = s.plan.digest ∧
    (raiseHold code detail s).store.scanDone = s.store.scanDone ∧
    (raiseHold code detail s).store.tail = s.store.tail ∧ (raiseHold code detail s).store.pointer = s.store.pointer ∧
    (raiseHold code detail s).store.finalOut = s.store.finalOut ∧ (raiseHold code detail s).store.dip = s.store.dip ∧
    (raiseHold code detail s).store.retainedLockout = s.store.retainedLockout ∧
    (raiseHold code detail s).port.config = s.port.config ∧
    (raiseHold code detail s).port.configDigest = s.port.configDigest ∧
    (raiseHold code detail s).port.receiving = s.port.receiving ∧
    (raiseHold code detail s).port.resetArmed = s.port.resetArmed ∧
    (raiseHold code detail s).port.response = s.port.response ∧
    (raiseHold code detail s).cal.committed = s.cal.committed := by
  simp [raiseHold]

@[simp] theorem raiseAbort_keeps (code : FaultCode) (detail : Int) (s : State) :
    (raiseAbort code detail s).pending = s.pending ∧ (raiseAbort code detail s).now = s.now ∧
    (raiseAbort code detail s).freeCount = s.freeCount ∧ (raiseAbort code detail s).power = s.power ∧
    (raiseAbort code detail s).standby = s.standby ∧ (raiseAbort code detail s).decoder = s.decoder ∧
    (raiseAbort code detail s).sensing = s.sensing ∧ (raiseAbort code detail s).peers = s.peers ∧
    (raiseAbort code detail s).mem = s.mem ∧ (raiseAbort code detail s).link.station = s.link.station ∧
    (raiseAbort code detail s).link.state = s.link.state ∧ (raiseAbort code detail s).link.timed = s.link.timed ∧
    (raiseAbort code detail s).link.cycle = s.link.cycle ∧
    (raiseAbort code detail s).link.cycleStart = s.link.cycleStart ∧
    (raiseAbort code detail s).link.muted = s.link.muted ∧
    (raiseAbort code detail s).link.mismatches = s.link.mismatches ∧ (raiseAbort code detail s).link.tx = s.link.tx ∧
    (raiseAbort code detail s).link.offsets = s.link.offsets ∧
    (raiseAbort code detail s).link.acceptedInCycle = s.link.acceptedInCycle ∧
    (raiseAbort code detail s).link.foreignInCycle = s.link.foreignInCycle ∧
    (raiseAbort code detail s).link.listenSince = s.link.listenSince ∧
    (raiseAbort code detail s).hold.keyCount = s.hold.keyCount ∧
    (raiseAbort code detail s).hold.lockClear = s.hold.lockClear ∧
    (raiseAbort code detail s).hold.lockClearLeft = s.hold.lockClearLeft ∧
    (raiseAbort code detail s).coord.run = s.coord.run ∧
    (raiseAbort code detail s).coord.journalActive = s.coord.journalActive ∧
    (raiseAbort code detail s).coord.start = s.coord.start ∧
    (raiseAbort code detail s).coord.restart = s.coord.restart ∧
    (raiseAbort code detail s).coord.restartLeft = s.coord.restartLeft ∧
    (raiseAbort code detail s).coord.lastRunClaim = s.coord.lastRunClaim ∧
    (raiseAbort code detail s).plan.steps = s.plan.steps ∧
    (raiseAbort code detail s).plan.isSealed = s.plan.isSealed ∧
    (raiseAbort code detail s).plan.digest = s.plan.digest ∧
    (raiseAbort code detail s).store.scanDone = s.store.scanDone ∧
    (raiseAbort code detail s).store.tail = s.store.tail ∧
    (raiseAbort code detail s).store.pointer = s.store.pointer ∧
    (raiseAbort code detail s).store.finalOut = s.store.finalOut ∧
    (raiseAbort code detail s).store.dip = s.store.dip ∧
    (raiseAbort code detail s).store.retainedLockout = s.store.retainedLockout ∧
    (raiseAbort code detail s).port.config = s.port.config ∧
    (raiseAbort code detail s).port.configDigest = s.port.configDigest ∧
    (raiseAbort code detail s).port.receiving = s.port.receiving ∧
    (raiseAbort code detail s).port.resetArmed = s.port.resetArmed ∧
    (raiseAbort code detail s).port.response = s.port.response ∧
    (raiseAbort code detail s).cal.committed = s.cal.committed := by
  simp [raiseAbort]

@[simp] theorem raiseSpurious_keeps (sector : Nat) (s : State) :
    (raiseSpurious sector s).pending = s.pending ∧ (raiseSpurious sector s).now = s.now ∧
    (raiseSpurious sector s).freeCount = s.freeCount ∧ (raiseSpurious sector s).power = s.power ∧
    (raiseSpurious sector s).standby = s.standby ∧ (raiseSpurious sector s).decoder = s.decoder ∧
    (raiseSpurious sector s).sensing = s.sensing ∧ (raiseSpurious sector s).peers = s.peers ∧
    (raiseSpurious sector s).mem = s.mem ∧ (raiseSpurious sector s).link.station = s.link.station ∧
    (raiseSpurious sector s).link.state = s.link.state ∧ (raiseSpurious sector s).link.timed = s.link.timed ∧
    (raiseSpurious sector s).link.cycle = s.link.cycle ∧
    (raiseSpurious sector s).link.cycleStart = s.link.cycleStart ∧
    (raiseSpurious sector s).link.muted = s.link.muted ∧
    (raiseSpurious sector s).link.mismatches = s.link.mismatches ∧ (raiseSpurious sector s).link.tx = s.link.tx ∧
    (raiseSpurious sector s).link.offsets = s.link.offsets ∧
    (raiseSpurious sector s).link.acceptedInCycle = s.link.acceptedInCycle ∧
    (raiseSpurious sector s).link.foreignInCycle = s.link.foreignInCycle ∧
    (raiseSpurious sector s).link.listenSince = s.link.listenSince ∧
    (raiseSpurious sector s).hold.keyCount = s.hold.keyCount ∧
    (raiseSpurious sector s).hold.lockClear = s.hold.lockClear ∧
    (raiseSpurious sector s).hold.lockClearLeft = s.hold.lockClearLeft ∧
    (raiseSpurious sector s).coord.run = s.coord.run ∧
    (raiseSpurious sector s).coord.journalActive = s.coord.journalActive ∧
    (raiseSpurious sector s).coord.start = s.coord.start ∧ (raiseSpurious sector s).coord.restart = s.coord.restart ∧
    (raiseSpurious sector s).coord.restartLeft = s.coord.restartLeft ∧
    (raiseSpurious sector s).coord.lastRunClaim = s.coord.lastRunClaim ∧
    (raiseSpurious sector s).plan.steps = s.plan.steps ∧ (raiseSpurious sector s).plan.isSealed = s.plan.isSealed ∧
    (raiseSpurious sector s).plan.digest = s.plan.digest ∧
    (raiseSpurious sector s).store.scanDone = s.store.scanDone ∧ (raiseSpurious sector s).store.tail = s.store.tail ∧
    (raiseSpurious sector s).store.pointer = s.store.pointer ∧
    (raiseSpurious sector s).store.finalOut = s.store.finalOut ∧ (raiseSpurious sector s).store.dip = s.store.dip ∧
    (raiseSpurious sector s).store.retainedLockout = s.store.retainedLockout ∧
    (raiseSpurious sector s).port.config = s.port.config ∧
    (raiseSpurious sector s).port.configDigest = s.port.configDigest ∧
    (raiseSpurious sector s).port.receiving = s.port.receiving ∧
    (raiseSpurious sector s).port.resetArmed = s.port.resetArmed ∧
    (raiseSpurious sector s).port.response = s.port.response ∧
    (raiseSpurious sector s).cal.committed = s.cal.committed := by
  simp [raiseSpurious]

@[simp] theorem levelToNone_keeps (s : State) :
    (levelToNone s).pending = s.pending ∧ (levelToNone s).now = s.now ∧ (levelToNone s).freeCount = s.freeCount ∧
    (levelToNone s).power = s.power ∧ (levelToNone s).standby = s.standby ∧ (levelToNone s).decoder = s.decoder ∧
    (levelToNone s).sensing = s.sensing ∧ (levelToNone s).link = s.link ∧ (levelToNone s).peers = s.peers ∧
    (levelToNone s).coord = s.coord ∧ (levelToNone s).plan = s.plan ∧ (levelToNone s).gate = s.gate ∧
    (levelToNone s).cal = s.cal ∧ (levelToNone s).mem = s.mem ∧ (levelToNone s).hold.seq = s.hold.seq ∧
    (levelToNone s).hold.keyCount = s.hold.keyCount ∧ (levelToNone s).hold.faults = s.hold.faults ∧
    (levelToNone s).hold.lockClear = s.hold.lockClear ∧ (levelToNone s).hold.lockClearLeft = s.hold.lockClearLeft ∧
    (levelToNone s).store.scanDone = s.store.scanDone ∧ (levelToNone s).store.port = s.store.port ∧
    (levelToNone s).store.tail = s.store.tail ∧ (levelToNone s).store.pointer = s.store.pointer ∧
    (levelToNone s).store.lastTag = s.store.lastTag ∧ (levelToNone s).store.finalOut = s.store.finalOut ∧
    (levelToNone s).store.dip = s.store.dip ∧ (levelToNone s).store.retainedLockout = s.store.retainedLockout ∧
    (levelToNone s).port.config = s.port.config ∧ (levelToNone s).port.configDigest = s.port.configDigest ∧
    (levelToNone s).port.receiving = s.port.receiving ∧ (levelToNone s).port.resetArmed = s.port.resetArmed ∧
    (levelToNone s).port.response = s.port.response ∧ (levelToNone s).engine.refState = s.engine.refState ∧
    (levelToNone s).engine.operation = s.engine.operation := by
  simp [levelToNone]

@[simp] theorem resumeHold_keeps (s : State) :
    (resumeHold s).pending = s.pending ∧ (resumeHold s).now = s.now ∧ (resumeHold s).freeCount = s.freeCount ∧
    (resumeHold s).power = s.power ∧ (resumeHold s).standby = s.standby ∧ (resumeHold s).decoder = s.decoder ∧
    (resumeHold s).sensing = s.sensing ∧ (resumeHold s).peers = s.peers ∧ (resumeHold s).mem = s.mem ∧
    (resumeHold s).link.station = s.link.station ∧ (resumeHold s).link.state = s.link.state ∧
    (resumeHold s).link.timed = s.link.timed ∧ (resumeHold s).link.cycle = s.link.cycle ∧
    (resumeHold s).link.cycleStart = s.link.cycleStart ∧ (resumeHold s).link.muted = s.link.muted ∧
    (resumeHold s).link.mismatches = s.link.mismatches ∧ (resumeHold s).link.tx = s.link.tx ∧
    (resumeHold s).link.offsets = s.link.offsets ∧ (resumeHold s).link.acceptedInCycle = s.link.acceptedInCycle ∧
    (resumeHold s).link.foreignInCycle = s.link.foreignInCycle ∧
    (resumeHold s).link.listenSince = s.link.listenSince ∧ (resumeHold s).hold.seq = s.hold.seq ∧
    (resumeHold s).hold.keyCount = s.hold.keyCount ∧ (resumeHold s).hold.lockClear = s.hold.lockClear ∧
    (resumeHold s).hold.lockClearLeft = s.hold.lockClearLeft ∧ (resumeHold s).coord.run = s.coord.run ∧
    (resumeHold s).coord.journalActive = s.coord.journalActive ∧ (resumeHold s).coord.start = s.coord.start ∧
    (resumeHold s).coord.restart = s.coord.restart ∧ (resumeHold s).coord.restartLeft = s.coord.restartLeft ∧
    (resumeHold s).coord.lastRunClaim = s.coord.lastRunClaim ∧ (resumeHold s).plan.steps = s.plan.steps ∧
    (resumeHold s).plan.isSealed = s.plan.isSealed ∧ (resumeHold s).plan.digest = s.plan.digest ∧
    (resumeHold s).store.scanDone = s.store.scanDone ∧ (resumeHold s).store.tail = s.store.tail ∧
    (resumeHold s).store.pointer = s.store.pointer ∧ (resumeHold s).store.lastTag = s.store.lastTag ∧
    (resumeHold s).store.finalOut = s.store.finalOut ∧ (resumeHold s).store.dip = s.store.dip ∧
    (resumeHold s).store.retainedLockout = s.store.retainedLockout ∧ (resumeHold s).port.config = s.port.config ∧
    (resumeHold s).port.configDigest = s.port.configDigest ∧ (resumeHold s).port.receiving = s.port.receiving ∧
    (resumeHold s).port.resetArmed = s.port.resetArmed ∧ (resumeHold s).port.response = s.port.response ∧
    (resumeHold s).engine.operation = s.engine.operation ∧ (resumeHold s).cal.committed = s.cal.committed := by
  simp only [resumeHold]; (repeat' split) <;> simp

@[simp] theorem clearLockout_keeps (s : State) :
    (clearLockout s).pending = s.pending ∧ (clearLockout s).now = s.now ∧ (clearLockout s).freeCount = s.freeCount ∧
    (clearLockout s).power = s.power ∧ (clearLockout s).standby = s.standby ∧ (clearLockout s).decoder = s.decoder ∧
    (clearLockout s).sensing = s.sensing ∧ (clearLockout s).peers = s.peers ∧ (clearLockout s).mem = s.mem ∧
    (clearLockout s).link.station = s.link.station ∧ (clearLockout s).link.state = s.link.state ∧
    (clearLockout s).link.timed = s.link.timed ∧ (clearLockout s).link.cycle = s.link.cycle ∧
    (clearLockout s).link.cycleStart = s.link.cycleStart ∧ (clearLockout s).link.muted = s.link.muted ∧
    (clearLockout s).link.mismatches = s.link.mismatches ∧ (clearLockout s).link.tx = s.link.tx ∧
    (clearLockout s).link.offsets = s.link.offsets ∧ (clearLockout s).link.acceptedInCycle = s.link.acceptedInCycle ∧
    (clearLockout s).link.foreignInCycle = s.link.foreignInCycle ∧
    (clearLockout s).link.listenSince = s.link.listenSince ∧ (clearLockout s).hold.seq = s.hold.seq ∧
    (clearLockout s).hold.keyCount = s.hold.keyCount ∧ (clearLockout s).coord.run = s.coord.run ∧
    (clearLockout s).coord.journalActive = s.coord.journalActive ∧ (clearLockout s).coord.start = s.coord.start ∧
    (clearLockout s).coord.restart = s.coord.restart ∧ (clearLockout s).coord.restartLeft = s.coord.restartLeft ∧
    (clearLockout s).coord.lastRunClaim = s.coord.lastRunClaim ∧ (clearLockout s).plan.steps = s.plan.steps ∧
    (clearLockout s).plan.isSealed = s.plan.isSealed ∧ (clearLockout s).plan.digest = s.plan.digest ∧
    (clearLockout s).store.scanDone = s.store.scanDone ∧ (clearLockout s).store.tail = s.store.tail ∧
    (clearLockout s).store.pointer = s.store.pointer ∧ (clearLockout s).store.lastTag = s.store.lastTag ∧
    (clearLockout s).store.finalOut = s.store.finalOut ∧ (clearLockout s).store.dip = s.store.dip ∧
    (clearLockout s).store.retainedLockout = s.store.retainedLockout ∧ (clearLockout s).port.config = s.port.config ∧
    (clearLockout s).port.configDigest = s.port.configDigest ∧ (clearLockout s).port.receiving = s.port.receiving ∧
    (clearLockout s).port.resetArmed = s.port.resetArmed ∧ (clearLockout s).port.response = s.port.response ∧
    (clearLockout s).engine.operation = s.engine.operation ∧ (clearLockout s).cal.committed = s.cal.committed := by
  simp [clearLockout]

@[simp] theorem restartStation_keeps (s : State) :
    (restartStation s).pending = s.pending ∧ (restartStation s).now = s.now ∧
    (restartStation s).freeCount = s.freeCount ∧ (restartStation s).power = s.power ∧
    (restartStation s).standby = s.standby ∧ (restartStation s).decoder = s.decoder ∧
    (restartStation s).sensing = s.sensing ∧ (restartStation s).peers = s.peers ∧ (restartStation s).mem = s.mem ∧
    (restartStation s).link.station = s.link.station ∧ (restartStation s).link.state = s.link.state ∧
    (restartStation s).link.timed = s.link.timed ∧ (restartStation s).link.cycle = s.link.cycle ∧
    (restartStation s).link.cycleStart = s.link.cycleStart ∧ (restartStation s).link.muted = s.link.muted ∧
    (restartStation s).link.mismatches = s.link.mismatches ∧ (restartStation s).link.tx = s.link.tx ∧
    (restartStation s).link.offsets = s.link.offsets ∧
    (restartStation s).link.acceptedInCycle = s.link.acceptedInCycle ∧
    (restartStation s).link.foreignInCycle = s.link.foreignInCycle ∧
    (restartStation s).link.listenSince = s.link.listenSince ∧ (restartStation s).hold.seq = s.hold.seq ∧
    (restartStation s).hold.keyCount = s.hold.keyCount ∧ (restartStation s).hold.lockClear = s.hold.lockClear ∧
    (restartStation s).hold.lockClearLeft = s.hold.lockClearLeft ∧ (restartStation s).coord.run = s.coord.run ∧
    (restartStation s).coord.journalActive = s.coord.journalActive ∧ (restartStation s).coord.start = s.coord.start ∧
    (restartStation s).plan.steps = s.plan.steps ∧ (restartStation s).plan.isSealed = s.plan.isSealed ∧
    (restartStation s).plan.digest = s.plan.digest ∧ (restartStation s).store.scanDone = s.store.scanDone ∧
    (restartStation s).store.port = s.store.port ∧ (restartStation s).store.tail = s.store.tail ∧
    (restartStation s).store.pointer = s.store.pointer ∧ (restartStation s).store.lastTag = s.store.lastTag ∧
    (restartStation s).store.finalOut = s.store.finalOut ∧ (restartStation s).store.dip = s.store.dip ∧
    (restartStation s).store.retainedLockout = s.store.retainedLockout ∧
    (restartStation s).port.config = s.port.config ∧ (restartStation s).port.configDigest = s.port.configDigest ∧
    (restartStation s).port.receiving = s.port.receiving ∧ (restartStation s).port.resetArmed = s.port.resetArmed ∧
    (restartStation s).port.response = s.port.response ∧ (restartStation s).engine.refState = s.engine.refState ∧
    (restartStation s).engine.operation = s.engine.operation ∧ (restartStation s).cal.committed = s.cal.committed ∧
    (restartStation s).cal.staged = s.cal.staged := by
  simp only [restartStation]; (repeat' split) <;> simp

@[simp] theorem stopMotion_keeps (s : State) :
    (stopMotion s).pending = s.pending ∧ (stopMotion s).now = s.now ∧ (stopMotion s).freeCount = s.freeCount ∧
    (stopMotion s).power = s.power ∧ (stopMotion s).standby = s.standby ∧ (stopMotion s).decoder = s.decoder ∧
    (stopMotion s).sensing = s.sensing ∧ (stopMotion s).link = s.link ∧ (stopMotion s).peers = s.peers ∧
    (stopMotion s).coord = s.coord ∧ (stopMotion s).plan = s.plan ∧ (stopMotion s).hold = s.hold ∧
    (stopMotion s).gate = s.gate ∧ (stopMotion s).cal = s.cal ∧ (stopMotion s).store = s.store ∧
    (stopMotion s).mem = s.mem ∧ (stopMotion s).port.config = s.port.config ∧
    (stopMotion s).port.configDigest = s.port.configDigest ∧ (stopMotion s).port.receiving = s.port.receiving ∧
    (stopMotion s).port.resetArmed = s.port.resetArmed ∧ (stopMotion s).port.response = s.port.response ∧
    (stopMotion s).engine.refState = s.engine.refState ∧ (stopMotion s).engine.operation = s.engine.operation := by
  simp only [stopMotion]; (repeat' split) <;> simp

@[simp] theorem engineLost_keeps (s : State) :
    (engineLost s).pending = s.pending ∧ (engineLost s).now = s.now ∧ (engineLost s).freeCount = s.freeCount ∧
    (engineLost s).power = s.power ∧ (engineLost s).standby = s.standby ∧ (engineLost s).decoder = s.decoder ∧
    (engineLost s).sensing = s.sensing ∧ (engineLost s).link = s.link ∧ (engineLost s).peers = s.peers ∧
    (engineLost s).coord = s.coord ∧ (engineLost s).hold = s.hold ∧ (engineLost s).cal = s.cal ∧
    (engineLost s).store = s.store ∧ (engineLost s).mem = s.mem ∧ (engineLost s).plan.steps = s.plan.steps ∧
    (engineLost s).plan.isSealed = s.plan.isSealed ∧ (engineLost s).plan.digest = s.plan.digest ∧
    (engineLost s).port.config = s.port.config ∧ (engineLost s).port.configDigest = s.port.configDigest ∧
    (engineLost s).port.receiving = s.port.receiving ∧ (engineLost s).port.resetArmed = s.port.resetArmed ∧
    (engineLost s).port.response = s.port.response := by
  simp only [engineLost]; (repeat' split) <;> simp

@[simp] theorem engineOrder_keeps (o : MotionOrder) (s : State) :
    (engineOrder o s).pending = s.pending ∧ (engineOrder o s).now = s.now ∧
    (engineOrder o s).freeCount = s.freeCount ∧ (engineOrder o s).power = s.power ∧
    (engineOrder o s).standby = s.standby ∧ (engineOrder o s).decoder = s.decoder ∧
    (engineOrder o s).sensing = s.sensing ∧ (engineOrder o s).peers = s.peers ∧ (engineOrder o s).mem = s.mem ∧
    (engineOrder o s).link.station = s.link.station ∧ (engineOrder o s).link.state = s.link.state ∧
    (engineOrder o s).link.timed = s.link.timed ∧ (engineOrder o s).link.cycle = s.link.cycle ∧
    (engineOrder o s).link.cycleStart = s.link.cycleStart ∧ (engineOrder o s).link.muted = s.link.muted ∧
    (engineOrder o s).link.mismatches = s.link.mismatches ∧ (engineOrder o s).link.tx = s.link.tx ∧
    (engineOrder o s).link.offsets = s.link.offsets ∧
    (engineOrder o s).link.acceptedInCycle = s.link.acceptedInCycle ∧
    (engineOrder o s).link.foreignInCycle = s.link.foreignInCycle ∧
    (engineOrder o s).link.listenSince = s.link.listenSince ∧ (engineOrder o s).hold.keyCount = s.hold.keyCount ∧
    (engineOrder o s).hold.lockClear = s.hold.lockClear ∧
    (engineOrder o s).hold.lockClearLeft = s.hold.lockClearLeft ∧ (engineOrder o s).coord.run = s.coord.run ∧
    (engineOrder o s).coord.journalActive = s.coord.journalActive ∧ (engineOrder o s).coord.start = s.coord.start ∧
    (engineOrder o s).coord.restart = s.coord.restart ∧ (engineOrder o s).coord.restartLeft = s.coord.restartLeft ∧
    (engineOrder o s).coord.lastRunClaim = s.coord.lastRunClaim ∧ (engineOrder o s).plan.steps = s.plan.steps ∧
    (engineOrder o s).plan.isSealed = s.plan.isSealed ∧ (engineOrder o s).plan.digest = s.plan.digest ∧
    (engineOrder o s).store.scanDone = s.store.scanDone ∧ (engineOrder o s).store.tail = s.store.tail ∧
    (engineOrder o s).store.pointer = s.store.pointer ∧ (engineOrder o s).store.finalOut = s.store.finalOut ∧
    (engineOrder o s).store.dip = s.store.dip ∧ (engineOrder o s).store.retainedLockout = s.store.retainedLockout ∧
    (engineOrder o s).port.config = s.port.config ∧ (engineOrder o s).port.configDigest = s.port.configDigest ∧
    (engineOrder o s).port.receiving = s.port.receiving ∧ (engineOrder o s).port.resetArmed = s.port.resetArmed ∧
    (engineOrder o s).port.response = s.port.response ∧ (engineOrder o s).cal.committed = s.cal.committed := by
  simp only [engineOrder]; (repeat' split) <;> simp

@[simp] theorem limitArrival_keeps (d : Int) (s : State) :
    (limitArrival d s).pending = s.pending ∧ (limitArrival d s).now = s.now ∧
    (limitArrival d s).freeCount = s.freeCount ∧ (limitArrival d s).power = s.power ∧
    (limitArrival d s).standby = s.standby ∧ (limitArrival d s).decoder = s.decoder ∧
    (limitArrival d s).sensing = s.sensing ∧ (limitArrival d s).peers = s.peers ∧ (limitArrival d s).mem = s.mem ∧
    (limitArrival d s).link.station = s.link.station ∧ (limitArrival d s).link.state = s.link.state ∧
    (limitArrival d s).link.timed = s.link.timed ∧ (limitArrival d s).link.cycle = s.link.cycle ∧
    (limitArrival d s).link.cycleStart = s.link.cycleStart ∧ (limitArrival d s).link.muted = s.link.muted ∧
    (limitArrival d s).link.mismatches = s.link.mismatches ∧ (limitArrival d s).link.tx = s.link.tx ∧
    (limitArrival d s).link.offsets = s.link.offsets ∧
    (limitArrival d s).link.acceptedInCycle = s.link.acceptedInCycle ∧
    (limitArrival d s).link.foreignInCycle = s.link.foreignInCycle ∧
    (limitArrival d s).link.listenSince = s.link.listenSince ∧ (limitArrival d s).hold.keyCount = s.hold.keyCount ∧
    (limitArrival d s).hold.lockClear = s.hold.lockClear ∧
    (limitArrival d s).hold.lockClearLeft = s.hold.lockClearLeft ∧ (limitArrival d s).coord.run = s.coord.run ∧
    (limitArrival d s).coord.journalActive = s.coord.journalActive ∧ (limitArrival d s).coord.start = s.coord.start ∧
    (limitArrival d s).coord.restart = s.coord.restart ∧ (limitArrival d s).coord.restartLeft = s.coord.restartLeft ∧
    (limitArrival d s).coord.lastRunClaim = s.coord.lastRunClaim ∧ (limitArrival d s).plan.steps = s.plan.steps ∧
    (limitArrival d s).plan.isSealed = s.plan.isSealed ∧ (limitArrival d s).plan.digest = s.plan.digest ∧
    (limitArrival d s).store.scanDone = s.store.scanDone ∧ (limitArrival d s).store.tail = s.store.tail ∧
    (limitArrival d s).store.pointer = s.store.pointer ∧ (limitArrival d s).store.finalOut = s.store.finalOut ∧
    (limitArrival d s).store.dip = s.store.dip ∧ (limitArrival d s).store.retainedLockout = s.store.retainedLockout ∧
    (limitArrival d s).port.config = s.port.config ∧ (limitArrival d s).port.configDigest = s.port.configDigest ∧
    (limitArrival d s).port.receiving = s.port.receiving ∧ (limitArrival d s).port.resetArmed = s.port.resetArmed ∧
    (limitArrival d s).port.response = s.port.response ∧ (limitArrival d s).cal.committed = s.cal.committed := by
  simp only [limitArrival]; (repeat' split) <;> simp

@[simp] theorem startSeek_keeps (k : SeekKind) (d : StepDir) (speed : SpeedClass) (limit : Nat) (step : Option Nat) (s : State) :
    (startSeek k d speed limit step s).pending = s.pending ∧ (startSeek k d speed limit step s).now = s.now ∧
    (startSeek k d speed limit step s).freeCount = s.freeCount ∧ (startSeek k d speed limit step s).power = s.power ∧
    (startSeek k d speed limit step s).standby = s.standby ∧ (startSeek k d speed limit step s).decoder = s.decoder ∧
    (startSeek k d speed limit step s).sensing = s.sensing ∧ (startSeek k d speed limit step s).peers = s.peers ∧
    (startSeek k d speed limit step s).mem = s.mem ∧
    (startSeek k d speed limit step s).link.station = s.link.station ∧
    (startSeek k d speed limit step s).link.state = s.link.state ∧
    (startSeek k d speed limit step s).link.timed = s.link.timed ∧
    (startSeek k d speed limit step s).link.cycle = s.link.cycle ∧
    (startSeek k d speed limit step s).link.cycleStart = s.link.cycleStart ∧
    (startSeek k d speed limit step s).link.muted = s.link.muted ∧
    (startSeek k d speed limit step s).link.mismatches = s.link.mismatches ∧
    (startSeek k d speed limit step s).link.tx = s.link.tx ∧
    (startSeek k d speed limit step s).link.offsets = s.link.offsets ∧
    (startSeek k d speed limit step s).link.acceptedInCycle = s.link.acceptedInCycle ∧
    (startSeek k d speed limit step s).link.foreignInCycle = s.link.foreignInCycle ∧
    (startSeek k d speed limit step s).link.listenSince = s.link.listenSince ∧
    (startSeek k d speed limit step s).hold.keyCount = s.hold.keyCount ∧
    (startSeek k d speed limit step s).hold.lockClear = s.hold.lockClear ∧
    (startSeek k d speed limit step s).hold.lockClearLeft = s.hold.lockClearLeft ∧
    (startSeek k d speed limit step s).coord.run = s.coord.run ∧
    (startSeek k d speed limit step s).coord.journalActive = s.coord.journalActive ∧
    (startSeek k d speed limit step s).coord.start = s.coord.start ∧
    (startSeek k d speed limit step s).coord.restart = s.coord.restart ∧
    (startSeek k d speed limit step s).coord.restartLeft = s.coord.restartLeft ∧
    (startSeek k d speed limit step s).coord.lastRunClaim = s.coord.lastRunClaim ∧
    (startSeek k d speed limit step s).plan.steps = s.plan.steps ∧
    (startSeek k d speed limit step s).plan.isSealed = s.plan.isSealed ∧
    (startSeek k d speed limit step s).plan.digest = s.plan.digest ∧
    (startSeek k d speed limit step s).store.scanDone = s.store.scanDone ∧
    (startSeek k d speed limit step s).store.tail = s.store.tail ∧
    (startSeek k d speed limit step s).store.pointer = s.store.pointer ∧
    (startSeek k d speed limit step s).store.finalOut = s.store.finalOut ∧
    (startSeek k d speed limit step s).store.dip = s.store.dip ∧
    (startSeek k d speed limit step s).store.retainedLockout = s.store.retainedLockout ∧
    (startSeek k d speed limit step s).port.config = s.port.config ∧
    (startSeek k d speed limit step s).port.configDigest = s.port.configDigest ∧
    (startSeek k d speed limit step s).port.receiving = s.port.receiving ∧
    (startSeek k d speed limit step s).port.resetArmed = s.port.resetArmed ∧
    (startSeek k d speed limit step s).port.response = s.port.response ∧
    (startSeek k d speed limit step s).cal.committed = s.cal.committed := by
  simp only [startSeek]; (repeat' split) <;> simp

@[simp] theorem planRetry_keeps (step : Option Nat) (code : FaultCode) (detail : Int) (s : State) :
    (planRetry step code detail s).pending = s.pending ∧ (planRetry step code detail s).now = s.now ∧
    (planRetry step code detail s).freeCount = s.freeCount ∧ (planRetry step code detail s).power = s.power ∧
    (planRetry step code detail s).standby = s.standby ∧ (planRetry step code detail s).decoder = s.decoder ∧
    (planRetry step code detail s).sensing = s.sensing ∧ (planRetry step code detail s).peers = s.peers ∧
    (planRetry step code detail s).mem = s.mem ∧ (planRetry step code detail s).link.station = s.link.station ∧
    (planRetry step code detail s).link.state = s.link.state ∧
    (planRetry step code detail s).link.timed = s.link.timed ∧
    (planRetry step code detail s).link.cycle = s.link.cycle ∧
    (planRetry step code detail s).link.cycleStart = s.link.cycleStart ∧
    (planRetry step code detail s).link.muted = s.link.muted ∧
    (planRetry step code detail s).link.mismatches = s.link.mismatches ∧
    (planRetry step code detail s).link.tx = s.link.tx ∧
    (planRetry step code detail s).link.offsets = s.link.offsets ∧
    (planRetry step code detail s).link.acceptedInCycle = s.link.acceptedInCycle ∧
    (planRetry step code detail s).link.foreignInCycle = s.link.foreignInCycle ∧
    (planRetry step code detail s).link.listenSince = s.link.listenSince ∧
    (planRetry step code detail s).hold.keyCount = s.hold.keyCount ∧
    (planRetry step code detail s).hold.lockClear = s.hold.lockClear ∧
    (planRetry step code detail s).hold.lockClearLeft = s.hold.lockClearLeft ∧
    (planRetry step code detail s).coord.run = s.coord.run ∧
    (planRetry step code detail s).coord.journalActive = s.coord.journalActive ∧
    (planRetry step code detail s).coord.start = s.coord.start ∧
    (planRetry step code detail s).coord.restart = s.coord.restart ∧
    (planRetry step code detail s).coord.restartLeft = s.coord.restartLeft ∧
    (planRetry step code detail s).coord.lastRunClaim = s.coord.lastRunClaim ∧
    (planRetry step code detail s).plan.steps = s.plan.steps ∧
    (planRetry step code detail s).plan.isSealed = s.plan.isSealed ∧
    (planRetry step code detail s).plan.digest = s.plan.digest ∧
    (planRetry step code detail s).store.scanDone = s.store.scanDone ∧
    (planRetry step code detail s).store.tail = s.store.tail ∧
    (planRetry step code detail s).store.pointer = s.store.pointer ∧
    (planRetry step code detail s).store.finalOut = s.store.finalOut ∧
    (planRetry step code detail s).store.dip = s.store.dip ∧
    (planRetry step code detail s).store.retainedLockout = s.store.retainedLockout ∧
    (planRetry step code detail s).port.config = s.port.config ∧
    (planRetry step code detail s).port.configDigest = s.port.configDigest ∧
    (planRetry step code detail s).port.receiving = s.port.receiving ∧
    (planRetry step code detail s).port.resetArmed = s.port.resetArmed ∧
    (planRetry step code detail s).port.response = s.port.response ∧
    (planRetry step code detail s).cal.committed = s.cal.committed := by
  simp only [planRetry]; (repeat' split) <;> simp

@[simp] theorem seekReturn_keeps (c : SeekContext) (e : SeekEnd) (s : State) :
    (seekReturn c e s).pending = s.pending ∧ (seekReturn c e s).now = s.now ∧
    (seekReturn c e s).freeCount = s.freeCount ∧ (seekReturn c e s).power = s.power ∧
    (seekReturn c e s).standby = s.standby ∧ (seekReturn c e s).decoder = s.decoder ∧
    (seekReturn c e s).sensing = s.sensing ∧ (seekReturn c e s).peers = s.peers ∧ (seekReturn c e s).mem = s.mem ∧
    (seekReturn c e s).link.station = s.link.station ∧ (seekReturn c e s).link.state = s.link.state ∧
    (seekReturn c e s).link.timed = s.link.timed ∧ (seekReturn c e s).link.cycle = s.link.cycle ∧
    (seekReturn c e s).link.cycleStart = s.link.cycleStart ∧ (seekReturn c e s).link.muted = s.link.muted ∧
    (seekReturn c e s).link.mismatches = s.link.mismatches ∧ (seekReturn c e s).link.tx = s.link.tx ∧
    (seekReturn c e s).link.offsets = s.link.offsets ∧
    (seekReturn c e s).link.acceptedInCycle = s.link.acceptedInCycle ∧
    (seekReturn c e s).link.foreignInCycle = s.link.foreignInCycle ∧
    (seekReturn c e s).link.listenSince = s.link.listenSince ∧ (seekReturn c e s).hold.keyCount = s.hold.keyCount ∧
    (seekReturn c e s).hold.lockClear = s.hold.lockClear ∧
    (seekReturn c e s).hold.lockClearLeft = s.hold.lockClearLeft ∧ (seekReturn c e s).coord.run = s.coord.run ∧
    (seekReturn c e s).coord.journalActive = s.coord.journalActive ∧ (seekReturn c e s).coord.start = s.coord.start ∧
    (seekReturn c e s).coord.restart = s.coord.restart ∧ (seekReturn c e s).coord.restartLeft = s.coord.restartLeft ∧
    (seekReturn c e s).coord.lastRunClaim = s.coord.lastRunClaim ∧ (seekReturn c e s).plan.steps = s.plan.steps ∧
    (seekReturn c e s).plan.isSealed = s.plan.isSealed ∧ (seekReturn c e s).plan.digest = s.plan.digest ∧
    (seekReturn c e s).store.scanDone = s.store.scanDone ∧ (seekReturn c e s).store.tail = s.store.tail ∧
    (seekReturn c e s).store.pointer = s.store.pointer ∧ (seekReturn c e s).store.finalOut = s.store.finalOut ∧
    (seekReturn c e s).store.dip = s.store.dip ∧ (seekReturn c e s).store.retainedLockout = s.store.retainedLockout ∧
    (seekReturn c e s).port.config = s.port.config ∧ (seekReturn c e s).port.configDigest = s.port.configDigest ∧
    (seekReturn c e s).port.receiving = s.port.receiving ∧ (seekReturn c e s).port.resetArmed = s.port.resetArmed ∧
    (seekReturn c e s).port.response = s.port.response ∧ (seekReturn c e s).cal.committed = s.cal.committed := by
  simp only [seekReturn]; (repeat' split) <;> simp

@[simp] theorem endSeek_keeps (c : SeekContext) (e : SeekEnd) (detail : Int) (s : State) :
    (endSeek c e detail s).pending = s.pending ∧ (endSeek c e detail s).now = s.now ∧
    (endSeek c e detail s).freeCount = s.freeCount ∧ (endSeek c e detail s).power = s.power ∧
    (endSeek c e detail s).standby = s.standby ∧ (endSeek c e detail s).decoder = s.decoder ∧
    (endSeek c e detail s).sensing = s.sensing ∧ (endSeek c e detail s).peers = s.peers ∧
    (endSeek c e detail s).mem = s.mem ∧ (endSeek c e detail s).link.station = s.link.station ∧
    (endSeek c e detail s).link.state = s.link.state ∧ (endSeek c e detail s).link.timed = s.link.timed ∧
    (endSeek c e detail s).link.cycle = s.link.cycle ∧ (endSeek c e detail s).link.cycleStart = s.link.cycleStart ∧
    (endSeek c e detail s).link.muted = s.link.muted ∧ (endSeek c e detail s).link.mismatches = s.link.mismatches ∧
    (endSeek c e detail s).link.tx = s.link.tx ∧ (endSeek c e detail s).link.offsets = s.link.offsets ∧
    (endSeek c e detail s).link.acceptedInCycle = s.link.acceptedInCycle ∧
    (endSeek c e detail s).link.foreignInCycle = s.link.foreignInCycle ∧
    (endSeek c e detail s).link.listenSince = s.link.listenSince ∧
    (endSeek c e detail s).hold.keyCount = s.hold.keyCount ∧
    (endSeek c e detail s).hold.lockClear = s.hold.lockClear ∧
    (endSeek c e detail s).hold.lockClearLeft = s.hold.lockClearLeft ∧
    (endSeek c e detail s).coord.run = s.coord.run ∧
    (endSeek c e detail s).coord.journalActive = s.coord.journalActive ∧
    (endSeek c e detail s).coord.start = s.coord.start ∧ (endSeek c e detail s).coord.restart = s.coord.restart ∧
    (endSeek c e detail s).coord.restartLeft = s.coord.restartLeft ∧
    (endSeek c e detail s).coord.lastRunClaim = s.coord.lastRunClaim ∧
    (endSeek c e detail s).plan.steps = s.plan.steps ∧ (endSeek c e detail s).plan.isSealed = s.plan.isSealed ∧
    (endSeek c e detail s).plan.digest = s.plan.digest ∧ (endSeek c e detail s).store.scanDone = s.store.scanDone ∧
    (endSeek c e detail s).store.tail = s.store.tail ∧ (endSeek c e detail s).store.pointer = s.store.pointer ∧
    (endSeek c e detail s).store.finalOut = s.store.finalOut ∧ (endSeek c e detail s).store.dip = s.store.dip ∧
    (endSeek c e detail s).store.retainedLockout = s.store.retainedLockout ∧
    (endSeek c e detail s).port.config = s.port.config ∧
    (endSeek c e detail s).port.configDigest = s.port.configDigest ∧
    (endSeek c e detail s).port.receiving = s.port.receiving ∧
    (endSeek c e detail s).port.resetArmed = s.port.resetArmed ∧
    (endSeek c e detail s).port.response = s.port.response ∧ (endSeek c e detail s).cal.committed = s.cal.committed := by
  simp only [endSeek]; (repeat' split) <;> simp

@[simp] theorem capturedComplete_keeps (c : SeekContext) (s : State) :
    (capturedComplete c s).pending = s.pending ∧ (capturedComplete c s).now = s.now ∧
    (capturedComplete c s).freeCount = s.freeCount ∧ (capturedComplete c s).power = s.power ∧
    (capturedComplete c s).standby = s.standby ∧ (capturedComplete c s).decoder = s.decoder ∧
    (capturedComplete c s).sensing = s.sensing ∧ (capturedComplete c s).link = s.link ∧
    (capturedComplete c s).peers = s.peers ∧ (capturedComplete c s).coord = s.coord ∧
    (capturedComplete c s).hold = s.hold ∧ (capturedComplete c s).cal = s.cal ∧
    (capturedComplete c s).store = s.store ∧ (capturedComplete c s).mem = s.mem ∧
    (capturedComplete c s).plan.steps = s.plan.steps ∧ (capturedComplete c s).plan.isSealed = s.plan.isSealed ∧
    (capturedComplete c s).plan.digest = s.plan.digest ∧ (capturedComplete c s).port.config = s.port.config ∧
    (capturedComplete c s).port.configDigest = s.port.configDigest ∧
    (capturedComplete c s).port.receiving = s.port.receiving ∧
    (capturedComplete c s).port.resetArmed = s.port.resetArmed ∧
    (capturedComplete c s).port.response = s.port.response := by
  simp [capturedComplete]

@[simp] theorem enterCaptured_keeps (c : SeekContext) (s : State) :
    (enterCaptured c s).pending = s.pending ∧ (enterCaptured c s).now = s.now ∧
    (enterCaptured c s).freeCount = s.freeCount ∧ (enterCaptured c s).power = s.power ∧
    (enterCaptured c s).standby = s.standby ∧ (enterCaptured c s).decoder = s.decoder ∧
    (enterCaptured c s).sensing = s.sensing ∧ (enterCaptured c s).link = s.link ∧
    (enterCaptured c s).peers = s.peers ∧ (enterCaptured c s).coord = s.coord ∧ (enterCaptured c s).hold = s.hold ∧
    (enterCaptured c s).cal = s.cal ∧ (enterCaptured c s).store = s.store ∧ (enterCaptured c s).mem = s.mem ∧
    (enterCaptured c s).plan.steps = s.plan.steps ∧ (enterCaptured c s).plan.isSealed = s.plan.isSealed ∧
    (enterCaptured c s).plan.digest = s.plan.digest ∧ (enterCaptured c s).port.config = s.port.config ∧
    (enterCaptured c s).port.configDigest = s.port.configDigest ∧
    (enterCaptured c s).port.receiving = s.port.receiving ∧ (enterCaptured c s).port.resetArmed = s.port.resetArmed ∧
    (enterCaptured c s).port.response = s.port.response := by
  simp only [enterCaptured]; (repeat' split) <;> simp

@[simp] theorem seekClaim_keeps (c : SeekContext) (v : Int) (s : State) :
    (seekClaim c v s).pending = s.pending ∧ (seekClaim c v s).now = s.now ∧
    (seekClaim c v s).freeCount = s.freeCount ∧ (seekClaim c v s).power = s.power ∧
    (seekClaim c v s).decoder = s.decoder ∧ (seekClaim c v s).link = s.link ∧ (seekClaim c v s).peers = s.peers ∧
    (seekClaim c v s).coord = s.coord ∧ (seekClaim c v s).hold = s.hold ∧ (seekClaim c v s).cal = s.cal ∧
    (seekClaim c v s).store = s.store ∧ (seekClaim c v s).mem = s.mem ∧ (seekClaim c v s).plan.steps = s.plan.steps ∧
    (seekClaim c v s).plan.isSealed = s.plan.isSealed ∧ (seekClaim c v s).plan.digest = s.plan.digest ∧
    (seekClaim c v s).port.config = s.port.config ∧ (seekClaim c v s).port.configDigest = s.port.configDigest ∧
    (seekClaim c v s).port.receiving = s.port.receiving ∧ (seekClaim c v s).port.resetArmed = s.port.resetArmed ∧
    (seekClaim c v s).port.response = s.port.response ∧ (seekClaim c v s).sensing.settling = s.sensing.settling ∧
    (seekClaim c v s).sensing.accepted = s.sensing.accepted ∧
    (seekClaim c v s).sensing.drvStill = s.sensing.drvStill ∧ (seekClaim c v s).sensing.brkFb = s.sensing.brkFb ∧
    (seekClaim c v s).sensing.pfail = s.sensing.pfail ∧ (seekClaim c v s).standby.supplyLoss = s.standby.supplyLoss ∧
    (seekClaim c v s).standby.excursion = s.standby.excursion ∧ (seekClaim c v s).standby.alive = s.standby.alive := by
  simp only [seekClaim]
  cases h : setClaimNewest v s with
  | none => simp
  | some x => have k := setClaimNewest_keeps v s x h; simp [k]

@[simp] theorem mismatchResolve_keeps (s : State) :
    (mismatchResolve s).pending = s.pending ∧ (mismatchResolve s).now = s.now ∧
    (mismatchResolve s).freeCount = s.freeCount ∧ (mismatchResolve s).power = s.power ∧
    (mismatchResolve s).standby = s.standby ∧ (mismatchResolve s).decoder = s.decoder ∧
    (mismatchResolve s).sensing = s.sensing ∧ (mismatchResolve s).link = s.link ∧
    (mismatchResolve s).peers = s.peers ∧ (mismatchResolve s).coord = s.coord ∧ (mismatchResolve s).hold = s.hold ∧
    (mismatchResolve s).cal = s.cal ∧ (mismatchResolve s).store = s.store ∧ (mismatchResolve s).mem = s.mem ∧
    (mismatchResolve s).plan.steps = s.plan.steps ∧ (mismatchResolve s).plan.isSealed = s.plan.isSealed ∧
    (mismatchResolve s).plan.digest = s.plan.digest ∧ (mismatchResolve s).port.config = s.port.config ∧
    (mismatchResolve s).port.configDigest = s.port.configDigest ∧
    (mismatchResolve s).port.receiving = s.port.receiving ∧ (mismatchResolve s).port.resetArmed = s.port.resetArmed ∧
    (mismatchResolve s).port.response = s.port.response ∧ (mismatchResolve s).engine.refState = s.engine.refState ∧
    (mismatchResolve s).engine.operation = s.engine.operation := by
  simp only [mismatchResolve]; (repeat' split) <;> simp

@[simp] theorem witnessMismatch_keeps (c : SeekContext) (deviation : Int) (s : State) :
    (witnessMismatch c deviation s).pending = s.pending ∧ (witnessMismatch c deviation s).now = s.now ∧
    (witnessMismatch c deviation s).freeCount = s.freeCount ∧ (witnessMismatch c deviation s).power = s.power ∧
    (witnessMismatch c deviation s).standby = s.standby ∧ (witnessMismatch c deviation s).decoder = s.decoder ∧
    (witnessMismatch c deviation s).sensing = s.sensing ∧ (witnessMismatch c deviation s).peers = s.peers ∧
    (witnessMismatch c deviation s).coord = s.coord ∧ (witnessMismatch c deviation s).cal = s.cal ∧
    (witnessMismatch c deviation s).store = s.store ∧ (witnessMismatch c deviation s).mem = s.mem ∧
    (witnessMismatch c deviation s).link.station = s.link.station ∧
    (witnessMismatch c deviation s).link.state = s.link.state ∧
    (witnessMismatch c deviation s).link.timed = s.link.timed ∧
    (witnessMismatch c deviation s).link.cycle = s.link.cycle ∧
    (witnessMismatch c deviation s).link.cycleStart = s.link.cycleStart ∧
    (witnessMismatch c deviation s).link.muted = s.link.muted ∧
    (witnessMismatch c deviation s).link.mismatches = s.link.mismatches ∧
    (witnessMismatch c deviation s).link.tx = s.link.tx ∧
    (witnessMismatch c deviation s).link.offsets = s.link.offsets ∧
    (witnessMismatch c deviation s).link.acceptedInCycle = s.link.acceptedInCycle ∧
    (witnessMismatch c deviation s).link.foreignInCycle = s.link.foreignInCycle ∧
    (witnessMismatch c deviation s).link.listenSince = s.link.listenSince ∧
    (witnessMismatch c deviation s).hold.level = s.hold.level ∧
    (witnessMismatch c deviation s).hold.complete = s.hold.complete ∧
    (witnessMismatch c deviation s).hold.seq = s.hold.seq ∧
    (witnessMismatch c deviation s).hold.keyCount = s.hold.keyCount ∧
    (witnessMismatch c deviation s).hold.lockClear = s.hold.lockClear ∧
    (witnessMismatch c deviation s).hold.lockClearLeft = s.hold.lockClearLeft ∧
    (witnessMismatch c deviation s).plan.steps = s.plan.steps ∧
    (witnessMismatch c deviation s).plan.isSealed = s.plan.isSealed ∧
    (witnessMismatch c deviation s).plan.digest = s.plan.digest ∧
    (witnessMismatch c deviation s).port.config = s.port.config ∧
    (witnessMismatch c deviation s).port.configDigest = s.port.configDigest ∧
    (witnessMismatch c deviation s).port.receiving = s.port.receiving ∧
    (witnessMismatch c deviation s).port.resetArmed = s.port.resetArmed ∧
    (witnessMismatch c deviation s).port.response = s.port.response := by
  simp only [witnessMismatch]; (repeat' split) <;> simp

@[simp] theorem seekIgnores_keeps (c : SeekContext) (x : Capture) (s : State) :
    (seekIgnores c x s).pending = s.pending ∧ (seekIgnores c x s).now = s.now ∧
    (seekIgnores c x s).freeCount = s.freeCount ∧ (seekIgnores c x s).power = s.power ∧
    (seekIgnores c x s).standby = s.standby ∧ (seekIgnores c x s).decoder = s.decoder ∧
    (seekIgnores c x s).engine = s.engine ∧ (seekIgnores c x s).link = s.link ∧ (seekIgnores c x s).peers = s.peers ∧
    (seekIgnores c x s).coord = s.coord ∧ (seekIgnores c x s).plan = s.plan ∧ (seekIgnores c x s).hold = s.hold ∧
    (seekIgnores c x s).gate = s.gate ∧ (seekIgnores c x s).cal = s.cal ∧ (seekIgnores c x s).store = s.store ∧
    (seekIgnores c x s).mem = s.mem ∧ (seekIgnores c x s).port = s.port ∧
    (seekIgnores c x s).sensing.settling = s.sensing.settling ∧
    (seekIgnores c x s).sensing.accepted = s.sensing.accepted ∧
    (seekIgnores c x s).sensing.drvStill = s.sensing.drvStill ∧ (seekIgnores c x s).sensing.brkFb = s.sensing.brkFb ∧
    (seekIgnores c x s).sensing.pfail = s.sensing.pfail := by
  simp only [seekIgnores]; (repeat' split) <;> simp

@[simp] theorem seekCapture_keeps (c : SeekContext) (x : Capture) (s : State) :
    (seekCapture c x s).pending = s.pending ∧ (seekCapture c x s).now = s.now ∧
    (seekCapture c x s).freeCount = s.freeCount ∧ (seekCapture c x s).power = s.power ∧
    (seekCapture c x s).decoder = s.decoder ∧ (seekCapture c x s).peers = s.peers ∧
    (seekCapture c x s).coord = s.coord ∧ (seekCapture c x s).cal = s.cal ∧ (seekCapture c x s).store = s.store ∧
    (seekCapture c x s).mem = s.mem ∧ (seekCapture c x s).link.station = s.link.station ∧
    (seekCapture c x s).link.state = s.link.state ∧ (seekCapture c x s).link.timed = s.link.timed ∧
    (seekCapture c x s).link.cycle = s.link.cycle ∧ (seekCapture c x s).link.cycleStart = s.link.cycleStart ∧
    (seekCapture c x s).link.muted = s.link.muted ∧ (seekCapture c x s).link.mismatches = s.link.mismatches ∧
    (seekCapture c x s).link.tx = s.link.tx ∧ (seekCapture c x s).link.offsets = s.link.offsets ∧
    (seekCapture c x s).link.acceptedInCycle = s.link.acceptedInCycle ∧
    (seekCapture c x s).link.foreignInCycle = s.link.foreignInCycle ∧
    (seekCapture c x s).link.listenSince = s.link.listenSince ∧ (seekCapture c x s).hold.level = s.hold.level ∧
    (seekCapture c x s).hold.complete = s.hold.complete ∧ (seekCapture c x s).hold.seq = s.hold.seq ∧
    (seekCapture c x s).hold.keyCount = s.hold.keyCount ∧ (seekCapture c x s).hold.lockClear = s.hold.lockClear ∧
    (seekCapture c x s).hold.lockClearLeft = s.hold.lockClearLeft ∧ (seekCapture c x s).plan.steps = s.plan.steps ∧
    (seekCapture c x s).plan.isSealed = s.plan.isSealed ∧ (seekCapture c x s).plan.digest = s.plan.digest ∧
    (seekCapture c x s).port.config = s.port.config ∧ (seekCapture c x s).port.configDigest = s.port.configDigest ∧
    (seekCapture c x s).port.receiving = s.port.receiving ∧ (seekCapture c x s).port.resetArmed = s.port.resetArmed ∧
    (seekCapture c x s).port.response = s.port.response ∧ (seekCapture c x s).sensing.settling = s.sensing.settling ∧
    (seekCapture c x s).sensing.accepted = s.sensing.accepted ∧
    (seekCapture c x s).sensing.drvStill = s.sensing.drvStill ∧ (seekCapture c x s).sensing.brkFb = s.sensing.brkFb ∧
    (seekCapture c x s).sensing.pfail = s.sensing.pfail ∧
    (seekCapture c x s).standby.supplyLoss = s.standby.supplyLoss ∧
    (seekCapture c x s).standby.excursion = s.standby.excursion ∧ (seekCapture c x s).standby.alive = s.standby.alive := by
  simp only [seekCapture]; (repeat' split) <;> simp

@[simp] theorem markCheck_keeps (x : Capture) (s : State) :
    (markCheck x s).pending = s.pending ∧ (markCheck x s).now = s.now ∧ (markCheck x s).freeCount = s.freeCount ∧
    (markCheck x s).power = s.power ∧ (markCheck x s).standby = s.standby ∧ (markCheck x s).decoder = s.decoder ∧
    (markCheck x s).peers = s.peers ∧ (markCheck x s).mem = s.mem ∧ (markCheck x s).link.station = s.link.station ∧
    (markCheck x s).link.state = s.link.state ∧ (markCheck x s).link.timed = s.link.timed ∧
    (markCheck x s).link.cycle = s.link.cycle ∧ (markCheck x s).link.cycleStart = s.link.cycleStart ∧
    (markCheck x s).link.muted = s.link.muted ∧ (markCheck x s).link.mismatches = s.link.mismatches ∧
    (markCheck x s).link.tx = s.link.tx ∧ (markCheck x s).link.offsets = s.link.offsets ∧
    (markCheck x s).link.acceptedInCycle = s.link.acceptedInCycle ∧
    (markCheck x s).link.foreignInCycle = s.link.foreignInCycle ∧
    (markCheck x s).link.listenSince = s.link.listenSince ∧ (markCheck x s).hold.keyCount = s.hold.keyCount ∧
    (markCheck x s).hold.lockClear = s.hold.lockClear ∧ (markCheck x s).hold.lockClearLeft = s.hold.lockClearLeft ∧
    (markCheck x s).coord.run = s.coord.run ∧ (markCheck x s).coord.journalActive = s.coord.journalActive ∧
    (markCheck x s).coord.start = s.coord.start ∧ (markCheck x s).coord.restart = s.coord.restart ∧
    (markCheck x s).coord.restartLeft = s.coord.restartLeft ∧
    (markCheck x s).coord.lastRunClaim = s.coord.lastRunClaim ∧ (markCheck x s).plan.steps = s.plan.steps ∧
    (markCheck x s).plan.isSealed = s.plan.isSealed ∧ (markCheck x s).plan.digest = s.plan.digest ∧
    (markCheck x s).store.scanDone = s.store.scanDone ∧ (markCheck x s).store.tail = s.store.tail ∧
    (markCheck x s).store.pointer = s.store.pointer ∧ (markCheck x s).store.finalOut = s.store.finalOut ∧
    (markCheck x s).store.dip = s.store.dip ∧ (markCheck x s).store.retainedLockout = s.store.retainedLockout ∧
    (markCheck x s).port.config = s.port.config ∧ (markCheck x s).port.configDigest = s.port.configDigest ∧
    (markCheck x s).port.receiving = s.port.receiving ∧ (markCheck x s).port.resetArmed = s.port.resetArmed ∧
    (markCheck x s).port.response = s.port.response ∧ (markCheck x s).sensing.settling = s.sensing.settling ∧
    (markCheck x s).sensing.accepted = s.sensing.accepted ∧ (markCheck x s).sensing.drvStill = s.sensing.drvStill ∧
    (markCheck x s).sensing.brkFb = s.sensing.brkFb ∧ (markCheck x s).sensing.pfail = s.sensing.pfail ∧
    (markCheck x s).cal.committed = s.cal.committed := by
  simp only [markCheck]; (repeat' split) <;> simp

@[simp] theorem surveyEnterCapture_keeps (c : SurveyContext) (phase : Nat) (s : State) :
    (surveyEnterCapture c phase s).pending = s.pending ∧ (surveyEnterCapture c phase s).now = s.now ∧
    (surveyEnterCapture c phase s).freeCount = s.freeCount ∧ (surveyEnterCapture c phase s).power = s.power ∧
    (surveyEnterCapture c phase s).standby = s.standby ∧ (surveyEnterCapture c phase s).decoder = s.decoder ∧
    (surveyEnterCapture c phase s).sensing = s.sensing ∧ (surveyEnterCapture c phase s).peers = s.peers ∧
    (surveyEnterCapture c phase s).mem = s.mem ∧ (surveyEnterCapture c phase s).link.station = s.link.station ∧
    (surveyEnterCapture c phase s).link.state = s.link.state ∧
    (surveyEnterCapture c phase s).link.timed = s.link.timed ∧
    (surveyEnterCapture c phase s).link.cycle = s.link.cycle ∧
    (surveyEnterCapture c phase s).link.cycleStart = s.link.cycleStart ∧
    (surveyEnterCapture c phase s).link.muted = s.link.muted ∧
    (surveyEnterCapture c phase s).link.mismatches = s.link.mismatches ∧
    (surveyEnterCapture c phase s).link.tx = s.link.tx ∧
    (surveyEnterCapture c phase s).link.offsets = s.link.offsets ∧
    (surveyEnterCapture c phase s).link.acceptedInCycle = s.link.acceptedInCycle ∧
    (surveyEnterCapture c phase s).link.foreignInCycle = s.link.foreignInCycle ∧
    (surveyEnterCapture c phase s).link.listenSince = s.link.listenSince ∧
    (surveyEnterCapture c phase s).hold.keyCount = s.hold.keyCount ∧
    (surveyEnterCapture c phase s).hold.lockClear = s.hold.lockClear ∧
    (surveyEnterCapture c phase s).hold.lockClearLeft = s.hold.lockClearLeft ∧
    (surveyEnterCapture c phase s).coord.run = s.coord.run ∧
    (surveyEnterCapture c phase s).coord.journalActive = s.coord.journalActive ∧
    (surveyEnterCapture c phase s).coord.start = s.coord.start ∧
    (surveyEnterCapture c phase s).coord.restart = s.coord.restart ∧
    (surveyEnterCapture c phase s).coord.restartLeft = s.coord.restartLeft ∧
    (surveyEnterCapture c phase s).coord.lastRunClaim = s.coord.lastRunClaim ∧
    (surveyEnterCapture c phase s).plan.steps = s.plan.steps ∧
    (surveyEnterCapture c phase s).plan.isSealed = s.plan.isSealed ∧
    (surveyEnterCapture c phase s).plan.digest = s.plan.digest ∧
    (surveyEnterCapture c phase s).store.scanDone = s.store.scanDone ∧
    (surveyEnterCapture c phase s).store.tail = s.store.tail ∧
    (surveyEnterCapture c phase s).store.pointer = s.store.pointer ∧
    (surveyEnterCapture c phase s).store.finalOut = s.store.finalOut ∧
    (surveyEnterCapture c phase s).store.dip = s.store.dip ∧
    (surveyEnterCapture c phase s).store.retainedLockout = s.store.retainedLockout ∧
    (surveyEnterCapture c phase s).port.config = s.port.config ∧
    (surveyEnterCapture c phase s).port.configDigest = s.port.configDigest ∧
    (surveyEnterCapture c phase s).port.receiving = s.port.receiving ∧
    (surveyEnterCapture c phase s).port.resetArmed = s.port.resetArmed ∧
    (surveyEnterCapture c phase s).port.response = s.port.response ∧
    (surveyEnterCapture c phase s).cal.committed = s.cal.committed := by
  simp only [surveyEnterCapture]; (repeat' split) <;> simp

@[simp] theorem surveyEnterGoto_keeps (c : SurveyContext) (phase : Nat) (s : State) :
    (surveyEnterGoto c phase s).pending = s.pending ∧ (surveyEnterGoto c phase s).now = s.now ∧
    (surveyEnterGoto c phase s).freeCount = s.freeCount ∧ (surveyEnterGoto c phase s).power = s.power ∧
    (surveyEnterGoto c phase s).standby = s.standby ∧ (surveyEnterGoto c phase s).decoder = s.decoder ∧
    (surveyEnterGoto c phase s).sensing = s.sensing ∧ (surveyEnterGoto c phase s).peers = s.peers ∧
    (surveyEnterGoto c phase s).mem = s.mem ∧ (surveyEnterGoto c phase s).link.station = s.link.station ∧
    (surveyEnterGoto c phase s).link.state = s.link.state ∧ (surveyEnterGoto c phase s).link.timed = s.link.timed ∧
    (surveyEnterGoto c phase s).link.cycle = s.link.cycle ∧
    (surveyEnterGoto c phase s).link.cycleStart = s.link.cycleStart ∧
    (surveyEnterGoto c phase s).link.muted = s.link.muted ∧
    (surveyEnterGoto c phase s).link.mismatches = s.link.mismatches ∧
    (surveyEnterGoto c phase s).link.tx = s.link.tx ∧ (surveyEnterGoto c phase s).link.offsets = s.link.offsets ∧
    (surveyEnterGoto c phase s).link.acceptedInCycle = s.link.acceptedInCycle ∧
    (surveyEnterGoto c phase s).link.foreignInCycle = s.link.foreignInCycle ∧
    (surveyEnterGoto c phase s).link.listenSince = s.link.listenSince ∧
    (surveyEnterGoto c phase s).hold.keyCount = s.hold.keyCount ∧
    (surveyEnterGoto c phase s).hold.lockClear = s.hold.lockClear ∧
    (surveyEnterGoto c phase s).hold.lockClearLeft = s.hold.lockClearLeft ∧
    (surveyEnterGoto c phase s).coord.run = s.coord.run ∧
    (surveyEnterGoto c phase s).coord.journalActive = s.coord.journalActive ∧
    (surveyEnterGoto c phase s).coord.start = s.coord.start ∧
    (surveyEnterGoto c phase s).coord.restart = s.coord.restart ∧
    (surveyEnterGoto c phase s).coord.restartLeft = s.coord.restartLeft ∧
    (surveyEnterGoto c phase s).coord.lastRunClaim = s.coord.lastRunClaim ∧
    (surveyEnterGoto c phase s).plan.steps = s.plan.steps ∧
    (surveyEnterGoto c phase s).plan.isSealed = s.plan.isSealed ∧
    (surveyEnterGoto c phase s).plan.digest = s.plan.digest ∧
    (surveyEnterGoto c phase s).store.scanDone = s.store.scanDone ∧
    (surveyEnterGoto c phase s).store.tail = s.store.tail ∧
    (surveyEnterGoto c phase s).store.pointer = s.store.pointer ∧
    (surveyEnterGoto c phase s).store.finalOut = s.store.finalOut ∧
    (surveyEnterGoto c phase s).store.dip = s.store.dip ∧
    (surveyEnterGoto c phase s).store.retainedLockout = s.store.retainedLockout ∧
    (surveyEnterGoto c phase s).port.config = s.port.config ∧
    (surveyEnterGoto c phase s).port.configDigest = s.port.configDigest ∧
    (surveyEnterGoto c phase s).port.receiving = s.port.receiving ∧
    (surveyEnterGoto c phase s).port.resetArmed = s.port.resetArmed ∧
    (surveyEnterGoto c phase s).port.response = s.port.response ∧
    (surveyEnterGoto c phase s).cal.committed = s.cal.committed := by
  simp [surveyEnterGoto]

@[simp] theorem surveyEnterApproach_keeps (c : SurveyContext) (phase : Nat) (s : State) :
    (surveyEnterApproach c phase s).pending = s.pending ∧ (surveyEnterApproach c phase s).now = s.now ∧
    (surveyEnterApproach c phase s).freeCount = s.freeCount ∧ (surveyEnterApproach c phase s).power = s.power ∧
    (surveyEnterApproach c phase s).standby = s.standby ∧ (surveyEnterApproach c phase s).decoder = s.decoder ∧
    (surveyEnterApproach c phase s).sensing = s.sensing ∧ (surveyEnterApproach c phase s).peers = s.peers ∧
    (surveyEnterApproach c phase s).mem = s.mem ∧ (surveyEnterApproach c phase s).link.station = s.link.station ∧
    (surveyEnterApproach c phase s).link.state = s.link.state ∧
    (surveyEnterApproach c phase s).link.timed = s.link.timed ∧
    (surveyEnterApproach c phase s).link.cycle = s.link.cycle ∧
    (surveyEnterApproach c phase s).link.cycleStart = s.link.cycleStart ∧
    (surveyEnterApproach c phase s).link.muted = s.link.muted ∧
    (surveyEnterApproach c phase s).link.mismatches = s.link.mismatches ∧
    (surveyEnterApproach c phase s).link.tx = s.link.tx ∧
    (surveyEnterApproach c phase s).link.offsets = s.link.offsets ∧
    (surveyEnterApproach c phase s).link.acceptedInCycle = s.link.acceptedInCycle ∧
    (surveyEnterApproach c phase s).link.foreignInCycle = s.link.foreignInCycle ∧
    (surveyEnterApproach c phase s).link.listenSince = s.link.listenSince ∧
    (surveyEnterApproach c phase s).hold.keyCount = s.hold.keyCount ∧
    (surveyEnterApproach c phase s).hold.lockClear = s.hold.lockClear ∧
    (surveyEnterApproach c phase s).hold.lockClearLeft = s.hold.lockClearLeft ∧
    (surveyEnterApproach c phase s).coord.run = s.coord.run ∧
    (surveyEnterApproach c phase s).coord.journalActive = s.coord.journalActive ∧
    (surveyEnterApproach c phase s).coord.start = s.coord.start ∧
    (surveyEnterApproach c phase s).coord.restart = s.coord.restart ∧
    (surveyEnterApproach c phase s).coord.restartLeft = s.coord.restartLeft ∧
    (surveyEnterApproach c phase s).coord.lastRunClaim = s.coord.lastRunClaim ∧
    (surveyEnterApproach c phase s).plan.steps = s.plan.steps ∧
    (surveyEnterApproach c phase s).plan.isSealed = s.plan.isSealed ∧
    (surveyEnterApproach c phase s).plan.digest = s.plan.digest ∧
    (surveyEnterApproach c phase s).store.scanDone = s.store.scanDone ∧
    (surveyEnterApproach c phase s).store.tail = s.store.tail ∧
    (surveyEnterApproach c phase s).store.pointer = s.store.pointer ∧
    (surveyEnterApproach c phase s).store.finalOut = s.store.finalOut ∧
    (surveyEnterApproach c phase s).store.dip = s.store.dip ∧
    (surveyEnterApproach c phase s).store.retainedLockout = s.store.retainedLockout ∧
    (surveyEnterApproach c phase s).port.config = s.port.config ∧
    (surveyEnterApproach c phase s).port.configDigest = s.port.configDigest ∧
    (surveyEnterApproach c phase s).port.receiving = s.port.receiving ∧
    (surveyEnterApproach c phase s).port.resetArmed = s.port.resetArmed ∧
    (surveyEnterApproach c phase s).port.response = s.port.response ∧
    (surveyEnterApproach c phase s).cal.committed = s.cal.committed := by
  simp only [surveyEnterApproach]; (repeat' split) <;> simp

@[simp] theorem surveyFail_keeps (c : SurveyContext) (phase : Nat) (s : State) :
    (surveyFail c phase s).pending = s.pending ∧ (surveyFail c phase s).now = s.now ∧
    (surveyFail c phase s).freeCount = s.freeCount ∧ (surveyFail c phase s).power = s.power ∧
    (surveyFail c phase s).standby = s.standby ∧ (surveyFail c phase s).decoder = s.decoder ∧
    (surveyFail c phase s).sensing = s.sensing ∧ (surveyFail c phase s).peers = s.peers ∧
    (surveyFail c phase s).coord = s.coord ∧ (surveyFail c phase s).store = s.store ∧
    (surveyFail c phase s).mem = s.mem ∧ (surveyFail c phase s).link.station = s.link.station ∧
    (surveyFail c phase s).link.state = s.link.state ∧ (surveyFail c phase s).link.timed = s.link.timed ∧
    (surveyFail c phase s).link.cycle = s.link.cycle ∧ (surveyFail c phase s).link.cycleStart = s.link.cycleStart ∧
    (surveyFail c phase s).link.muted = s.link.muted ∧ (surveyFail c phase s).link.mismatches = s.link.mismatches ∧
    (surveyFail c phase s).link.tx = s.link.tx ∧ (surveyFail c phase s).link.offsets = s.link.offsets ∧
    (surveyFail c phase s).link.acceptedInCycle = s.link.acceptedInCycle ∧
    (surveyFail c phase s).link.foreignInCycle = s.link.foreignInCycle ∧
    (surveyFail c phase s).link.listenSince = s.link.listenSince ∧ (surveyFail c phase s).hold.level = s.hold.level ∧
    (surveyFail c phase s).hold.complete = s.hold.complete ∧ (surveyFail c phase s).hold.seq = s.hold.seq ∧
    (surveyFail c phase s).hold.keyCount = s.hold.keyCount ∧
    (surveyFail c phase s).hold.lockClear = s.hold.lockClear ∧
    (surveyFail c phase s).hold.lockClearLeft = s.hold.lockClearLeft ∧
    (surveyFail c phase s).plan.steps = s.plan.steps ∧ (surveyFail c phase s).plan.isSealed = s.plan.isSealed ∧
    (surveyFail c phase s).plan.digest = s.plan.digest ∧ (surveyFail c phase s).plan.running = s.plan.running ∧
    (surveyFail c phase s).port.config = s.port.config ∧
    (surveyFail c phase s).port.configDigest = s.port.configDigest ∧
    (surveyFail c phase s).port.receiving = s.port.receiving ∧
    (surveyFail c phase s).port.resetArmed = s.port.resetArmed ∧
    (surveyFail c phase s).port.response = s.port.response ∧ (surveyFail c phase s).cal.committed = s.cal.committed ∧
    (surveyFail c phase s).cal.staged = s.cal.staged := by
  simp only [surveyFail]; (repeat' split) <;> simp

@[simp] theorem raiseBacklash_keeps (b : Int) (s : State) :
    (raiseBacklash b s).pending = s.pending ∧ (raiseBacklash b s).now = s.now ∧
    (raiseBacklash b s).freeCount = s.freeCount ∧ (raiseBacklash b s).power = s.power ∧
    (raiseBacklash b s).standby = s.standby ∧ (raiseBacklash b s).decoder = s.decoder ∧
    (raiseBacklash b s).sensing = s.sensing ∧ (raiseBacklash b s).peers = s.peers ∧ (raiseBacklash b s).mem = s.mem ∧
    (raiseBacklash b s).link.station = s.link.station ∧ (raiseBacklash b s).link.state = s.link.state ∧
    (raiseBacklash b s).link.timed = s.link.timed ∧ (raiseBacklash b s).link.cycle = s.link.cycle ∧
    (raiseBacklash b s).link.cycleStart = s.link.cycleStart ∧ (raiseBacklash b s).link.muted = s.link.muted ∧
    (raiseBacklash b s).link.mismatches = s.link.mismatches ∧ (raiseBacklash b s).link.tx = s.link.tx ∧
    (raiseBacklash b s).link.offsets = s.link.offsets ∧
    (raiseBacklash b s).link.acceptedInCycle = s.link.acceptedInCycle ∧
    (raiseBacklash b s).link.foreignInCycle = s.link.foreignInCycle ∧
    (raiseBacklash b s).link.listenSince = s.link.listenSince ∧ (raiseBacklash b s).hold.keyCount = s.hold.keyCount ∧
    (raiseBacklash b s).hold.lockClear = s.hold.lockClear ∧
    (raiseBacklash b s).hold.lockClearLeft = s.hold.lockClearLeft ∧ (raiseBacklash b s).coord.run = s.coord.run ∧
    (raiseBacklash b s).coord.journalActive = s.coord.journalActive ∧
    (raiseBacklash b s).coord.start = s.coord.start ∧ (raiseBacklash b s).coord.restart = s.coord.restart ∧
    (raiseBacklash b s).coord.restartLeft = s.coord.restartLeft ∧
    (raiseBacklash b s).coord.lastRunClaim = s.coord.lastRunClaim ∧ (raiseBacklash b s).plan.steps = s.plan.steps ∧
    (raiseBacklash b s).plan.isSealed = s.plan.isSealed ∧ (raiseBacklash b s).plan.digest = s.plan.digest ∧
    (raiseBacklash b s).store.scanDone = s.store.scanDone ∧ (raiseBacklash b s).store.tail = s.store.tail ∧
    (raiseBacklash b s).store.pointer = s.store.pointer ∧ (raiseBacklash b s).store.finalOut = s.store.finalOut ∧
    (raiseBacklash b s).store.dip = s.store.dip ∧
    (raiseBacklash b s).store.retainedLockout = s.store.retainedLockout ∧
    (raiseBacklash b s).port.config = s.port.config ∧ (raiseBacklash b s).port.configDigest = s.port.configDigest ∧
    (raiseBacklash b s).port.receiving = s.port.receiving ∧ (raiseBacklash b s).port.resetArmed = s.port.resetArmed ∧
    (raiseBacklash b s).port.response = s.port.response ∧ (raiseBacklash b s).cal.committed = s.cal.committed := by
  simp [raiseBacklash]

@[simp] theorem raiseRatio_keeps (d : Int) (s : State) :
    (raiseRatio d s).pending = s.pending ∧ (raiseRatio d s).now = s.now ∧ (raiseRatio d s).freeCount = s.freeCount ∧
    (raiseRatio d s).power = s.power ∧ (raiseRatio d s).standby = s.standby ∧ (raiseRatio d s).decoder = s.decoder ∧
    (raiseRatio d s).sensing = s.sensing ∧ (raiseRatio d s).peers = s.peers ∧ (raiseRatio d s).mem = s.mem ∧
    (raiseRatio d s).link.station = s.link.station ∧ (raiseRatio d s).link.state = s.link.state ∧
    (raiseRatio d s).link.timed = s.link.timed ∧ (raiseRatio d s).link.cycle = s.link.cycle ∧
    (raiseRatio d s).link.cycleStart = s.link.cycleStart ∧ (raiseRatio d s).link.muted = s.link.muted ∧
    (raiseRatio d s).link.mismatches = s.link.mismatches ∧ (raiseRatio d s).link.tx = s.link.tx ∧
    (raiseRatio d s).link.offsets = s.link.offsets ∧ (raiseRatio d s).link.acceptedInCycle = s.link.acceptedInCycle ∧
    (raiseRatio d s).link.foreignInCycle = s.link.foreignInCycle ∧
    (raiseRatio d s).link.listenSince = s.link.listenSince ∧ (raiseRatio d s).hold.keyCount = s.hold.keyCount ∧
    (raiseRatio d s).hold.lockClear = s.hold.lockClear ∧ (raiseRatio d s).hold.lockClearLeft = s.hold.lockClearLeft ∧
    (raiseRatio d s).coord.run = s.coord.run ∧ (raiseRatio d s).coord.journalActive = s.coord.journalActive ∧
    (raiseRatio d s).coord.start = s.coord.start ∧ (raiseRatio d s).coord.restart = s.coord.restart ∧
    (raiseRatio d s).coord.restartLeft = s.coord.restartLeft ∧
    (raiseRatio d s).coord.lastRunClaim = s.coord.lastRunClaim ∧ (raiseRatio d s).plan.steps = s.plan.steps ∧
    (raiseRatio d s).plan.isSealed = s.plan.isSealed ∧ (raiseRatio d s).plan.digest = s.plan.digest ∧
    (raiseRatio d s).store.scanDone = s.store.scanDone ∧ (raiseRatio d s).store.tail = s.store.tail ∧
    (raiseRatio d s).store.pointer = s.store.pointer ∧ (raiseRatio d s).store.finalOut = s.store.finalOut ∧
    (raiseRatio d s).store.dip = s.store.dip ∧ (raiseRatio d s).store.retainedLockout = s.store.retainedLockout ∧
    (raiseRatio d s).port.config = s.port.config ∧ (raiseRatio d s).port.configDigest = s.port.configDigest ∧
    (raiseRatio d s).port.receiving = s.port.receiving ∧ (raiseRatio d s).port.resetArmed = s.port.resetArmed ∧
    (raiseRatio d s).port.response = s.port.response ∧ (raiseRatio d s).cal.committed = s.cal.committed := by
  simp [raiseRatio]

@[simp] theorem surveyComplete_keeps (c : SurveyContext) (s : State) :
    (surveyComplete c s).pending = s.pending ∧ (surveyComplete c s).now = s.now ∧
    (surveyComplete c s).freeCount = s.freeCount ∧ (surveyComplete c s).power = s.power ∧
    (surveyComplete c s).standby = s.standby ∧ (surveyComplete c s).decoder = s.decoder ∧
    (surveyComplete c s).sensing = s.sensing ∧ (surveyComplete c s).peers = s.peers ∧
    (surveyComplete c s).mem = s.mem ∧ (surveyComplete c s).link.station = s.link.station ∧
    (surveyComplete c s).link.state = s.link.state ∧ (surveyComplete c s).link.timed = s.link.timed ∧
    (surveyComplete c s).link.cycle = s.link.cycle ∧ (surveyComplete c s).link.cycleStart = s.link.cycleStart ∧
    (surveyComplete c s).link.muted = s.link.muted ∧ (surveyComplete c s).link.mismatches = s.link.mismatches ∧
    (surveyComplete c s).link.tx = s.link.tx ∧ (surveyComplete c s).link.offsets = s.link.offsets ∧
    (surveyComplete c s).link.acceptedInCycle = s.link.acceptedInCycle ∧
    (surveyComplete c s).link.foreignInCycle = s.link.foreignInCycle ∧
    (surveyComplete c s).link.listenSince = s.link.listenSince ∧
    (surveyComplete c s).hold.keyCount = s.hold.keyCount ∧ (surveyComplete c s).hold.lockClear = s.hold.lockClear ∧
    (surveyComplete c s).hold.lockClearLeft = s.hold.lockClearLeft ∧ (surveyComplete c s).coord.run = s.coord.run ∧
    (surveyComplete c s).coord.journalActive = s.coord.journalActive ∧
    (surveyComplete c s).coord.start = s.coord.start ∧ (surveyComplete c s).coord.restart = s.coord.restart ∧
    (surveyComplete c s).coord.restartLeft = s.coord.restartLeft ∧
    (surveyComplete c s).coord.lastRunClaim = s.coord.lastRunClaim ∧ (surveyComplete c s).plan.steps = s.plan.steps ∧
    (surveyComplete c s).plan.isSealed = s.plan.isSealed ∧ (surveyComplete c s).plan.digest = s.plan.digest ∧
    (surveyComplete c s).store.scanDone = s.store.scanDone ∧ (surveyComplete c s).store.tail = s.store.tail ∧
    (surveyComplete c s).store.pointer = s.store.pointer ∧ (surveyComplete c s).store.finalOut = s.store.finalOut ∧
    (surveyComplete c s).store.dip = s.store.dip ∧
    (surveyComplete c s).store.retainedLockout = s.store.retainedLockout ∧
    (surveyComplete c s).port.config = s.port.config ∧ (surveyComplete c s).port.configDigest = s.port.configDigest ∧
    (surveyComplete c s).port.receiving = s.port.receiving ∧
    (surveyComplete c s).port.resetArmed = s.port.resetArmed ∧ (surveyComplete c s).port.response = s.port.response ∧
    (surveyComplete c s).cal.committed = s.cal.committed := by
  simp only [surveyComplete]; (repeat' split) <;> simp

@[simp] theorem surveyStandstill_keeps (c : SurveyContext) (s : State) :
    (surveyStandstill c s).pending = s.pending ∧ (surveyStandstill c s).now = s.now ∧
    (surveyStandstill c s).freeCount = s.freeCount ∧ (surveyStandstill c s).power = s.power ∧
    (surveyStandstill c s).standby = s.standby ∧ (surveyStandstill c s).decoder = s.decoder ∧
    (surveyStandstill c s).sensing = s.sensing ∧ (surveyStandstill c s).peers = s.peers ∧
    (surveyStandstill c s).mem = s.mem ∧ (surveyStandstill c s).link.station = s.link.station ∧
    (surveyStandstill c s).link.state = s.link.state ∧ (surveyStandstill c s).link.timed = s.link.timed ∧
    (surveyStandstill c s).link.cycle = s.link.cycle ∧ (surveyStandstill c s).link.cycleStart = s.link.cycleStart ∧
    (surveyStandstill c s).link.muted = s.link.muted ∧ (surveyStandstill c s).link.mismatches = s.link.mismatches ∧
    (surveyStandstill c s).link.tx = s.link.tx ∧ (surveyStandstill c s).link.offsets = s.link.offsets ∧
    (surveyStandstill c s).link.acceptedInCycle = s.link.acceptedInCycle ∧
    (surveyStandstill c s).link.foreignInCycle = s.link.foreignInCycle ∧
    (surveyStandstill c s).link.listenSince = s.link.listenSince ∧
    (surveyStandstill c s).hold.keyCount = s.hold.keyCount ∧
    (surveyStandstill c s).hold.lockClear = s.hold.lockClear ∧
    (surveyStandstill c s).hold.lockClearLeft = s.hold.lockClearLeft ∧
    (surveyStandstill c s).coord.run = s.coord.run ∧
    (surveyStandstill c s).coord.journalActive = s.coord.journalActive ∧
    (surveyStandstill c s).coord.start = s.coord.start ∧ (surveyStandstill c s).coord.restart = s.coord.restart ∧
    (surveyStandstill c s).coord.restartLeft = s.coord.restartLeft ∧
    (surveyStandstill c s).coord.lastRunClaim = s.coord.lastRunClaim ∧
    (surveyStandstill c s).plan.steps = s.plan.steps ∧ (surveyStandstill c s).plan.isSealed = s.plan.isSealed ∧
    (surveyStandstill c s).plan.digest = s.plan.digest ∧ (surveyStandstill c s).store.scanDone = s.store.scanDone ∧
    (surveyStandstill c s).store.tail = s.store.tail ∧ (surveyStandstill c s).store.pointer = s.store.pointer ∧
    (surveyStandstill c s).store.finalOut = s.store.finalOut ∧ (surveyStandstill c s).store.dip = s.store.dip ∧
    (surveyStandstill c s).store.retainedLockout = s.store.retainedLockout ∧
    (surveyStandstill c s).port.config = s.port.config ∧
    (surveyStandstill c s).port.configDigest = s.port.configDigest ∧
    (surveyStandstill c s).port.receiving = s.port.receiving ∧
    (surveyStandstill c s).port.resetArmed = s.port.resetArmed ∧
    (surveyStandstill c s).port.response = s.port.response ∧ (surveyStandstill c s).cal.committed = s.cal.committed := by
  simp only [surveyStandstill]; (repeat' split) <;> simp

@[simp] theorem surveyTake_keeps (c : SurveyContext) (x : Capture) (s : State) :
    (surveyTake c x s).pending = s.pending ∧ (surveyTake c x s).now = s.now ∧
    (surveyTake c x s).freeCount = s.freeCount ∧ (surveyTake c x s).power = s.power ∧
    (surveyTake c x s).standby = s.standby ∧ (surveyTake c x s).decoder = s.decoder ∧
    (surveyTake c x s).sensing = s.sensing ∧ (surveyTake c x s).peers = s.peers ∧ (surveyTake c x s).mem = s.mem ∧
    (surveyTake c x s).link.station = s.link.station ∧ (surveyTake c x s).link.state = s.link.state ∧
    (surveyTake c x s).link.timed = s.link.timed ∧ (surveyTake c x s).link.cycle = s.link.cycle ∧
    (surveyTake c x s).link.cycleStart = s.link.cycleStart ∧ (surveyTake c x s).link.muted = s.link.muted ∧
    (surveyTake c x s).link.mismatches = s.link.mismatches ∧ (surveyTake c x s).link.tx = s.link.tx ∧
    (surveyTake c x s).link.offsets = s.link.offsets ∧
    (surveyTake c x s).link.acceptedInCycle = s.link.acceptedInCycle ∧
    (surveyTake c x s).link.foreignInCycle = s.link.foreignInCycle ∧
    (surveyTake c x s).link.listenSince = s.link.listenSince ∧ (surveyTake c x s).hold.keyCount = s.hold.keyCount ∧
    (surveyTake c x s).hold.lockClear = s.hold.lockClear ∧
    (surveyTake c x s).hold.lockClearLeft = s.hold.lockClearLeft ∧ (surveyTake c x s).coord.run = s.coord.run ∧
    (surveyTake c x s).coord.journalActive = s.coord.journalActive ∧ (surveyTake c x s).coord.start = s.coord.start ∧
    (surveyTake c x s).coord.restart = s.coord.restart ∧ (surveyTake c x s).coord.restartLeft = s.coord.restartLeft ∧
    (surveyTake c x s).coord.lastRunClaim = s.coord.lastRunClaim ∧ (surveyTake c x s).plan.steps = s.plan.steps ∧
    (surveyTake c x s).plan.isSealed = s.plan.isSealed ∧ (surveyTake c x s).plan.digest = s.plan.digest ∧
    (surveyTake c x s).store.scanDone = s.store.scanDone ∧ (surveyTake c x s).store.tail = s.store.tail ∧
    (surveyTake c x s).store.pointer = s.store.pointer ∧ (surveyTake c x s).store.finalOut = s.store.finalOut ∧
    (surveyTake c x s).store.dip = s.store.dip ∧ (surveyTake c x s).store.retainedLockout = s.store.retainedLockout ∧
    (surveyTake c x s).port.config = s.port.config ∧ (surveyTake c x s).port.configDigest = s.port.configDigest ∧
    (surveyTake c x s).port.receiving = s.port.receiving ∧ (surveyTake c x s).port.resetArmed = s.port.resetArmed ∧
    (surveyTake c x s).port.response = s.port.response ∧ (surveyTake c x s).cal.committed = s.cal.committed := by
  simp only [surveyTake]; (repeat' split) <;> simp

@[simp] theorem surveyCapture_keeps (c : SurveyContext) (x : Capture) (s : State) :
    (surveyCapture c x s).pending = s.pending ∧ (surveyCapture c x s).now = s.now ∧
    (surveyCapture c x s).freeCount = s.freeCount ∧ (surveyCapture c x s).power = s.power ∧
    (surveyCapture c x s).standby = s.standby ∧ (surveyCapture c x s).decoder = s.decoder ∧
    (surveyCapture c x s).peers = s.peers ∧ (surveyCapture c x s).mem = s.mem ∧
    (surveyCapture c x s).link.station = s.link.station ∧ (surveyCapture c x s).link.state = s.link.state ∧
    (surveyCapture c x s).link.timed = s.link.timed ∧ (surveyCapture c x s).link.cycle = s.link.cycle ∧
    (surveyCapture c x s).link.cycleStart = s.link.cycleStart ∧ (surveyCapture c x s).link.muted = s.link.muted ∧
    (surveyCapture c x s).link.mismatches = s.link.mismatches ∧ (surveyCapture c x s).link.tx = s.link.tx ∧
    (surveyCapture c x s).link.offsets = s.link.offsets ∧
    (surveyCapture c x s).link.acceptedInCycle = s.link.acceptedInCycle ∧
    (surveyCapture c x s).link.foreignInCycle = s.link.foreignInCycle ∧
    (surveyCapture c x s).link.listenSince = s.link.listenSince ∧
    (surveyCapture c x s).hold.keyCount = s.hold.keyCount ∧ (surveyCapture c x s).hold.lockClear = s.hold.lockClear ∧
    (surveyCapture c x s).hold.lockClearLeft = s.hold.lockClearLeft ∧ (surveyCapture c x s).coord.run = s.coord.run ∧
    (surveyCapture c x s).coord.journalActive = s.coord.journalActive ∧
    (surveyCapture c x s).coord.start = s.coord.start ∧ (surveyCapture c x s).coord.restart = s.coord.restart ∧
    (surveyCapture c x s).coord.restartLeft = s.coord.restartLeft ∧
    (surveyCapture c x s).coord.lastRunClaim = s.coord.lastRunClaim ∧
    (surveyCapture c x s).plan.steps = s.plan.steps ∧ (surveyCapture c x s).plan.isSealed = s.plan.isSealed ∧
    (surveyCapture c x s).plan.digest = s.plan.digest ∧ (surveyCapture c x s).store.scanDone = s.store.scanDone ∧
    (surveyCapture c x s).store.tail = s.store.tail ∧ (surveyCapture c x s).store.pointer = s.store.pointer ∧
    (surveyCapture c x s).store.finalOut = s.store.finalOut ∧ (surveyCapture c x s).store.dip = s.store.dip ∧
    (surveyCapture c x s).store.retainedLockout = s.store.retainedLockout ∧
    (surveyCapture c x s).port.config = s.port.config ∧
    (surveyCapture c x s).port.configDigest = s.port.configDigest ∧
    (surveyCapture c x s).port.receiving = s.port.receiving ∧
    (surveyCapture c x s).port.resetArmed = s.port.resetArmed ∧
    (surveyCapture c x s).port.response = s.port.response ∧
    (surveyCapture c x s).sensing.settling = s.sensing.settling ∧
    (surveyCapture c x s).sensing.accepted = s.sensing.accepted ∧
    (surveyCapture c x s).sensing.drvStill = s.sensing.drvStill ∧
    (surveyCapture c x s).sensing.brkFb = s.sensing.brkFb ∧ (surveyCapture c x s).sensing.pfail = s.sensing.pfail ∧
    (surveyCapture c x s).cal.committed = s.cal.committed := by
  simp only [surveyCapture]; (repeat' split) <;> simp

@[simp] theorem offerCapture_keeps (x : Capture) (s : State) :
    (offerCapture x s).pending = s.pending ∧ (offerCapture x s).now = s.now ∧
    (offerCapture x s).freeCount = s.freeCount ∧ (offerCapture x s).power = s.power ∧
    (offerCapture x s).decoder = s.decoder ∧ (offerCapture x s).peers = s.peers ∧ (offerCapture x s).mem = s.mem ∧
    (offerCapture x s).link.station = s.link.station ∧ (offerCapture x s).link.state = s.link.state ∧
    (offerCapture x s).link.timed = s.link.timed ∧ (offerCapture x s).link.cycle = s.link.cycle ∧
    (offerCapture x s).link.cycleStart = s.link.cycleStart ∧ (offerCapture x s).link.muted = s.link.muted ∧
    (offerCapture x s).link.mismatches = s.link.mismatches ∧ (offerCapture x s).link.tx = s.link.tx ∧
    (offerCapture x s).link.offsets = s.link.offsets ∧
    (offerCapture x s).link.acceptedInCycle = s.link.acceptedInCycle ∧
    (offerCapture x s).link.foreignInCycle = s.link.foreignInCycle ∧
    (offerCapture x s).link.listenSince = s.link.listenSince ∧ (offerCapture x s).hold.keyCount = s.hold.keyCount ∧
    (offerCapture x s).hold.lockClear = s.hold.lockClear ∧
    (offerCapture x s).hold.lockClearLeft = s.hold.lockClearLeft ∧ (offerCapture x s).coord.run = s.coord.run ∧
    (offerCapture x s).coord.journalActive = s.coord.journalActive ∧ (offerCapture x s).coord.start = s.coord.start ∧
    (offerCapture x s).coord.restart = s.coord.restart ∧ (offerCapture x s).coord.restartLeft = s.coord.restartLeft ∧
    (offerCapture x s).coord.lastRunClaim = s.coord.lastRunClaim ∧ (offerCapture x s).plan.steps = s.plan.steps ∧
    (offerCapture x s).plan.isSealed = s.plan.isSealed ∧ (offerCapture x s).plan.digest = s.plan.digest ∧
    (offerCapture x s).store.scanDone = s.store.scanDone ∧ (offerCapture x s).store.tail = s.store.tail ∧
    (offerCapture x s).store.pointer = s.store.pointer ∧ (offerCapture x s).store.finalOut = s.store.finalOut ∧
    (offerCapture x s).store.dip = s.store.dip ∧ (offerCapture x s).store.retainedLockout = s.store.retainedLockout ∧
    (offerCapture x s).port.config = s.port.config ∧ (offerCapture x s).port.configDigest = s.port.configDigest ∧
    (offerCapture x s).port.receiving = s.port.receiving ∧ (offerCapture x s).port.resetArmed = s.port.resetArmed ∧
    (offerCapture x s).port.response = s.port.response ∧ (offerCapture x s).sensing.settling = s.sensing.settling ∧
    (offerCapture x s).sensing.accepted = s.sensing.accepted ∧
    (offerCapture x s).sensing.drvStill = s.sensing.drvStill ∧ (offerCapture x s).sensing.brkFb = s.sensing.brkFb ∧
    (offerCapture x s).sensing.pfail = s.sensing.pfail ∧
    (offerCapture x s).standby.supplyLoss = s.standby.supplyLoss ∧
    (offerCapture x s).standby.excursion = s.standby.excursion ∧ (offerCapture x s).standby.alive = s.standby.alive ∧
    (offerCapture x s).cal.committed = s.cal.committed := by
  simp only [offerCapture]; (repeat' split) <;> simp

@[simp] theorem startPark_keeps (step : Option Nat) (s : State) :
    (startPark step s).pending = s.pending ∧ (startPark step s).now = s.now ∧
    (startPark step s).freeCount = s.freeCount ∧ (startPark step s).power = s.power ∧
    (startPark step s).standby = s.standby ∧ (startPark step s).decoder = s.decoder ∧
    (startPark step s).sensing = s.sensing ∧ (startPark step s).peers = s.peers ∧ (startPark step s).mem = s.mem ∧
    (startPark step s).link.station = s.link.station ∧ (startPark step s).link.state = s.link.state ∧
    (startPark step s).link.timed = s.link.timed ∧ (startPark step s).link.cycle = s.link.cycle ∧
    (startPark step s).link.cycleStart = s.link.cycleStart ∧ (startPark step s).link.muted = s.link.muted ∧
    (startPark step s).link.mismatches = s.link.mismatches ∧ (startPark step s).link.tx = s.link.tx ∧
    (startPark step s).link.offsets = s.link.offsets ∧
    (startPark step s).link.acceptedInCycle = s.link.acceptedInCycle ∧
    (startPark step s).link.foreignInCycle = s.link.foreignInCycle ∧
    (startPark step s).link.listenSince = s.link.listenSince ∧ (startPark step s).hold.keyCount = s.hold.keyCount ∧
    (startPark step s).hold.lockClear = s.hold.lockClear ∧
    (startPark step s).hold.lockClearLeft = s.hold.lockClearLeft ∧ (startPark step s).coord.run = s.coord.run ∧
    (startPark step s).coord.journalActive = s.coord.journalActive ∧ (startPark step s).coord.start = s.coord.start ∧
    (startPark step s).coord.restart = s.coord.restart ∧ (startPark step s).coord.restartLeft = s.coord.restartLeft ∧
    (startPark step s).coord.lastRunClaim = s.coord.lastRunClaim ∧ (startPark step s).plan.steps = s.plan.steps ∧
    (startPark step s).plan.isSealed = s.plan.isSealed ∧ (startPark step s).plan.digest = s.plan.digest ∧
    (startPark step s).store.scanDone = s.store.scanDone ∧ (startPark step s).store.tail = s.store.tail ∧
    (startPark step s).store.pointer = s.store.pointer ∧ (startPark step s).store.finalOut = s.store.finalOut ∧
    (startPark step s).store.dip = s.store.dip ∧ (startPark step s).store.retainedLockout = s.store.retainedLockout ∧
    (startPark step s).port.config = s.port.config ∧ (startPark step s).port.configDigest = s.port.configDigest ∧
    (startPark step s).port.receiving = s.port.receiving ∧ (startPark step s).port.resetArmed = s.port.resetArmed ∧
    (startPark step s).port.response = s.port.response ∧ (startPark step s).cal.committed = s.cal.committed := by
  simp only [startPark]; (repeat' split) <;> simp

@[simp] theorem parkStandstill_keeps (p : ParkOperation) (s : State) :
    (parkStandstill p s).pending = s.pending ∧ (parkStandstill p s).now = s.now ∧
    (parkStandstill p s).freeCount = s.freeCount ∧ (parkStandstill p s).power = s.power ∧
    (parkStandstill p s).standby = s.standby ∧ (parkStandstill p s).decoder = s.decoder ∧
    (parkStandstill p s).sensing = s.sensing ∧ (parkStandstill p s).peers = s.peers ∧
    (parkStandstill p s).mem = s.mem ∧ (parkStandstill p s).link.station = s.link.station ∧
    (parkStandstill p s).link.state = s.link.state ∧ (parkStandstill p s).link.timed = s.link.timed ∧
    (parkStandstill p s).link.cycle = s.link.cycle ∧ (parkStandstill p s).link.cycleStart = s.link.cycleStart ∧
    (parkStandstill p s).link.muted = s.link.muted ∧ (parkStandstill p s).link.mismatches = s.link.mismatches ∧
    (parkStandstill p s).link.tx = s.link.tx ∧ (parkStandstill p s).link.offsets = s.link.offsets ∧
    (parkStandstill p s).link.acceptedInCycle = s.link.acceptedInCycle ∧
    (parkStandstill p s).link.foreignInCycle = s.link.foreignInCycle ∧
    (parkStandstill p s).link.listenSince = s.link.listenSince ∧
    (parkStandstill p s).hold.keyCount = s.hold.keyCount ∧ (parkStandstill p s).hold.lockClear = s.hold.lockClear ∧
    (parkStandstill p s).hold.lockClearLeft = s.hold.lockClearLeft ∧ (parkStandstill p s).coord.run = s.coord.run ∧
    (parkStandstill p s).coord.journalActive = s.coord.journalActive ∧
    (parkStandstill p s).coord.start = s.coord.start ∧ (parkStandstill p s).coord.restart = s.coord.restart ∧
    (parkStandstill p s).coord.restartLeft = s.coord.restartLeft ∧
    (parkStandstill p s).coord.lastRunClaim = s.coord.lastRunClaim ∧ (parkStandstill p s).plan.steps = s.plan.steps ∧
    (parkStandstill p s).plan.isSealed = s.plan.isSealed ∧ (parkStandstill p s).plan.digest = s.plan.digest ∧
    (parkStandstill p s).store.scanDone = s.store.scanDone ∧ (parkStandstill p s).store.tail = s.store.tail ∧
    (parkStandstill p s).store.pointer = s.store.pointer ∧ (parkStandstill p s).store.finalOut = s.store.finalOut ∧
    (parkStandstill p s).store.dip = s.store.dip ∧
    (parkStandstill p s).store.retainedLockout = s.store.retainedLockout ∧
    (parkStandstill p s).port.config = s.port.config ∧ (parkStandstill p s).port.configDigest = s.port.configDigest ∧
    (parkStandstill p s).port.receiving = s.port.receiving ∧
    (parkStandstill p s).port.resetArmed = s.port.resetArmed ∧ (parkStandstill p s).port.response = s.port.response ∧
    (parkStandstill p s).cal.committed = s.cal.committed := by
  simp only [parkStandstill]; (repeat' split) <;> simp

@[simp] theorem parkWithdrawn_keeps (p : ParkOperation) (s : State) :
    (parkWithdrawn p s).pending = s.pending ∧ (parkWithdrawn p s).now = s.now ∧
    (parkWithdrawn p s).freeCount = s.freeCount ∧ (parkWithdrawn p s).power = s.power ∧
    (parkWithdrawn p s).standby = s.standby ∧ (parkWithdrawn p s).decoder = s.decoder ∧
    (parkWithdrawn p s).sensing = s.sensing ∧ (parkWithdrawn p s).link = s.link ∧
    (parkWithdrawn p s).peers = s.peers ∧ (parkWithdrawn p s).coord = s.coord ∧ (parkWithdrawn p s).hold = s.hold ∧
    (parkWithdrawn p s).cal = s.cal ∧ (parkWithdrawn p s).store = s.store ∧ (parkWithdrawn p s).mem = s.mem ∧
    (parkWithdrawn p s).plan.steps = s.plan.steps ∧ (parkWithdrawn p s).plan.isSealed = s.plan.isSealed ∧
    (parkWithdrawn p s).plan.digest = s.plan.digest ∧ (parkWithdrawn p s).port.config = s.port.config ∧
    (parkWithdrawn p s).port.configDigest = s.port.configDigest ∧
    (parkWithdrawn p s).port.receiving = s.port.receiving ∧ (parkWithdrawn p s).port.resetArmed = s.port.resetArmed ∧
    (parkWithdrawn p s).port.response = s.port.response ∧ (parkWithdrawn p s).engine.refState = s.engine.refState := by
  simp [parkWithdrawn]

@[simp] theorem withdrawPark_keeps (p : ParkOperation) (s : State) :
    (withdrawPark p s).pending = s.pending ∧ (withdrawPark p s).now = s.now ∧
    (withdrawPark p s).freeCount = s.freeCount ∧ (withdrawPark p s).power = s.power ∧
    (withdrawPark p s).standby = s.standby ∧ (withdrawPark p s).decoder = s.decoder ∧
    (withdrawPark p s).sensing = s.sensing ∧ (withdrawPark p s).link = s.link ∧ (withdrawPark p s).peers = s.peers ∧
    (withdrawPark p s).coord = s.coord ∧ (withdrawPark p s).hold = s.hold ∧ (withdrawPark p s).cal = s.cal ∧
    (withdrawPark p s).store = s.store ∧ (withdrawPark p s).mem = s.mem ∧
    (withdrawPark p s).plan.steps = s.plan.steps ∧ (withdrawPark p s).plan.isSealed = s.plan.isSealed ∧
    (withdrawPark p s).plan.digest = s.plan.digest ∧ (withdrawPark p s).port.config = s.port.config ∧
    (withdrawPark p s).port.configDigest = s.port.configDigest ∧
    (withdrawPark p s).port.receiving = s.port.receiving ∧ (withdrawPark p s).port.resetArmed = s.port.resetArmed ∧
    (withdrawPark p s).port.response = s.port.response ∧ (withdrawPark p s).engine.refState = s.engine.refState := by
  simp only [withdrawPark]; (repeat' split) <;> simp

@[simp] theorem engineStandstill_keeps (s : State) :
    (engineStandstill s).pending = s.pending ∧ (engineStandstill s).now = s.now ∧
    (engineStandstill s).freeCount = s.freeCount ∧ (engineStandstill s).power = s.power ∧
    (engineStandstill s).standby = s.standby ∧ (engineStandstill s).decoder = s.decoder ∧
    (engineStandstill s).sensing = s.sensing ∧ (engineStandstill s).peers = s.peers ∧
    (engineStandstill s).mem = s.mem ∧ (engineStandstill s).link.station = s.link.station ∧
    (engineStandstill s).link.state = s.link.state ∧ (engineStandstill s).link.timed = s.link.timed ∧
    (engineStandstill s).link.cycle = s.link.cycle ∧ (engineStandstill s).link.cycleStart = s.link.cycleStart ∧
    (engineStandstill s).link.muted = s.link.muted ∧ (engineStandstill s).link.mismatches = s.link.mismatches ∧
    (engineStandstill s).link.tx = s.link.tx ∧ (engineStandstill s).link.offsets = s.link.offsets ∧
    (engineStandstill s).link.acceptedInCycle = s.link.acceptedInCycle ∧
    (engineStandstill s).link.foreignInCycle = s.link.foreignInCycle ∧
    (engineStandstill s).link.listenSince = s.link.listenSince ∧
    (engineStandstill s).hold.keyCount = s.hold.keyCount ∧ (engineStandstill s).hold.lockClear = s.hold.lockClear ∧
    (engineStandstill s).hold.lockClearLeft = s.hold.lockClearLeft ∧ (engineStandstill s).coord.run = s.coord.run ∧
    (engineStandstill s).coord.journalActive = s.coord.journalActive ∧
    (engineStandstill s).coord.start = s.coord.start ∧ (engineStandstill s).coord.restart = s.coord.restart ∧
    (engineStandstill s).coord.restartLeft = s.coord.restartLeft ∧
    (engineStandstill s).coord.lastRunClaim = s.coord.lastRunClaim ∧ (engineStandstill s).plan.steps = s.plan.steps ∧
    (engineStandstill s).plan.isSealed = s.plan.isSealed ∧ (engineStandstill s).plan.digest = s.plan.digest ∧
    (engineStandstill s).store.scanDone = s.store.scanDone ∧ (engineStandstill s).store.tail = s.store.tail ∧
    (engineStandstill s).store.pointer = s.store.pointer ∧ (engineStandstill s).store.finalOut = s.store.finalOut ∧
    (engineStandstill s).store.dip = s.store.dip ∧
    (engineStandstill s).store.retainedLockout = s.store.retainedLockout ∧
    (engineStandstill s).port.config = s.port.config ∧ (engineStandstill s).port.configDigest = s.port.configDigest ∧
    (engineStandstill s).port.receiving = s.port.receiving ∧
    (engineStandstill s).port.resetArmed = s.port.resetArmed ∧ (engineStandstill s).port.response = s.port.response ∧
    (engineStandstill s).cal.committed = s.cal.committed := by
  simp only [engineStandstill]; (repeat' split) <;> simp

@[simp] theorem engineLeavesStill_keeps (s : State) :
    (engineLeavesStill s).pending = s.pending ∧ (engineLeavesStill s).now = s.now ∧
    (engineLeavesStill s).freeCount = s.freeCount ∧ (engineLeavesStill s).power = s.power ∧
    (engineLeavesStill s).standby = s.standby ∧ (engineLeavesStill s).decoder = s.decoder ∧
    (engineLeavesStill s).sensing = s.sensing ∧ (engineLeavesStill s).link = s.link ∧
    (engineLeavesStill s).peers = s.peers ∧ (engineLeavesStill s).coord = s.coord ∧
    (engineLeavesStill s).plan = s.plan ∧ (engineLeavesStill s).hold = s.hold ∧ (engineLeavesStill s).gate = s.gate ∧
    (engineLeavesStill s).cal = s.cal ∧ (engineLeavesStill s).store = s.store ∧ (engineLeavesStill s).mem = s.mem ∧
    (engineLeavesStill s).port = s.port ∧ (engineLeavesStill s).engine.refState = s.engine.refState ∧
    (engineLeavesStill s).engine.order = s.engine.order := by
  simp only [engineLeavesStill]; (repeat' split) <;> simp

@[simp] theorem engineTravel_keeps (s : State) :
    (engineTravel s).pending = s.pending ∧ (engineTravel s).now = s.now ∧ (engineTravel s).freeCount = s.freeCount ∧
    (engineTravel s).power = s.power ∧ (engineTravel s).standby = s.standby ∧ (engineTravel s).decoder = s.decoder ∧
    (engineTravel s).sensing = s.sensing ∧ (engineTravel s).peers = s.peers ∧ (engineTravel s).mem = s.mem ∧
    (engineTravel s).link.station = s.link.station ∧ (engineTravel s).link.state = s.link.state ∧
    (engineTravel s).link.timed = s.link.timed ∧ (engineTravel s).link.cycle = s.link.cycle ∧
    (engineTravel s).link.cycleStart = s.link.cycleStart ∧ (engineTravel s).link.muted = s.link.muted ∧
    (engineTravel s).link.mismatches = s.link.mismatches ∧ (engineTravel s).link.tx = s.link.tx ∧
    (engineTravel s).link.offsets = s.link.offsets ∧ (engineTravel s).link.acceptedInCycle = s.link.acceptedInCycle ∧
    (engineTravel s).link.foreignInCycle = s.link.foreignInCycle ∧
    (engineTravel s).link.listenSince = s.link.listenSince ∧ (engineTravel s).hold.keyCount = s.hold.keyCount ∧
    (engineTravel s).hold.lockClear = s.hold.lockClear ∧ (engineTravel s).hold.lockClearLeft = s.hold.lockClearLeft ∧
    (engineTravel s).coord.run = s.coord.run ∧ (engineTravel s).coord.journalActive = s.coord.journalActive ∧
    (engineTravel s).coord.start = s.coord.start ∧ (engineTravel s).coord.restart = s.coord.restart ∧
    (engineTravel s).coord.restartLeft = s.coord.restartLeft ∧
    (engineTravel s).coord.lastRunClaim = s.coord.lastRunClaim ∧ (engineTravel s).plan.steps = s.plan.steps ∧
    (engineTravel s).plan.isSealed = s.plan.isSealed ∧ (engineTravel s).plan.digest = s.plan.digest ∧
    (engineTravel s).store.scanDone = s.store.scanDone ∧ (engineTravel s).store.tail = s.store.tail ∧
    (engineTravel s).store.pointer = s.store.pointer ∧ (engineTravel s).store.finalOut = s.store.finalOut ∧
    (engineTravel s).store.dip = s.store.dip ∧ (engineTravel s).store.retainedLockout = s.store.retainedLockout ∧
    (engineTravel s).port.config = s.port.config ∧ (engineTravel s).port.configDigest = s.port.configDigest ∧
    (engineTravel s).port.receiving = s.port.receiving ∧ (engineTravel s).port.resetArmed = s.port.resetArmed ∧
    (engineTravel s).port.response = s.port.response ∧ (engineTravel s).cal.committed = s.cal.committed := by
  simp only [engineTravel]; (repeat' split) <;> simp

@[simp] theorem homeEdge_keeps (arrival : Bool) (s : State) :
    (homeEdge arrival s).pending = s.pending ∧ (homeEdge arrival s).now = s.now ∧
    (homeEdge arrival s).freeCount = s.freeCount ∧ (homeEdge arrival s).power = s.power ∧
    (homeEdge arrival s).standby = s.standby ∧ (homeEdge arrival s).decoder = s.decoder ∧
    (homeEdge arrival s).sensing = s.sensing ∧ (homeEdge arrival s).peers = s.peers ∧
    (homeEdge arrival s).mem = s.mem ∧ (homeEdge arrival s).link.station = s.link.station ∧
    (homeEdge arrival s).link.state = s.link.state ∧ (homeEdge arrival s).link.timed = s.link.timed ∧
    (homeEdge arrival s).link.cycle = s.link.cycle ∧ (homeEdge arrival s).link.cycleStart = s.link.cycleStart ∧
    (homeEdge arrival s).link.muted = s.link.muted ∧ (homeEdge arrival s).link.mismatches = s.link.mismatches ∧
    (homeEdge arrival s).link.tx = s.link.tx ∧ (homeEdge arrival s).link.offsets = s.link.offsets ∧
    (homeEdge arrival s).link.acceptedInCycle = s.link.acceptedInCycle ∧
    (homeEdge arrival s).link.foreignInCycle = s.link.foreignInCycle ∧
    (homeEdge arrival s).link.listenSince = s.link.listenSince ∧
    (homeEdge arrival s).hold.keyCount = s.hold.keyCount ∧ (homeEdge arrival s).hold.lockClear = s.hold.lockClear ∧
    (homeEdge arrival s).hold.lockClearLeft = s.hold.lockClearLeft ∧ (homeEdge arrival s).coord.run = s.coord.run ∧
    (homeEdge arrival s).coord.journalActive = s.coord.journalActive ∧
    (homeEdge arrival s).coord.start = s.coord.start ∧ (homeEdge arrival s).coord.restart = s.coord.restart ∧
    (homeEdge arrival s).coord.restartLeft = s.coord.restartLeft ∧
    (homeEdge arrival s).coord.lastRunClaim = s.coord.lastRunClaim ∧ (homeEdge arrival s).plan.steps = s.plan.steps ∧
    (homeEdge arrival s).plan.isSealed = s.plan.isSealed ∧ (homeEdge arrival s).plan.digest = s.plan.digest ∧
    (homeEdge arrival s).store.scanDone = s.store.scanDone ∧ (homeEdge arrival s).store.tail = s.store.tail ∧
    (homeEdge arrival s).store.pointer = s.store.pointer ∧ (homeEdge arrival s).store.finalOut = s.store.finalOut ∧
    (homeEdge arrival s).store.dip = s.store.dip ∧
    (homeEdge arrival s).store.retainedLockout = s.store.retainedLockout ∧
    (homeEdge arrival s).port.config = s.port.config ∧ (homeEdge arrival s).port.configDigest = s.port.configDigest ∧
    (homeEdge arrival s).port.receiving = s.port.receiving ∧
    (homeEdge arrival s).port.resetArmed = s.port.resetArmed ∧ (homeEdge arrival s).port.response = s.port.response ∧
    (homeEdge arrival s).cal.committed = s.cal.committed := by
  simp only [homeEdge]; (repeat' split) <;> simp

@[simp] theorem raiseDrift_keeps (s : State) :
    (raiseDrift s).pending = s.pending ∧ (raiseDrift s).now = s.now ∧ (raiseDrift s).freeCount = s.freeCount ∧
    (raiseDrift s).power = s.power ∧ (raiseDrift s).standby = s.standby ∧ (raiseDrift s).decoder = s.decoder ∧
    (raiseDrift s).sensing = s.sensing ∧ (raiseDrift s).peers = s.peers ∧ (raiseDrift s).mem = s.mem ∧
    (raiseDrift s).link.station = s.link.station ∧ (raiseDrift s).link.state = s.link.state ∧
    (raiseDrift s).link.timed = s.link.timed ∧ (raiseDrift s).link.cycle = s.link.cycle ∧
    (raiseDrift s).link.cycleStart = s.link.cycleStart ∧ (raiseDrift s).link.muted = s.link.muted ∧
    (raiseDrift s).link.mismatches = s.link.mismatches ∧ (raiseDrift s).link.tx = s.link.tx ∧
    (raiseDrift s).link.offsets = s.link.offsets ∧ (raiseDrift s).link.acceptedInCycle = s.link.acceptedInCycle ∧
    (raiseDrift s).link.foreignInCycle = s.link.foreignInCycle ∧
    (raiseDrift s).link.listenSince = s.link.listenSince ∧ (raiseDrift s).hold.keyCount = s.hold.keyCount ∧
    (raiseDrift s).hold.lockClear = s.hold.lockClear ∧ (raiseDrift s).hold.lockClearLeft = s.hold.lockClearLeft ∧
    (raiseDrift s).coord.run = s.coord.run ∧ (raiseDrift s).coord.journalActive = s.coord.journalActive ∧
    (raiseDrift s).coord.start = s.coord.start ∧ (raiseDrift s).coord.restart = s.coord.restart ∧
    (raiseDrift s).coord.restartLeft = s.coord.restartLeft ∧
    (raiseDrift s).coord.lastRunClaim = s.coord.lastRunClaim ∧ (raiseDrift s).plan.steps = s.plan.steps ∧
    (raiseDrift s).plan.isSealed = s.plan.isSealed ∧ (raiseDrift s).plan.digest = s.plan.digest ∧
    (raiseDrift s).store.scanDone = s.store.scanDone ∧ (raiseDrift s).store.tail = s.store.tail ∧
    (raiseDrift s).store.pointer = s.store.pointer ∧ (raiseDrift s).store.finalOut = s.store.finalOut ∧
    (raiseDrift s).store.dip = s.store.dip ∧ (raiseDrift s).store.retainedLockout = s.store.retainedLockout ∧
    (raiseDrift s).port.config = s.port.config ∧ (raiseDrift s).port.configDigest = s.port.configDigest ∧
    (raiseDrift s).port.receiving = s.port.receiving ∧ (raiseDrift s).port.resetArmed = s.port.resetArmed ∧
    (raiseDrift s).port.response = s.port.response ∧ (raiseDrift s).cal.committed = s.cal.committed := by
  simp [raiseDrift]

@[simp] theorem reclassify_keeps (s : State) :
    (reclassify s).pending = s.pending ∧ (reclassify s).now = s.now ∧ (reclassify s).freeCount = s.freeCount ∧
    (reclassify s).power = s.power ∧ (reclassify s).standby = s.standby ∧ (reclassify s).decoder = s.decoder ∧
    (reclassify s).sensing = s.sensing ∧ (reclassify s).peers = s.peers ∧ (reclassify s).mem = s.mem ∧
    (reclassify s).link.station = s.link.station ∧ (reclassify s).link.state = s.link.state ∧
    (reclassify s).link.timed = s.link.timed ∧ (reclassify s).link.cycle = s.link.cycle ∧
    (reclassify s).link.cycleStart = s.link.cycleStart ∧ (reclassify s).link.muted = s.link.muted ∧
    (reclassify s).link.mismatches = s.link.mismatches ∧ (reclassify s).link.tx = s.link.tx ∧
    (reclassify s).link.offsets = s.link.offsets ∧ (reclassify s).link.acceptedInCycle = s.link.acceptedInCycle ∧
    (reclassify s).link.foreignInCycle = s.link.foreignInCycle ∧
    (reclassify s).link.listenSince = s.link.listenSince ∧ (reclassify s).hold.keyCount = s.hold.keyCount ∧
    (reclassify s).hold.lockClear = s.hold.lockClear ∧ (reclassify s).hold.lockClearLeft = s.hold.lockClearLeft ∧
    (reclassify s).coord.run = s.coord.run ∧ (reclassify s).coord.journalActive = s.coord.journalActive ∧
    (reclassify s).coord.start = s.coord.start ∧ (reclassify s).coord.restart = s.coord.restart ∧
    (reclassify s).coord.restartLeft = s.coord.restartLeft ∧
    (reclassify s).coord.lastRunClaim = s.coord.lastRunClaim ∧ (reclassify s).plan.steps = s.plan.steps ∧
    (reclassify s).plan.isSealed = s.plan.isSealed ∧ (reclassify s).plan.digest = s.plan.digest ∧
    (reclassify s).store.scanDone = s.store.scanDone ∧ (reclassify s).store.tail = s.store.tail ∧
    (reclassify s).store.pointer = s.store.pointer ∧ (reclassify s).store.finalOut = s.store.finalOut ∧
    (reclassify s).store.dip = s.store.dip ∧ (reclassify s).store.retainedLockout = s.store.retainedLockout ∧
    (reclassify s).port.config = s.port.config ∧ (reclassify s).port.configDigest = s.port.configDigest ∧
    (reclassify s).port.receiving = s.port.receiving ∧ (reclassify s).port.resetArmed = s.port.resetArmed ∧
    (reclassify s).port.response = s.port.response ∧ (reclassify s).cal.committed = s.cal.committed := by
  simp only [reclassify]; (repeat' split) <;> simp

@[simp] theorem putClaim_keeps (j : Station) (e : ClaimEntry) (s : State) :
    (putClaim j e s).pending = s.pending ∧ (putClaim j e s).now = s.now ∧ (putClaim j e s).freeCount = s.freeCount ∧
    (putClaim j e s).power = s.power ∧ (putClaim j e s).standby = s.standby ∧ (putClaim j e s).decoder = s.decoder ∧
    (putClaim j e s).sensing = s.sensing ∧ (putClaim j e s).peers = s.peers ∧ (putClaim j e s).mem = s.mem ∧
    (putClaim j e s).link.station = s.link.station ∧ (putClaim j e s).link.state = s.link.state ∧
    (putClaim j e s).link.timed = s.link.timed ∧ (putClaim j e s).link.cycle = s.link.cycle ∧
    (putClaim j e s).link.cycleStart = s.link.cycleStart ∧ (putClaim j e s).link.muted = s.link.muted ∧
    (putClaim j e s).link.mismatches = s.link.mismatches ∧ (putClaim j e s).link.tx = s.link.tx ∧
    (putClaim j e s).link.offsets = s.link.offsets ∧ (putClaim j e s).link.acceptedInCycle = s.link.acceptedInCycle ∧
    (putClaim j e s).link.foreignInCycle = s.link.foreignInCycle ∧
    (putClaim j e s).link.listenSince = s.link.listenSince ∧ (putClaim j e s).hold.keyCount = s.hold.keyCount ∧
    (putClaim j e s).hold.lockClear = s.hold.lockClear ∧ (putClaim j e s).hold.lockClearLeft = s.hold.lockClearLeft ∧
    (putClaim j e s).coord.run = s.coord.run ∧ (putClaim j e s).coord.journalActive = s.coord.journalActive ∧
    (putClaim j e s).coord.start = s.coord.start ∧ (putClaim j e s).coord.restart = s.coord.restart ∧
    (putClaim j e s).coord.restartLeft = s.coord.restartLeft ∧
    (putClaim j e s).coord.lastRunClaim = s.coord.lastRunClaim ∧ (putClaim j e s).plan.steps = s.plan.steps ∧
    (putClaim j e s).plan.isSealed = s.plan.isSealed ∧ (putClaim j e s).plan.digest = s.plan.digest ∧
    (putClaim j e s).store.scanDone = s.store.scanDone ∧ (putClaim j e s).store.tail = s.store.tail ∧
    (putClaim j e s).store.pointer = s.store.pointer ∧ (putClaim j e s).store.finalOut = s.store.finalOut ∧
    (putClaim j e s).store.dip = s.store.dip ∧ (putClaim j e s).store.retainedLockout = s.store.retainedLockout ∧
    (putClaim j e s).port.config = s.port.config ∧ (putClaim j e s).port.configDigest = s.port.configDigest ∧
    (putClaim j e s).port.receiving = s.port.receiving ∧ (putClaim j e s).port.resetArmed = s.port.resetArmed ∧
    (putClaim j e s).port.response = s.port.response ∧ (putClaim j e s).cal.committed = s.cal.committed := by
  simp only [putClaim]; (repeat' split) <;> simp

@[simp] theorem ownClaimFollows_keeps (s : State) :
    (ownClaimFollows s).pending = s.pending ∧ (ownClaimFollows s).now = s.now ∧
    (ownClaimFollows s).freeCount = s.freeCount ∧ (ownClaimFollows s).power = s.power ∧
    (ownClaimFollows s).standby = s.standby ∧ (ownClaimFollows s).decoder = s.decoder ∧
    (ownClaimFollows s).sensing = s.sensing ∧ (ownClaimFollows s).peers = s.peers ∧ (ownClaimFollows s).mem = s.mem ∧
    (ownClaimFollows s).link.station = s.link.station ∧ (ownClaimFollows s).link.state = s.link.state ∧
    (ownClaimFollows s).link.timed = s.link.timed ∧ (ownClaimFollows s).link.cycle = s.link.cycle ∧
    (ownClaimFollows s).link.cycleStart = s.link.cycleStart ∧ (ownClaimFollows s).link.muted = s.link.muted ∧
    (ownClaimFollows s).link.mismatches = s.link.mismatches ∧ (ownClaimFollows s).link.tx = s.link.tx ∧
    (ownClaimFollows s).link.offsets = s.link.offsets ∧
    (ownClaimFollows s).link.acceptedInCycle = s.link.acceptedInCycle ∧
    (ownClaimFollows s).link.foreignInCycle = s.link.foreignInCycle ∧
    (ownClaimFollows s).link.listenSince = s.link.listenSince ∧ (ownClaimFollows s).hold.keyCount = s.hold.keyCount ∧
    (ownClaimFollows s).hold.lockClear = s.hold.lockClear ∧
    (ownClaimFollows s).hold.lockClearLeft = s.hold.lockClearLeft ∧ (ownClaimFollows s).coord.run = s.coord.run ∧
    (ownClaimFollows s).coord.journalActive = s.coord.journalActive ∧
    (ownClaimFollows s).coord.start = s.coord.start ∧ (ownClaimFollows s).coord.restart = s.coord.restart ∧
    (ownClaimFollows s).coord.restartLeft = s.coord.restartLeft ∧
    (ownClaimFollows s).coord.lastRunClaim = s.coord.lastRunClaim ∧ (ownClaimFollows s).plan.steps = s.plan.steps ∧
    (ownClaimFollows s).plan.isSealed = s.plan.isSealed ∧ (ownClaimFollows s).plan.digest = s.plan.digest ∧
    (ownClaimFollows s).store.scanDone = s.store.scanDone ∧ (ownClaimFollows s).store.tail = s.store.tail ∧
    (ownClaimFollows s).store.pointer = s.store.pointer ∧ (ownClaimFollows s).store.finalOut = s.store.finalOut ∧
    (ownClaimFollows s).store.dip = s.store.dip ∧
    (ownClaimFollows s).store.retainedLockout = s.store.retainedLockout ∧
    (ownClaimFollows s).port.config = s.port.config ∧ (ownClaimFollows s).port.configDigest = s.port.configDigest ∧
    (ownClaimFollows s).port.receiving = s.port.receiving ∧ (ownClaimFollows s).port.resetArmed = s.port.resetArmed ∧
    (ownClaimFollows s).port.response = s.port.response ∧ (ownClaimFollows s).cal.committed = s.cal.committed := by
  simp only [ownClaimFollows]; (repeat' split) <;> simp

@[simp] theorem loseContinuity_keeps (cause : StandbyError) (s : State) :
    (loseContinuity cause s).pending = s.pending ∧ (loseContinuity cause s).now = s.now ∧
    (loseContinuity cause s).freeCount = s.freeCount ∧ (loseContinuity cause s).power = s.power ∧
    (loseContinuity cause s).decoder = s.decoder ∧ (loseContinuity cause s).sensing = s.sensing ∧
    (loseContinuity cause s).peers = s.peers ∧ (loseContinuity cause s).mem = s.mem ∧
    (loseContinuity cause s).link.station = s.link.station ∧ (loseContinuity cause s).link.state = s.link.state ∧
    (loseContinuity cause s).link.timed = s.link.timed ∧ (loseContinuity cause s).link.cycle = s.link.cycle ∧
    (loseContinuity cause s).link.cycleStart = s.link.cycleStart ∧
    (loseContinuity cause s).link.muted = s.link.muted ∧
    (loseContinuity cause s).link.mismatches = s.link.mismatches ∧ (loseContinuity cause s).link.tx = s.link.tx ∧
    (loseContinuity cause s).link.offsets = s.link.offsets ∧
    (loseContinuity cause s).link.acceptedInCycle = s.link.acceptedInCycle ∧
    (loseContinuity cause s).link.foreignInCycle = s.link.foreignInCycle ∧
    (loseContinuity cause s).link.listenSince = s.link.listenSince ∧
    (loseContinuity cause s).hold.keyCount = s.hold.keyCount ∧
    (loseContinuity cause s).hold.lockClear = s.hold.lockClear ∧
    (loseContinuity cause s).hold.lockClearLeft = s.hold.lockClearLeft ∧
    (loseContinuity cause s).coord.run = s.coord.run ∧
    (loseContinuity cause s).coord.journalActive = s.coord.journalActive ∧
    (loseContinuity cause s).coord.start = s.coord.start ∧ (loseContinuity cause s).coord.restart = s.coord.restart ∧
    (loseContinuity cause s).coord.restartLeft = s.coord.restartLeft ∧
    (loseContinuity cause s).coord.lastRunClaim = s.coord.lastRunClaim ∧
    (loseContinuity cause s).plan.steps = s.plan.steps ∧ (loseContinuity cause s).plan.isSealed = s.plan.isSealed ∧
    (loseContinuity cause s).plan.digest = s.plan.digest ∧
    (loseContinuity cause s).store.scanDone = s.store.scanDone ∧ (loseContinuity cause s).store.tail = s.store.tail ∧
    (loseContinuity cause s).store.pointer = s.store.pointer ∧
    (loseContinuity cause s).store.finalOut = s.store.finalOut ∧ (loseContinuity cause s).store.dip = s.store.dip ∧
    (loseContinuity cause s).store.retainedLockout = s.store.retainedLockout ∧
    (loseContinuity cause s).port.config = s.port.config ∧
    (loseContinuity cause s).port.configDigest = s.port.configDigest ∧
    (loseContinuity cause s).port.receiving = s.port.receiving ∧
    (loseContinuity cause s).port.resetArmed = s.port.resetArmed ∧
    (loseContinuity cause s).port.response = s.port.response ∧
    (loseContinuity cause s).standby.counter = s.standby.counter ∧
    (loseContinuity cause s).standby.supplyLoss = s.standby.supplyLoss ∧
    (loseContinuity cause s).standby.excursion = s.standby.excursion ∧
    (loseContinuity cause s).standby.alive = s.standby.alive ∧
    (loseContinuity cause s).cal.committed = s.cal.committed := by
  simp only [loseContinuity]; (repeat' split) <;> simp

@[simp] theorem claimFromPeer_keeps (j : Station) (r : StatusRecord) (s : State) :
    (claimFromPeer j r s).pending = s.pending ∧ (claimFromPeer j r s).now = s.now ∧
    (claimFromPeer j r s).freeCount = s.freeCount ∧ (claimFromPeer j r s).power = s.power ∧
    (claimFromPeer j r s).standby = s.standby ∧ (claimFromPeer j r s).decoder = s.decoder ∧
    (claimFromPeer j r s).sensing = s.sensing ∧ (claimFromPeer j r s).peers = s.peers ∧
    (claimFromPeer j r s).mem = s.mem ∧ (claimFromPeer j r s).link.station = s.link.station ∧
    (claimFromPeer j r s).link.state = s.link.state ∧ (claimFromPeer j r s).link.timed = s.link.timed ∧
    (claimFromPeer j r s).link.cycle = s.link.cycle ∧ (claimFromPeer j r s).link.cycleStart = s.link.cycleStart ∧
    (claimFromPeer j r s).link.muted = s.link.muted ∧ (claimFromPeer j r s).link.mismatches = s.link.mismatches ∧
    (claimFromPeer j r s).link.tx = s.link.tx ∧ (claimFromPeer j r s).link.offsets = s.link.offsets ∧
    (claimFromPeer j r s).link.acceptedInCycle = s.link.acceptedInCycle ∧
    (claimFromPeer j r s).link.foreignInCycle = s.link.foreignInCycle ∧
    (claimFromPeer j r s).link.listenSince = s.link.listenSince ∧
    (claimFromPeer j r s).hold.keyCount = s.hold.keyCount ∧ (claimFromPeer j r s).hold.lockClear = s.hold.lockClear ∧
    (claimFromPeer j r s).hold.lockClearLeft = s.hold.lockClearLeft ∧ (claimFromPeer j r s).coord.run = s.coord.run ∧
    (claimFromPeer j r s).coord.journalActive = s.coord.journalActive ∧
    (claimFromPeer j r s).coord.start = s.coord.start ∧ (claimFromPeer j r s).coord.restart = s.coord.restart ∧
    (claimFromPeer j r s).coord.restartLeft = s.coord.restartLeft ∧
    (claimFromPeer j r s).coord.lastRunClaim = s.coord.lastRunClaim ∧
    (claimFromPeer j r s).plan.steps = s.plan.steps ∧ (claimFromPeer j r s).plan.isSealed = s.plan.isSealed ∧
    (claimFromPeer j r s).plan.digest = s.plan.digest ∧ (claimFromPeer j r s).store.scanDone = s.store.scanDone ∧
    (claimFromPeer j r s).store.tail = s.store.tail ∧ (claimFromPeer j r s).store.pointer = s.store.pointer ∧
    (claimFromPeer j r s).store.finalOut = s.store.finalOut ∧ (claimFromPeer j r s).store.dip = s.store.dip ∧
    (claimFromPeer j r s).store.retainedLockout = s.store.retainedLockout ∧
    (claimFromPeer j r s).port.config = s.port.config ∧
    (claimFromPeer j r s).port.configDigest = s.port.configDigest ∧
    (claimFromPeer j r s).port.receiving = s.port.receiving ∧
    (claimFromPeer j r s).port.resetArmed = s.port.resetArmed ∧
    (claimFromPeer j r s).port.response = s.port.response ∧ (claimFromPeer j r s).cal.committed = s.cal.committed := by
  simp only [claimFromPeer]; (repeat' split) <;> simp

@[simp] theorem startNotes_keeps (s : State) :
    (startNotes s).pending = s.pending ∧ (startNotes s).now = s.now ∧ (startNotes s).freeCount = s.freeCount ∧
    (startNotes s).power = s.power ∧ (startNotes s).standby = s.standby ∧ (startNotes s).decoder = s.decoder ∧
    (startNotes s).sensing = s.sensing ∧ (startNotes s).engine = s.engine ∧ (startNotes s).peers = s.peers ∧
    (startNotes s).plan = s.plan ∧ (startNotes s).gate = s.gate ∧ (startNotes s).cal = s.cal ∧
    (startNotes s).store = s.store ∧ (startNotes s).mem = s.mem ∧ (startNotes s).link.station = s.link.station ∧
    (startNotes s).link.state = s.link.state ∧ (startNotes s).link.timed = s.link.timed ∧
    (startNotes s).link.cycle = s.link.cycle ∧ (startNotes s).link.cycleStart = s.link.cycleStart ∧
    (startNotes s).link.muted = s.link.muted ∧ (startNotes s).link.mismatches = s.link.mismatches ∧
    (startNotes s).link.tx = s.link.tx ∧ (startNotes s).link.offsets = s.link.offsets ∧
    (startNotes s).link.acceptedInCycle = s.link.acceptedInCycle ∧
    (startNotes s).link.foreignInCycle = s.link.foreignInCycle ∧
    (startNotes s).link.listenSince = s.link.listenSince ∧ (startNotes s).hold.level = s.hold.level ∧
    (startNotes s).hold.complete = s.hold.complete ∧ (startNotes s).hold.seq = s.hold.seq ∧
    (startNotes s).hold.keyCount = s.hold.keyCount ∧ (startNotes s).hold.lockClear = s.hold.lockClear ∧
    (startNotes s).hold.lockClearLeft = s.hold.lockClearLeft ∧ (startNotes s).coord.phase = s.coord.phase ∧
    (startNotes s).coord.run = s.coord.run ∧ (startNotes s).coord.journalActive = s.coord.journalActive ∧
    (startNotes s).coord.start = s.coord.start ∧ (startNotes s).coord.restart = s.coord.restart ∧
    (startNotes s).coord.restartLeft = s.coord.restartLeft ∧
    (startNotes s).coord.lastRunClaim = s.coord.lastRunClaim ∧ (startNotes s).port.config = s.port.config ∧
    (startNotes s).port.configDigest = s.port.configDigest ∧ (startNotes s).port.receiving = s.port.receiving ∧
    (startNotes s).port.resetArmed = s.port.resetArmed ∧ (startNotes s).port.response = s.port.response := by
  simp only [startNotes]; (repeat' split) <;> simp

@[simp] theorem buildClaim_keeps (s : State) :
    (buildClaim s).pending = s.pending ∧ (buildClaim s).now = s.now ∧ (buildClaim s).freeCount = s.freeCount ∧
    (buildClaim s).power = s.power ∧ (buildClaim s).standby = s.standby ∧ (buildClaim s).decoder = s.decoder ∧
    (buildClaim s).sensing = s.sensing ∧ (buildClaim s).peers = s.peers ∧ (buildClaim s).mem = s.mem ∧
    (buildClaim s).link.station = s.link.station ∧ (buildClaim s).link.state = s.link.state ∧
    (buildClaim s).link.timed = s.link.timed ∧ (buildClaim s).link.cycle = s.link.cycle ∧
    (buildClaim s).link.cycleStart = s.link.cycleStart ∧ (buildClaim s).link.muted = s.link.muted ∧
    (buildClaim s).link.mismatches = s.link.mismatches ∧ (buildClaim s).link.tx = s.link.tx ∧
    (buildClaim s).link.offsets = s.link.offsets ∧ (buildClaim s).link.acceptedInCycle = s.link.acceptedInCycle ∧
    (buildClaim s).link.foreignInCycle = s.link.foreignInCycle ∧
    (buildClaim s).link.listenSince = s.link.listenSince ∧ (buildClaim s).hold.keyCount = s.hold.keyCount ∧
    (buildClaim s).hold.lockClear = s.hold.lockClear ∧ (buildClaim s).hold.lockClearLeft = s.hold.lockClearLeft ∧
    (buildClaim s).coord.run = s.coord.run ∧ (buildClaim s).coord.journalActive = s.coord.journalActive ∧
    (buildClaim s).coord.start = s.coord.start ∧ (buildClaim s).coord.restart = s.coord.restart ∧
    (buildClaim s).coord.restartLeft = s.coord.restartLeft ∧
    (buildClaim s).coord.lastRunClaim = s.coord.lastRunClaim ∧ (buildClaim s).plan.steps = s.plan.steps ∧
    (buildClaim s).plan.isSealed = s.plan.isSealed ∧ (buildClaim s).plan.digest = s.plan.digest ∧
    (buildClaim s).store.scanDone = s.store.scanDone ∧ (buildClaim s).store.tail = s.store.tail ∧
    (buildClaim s).store.pointer = s.store.pointer ∧ (buildClaim s).store.finalOut = s.store.finalOut ∧
    (buildClaim s).store.dip = s.store.dip ∧ (buildClaim s).store.retainedLockout = s.store.retainedLockout ∧
    (buildClaim s).port.config = s.port.config ∧ (buildClaim s).port.configDigest = s.port.configDigest ∧
    (buildClaim s).port.receiving = s.port.receiving ∧ (buildClaim s).port.resetArmed = s.port.resetArmed ∧
    (buildClaim s).port.response = s.port.response ∧ (buildClaim s).cal.committed = s.cal.committed := by
  simp only [buildClaim]; (repeat' split) <;> simp

@[simp] theorem initialStateClaim_keeps (s : State) :
    (initialStateClaim s).pending = s.pending ∧ (initialStateClaim s).now = s.now ∧
    (initialStateClaim s).freeCount = s.freeCount ∧ (initialStateClaim s).power = s.power ∧
    (initialStateClaim s).decoder = s.decoder ∧ (initialStateClaim s).link = s.link ∧
    (initialStateClaim s).peers = s.peers ∧ (initialStateClaim s).coord = s.coord ∧
    (initialStateClaim s).plan = s.plan ∧ (initialStateClaim s).hold = s.hold ∧ (initialStateClaim s).gate = s.gate ∧
    (initialStateClaim s).cal = s.cal ∧ (initialStateClaim s).store = s.store ∧ (initialStateClaim s).mem = s.mem ∧
    (initialStateClaim s).port = s.port ∧ (initialStateClaim s).engine.order = s.engine.order ∧
    (initialStateClaim s).sensing.settling = s.sensing.settling ∧
    (initialStateClaim s).sensing.accepted = s.sensing.accepted ∧
    (initialStateClaim s).sensing.drvStill = s.sensing.drvStill ∧
    (initialStateClaim s).sensing.brkFb = s.sensing.brkFb ∧ (initialStateClaim s).sensing.pfail = s.sensing.pfail ∧
    (initialStateClaim s).standby.supplyLoss = s.standby.supplyLoss ∧
    (initialStateClaim s).standby.excursion = s.standby.excursion ∧
    (initialStateClaim s).standby.alive = s.standby.alive := by
  simp only [initialStateClaim]
  split
  · simp
  · split
    · split
      · rename_i x h; have k := setClaimNow_keeps _ _ x h; simp [k]
      · simp
    · simp
  · simp
  · simp
  · simp

@[simp] theorem claimStep_keeps (i : Nat) (s : State) :
    (claimStep i s).pending = s.pending ∧ (claimStep i s).now = s.now ∧ (claimStep i s).freeCount = s.freeCount ∧
    (claimStep i s).power = s.power ∧ (claimStep i s).standby = s.standby ∧ (claimStep i s).decoder = s.decoder ∧
    (claimStep i s).sensing = s.sensing ∧ (claimStep i s).engine = s.engine ∧ (claimStep i s).link = s.link ∧
    (claimStep i s).peers = s.peers ∧ (claimStep i s).coord = s.coord ∧ (claimStep i s).hold = s.hold ∧
    (claimStep i s).gate = s.gate ∧ (claimStep i s).cal = s.cal ∧ (claimStep i s).store = s.store ∧
    (claimStep i s).mem = s.mem ∧ (claimStep i s).port = s.port ∧ (claimStep i s).plan.steps = s.plan.steps ∧
    (claimStep i s).plan.isSealed = s.plan.isSealed ∧ (claimStep i s).plan.digest = s.plan.digest ∧
    (claimStep i s).plan.running = s.plan.running := by
  simp [claimStep]

@[simp] theorem scanFrom_keeps (l : List StepRecord) (s : State) :
    (scanFrom s l).pending = s.pending ∧ (scanFrom s l).now = s.now ∧ (scanFrom s l).freeCount = s.freeCount ∧
    (scanFrom s l).power = s.power ∧ (scanFrom s l).standby = s.standby ∧ (scanFrom s l).decoder = s.decoder ∧
    (scanFrom s l).sensing = s.sensing ∧ (scanFrom s l).engine = s.engine ∧ (scanFrom s l).link = s.link ∧
    (scanFrom s l).peers = s.peers ∧ (scanFrom s l).coord = s.coord ∧ (scanFrom s l).hold = s.hold ∧
    (scanFrom s l).gate = s.gate ∧ (scanFrom s l).cal = s.cal ∧ (scanFrom s l).store = s.store ∧
    (scanFrom s l).mem = s.mem ∧ (scanFrom s l).port = s.port ∧ (scanFrom s l).plan.steps = s.plan.steps ∧
    (scanFrom s l).plan.isSealed = s.plan.isSealed ∧ (scanFrom s l).plan.digest = s.plan.digest ∧
    (scanFrom s l).plan.running = s.plan.running := by
  induction l generalizing s with
  | nil => simp [scanFrom]
  | cons r rest ih =>
    simp only [scanFrom]; (repeat' split) <;> simp [ih]

@[simp] theorem planScan_keeps (s : State) :
    (planScan s).pending = s.pending ∧ (planScan s).now = s.now ∧ (planScan s).freeCount = s.freeCount ∧
    (planScan s).power = s.power ∧ (planScan s).standby = s.standby ∧ (planScan s).decoder = s.decoder ∧
    (planScan s).sensing = s.sensing ∧ (planScan s).engine = s.engine ∧ (planScan s).link = s.link ∧
    (planScan s).peers = s.peers ∧ (planScan s).coord = s.coord ∧ (planScan s).hold = s.hold ∧
    (planScan s).gate = s.gate ∧ (planScan s).cal = s.cal ∧ (planScan s).store = s.store ∧ (planScan s).mem = s.mem ∧
    (planScan s).port = s.port ∧ (planScan s).plan.steps = s.plan.steps ∧
    (planScan s).plan.isSealed = s.plan.isSealed ∧ (planScan s).plan.digest = s.plan.digest ∧
    (planScan s).plan.running = s.plan.running := by
  simp only [planScan]; (repeat' split) <;> simp

@[simp] theorem withdrawClaim_keeps (i : Nat) (st : StepStatus) (s : State) :
    (withdrawClaim i st s).pending = s.pending ∧ (withdrawClaim i st s).now = s.now ∧
    (withdrawClaim i st s).freeCount = s.freeCount ∧ (withdrawClaim i st s).power = s.power ∧
    (withdrawClaim i st s).standby = s.standby ∧ (withdrawClaim i st s).decoder = s.decoder ∧
    (withdrawClaim i st s).sensing = s.sensing ∧ (withdrawClaim i st s).engine = s.engine ∧
    (withdrawClaim i st s).link = s.link ∧ (withdrawClaim i st s).peers = s.peers ∧
    (withdrawClaim i st s).coord = s.coord ∧ (withdrawClaim i st s).hold = s.hold ∧
    (withdrawClaim i st s).gate = s.gate ∧ (withdrawClaim i st s).cal = s.cal ∧
    (withdrawClaim i st s).store = s.store ∧ (withdrawClaim i st s).mem = s.mem ∧
    (withdrawClaim i st s).port = s.port ∧ (withdrawClaim i st s).plan.steps = s.plan.steps ∧
    (withdrawClaim i st s).plan.isSealed = s.plan.isSealed ∧ (withdrawClaim i st s).plan.digest = s.plan.digest := by
  simp [withdrawClaim]

@[simp] theorem startOperation_keeps (r : StepRecord) (s : State) :
    (startOperation r s).pending = s.pending ∧ (startOperation r s).now = s.now ∧
    (startOperation r s).freeCount = s.freeCount ∧ (startOperation r s).power = s.power ∧
    (startOperation r s).standby = s.standby ∧ (startOperation r s).decoder = s.decoder ∧
    (startOperation r s).sensing = s.sensing ∧ (startOperation r s).peers = s.peers ∧
    (startOperation r s).mem = s.mem ∧ (startOperation r s).link.station = s.link.station ∧
    (startOperation r s).link.state = s.link.state ∧ (startOperation r s).link.timed = s.link.timed ∧
    (startOperation r s).link.cycle = s.link.cycle ∧ (startOperation r s).link.cycleStart = s.link.cycleStart ∧
    (startOperation r s).link.muted = s.link.muted ∧ (startOperation r s).link.mismatches = s.link.mismatches ∧
    (startOperation r s).link.tx = s.link.tx ∧ (startOperation r s).link.offsets = s.link.offsets ∧
    (startOperation r s).link.acceptedInCycle = s.link.acceptedInCycle ∧
    (startOperation r s).link.foreignInCycle = s.link.foreignInCycle ∧
    (startOperation r s).link.listenSince = s.link.listenSince ∧
    (startOperation r s).hold.keyCount = s.hold.keyCount ∧ (startOperation r s).hold.lockClear = s.hold.lockClear ∧
    (startOperation r s).hold.lockClearLeft = s.hold.lockClearLeft ∧ (startOperation r s).coord.run = s.coord.run ∧
    (startOperation r s).coord.journalActive = s.coord.journalActive ∧
    (startOperation r s).coord.start = s.coord.start ∧ (startOperation r s).coord.restart = s.coord.restart ∧
    (startOperation r s).coord.restartLeft = s.coord.restartLeft ∧
    (startOperation r s).coord.lastRunClaim = s.coord.lastRunClaim ∧ (startOperation r s).plan.steps = s.plan.steps ∧
    (startOperation r s).plan.isSealed = s.plan.isSealed ∧ (startOperation r s).plan.digest = s.plan.digest ∧
    (startOperation r s).store.scanDone = s.store.scanDone ∧ (startOperation r s).store.tail = s.store.tail ∧
    (startOperation r s).store.pointer = s.store.pointer ∧ (startOperation r s).store.finalOut = s.store.finalOut ∧
    (startOperation r s).store.dip = s.store.dip ∧
    (startOperation r s).store.retainedLockout = s.store.retainedLockout ∧
    (startOperation r s).port.config = s.port.config ∧ (startOperation r s).port.configDigest = s.port.configDigest ∧
    (startOperation r s).port.receiving = s.port.receiving ∧
    (startOperation r s).port.resetArmed = s.port.resetArmed ∧ (startOperation r s).port.response = s.port.response ∧
    (startOperation r s).cal.committed = s.cal.committed := by
  simp only [startOperation]; (repeat' split) <;> simp

@[simp] theorem grantStep_keeps (r : StepRecord) (s : State) :
    (grantStep r s).pending = s.pending ∧ (grantStep r s).now = s.now ∧ (grantStep r s).freeCount = s.freeCount ∧
    (grantStep r s).power = s.power ∧ (grantStep r s).standby = s.standby ∧ (grantStep r s).decoder = s.decoder ∧
    (grantStep r s).sensing = s.sensing ∧ (grantStep r s).peers = s.peers ∧ (grantStep r s).mem = s.mem ∧
    (grantStep r s).link.station = s.link.station ∧ (grantStep r s).link.state = s.link.state ∧
    (grantStep r s).link.timed = s.link.timed ∧ (grantStep r s).link.cycle = s.link.cycle ∧
    (grantStep r s).link.cycleStart = s.link.cycleStart ∧ (grantStep r s).link.muted = s.link.muted ∧
    (grantStep r s).link.mismatches = s.link.mismatches ∧ (grantStep r s).link.tx = s.link.tx ∧
    (grantStep r s).link.offsets = s.link.offsets ∧ (grantStep r s).link.acceptedInCycle = s.link.acceptedInCycle ∧
    (grantStep r s).link.foreignInCycle = s.link.foreignInCycle ∧
    (grantStep r s).link.listenSince = s.link.listenSince ∧ (grantStep r s).hold.keyCount = s.hold.keyCount ∧
    (grantStep r s).hold.lockClear = s.hold.lockClear ∧ (grantStep r s).hold.lockClearLeft = s.hold.lockClearLeft ∧
    (grantStep r s).coord.run = s.coord.run ∧ (grantStep r s).coord.journalActive = s.coord.journalActive ∧
    (grantStep r s).coord.start = s.coord.start ∧ (grantStep r s).coord.restart = s.coord.restart ∧
    (grantStep r s).coord.restartLeft = s.coord.restartLeft ∧
    (grantStep r s).coord.lastRunClaim = s.coord.lastRunClaim ∧ (grantStep r s).plan.steps = s.plan.steps ∧
    (grantStep r s).plan.isSealed = s.plan.isSealed ∧ (grantStep r s).plan.digest = s.plan.digest ∧
    (grantStep r s).store.scanDone = s.store.scanDone ∧ (grantStep r s).store.tail = s.store.tail ∧
    (grantStep r s).store.pointer = s.store.pointer ∧ (grantStep r s).store.finalOut = s.store.finalOut ∧
    (grantStep r s).store.dip = s.store.dip ∧ (grantStep r s).store.retainedLockout = s.store.retainedLockout ∧
    (grantStep r s).port.config = s.port.config ∧ (grantStep r s).port.configDigest = s.port.configDigest ∧
    (grantStep r s).port.receiving = s.port.receiving ∧ (grantStep r s).port.resetArmed = s.port.resetArmed ∧
    (grantStep r s).port.response = s.port.response ∧ (grantStep r s).cal.committed = s.cal.committed := by
  simp only [grantStep]; (repeat' split) <;> simp

@[simp] theorem grantTest_keeps (r : StepRecord) (s : State) :
    (grantTest r s).pending = s.pending ∧ (grantTest r s).now = s.now ∧ (grantTest r s).freeCount = s.freeCount ∧
    (grantTest r s).power = s.power ∧ (grantTest r s).standby = s.standby ∧ (grantTest r s).decoder = s.decoder ∧
    (grantTest r s).sensing = s.sensing ∧ (grantTest r s).peers = s.peers ∧ (grantTest r s).mem = s.mem ∧
    (grantTest r s).link.station = s.link.station ∧ (grantTest r s).link.state = s.link.state ∧
    (grantTest r s).link.timed = s.link.timed ∧ (grantTest r s).link.cycle = s.link.cycle ∧
    (grantTest r s).link.cycleStart = s.link.cycleStart ∧ (grantTest r s).link.muted = s.link.muted ∧
    (grantTest r s).link.mismatches = s.link.mismatches ∧ (grantTest r s).link.tx = s.link.tx ∧
    (grantTest r s).link.offsets = s.link.offsets ∧ (grantTest r s).link.acceptedInCycle = s.link.acceptedInCycle ∧
    (grantTest r s).link.foreignInCycle = s.link.foreignInCycle ∧
    (grantTest r s).link.listenSince = s.link.listenSince ∧ (grantTest r s).hold.keyCount = s.hold.keyCount ∧
    (grantTest r s).hold.lockClear = s.hold.lockClear ∧ (grantTest r s).hold.lockClearLeft = s.hold.lockClearLeft ∧
    (grantTest r s).coord.run = s.coord.run ∧ (grantTest r s).coord.journalActive = s.coord.journalActive ∧
    (grantTest r s).coord.start = s.coord.start ∧ (grantTest r s).coord.restart = s.coord.restart ∧
    (grantTest r s).coord.restartLeft = s.coord.restartLeft ∧
    (grantTest r s).coord.lastRunClaim = s.coord.lastRunClaim ∧ (grantTest r s).plan.steps = s.plan.steps ∧
    (grantTest r s).plan.isSealed = s.plan.isSealed ∧ (grantTest r s).plan.digest = s.plan.digest ∧
    (grantTest r s).store.scanDone = s.store.scanDone ∧ (grantTest r s).store.tail = s.store.tail ∧
    (grantTest r s).store.pointer = s.store.pointer ∧ (grantTest r s).store.finalOut = s.store.finalOut ∧
    (grantTest r s).store.dip = s.store.dip ∧ (grantTest r s).store.retainedLockout = s.store.retainedLockout ∧
    (grantTest r s).port.config = s.port.config ∧ (grantTest r s).port.configDigest = s.port.configDigest ∧
    (grantTest r s).port.receiving = s.port.receiving ∧ (grantTest r s).port.resetArmed = s.port.resetArmed ∧
    (grantTest r s).port.response = s.port.response ∧ (grantTest r s).cal.committed = s.cal.committed := by
  simp only [grantTest, planStage]; (repeat' split) <;> simp

@[simp] theorem grantAndScan_keeps (s : State) :
    (grantAndScan s).pending = s.pending ∧ (grantAndScan s).now = s.now ∧ (grantAndScan s).freeCount = s.freeCount ∧
    (grantAndScan s).power = s.power ∧ (grantAndScan s).standby = s.standby ∧ (grantAndScan s).decoder = s.decoder ∧
    (grantAndScan s).sensing = s.sensing ∧ (grantAndScan s).peers = s.peers ∧ (grantAndScan s).mem = s.mem ∧
    (grantAndScan s).link.station = s.link.station ∧ (grantAndScan s).link.state = s.link.state ∧
    (grantAndScan s).link.timed = s.link.timed ∧ (grantAndScan s).link.cycle = s.link.cycle ∧
    (grantAndScan s).link.cycleStart = s.link.cycleStart ∧ (grantAndScan s).link.muted = s.link.muted ∧
    (grantAndScan s).link.mismatches = s.link.mismatches ∧ (grantAndScan s).link.tx = s.link.tx ∧
    (grantAndScan s).link.offsets = s.link.offsets ∧ (grantAndScan s).link.acceptedInCycle = s.link.acceptedInCycle ∧
    (grantAndScan s).link.foreignInCycle = s.link.foreignInCycle ∧
    (grantAndScan s).link.listenSince = s.link.listenSince ∧ (grantAndScan s).hold.keyCount = s.hold.keyCount ∧
    (grantAndScan s).hold.lockClear = s.hold.lockClear ∧ (grantAndScan s).hold.lockClearLeft = s.hold.lockClearLeft ∧
    (grantAndScan s).coord.run = s.coord.run ∧ (grantAndScan s).coord.journalActive = s.coord.journalActive ∧
    (grantAndScan s).coord.start = s.coord.start ∧ (grantAndScan s).coord.restart = s.coord.restart ∧
    (grantAndScan s).coord.restartLeft = s.coord.restartLeft ∧
    (grantAndScan s).coord.lastRunClaim = s.coord.lastRunClaim ∧ (grantAndScan s).plan.steps = s.plan.steps ∧
    (grantAndScan s).plan.isSealed = s.plan.isSealed ∧ (grantAndScan s).plan.digest = s.plan.digest ∧
    (grantAndScan s).store.scanDone = s.store.scanDone ∧ (grantAndScan s).store.tail = s.store.tail ∧
    (grantAndScan s).store.pointer = s.store.pointer ∧ (grantAndScan s).store.finalOut = s.store.finalOut ∧
    (grantAndScan s).store.dip = s.store.dip ∧ (grantAndScan s).store.retainedLockout = s.store.retainedLockout ∧
    (grantAndScan s).port.config = s.port.config ∧ (grantAndScan s).port.configDigest = s.port.configDigest ∧
    (grantAndScan s).port.receiving = s.port.receiving ∧ (grantAndScan s).port.resetArmed = s.port.resetArmed ∧
    (grantAndScan s).port.response = s.port.response ∧ (grantAndScan s).cal.committed = s.cal.committed := by
  simp only [grantAndScan]; (repeat' split) <;> simp

@[simp] theorem noteYield_keeps (i : Nat) (s : State) :
    (noteYield i s).pending = s.pending ∧ (noteYield i s).now = s.now ∧ (noteYield i s).freeCount = s.freeCount ∧
    (noteYield i s).power = s.power ∧ (noteYield i s).standby = s.standby ∧ (noteYield i s).decoder = s.decoder ∧
    (noteYield i s).sensing = s.sensing ∧ (noteYield i s).engine = s.engine ∧ (noteYield i s).peers = s.peers ∧
    (noteYield i s).coord = s.coord ∧ (noteYield i s).gate = s.gate ∧ (noteYield i s).cal = s.cal ∧
    (noteYield i s).store = s.store ∧ (noteYield i s).mem = s.mem ∧ (noteYield i s).link.station = s.link.station ∧
    (noteYield i s).link.state = s.link.state ∧ (noteYield i s).link.timed = s.link.timed ∧
    (noteYield i s).link.cycle = s.link.cycle ∧ (noteYield i s).link.cycleStart = s.link.cycleStart ∧
    (noteYield i s).link.muted = s.link.muted ∧ (noteYield i s).link.mismatches = s.link.mismatches ∧
    (noteYield i s).link.tx = s.link.tx ∧ (noteYield i s).link.offsets = s.link.offsets ∧
    (noteYield i s).link.acceptedInCycle = s.link.acceptedInCycle ∧
    (noteYield i s).link.foreignInCycle = s.link.foreignInCycle ∧
    (noteYield i s).link.listenSince = s.link.listenSince ∧ (noteYield i s).hold.level = s.hold.level ∧
    (noteYield i s).hold.complete = s.hold.complete ∧ (noteYield i s).hold.seq = s.hold.seq ∧
    (noteYield i s).hold.keyCount = s.hold.keyCount ∧ (noteYield i s).hold.lockClear = s.hold.lockClear ∧
    (noteYield i s).hold.lockClearLeft = s.hold.lockClearLeft ∧ (noteYield i s).plan.steps = s.plan.steps ∧
    (noteYield i s).plan.isSealed = s.plan.isSealed ∧ (noteYield i s).plan.digest = s.plan.digest ∧
    (noteYield i s).plan.running = s.plan.running ∧ (noteYield i s).port.config = s.port.config ∧
    (noteYield i s).port.configDigest = s.port.configDigest ∧ (noteYield i s).port.receiving = s.port.receiving ∧
    (noteYield i s).port.resetArmed = s.port.resetArmed ∧ (noteYield i s).port.response = s.port.response := by
  simp [noteYield]

@[simp] theorem yieldTest_keeps (s : State) :
    (yieldTest s).pending = s.pending ∧ (yieldTest s).now = s.now ∧ (yieldTest s).freeCount = s.freeCount ∧
    (yieldTest s).power = s.power ∧ (yieldTest s).standby = s.standby ∧ (yieldTest s).decoder = s.decoder ∧
    (yieldTest s).sensing = s.sensing ∧ (yieldTest s).peers = s.peers ∧ (yieldTest s).mem = s.mem ∧
    (yieldTest s).link.station = s.link.station ∧ (yieldTest s).link.state = s.link.state ∧
    (yieldTest s).link.timed = s.link.timed ∧ (yieldTest s).link.cycle = s.link.cycle ∧
    (yieldTest s).link.cycleStart = s.link.cycleStart ∧ (yieldTest s).link.muted = s.link.muted ∧
    (yieldTest s).link.mismatches = s.link.mismatches ∧ (yieldTest s).link.tx = s.link.tx ∧
    (yieldTest s).link.offsets = s.link.offsets ∧ (yieldTest s).link.acceptedInCycle = s.link.acceptedInCycle ∧
    (yieldTest s).link.foreignInCycle = s.link.foreignInCycle ∧ (yieldTest s).link.listenSince = s.link.listenSince ∧
    (yieldTest s).hold.keyCount = s.hold.keyCount ∧ (yieldTest s).hold.lockClear = s.hold.lockClear ∧
    (yieldTest s).hold.lockClearLeft = s.hold.lockClearLeft ∧ (yieldTest s).coord.run = s.coord.run ∧
    (yieldTest s).coord.journalActive = s.coord.journalActive ∧ (yieldTest s).coord.start = s.coord.start ∧
    (yieldTest s).coord.restart = s.coord.restart ∧ (yieldTest s).coord.restartLeft = s.coord.restartLeft ∧
    (yieldTest s).coord.lastRunClaim = s.coord.lastRunClaim ∧ (yieldTest s).plan.steps = s.plan.steps ∧
    (yieldTest s).plan.isSealed = s.plan.isSealed ∧ (yieldTest s).plan.digest = s.plan.digest ∧
    (yieldTest s).store.scanDone = s.store.scanDone ∧ (yieldTest s).store.tail = s.store.tail ∧
    (yieldTest s).store.pointer = s.store.pointer ∧ (yieldTest s).store.finalOut = s.store.finalOut ∧
    (yieldTest s).store.dip = s.store.dip ∧ (yieldTest s).store.retainedLockout = s.store.retainedLockout ∧
    (yieldTest s).port.config = s.port.config ∧ (yieldTest s).port.configDigest = s.port.configDigest ∧
    (yieldTest s).port.receiving = s.port.receiving ∧ (yieldTest s).port.resetArmed = s.port.resetArmed ∧
    (yieldTest s).port.response = s.port.response ∧ (yieldTest s).cal.committed = s.cal.committed := by
  simp only [yieldTest]; (repeat' split) <;> simp

@[simp] theorem endFinding_keeps (s : State) :
    (endFinding s).pending = s.pending ∧ (endFinding s).now = s.now ∧ (endFinding s).freeCount = s.freeCount ∧
    (endFinding s).power = s.power ∧ (endFinding s).standby = s.standby ∧ (endFinding s).decoder = s.decoder ∧
    (endFinding s).sensing = s.sensing ∧ (endFinding s).peers = s.peers ∧ (endFinding s).mem = s.mem ∧
    (endFinding s).link.station = s.link.station ∧ (endFinding s).link.state = s.link.state ∧
    (endFinding s).link.timed = s.link.timed ∧ (endFinding s).link.cycle = s.link.cycle ∧
    (endFinding s).link.cycleStart = s.link.cycleStart ∧ (endFinding s).link.muted = s.link.muted ∧
    (endFinding s).link.mismatches = s.link.mismatches ∧ (endFinding s).link.tx = s.link.tx ∧
    (endFinding s).link.offsets = s.link.offsets ∧ (endFinding s).link.acceptedInCycle = s.link.acceptedInCycle ∧
    (endFinding s).link.foreignInCycle = s.link.foreignInCycle ∧
    (endFinding s).link.listenSince = s.link.listenSince ∧ (endFinding s).hold.keyCount = s.hold.keyCount ∧
    (endFinding s).hold.lockClear = s.hold.lockClear ∧ (endFinding s).hold.lockClearLeft = s.hold.lockClearLeft ∧
    (endFinding s).coord.run = s.coord.run ∧ (endFinding s).coord.journalActive = s.coord.journalActive ∧
    (endFinding s).coord.start = s.coord.start ∧ (endFinding s).coord.restart = s.coord.restart ∧
    (endFinding s).coord.restartLeft = s.coord.restartLeft ∧
    (endFinding s).coord.lastRunClaim = s.coord.lastRunClaim ∧ (endFinding s).plan.steps = s.plan.steps ∧
    (endFinding s).plan.isSealed = s.plan.isSealed ∧ (endFinding s).plan.digest = s.plan.digest ∧
    (endFinding s).store.scanDone = s.store.scanDone ∧ (endFinding s).store.tail = s.store.tail ∧
    (endFinding s).store.pointer = s.store.pointer ∧ (endFinding s).store.finalOut = s.store.finalOut ∧
    (endFinding s).store.dip = s.store.dip ∧ (endFinding s).store.retainedLockout = s.store.retainedLockout ∧
    (endFinding s).port.config = s.port.config ∧ (endFinding s).port.configDigest = s.port.configDigest ∧
    (endFinding s).port.receiving = s.port.receiving ∧ (endFinding s).port.resetArmed = s.port.resetArmed ∧
    (endFinding s).port.response = s.port.response ∧ (endFinding s).cal.committed = s.cal.committed := by
  simp only [endFinding]; (repeat' split) <;> simp

@[simp] theorem planEvaluation_keeps (s : State) :
    (planEvaluation s).pending = s.pending ∧ (planEvaluation s).now = s.now ∧
    (planEvaluation s).freeCount = s.freeCount ∧ (planEvaluation s).power = s.power ∧
    (planEvaluation s).standby = s.standby ∧ (planEvaluation s).decoder = s.decoder ∧
    (planEvaluation s).sensing = s.sensing ∧ (planEvaluation s).peers = s.peers ∧ (planEvaluation s).mem = s.mem ∧
    (planEvaluation s).link.station = s.link.station ∧ (planEvaluation s).link.state = s.link.state ∧
    (planEvaluation s).link.timed = s.link.timed ∧ (planEvaluation s).link.cycle = s.link.cycle ∧
    (planEvaluation s).link.cycleStart = s.link.cycleStart ∧ (planEvaluation s).link.muted = s.link.muted ∧
    (planEvaluation s).link.mismatches = s.link.mismatches ∧ (planEvaluation s).link.tx = s.link.tx ∧
    (planEvaluation s).link.offsets = s.link.offsets ∧
    (planEvaluation s).link.acceptedInCycle = s.link.acceptedInCycle ∧
    (planEvaluation s).link.foreignInCycle = s.link.foreignInCycle ∧
    (planEvaluation s).link.listenSince = s.link.listenSince ∧ (planEvaluation s).hold.keyCount = s.hold.keyCount ∧
    (planEvaluation s).hold.lockClear = s.hold.lockClear ∧
    (planEvaluation s).hold.lockClearLeft = s.hold.lockClearLeft ∧ (planEvaluation s).coord.run = s.coord.run ∧
    (planEvaluation s).coord.journalActive = s.coord.journalActive ∧ (planEvaluation s).coord.start = s.coord.start ∧
    (planEvaluation s).coord.restart = s.coord.restart ∧ (planEvaluation s).coord.restartLeft = s.coord.restartLeft ∧
    (planEvaluation s).coord.lastRunClaim = s.coord.lastRunClaim ∧ (planEvaluation s).plan.steps = s.plan.steps ∧
    (planEvaluation s).plan.isSealed = s.plan.isSealed ∧ (planEvaluation s).plan.digest = s.plan.digest ∧
    (planEvaluation s).store.scanDone = s.store.scanDone ∧ (planEvaluation s).store.tail = s.store.tail ∧
    (planEvaluation s).store.pointer = s.store.pointer ∧ (planEvaluation s).store.finalOut = s.store.finalOut ∧
    (planEvaluation s).store.dip = s.store.dip ∧ (planEvaluation s).store.retainedLockout = s.store.retainedLockout ∧
    (planEvaluation s).port.config = s.port.config ∧ (planEvaluation s).port.configDigest = s.port.configDigest ∧
    (planEvaluation s).port.receiving = s.port.receiving ∧ (planEvaluation s).port.resetArmed = s.port.resetArmed ∧
    (planEvaluation s).port.response = s.port.response ∧ (planEvaluation s).cal.committed = s.cal.committed := by
  simp only [planEvaluation, planStage]; (repeat' split) <;> simp

@[simp] theorem refreshOwn_keeps (s : State) :
    (refreshOwn s).pending = s.pending ∧ (refreshOwn s).now = s.now ∧ (refreshOwn s).freeCount = s.freeCount ∧
    (refreshOwn s).power = s.power ∧ (refreshOwn s).standby = s.standby ∧ (refreshOwn s).decoder = s.decoder ∧
    (refreshOwn s).sensing = s.sensing ∧ (refreshOwn s).engine = s.engine ∧ (refreshOwn s).link = s.link ∧
    (refreshOwn s).coord = s.coord ∧ (refreshOwn s).plan = s.plan ∧ (refreshOwn s).hold = s.hold ∧
    (refreshOwn s).gate = s.gate ∧ (refreshOwn s).cal = s.cal ∧ (refreshOwn s).store = s.store ∧
    (refreshOwn s).mem = s.mem ∧ (refreshOwn s).port = s.port := by
  simp [refreshOwn]

@[simp] theorem notePacking_keeps (s : State) :
    (notePacking s).pending = s.pending ∧ (notePacking s).now = s.now ∧ (notePacking s).freeCount = s.freeCount ∧
    (notePacking s).power = s.power ∧ (notePacking s).standby = s.standby ∧ (notePacking s).decoder = s.decoder ∧
    (notePacking s).sensing = s.sensing ∧ (notePacking s).engine = s.engine ∧ (notePacking s).link = s.link ∧
    (notePacking s).peers = s.peers ∧ (notePacking s).plan = s.plan ∧ (notePacking s).gate = s.gate ∧
    (notePacking s).cal = s.cal ∧ (notePacking s).store = s.store ∧ (notePacking s).mem = s.mem ∧
    (notePacking s).port = s.port ∧ (notePacking s).hold.level = s.hold.level ∧
    (notePacking s).hold.complete = s.hold.complete ∧ (notePacking s).hold.seq = s.hold.seq ∧
    (notePacking s).hold.keyCount = s.hold.keyCount ∧ (notePacking s).hold.faults = s.hold.faults ∧
    (notePacking s).coord.phase = s.coord.phase ∧ (notePacking s).coord.run = s.coord.run ∧
    (notePacking s).coord.journalActive = s.coord.journalActive ∧ (notePacking s).coord.start = s.coord.start ∧
    (notePacking s).coord.lastRunClaim = s.coord.lastRunClaim := by
  simp only [notePacking]; (repeat' split) <;> simp

@[simp] theorem noteClaimSent_keeps (kept : Bool) (s : State) :
    (noteClaimSent kept s).pending = s.pending ∧ (noteClaimSent kept s).now = s.now ∧
    (noteClaimSent kept s).freeCount = s.freeCount ∧ (noteClaimSent kept s).power = s.power ∧
    (noteClaimSent kept s).standby = s.standby ∧ (noteClaimSent kept s).decoder = s.decoder ∧
    (noteClaimSent kept s).sensing = s.sensing ∧ (noteClaimSent kept s).engine = s.engine ∧
    (noteClaimSent kept s).link = s.link ∧ (noteClaimSent kept s).peers = s.peers ∧
    (noteClaimSent kept s).coord = s.coord ∧ (noteClaimSent kept s).hold = s.hold ∧
    (noteClaimSent kept s).gate = s.gate ∧ (noteClaimSent kept s).cal = s.cal ∧
    (noteClaimSent kept s).store = s.store ∧ (noteClaimSent kept s).mem = s.mem ∧
    (noteClaimSent kept s).port = s.port ∧ (noteClaimSent kept s).plan.steps = s.plan.steps ∧
    (noteClaimSent kept s).plan.isSealed = s.plan.isSealed ∧ (noteClaimSent kept s).plan.digest = s.plan.digest ∧
    (noteClaimSent kept s).plan.running = s.plan.running := by
  simp only [noteClaimSent]; (repeat' split) <;> simp

@[simp] theorem resumeFlagClear_keeps (s : State) :
    (resumeFlagClear s).pending = s.pending ∧ (resumeFlagClear s).now = s.now ∧
    (resumeFlagClear s).freeCount = s.freeCount ∧ (resumeFlagClear s).power = s.power ∧
    (resumeFlagClear s).standby = s.standby ∧ (resumeFlagClear s).decoder = s.decoder ∧
    (resumeFlagClear s).sensing = s.sensing ∧ (resumeFlagClear s).engine = s.engine ∧
    (resumeFlagClear s).link = s.link ∧ (resumeFlagClear s).peers = s.peers ∧ (resumeFlagClear s).coord = s.coord ∧
    (resumeFlagClear s).plan = s.plan ∧ (resumeFlagClear s).gate = s.gate ∧ (resumeFlagClear s).cal = s.cal ∧
    (resumeFlagClear s).store = s.store ∧ (resumeFlagClear s).mem = s.mem ∧ (resumeFlagClear s).port = s.port ∧
    (resumeFlagClear s).hold.level = s.hold.level ∧ (resumeFlagClear s).hold.complete = s.hold.complete ∧
    (resumeFlagClear s).hold.seq = s.hold.seq ∧ (resumeFlagClear s).hold.keyCount = s.hold.keyCount ∧
    (resumeFlagClear s).hold.faults = s.hold.faults ∧ (resumeFlagClear s).hold.lockClear = s.hold.lockClear ∧
    (resumeFlagClear s).hold.lockClearLeft = s.hold.lockClearLeft := by
  simp only [resumeFlagClear]; (repeat' split) <;> simp

@[simp] theorem handOff_keeps (s : State) :
    (handOff s).pending = s.pending ∧ (handOff s).now = s.now ∧ (handOff s).freeCount = s.freeCount ∧
    (handOff s).power = s.power ∧ (handOff s).standby = s.standby ∧ (handOff s).decoder = s.decoder ∧
    (handOff s).sensing = s.sensing ∧ (handOff s).engine = s.engine ∧ (handOff s).peers = s.peers ∧
    (handOff s).coord = s.coord ∧ (handOff s).plan = s.plan ∧ (handOff s).gate = s.gate ∧ (handOff s).mem = s.mem ∧
    (handOff s).link.station = s.link.station ∧ (handOff s).link.state = s.link.state ∧
    (handOff s).link.timed = s.link.timed ∧ (handOff s).link.cycle = s.link.cycle ∧
    (handOff s).link.cycleStart = s.link.cycleStart ∧ (handOff s).link.muted = s.link.muted ∧
    (handOff s).link.mismatches = s.link.mismatches ∧ (handOff s).link.tx = s.link.tx ∧
    (handOff s).link.offsets = s.link.offsets ∧ (handOff s).link.acceptedInCycle = s.link.acceptedInCycle ∧
    (handOff s).link.foreignInCycle = s.link.foreignInCycle ∧ (handOff s).link.listenSince = s.link.listenSince ∧
    (handOff s).hold.level = s.hold.level ∧ (handOff s).hold.seq = s.hold.seq ∧
    (handOff s).hold.keyCount = s.hold.keyCount ∧ (handOff s).hold.lockClear = s.hold.lockClear ∧
    (handOff s).hold.lockClearLeft = s.hold.lockClearLeft ∧ (handOff s).store.scanDone = s.store.scanDone ∧
    (handOff s).store.tail = s.store.tail ∧ (handOff s).store.pointer = s.store.pointer ∧
    (handOff s).store.finalOut = s.store.finalOut ∧ (handOff s).store.dip = s.store.dip ∧
    (handOff s).store.retainedLockout = s.store.retainedLockout ∧ (handOff s).port.config = s.port.config ∧
    (handOff s).port.configDigest = s.port.configDigest ∧ (handOff s).port.receiving = s.port.receiving ∧
    (handOff s).port.resetArmed = s.port.resetArmed ∧ (handOff s).port.response = s.port.response ∧
    (handOff s).cal.committed = s.cal.committed := by
  simp [handOff]

@[simp] theorem adoptionEntry_keeps (old : HoldLevel) (s : State) :
    (adoptionEntry old s).pending = s.pending ∧ (adoptionEntry old s).now = s.now ∧
    (adoptionEntry old s).freeCount = s.freeCount ∧ (adoptionEntry old s).power = s.power ∧
    (adoptionEntry old s).standby = s.standby ∧ (adoptionEntry old s).decoder = s.decoder ∧
    (adoptionEntry old s).sensing = s.sensing ∧ (adoptionEntry old s).peers = s.peers ∧
    (adoptionEntry old s).coord = s.coord ∧ (adoptionEntry old s).mem = s.mem ∧
    (adoptionEntry old s).link.station = s.link.station ∧ (adoptionEntry old s).link.state = s.link.state ∧
    (adoptionEntry old s).link.timed = s.link.timed ∧ (adoptionEntry old s).link.cycle = s.link.cycle ∧
    (adoptionEntry old s).link.cycleStart = s.link.cycleStart ∧ (adoptionEntry old s).link.muted = s.link.muted ∧
    (adoptionEntry old s).link.mismatches = s.link.mismatches ∧ (adoptionEntry old s).link.tx = s.link.tx ∧
    (adoptionEntry old s).link.offsets = s.link.offsets ∧
    (adoptionEntry old s).link.acceptedInCycle = s.link.acceptedInCycle ∧
    (adoptionEntry old s).link.foreignInCycle = s.link.foreignInCycle ∧
    (adoptionEntry old s).link.listenSince = s.link.listenSince ∧ (adoptionEntry old s).hold.level = s.hold.level ∧
    (adoptionEntry old s).hold.seq = s.hold.seq ∧ (adoptionEntry old s).hold.keyCount = s.hold.keyCount ∧
    (adoptionEntry old s).hold.lockClear = s.hold.lockClear ∧
    (adoptionEntry old s).hold.lockClearLeft = s.hold.lockClearLeft ∧
    (adoptionEntry old s).plan.steps = s.plan.steps ∧ (adoptionEntry old s).plan.isSealed = s.plan.isSealed ∧
    (adoptionEntry old s).plan.digest = s.plan.digest ∧ (adoptionEntry old s).store.scanDone = s.store.scanDone ∧
    (adoptionEntry old s).store.tail = s.store.tail ∧ (adoptionEntry old s).store.pointer = s.store.pointer ∧
    (adoptionEntry old s).store.finalOut = s.store.finalOut ∧ (adoptionEntry old s).store.dip = s.store.dip ∧
    (adoptionEntry old s).store.retainedLockout = s.store.retainedLockout ∧
    (adoptionEntry old s).port.config = s.port.config ∧
    (adoptionEntry old s).port.configDigest = s.port.configDigest ∧
    (adoptionEntry old s).port.receiving = s.port.receiving ∧
    (adoptionEntry old s).port.resetArmed = s.port.resetArmed ∧
    (adoptionEntry old s).port.response = s.port.response ∧ (adoptionEntry old s).cal.committed = s.cal.committed := by
  simp only [adoptionEntry]; (repeat' split) <;> simp

@[simp] theorem adoptHold_keeps (j : Station) (r : StatusRecord) (s : State) :
    (adoptHold j r s).pending = s.pending ∧ (adoptHold j r s).now = s.now ∧
    (adoptHold j r s).freeCount = s.freeCount ∧ (adoptHold j r s).power = s.power ∧
    (adoptHold j r s).standby = s.standby ∧ (adoptHold j r s).decoder = s.decoder ∧
    (adoptHold j r s).sensing = s.sensing ∧ (adoptHold j r s).peers = s.peers ∧ (adoptHold j r s).mem = s.mem ∧
    (adoptHold j r s).link.station = s.link.station ∧ (adoptHold j r s).link.state = s.link.state ∧
    (adoptHold j r s).link.timed = s.link.timed ∧ (adoptHold j r s).link.cycle = s.link.cycle ∧
    (adoptHold j r s).link.cycleStart = s.link.cycleStart ∧ (adoptHold j r s).link.muted = s.link.muted ∧
    (adoptHold j r s).link.mismatches = s.link.mismatches ∧ (adoptHold j r s).link.tx = s.link.tx ∧
    (adoptHold j r s).link.offsets = s.link.offsets ∧
    (adoptHold j r s).link.acceptedInCycle = s.link.acceptedInCycle ∧
    (adoptHold j r s).link.foreignInCycle = s.link.foreignInCycle ∧
    (adoptHold j r s).link.listenSince = s.link.listenSince ∧ (adoptHold j r s).hold.keyCount = s.hold.keyCount ∧
    (adoptHold j r s).hold.lockClear = s.hold.lockClear ∧
    (adoptHold j r s).hold.lockClearLeft = s.hold.lockClearLeft ∧ (adoptHold j r s).coord.run = s.coord.run ∧
    (adoptHold j r s).coord.journalActive = s.coord.journalActive ∧ (adoptHold j r s).coord.start = s.coord.start ∧
    (adoptHold j r s).coord.restart = s.coord.restart ∧ (adoptHold j r s).coord.restartLeft = s.coord.restartLeft ∧
    (adoptHold j r s).coord.lastRunClaim = s.coord.lastRunClaim ∧ (adoptHold j r s).plan.steps = s.plan.steps ∧
    (adoptHold j r s).plan.isSealed = s.plan.isSealed ∧ (adoptHold j r s).plan.digest = s.plan.digest ∧
    (adoptHold j r s).store.scanDone = s.store.scanDone ∧ (adoptHold j r s).store.tail = s.store.tail ∧
    (adoptHold j r s).store.pointer = s.store.pointer ∧ (adoptHold j r s).store.finalOut = s.store.finalOut ∧
    (adoptHold j r s).store.dip = s.store.dip ∧ (adoptHold j r s).store.retainedLockout = s.store.retainedLockout ∧
    (adoptHold j r s).port.config = s.port.config ∧ (adoptHold j r s).port.configDigest = s.port.configDigest ∧
    (adoptHold j r s).port.receiving = s.port.receiving ∧ (adoptHold j r s).port.resetArmed = s.port.resetArmed ∧
    (adoptHold j r s).port.response = s.port.response ∧ (adoptHold j r s).cal.committed = s.cal.committed := by
  simp only [adoptHold]; (repeat' split) <;> simp

@[simp] theorem raiseToPeer_keeps (r : StatusRecord) (s : State) :
    (raiseToPeer r s).pending = s.pending ∧ (raiseToPeer r s).now = s.now ∧
    (raiseToPeer r s).freeCount = s.freeCount ∧ (raiseToPeer r s).power = s.power ∧
    (raiseToPeer r s).standby = s.standby ∧ (raiseToPeer r s).decoder = s.decoder ∧
    (raiseToPeer r s).sensing = s.sensing ∧ (raiseToPeer r s).peers = s.peers ∧ (raiseToPeer r s).coord = s.coord ∧
    (raiseToPeer r s).mem = s.mem ∧ (raiseToPeer r s).link.station = s.link.station ∧
    (raiseToPeer r s).link.state = s.link.state ∧ (raiseToPeer r s).link.timed = s.link.timed ∧
    (raiseToPeer r s).link.cycle = s.link.cycle ∧ (raiseToPeer r s).link.cycleStart = s.link.cycleStart ∧
    (raiseToPeer r s).link.muted = s.link.muted ∧ (raiseToPeer r s).link.mismatches = s.link.mismatches ∧
    (raiseToPeer r s).link.tx = s.link.tx ∧ (raiseToPeer r s).link.offsets = s.link.offsets ∧
    (raiseToPeer r s).link.acceptedInCycle = s.link.acceptedInCycle ∧
    (raiseToPeer r s).link.foreignInCycle = s.link.foreignInCycle ∧
    (raiseToPeer r s).link.listenSince = s.link.listenSince ∧ (raiseToPeer r s).hold.seq = s.hold.seq ∧
    (raiseToPeer r s).hold.keyCount = s.hold.keyCount ∧ (raiseToPeer r s).hold.lockClear = s.hold.lockClear ∧
    (raiseToPeer r s).hold.lockClearLeft = s.hold.lockClearLeft ∧ (raiseToPeer r s).plan.steps = s.plan.steps ∧
    (raiseToPeer r s).plan.isSealed = s.plan.isSealed ∧ (raiseToPeer r s).plan.digest = s.plan.digest ∧
    (raiseToPeer r s).store.scanDone = s.store.scanDone ∧ (raiseToPeer r s).store.tail = s.store.tail ∧
    (raiseToPeer r s).store.pointer = s.store.pointer ∧ (raiseToPeer r s).store.finalOut = s.store.finalOut ∧
    (raiseToPeer r s).store.dip = s.store.dip ∧ (raiseToPeer r s).store.retainedLockout = s.store.retainedLockout ∧
    (raiseToPeer r s).port.config = s.port.config ∧ (raiseToPeer r s).port.configDigest = s.port.configDigest ∧
    (raiseToPeer r s).port.receiving = s.port.receiving ∧ (raiseToPeer r s).port.resetArmed = s.port.resetArmed ∧
    (raiseToPeer r s).port.response = s.port.response ∧ (raiseToPeer r s).cal.committed = s.cal.committed := by
  simp only [raiseToPeer]; (repeat' split) <;> simp

@[simp] theorem settleOrigin_keeps (r : StatusRecord) (s : State) :
    (settleOrigin r s).pending = s.pending ∧ (settleOrigin r s).now = s.now ∧
    (settleOrigin r s).freeCount = s.freeCount ∧ (settleOrigin r s).power = s.power ∧
    (settleOrigin r s).standby = s.standby ∧ (settleOrigin r s).decoder = s.decoder ∧
    (settleOrigin r s).sensing = s.sensing ∧ (settleOrigin r s).engine = s.engine ∧
    (settleOrigin r s).link = s.link ∧ (settleOrigin r s).peers = s.peers ∧ (settleOrigin r s).coord = s.coord ∧
    (settleOrigin r s).plan = s.plan ∧ (settleOrigin r s).gate = s.gate ∧ (settleOrigin r s).cal = s.cal ∧
    (settleOrigin r s).store = s.store ∧ (settleOrigin r s).mem = s.mem ∧ (settleOrigin r s).port = s.port ∧
    (settleOrigin r s).hold.level = s.hold.level ∧ (settleOrigin r s).hold.complete = s.hold.complete ∧
    (settleOrigin r s).hold.seq = s.hold.seq ∧ (settleOrigin r s).hold.keyCount = s.hold.keyCount ∧
    (settleOrigin r s).hold.faults = s.hold.faults ∧ (settleOrigin r s).hold.lockClear = s.hold.lockClear ∧
    (settleOrigin r s).hold.lockClearLeft = s.hold.lockClearLeft := by
  simp only [settleOrigin]; (repeat' split) <;> simp

@[simp] theorem takeSequence_keeps (j : Station) (r : StatusRecord) (s : State) :
    (takeSequence j r s).pending = s.pending ∧ (takeSequence j r s).now = s.now ∧
    (takeSequence j r s).freeCount = s.freeCount ∧ (takeSequence j r s).power = s.power ∧
    (takeSequence j r s).standby = s.standby ∧ (takeSequence j r s).decoder = s.decoder ∧
    (takeSequence j r s).sensing = s.sensing ∧ (takeSequence j r s).peers = s.peers ∧
    (takeSequence j r s).mem = s.mem ∧ (takeSequence j r s).link.station = s.link.station ∧
    (takeSequence j r s).link.state = s.link.state ∧ (takeSequence j r s).link.timed = s.link.timed ∧
    (takeSequence j r s).link.cycle = s.link.cycle ∧ (takeSequence j r s).link.cycleStart = s.link.cycleStart ∧
    (takeSequence j r s).link.muted = s.link.muted ∧ (takeSequence j r s).link.mismatches = s.link.mismatches ∧
    (takeSequence j r s).link.tx = s.link.tx ∧ (takeSequence j r s).link.offsets = s.link.offsets ∧
    (takeSequence j r s).link.acceptedInCycle = s.link.acceptedInCycle ∧
    (takeSequence j r s).link.foreignInCycle = s.link.foreignInCycle ∧
    (takeSequence j r s).link.listenSince = s.link.listenSince ∧
    (takeSequence j r s).hold.keyCount = s.hold.keyCount ∧ (takeSequence j r s).hold.lockClear = s.hold.lockClear ∧
    (takeSequence j r s).hold.lockClearLeft = s.hold.lockClearLeft ∧ (takeSequence j r s).coord.run = s.coord.run ∧
    (takeSequence j r s).coord.journalActive = s.coord.journalActive ∧
    (takeSequence j r s).coord.start = s.coord.start ∧ (takeSequence j r s).coord.restart = s.coord.restart ∧
    (takeSequence j r s).coord.restartLeft = s.coord.restartLeft ∧
    (takeSequence j r s).coord.lastRunClaim = s.coord.lastRunClaim ∧ (takeSequence j r s).plan.steps = s.plan.steps ∧
    (takeSequence j r s).plan.isSealed = s.plan.isSealed ∧ (takeSequence j r s).plan.digest = s.plan.digest ∧
    (takeSequence j r s).store.scanDone = s.store.scanDone ∧ (takeSequence j r s).store.tail = s.store.tail ∧
    (takeSequence j r s).store.pointer = s.store.pointer ∧ (takeSequence j r s).store.finalOut = s.store.finalOut ∧
    (takeSequence j r s).store.dip = s.store.dip ∧
    (takeSequence j r s).store.retainedLockout = s.store.retainedLockout ∧
    (takeSequence j r s).port.config = s.port.config ∧ (takeSequence j r s).port.configDigest = s.port.configDigest ∧
    (takeSequence j r s).port.receiving = s.port.receiving ∧
    (takeSequence j r s).port.resetArmed = s.port.resetArmed ∧ (takeSequence j r s).port.response = s.port.response ∧
    (takeSequence j r s).cal.committed = s.cal.committed := by
  simp only [takeSequence]; (repeat' split) <;> simp

@[simp] theorem takeResume_keeps (r : StatusRecord) (s : State) :
    (takeResume r s).pending = s.pending ∧ (takeResume r s).now = s.now ∧ (takeResume r s).freeCount = s.freeCount ∧
    (takeResume r s).power = s.power ∧ (takeResume r s).standby = s.standby ∧ (takeResume r s).decoder = s.decoder ∧
    (takeResume r s).sensing = s.sensing ∧ (takeResume r s).peers = s.peers ∧ (takeResume r s).mem = s.mem ∧
    (takeResume r s).link.station = s.link.station ∧ (takeResume r s).link.state = s.link.state ∧
    (takeResume r s).link.timed = s.link.timed ∧ (takeResume r s).link.cycle = s.link.cycle ∧
    (takeResume r s).link.cycleStart = s.link.cycleStart ∧ (takeResume r s).link.muted = s.link.muted ∧
    (takeResume r s).link.mismatches = s.link.mismatches ∧ (takeResume r s).link.tx = s.link.tx ∧
    (takeResume r s).link.offsets = s.link.offsets ∧ (takeResume r s).link.acceptedInCycle = s.link.acceptedInCycle ∧
    (takeResume r s).link.foreignInCycle = s.link.foreignInCycle ∧
    (takeResume r s).link.listenSince = s.link.listenSince ∧ (takeResume r s).hold.seq = s.hold.seq ∧
    (takeResume r s).hold.keyCount = s.hold.keyCount ∧ (takeResume r s).hold.lockClear = s.hold.lockClear ∧
    (takeResume r s).hold.lockClearLeft = s.hold.lockClearLeft ∧ (takeResume r s).coord.run = s.coord.run ∧
    (takeResume r s).coord.journalActive = s.coord.journalActive ∧ (takeResume r s).coord.start = s.coord.start ∧
    (takeResume r s).coord.restart = s.coord.restart ∧ (takeResume r s).coord.restartLeft = s.coord.restartLeft ∧
    (takeResume r s).coord.lastRunClaim = s.coord.lastRunClaim ∧ (takeResume r s).plan.steps = s.plan.steps ∧
    (takeResume r s).plan.isSealed = s.plan.isSealed ∧ (takeResume r s).plan.digest = s.plan.digest ∧
    (takeResume r s).store.scanDone = s.store.scanDone ∧ (takeResume r s).store.tail = s.store.tail ∧
    (takeResume r s).store.pointer = s.store.pointer ∧ (takeResume r s).store.lastTag = s.store.lastTag ∧
    (takeResume r s).store.finalOut = s.store.finalOut ∧ (takeResume r s).store.dip = s.store.dip ∧
    (takeResume r s).store.retainedLockout = s.store.retainedLockout ∧ (takeResume r s).port.config = s.port.config ∧
    (takeResume r s).port.configDigest = s.port.configDigest ∧ (takeResume r s).port.receiving = s.port.receiving ∧
    (takeResume r s).port.resetArmed = s.port.resetArmed ∧ (takeResume r s).port.response = s.port.response ∧
    (takeResume r s).engine.operation = s.engine.operation ∧ (takeResume r s).cal.committed = s.cal.committed := by
  simp only [takeResume]; (repeat' split) <;> simp

@[simp] theorem takeLockClear_keeps (r : StatusRecord) (s : State) :
    (takeLockClear r s).pending = s.pending ∧ (takeLockClear r s).now = s.now ∧
    (takeLockClear r s).freeCount = s.freeCount ∧ (takeLockClear r s).power = s.power ∧
    (takeLockClear r s).standby = s.standby ∧ (takeLockClear r s).decoder = s.decoder ∧
    (takeLockClear r s).sensing = s.sensing ∧ (takeLockClear r s).peers = s.peers ∧ (takeLockClear r s).mem = s.mem ∧
    (takeLockClear r s).link.station = s.link.station ∧ (takeLockClear r s).link.state = s.link.state ∧
    (takeLockClear r s).link.timed = s.link.timed ∧ (takeLockClear r s).link.cycle = s.link.cycle ∧
    (takeLockClear r s).link.cycleStart = s.link.cycleStart ∧ (takeLockClear r s).link.muted = s.link.muted ∧
    (takeLockClear r s).link.mismatches = s.link.mismatches ∧ (takeLockClear r s).link.tx = s.link.tx ∧
    (takeLockClear r s).link.offsets = s.link.offsets ∧
    (takeLockClear r s).link.acceptedInCycle = s.link.acceptedInCycle ∧
    (takeLockClear r s).link.foreignInCycle = s.link.foreignInCycle ∧
    (takeLockClear r s).link.listenSince = s.link.listenSince ∧ (takeLockClear r s).hold.seq = s.hold.seq ∧
    (takeLockClear r s).hold.keyCount = s.hold.keyCount ∧ (takeLockClear r s).coord.run = s.coord.run ∧
    (takeLockClear r s).coord.journalActive = s.coord.journalActive ∧
    (takeLockClear r s).coord.start = s.coord.start ∧ (takeLockClear r s).coord.restart = s.coord.restart ∧
    (takeLockClear r s).coord.restartLeft = s.coord.restartLeft ∧
    (takeLockClear r s).coord.lastRunClaim = s.coord.lastRunClaim ∧ (takeLockClear r s).plan.steps = s.plan.steps ∧
    (takeLockClear r s).plan.isSealed = s.plan.isSealed ∧ (takeLockClear r s).plan.digest = s.plan.digest ∧
    (takeLockClear r s).store.scanDone = s.store.scanDone ∧ (takeLockClear r s).store.tail = s.store.tail ∧
    (takeLockClear r s).store.pointer = s.store.pointer ∧ (takeLockClear r s).store.lastTag = s.store.lastTag ∧
    (takeLockClear r s).store.finalOut = s.store.finalOut ∧ (takeLockClear r s).store.dip = s.store.dip ∧
    (takeLockClear r s).store.retainedLockout = s.store.retainedLockout ∧
    (takeLockClear r s).port.config = s.port.config ∧ (takeLockClear r s).port.configDigest = s.port.configDigest ∧
    (takeLockClear r s).port.receiving = s.port.receiving ∧ (takeLockClear r s).port.resetArmed = s.port.resetArmed ∧
    (takeLockClear r s).port.response = s.port.response ∧ (takeLockClear r s).engine.operation = s.engine.operation ∧
    (takeLockClear r s).cal.committed = s.cal.committed := by
  simp only [takeLockClear]; (repeat' split) <;> simp

@[simp] theorem takeRetained_keeps (j : Station) (r : StatusRecord) (s : State) :
    (takeRetained j r s).pending = s.pending ∧ (takeRetained j r s).now = s.now ∧
    (takeRetained j r s).freeCount = s.freeCount ∧ (takeRetained j r s).power = s.power ∧
    (takeRetained j r s).standby = s.standby ∧ (takeRetained j r s).decoder = s.decoder ∧
    (takeRetained j r s).sensing = s.sensing ∧ (takeRetained j r s).peers = s.peers ∧
    (takeRetained j r s).coord = s.coord ∧ (takeRetained j r s).mem = s.mem ∧
    (takeRetained j r s).link.station = s.link.station ∧ (takeRetained j r s).link.state = s.link.state ∧
    (takeRetained j r s).link.timed = s.link.timed ∧ (takeRetained j r s).link.cycle = s.link.cycle ∧
    (takeRetained j r s).link.cycleStart = s.link.cycleStart ∧ (takeRetained j r s).link.muted = s.link.muted ∧
    (takeRetained j r s).link.mismatches = s.link.mismatches ∧ (takeRetained j r s).link.tx = s.link.tx ∧
    (takeRetained j r s).link.offsets = s.link.offsets ∧
    (takeRetained j r s).link.acceptedInCycle = s.link.acceptedInCycle ∧
    (takeRetained j r s).link.foreignInCycle = s.link.foreignInCycle ∧
    (takeRetained j r s).link.listenSince = s.link.listenSince ∧
    (takeRetained j r s).hold.keyCount = s.hold.keyCount ∧ (takeRetained j r s).hold.lockClear = s.hold.lockClear ∧
    (takeRetained j r s).hold.lockClearLeft = s.hold.lockClearLeft ∧ (takeRetained j r s).plan.steps = s.plan.steps ∧
    (takeRetained j r s).plan.isSealed = s.plan.isSealed ∧ (takeRetained j r s).plan.digest = s.plan.digest ∧
    (takeRetained j r s).store.scanDone = s.store.scanDone ∧ (takeRetained j r s).store.tail = s.store.tail ∧
    (takeRetained j r s).store.pointer = s.store.pointer ∧ (takeRetained j r s).store.lastTag = s.store.lastTag ∧
    (takeRetained j r s).store.finalOut = s.store.finalOut ∧ (takeRetained j r s).store.dip = s.store.dip ∧
    (takeRetained j r s).store.retainedLockout = s.store.retainedLockout ∧
    (takeRetained j r s).port.config = s.port.config ∧ (takeRetained j r s).port.configDigest = s.port.configDigest ∧
    (takeRetained j r s).port.receiving = s.port.receiving ∧
    (takeRetained j r s).port.resetArmed = s.port.resetArmed ∧ (takeRetained j r s).port.response = s.port.response ∧
    (takeRetained j r s).cal.committed = s.cal.committed := by
  simp only [takeRetained]; (repeat' split) <;> simp

@[simp] theorem takeRestart_keeps (r : StatusRecord) (s : State) :
    (takeRestart r s).pending = s.pending ∧ (takeRestart r s).now = s.now ∧
    (takeRestart r s).freeCount = s.freeCount ∧ (takeRestart r s).power = s.power ∧
    (takeRestart r s).standby = s.standby ∧ (takeRestart r s).decoder = s.decoder ∧
    (takeRestart r s).sensing = s.sensing ∧ (takeRestart r s).peers = s.peers ∧ (takeRestart r s).mem = s.mem ∧
    (takeRestart r s).link.station = s.link.station ∧ (takeRestart r s).link.state = s.link.state ∧
    (takeRestart r s).link.timed = s.link.timed ∧ (takeRestart r s).link.cycle = s.link.cycle ∧
    (takeRestart r s).link.cycleStart = s.link.cycleStart ∧ (takeRestart r s).link.muted = s.link.muted ∧
    (takeRestart r s).link.mismatches = s.link.mismatches ∧ (takeRestart r s).link.tx = s.link.tx ∧
    (takeRestart r s).link.offsets = s.link.offsets ∧
    (takeRestart r s).link.acceptedInCycle = s.link.acceptedInCycle ∧
    (takeRestart r s).link.foreignInCycle = s.link.foreignInCycle ∧
    (takeRestart r s).link.listenSince = s.link.listenSince ∧ (takeRestart r s).hold.seq = s.hold.seq ∧
    (takeRestart r s).hold.keyCount = s.hold.keyCount ∧ (takeRestart r s).hold.lockClear = s.hold.lockClear ∧
    (takeRestart r s).hold.lockClearLeft = s.hold.lockClearLeft ∧ (takeRestart r s).coord.run = s.coord.run ∧
    (takeRestart r s).coord.journalActive = s.coord.journalActive ∧ (takeRestart r s).coord.start = s.coord.start ∧
    (takeRestart r s).plan.steps = s.plan.steps ∧ (takeRestart r s).plan.isSealed = s.plan.isSealed ∧
    (takeRestart r s).plan.digest = s.plan.digest ∧ (takeRestart r s).store.scanDone = s.store.scanDone ∧
    (takeRestart r s).store.port = s.store.port ∧ (takeRestart r s).store.tail = s.store.tail ∧
    (takeRestart r s).store.pointer = s.store.pointer ∧ (takeRestart r s).store.lastTag = s.store.lastTag ∧
    (takeRestart r s).store.finalOut = s.store.finalOut ∧ (takeRestart r s).store.dip = s.store.dip ∧
    (takeRestart r s).store.retainedLockout = s.store.retainedLockout ∧
    (takeRestart r s).port.config = s.port.config ∧ (takeRestart r s).port.configDigest = s.port.configDigest ∧
    (takeRestart r s).port.receiving = s.port.receiving ∧ (takeRestart r s).port.resetArmed = s.port.resetArmed ∧
    (takeRestart r s).port.response = s.port.response ∧ (takeRestart r s).engine.refState = s.engine.refState ∧
    (takeRestart r s).engine.operation = s.engine.operation ∧ (takeRestart r s).cal.committed = s.cal.committed ∧
    (takeRestart r s).cal.staged = s.cal.staged := by
  simp only [takeRestart]; (repeat' split) <;> simp

@[simp] theorem takeRestarted_keeps (j : Station) (r : StatusRecord) (s : State) :
    (takeRestarted j r s).pending = s.pending ∧ (takeRestarted j r s).now = s.now ∧
    (takeRestarted j r s).freeCount = s.freeCount ∧ (takeRestarted j r s).power = s.power ∧
    (takeRestarted j r s).standby = s.standby ∧ (takeRestarted j r s).decoder = s.decoder ∧
    (takeRestarted j r s).sensing = s.sensing ∧ (takeRestarted j r s).peers = s.peers ∧
    (takeRestarted j r s).mem = s.mem ∧ (takeRestarted j r s).link.station = s.link.station ∧
    (takeRestarted j r s).link.state = s.link.state ∧ (takeRestarted j r s).link.timed = s.link.timed ∧
    (takeRestarted j r s).link.cycle = s.link.cycle ∧ (takeRestarted j r s).link.cycleStart = s.link.cycleStart ∧
    (takeRestarted j r s).link.muted = s.link.muted ∧ (takeRestarted j r s).link.mismatches = s.link.mismatches ∧
    (takeRestarted j r s).link.tx = s.link.tx ∧ (takeRestarted j r s).link.offsets = s.link.offsets ∧
    (takeRestarted j r s).link.acceptedInCycle = s.link.acceptedInCycle ∧
    (takeRestarted j r s).link.foreignInCycle = s.link.foreignInCycle ∧
    (takeRestarted j r s).link.listenSince = s.link.listenSince ∧
    (takeRestarted j r s).hold.keyCount = s.hold.keyCount ∧ (takeRestarted j r s).hold.lockClear = s.hold.lockClear ∧
    (takeRestarted j r s).hold.lockClearLeft = s.hold.lockClearLeft ∧ (takeRestarted j r s).coord.run = s.coord.run ∧
    (takeRestarted j r s).coord.journalActive = s.coord.journalActive ∧
    (takeRestarted j r s).coord.start = s.coord.start ∧ (takeRestarted j r s).coord.restart = s.coord.restart ∧
    (takeRestarted j r s).coord.restartLeft = s.coord.restartLeft ∧
    (takeRestarted j r s).coord.lastRunClaim = s.coord.lastRunClaim ∧
    (takeRestarted j r s).plan.steps = s.plan.steps ∧ (takeRestarted j r s).plan.isSealed = s.plan.isSealed ∧
    (takeRestarted j r s).plan.digest = s.plan.digest ∧ (takeRestarted j r s).store.scanDone = s.store.scanDone ∧
    (takeRestarted j r s).store.tail = s.store.tail ∧ (takeRestarted j r s).store.pointer = s.store.pointer ∧
    (takeRestarted j r s).store.finalOut = s.store.finalOut ∧ (takeRestarted j r s).store.dip = s.store.dip ∧
    (takeRestarted j r s).store.retainedLockout = s.store.retainedLockout ∧
    (takeRestarted j r s).port.config = s.port.config ∧
    (takeRestarted j r s).port.configDigest = s.port.configDigest ∧
    (takeRestarted j r s).port.receiving = s.port.receiving ∧
    (takeRestarted j r s).port.resetArmed = s.port.resetArmed ∧
    (takeRestarted j r s).port.response = s.port.response ∧ (takeRestarted j r s).cal.committed = s.cal.committed := by
  simp only [takeRestarted]; (repeat' split) <;> simp

@[simp] theorem acceptRecord_keeps (j : Station) (r : StatusRecord) (s : State) :
    (acceptRecord j r s).pending = s.pending ∧ (acceptRecord j r s).now = s.now ∧
    (acceptRecord j r s).freeCount = s.freeCount ∧ (acceptRecord j r s).power = s.power ∧
    (acceptRecord j r s).standby = s.standby ∧ (acceptRecord j r s).decoder = s.decoder ∧
    (acceptRecord j r s).sensing = s.sensing ∧ (acceptRecord j r s).mem = s.mem ∧
    (acceptRecord j r s).link.station = s.link.station ∧ (acceptRecord j r s).link.state = s.link.state ∧
    (acceptRecord j r s).link.timed = s.link.timed ∧ (acceptRecord j r s).link.cycle = s.link.cycle ∧
    (acceptRecord j r s).link.cycleStart = s.link.cycleStart ∧ (acceptRecord j r s).link.muted = s.link.muted ∧
    (acceptRecord j r s).link.mismatches = s.link.mismatches ∧ (acceptRecord j r s).link.tx = s.link.tx ∧
    (acceptRecord j r s).link.offsets = s.link.offsets ∧
    (acceptRecord j r s).link.foreignInCycle = s.link.foreignInCycle ∧
    (acceptRecord j r s).link.listenSince = s.link.listenSince ∧
    (acceptRecord j r s).hold.keyCount = s.hold.keyCount ∧ (acceptRecord j r s).coord.run = s.coord.run ∧
    (acceptRecord j r s).coord.journalActive = s.coord.journalActive ∧
    (acceptRecord j r s).coord.start = s.coord.start ∧ (acceptRecord j r s).plan.steps = s.plan.steps ∧
    (acceptRecord j r s).plan.isSealed = s.plan.isSealed ∧ (acceptRecord j r s).plan.digest = s.plan.digest ∧
    (acceptRecord j r s).store.scanDone = s.store.scanDone ∧ (acceptRecord j r s).store.tail = s.store.tail ∧
    (acceptRecord j r s).store.pointer = s.store.pointer ∧ (acceptRecord j r s).store.finalOut = s.store.finalOut ∧
    (acceptRecord j r s).store.dip = s.store.dip ∧
    (acceptRecord j r s).store.retainedLockout = s.store.retainedLockout ∧
    (acceptRecord j r s).port.config = s.port.config ∧ (acceptRecord j r s).port.configDigest = s.port.configDigest ∧
    (acceptRecord j r s).port.receiving = s.port.receiving ∧
    (acceptRecord j r s).port.resetArmed = s.port.resetArmed ∧ (acceptRecord j r s).port.response = s.port.response ∧
    (acceptRecord j r s).cal.committed = s.cal.committed := by
  simp [acceptRecord]

@[simp] theorem raisePeerLost_keeps (j : Station) (e : PeerEntry) (s : State) :
    (raisePeerLost j e s).pending = s.pending ∧ (raisePeerLost j e s).now = s.now ∧
    (raisePeerLost j e s).freeCount = s.freeCount ∧ (raisePeerLost j e s).power = s.power ∧
    (raisePeerLost j e s).standby = s.standby ∧ (raisePeerLost j e s).decoder = s.decoder ∧
    (raisePeerLost j e s).sensing = s.sensing ∧ (raisePeerLost j e s).peers = s.peers ∧
    (raisePeerLost j e s).mem = s.mem ∧ (raisePeerLost j e s).link.station = s.link.station ∧
    (raisePeerLost j e s).link.state = s.link.state ∧ (raisePeerLost j e s).link.timed = s.link.timed ∧
    (raisePeerLost j e s).link.cycle = s.link.cycle ∧ (raisePeerLost j e s).link.cycleStart = s.link.cycleStart ∧
    (raisePeerLost j e s).link.muted = s.link.muted ∧ (raisePeerLost j e s).link.mismatches = s.link.mismatches ∧
    (raisePeerLost j e s).link.tx = s.link.tx ∧ (raisePeerLost j e s).link.offsets = s.link.offsets ∧
    (raisePeerLost j e s).link.acceptedInCycle = s.link.acceptedInCycle ∧
    (raisePeerLost j e s).link.foreignInCycle = s.link.foreignInCycle ∧
    (raisePeerLost j e s).link.listenSince = s.link.listenSince ∧
    (raisePeerLost j e s).hold.keyCount = s.hold.keyCount ∧ (raisePeerLost j e s).hold.lockClear = s.hold.lockClear ∧
    (raisePeerLost j e s).hold.lockClearLeft = s.hold.lockClearLeft ∧ (raisePeerLost j e s).coord.run = s.coord.run ∧
    (raisePeerLost j e s).coord.journalActive = s.coord.journalActive ∧
    (raisePeerLost j e s).coord.start = s.coord.start ∧ (raisePeerLost j e s).coord.restart = s.coord.restart ∧
    (raisePeerLost j e s).coord.restartLeft = s.coord.restartLeft ∧
    (raisePeerLost j e s).coord.lastRunClaim = s.coord.lastRunClaim ∧
    (raisePeerLost j e s).plan.steps = s.plan.steps ∧ (raisePeerLost j e s).plan.isSealed = s.plan.isSealed ∧
    (raisePeerLost j e s).plan.digest = s.plan.digest ∧ (raisePeerLost j e s).store.scanDone = s.store.scanDone ∧
    (raisePeerLost j e s).store.tail = s.store.tail ∧ (raisePeerLost j e s).store.pointer = s.store.pointer ∧
    (raisePeerLost j e s).store.finalOut = s.store.finalOut ∧ (raisePeerLost j e s).store.dip = s.store.dip ∧
    (raisePeerLost j e s).store.retainedLockout = s.store.retainedLockout ∧
    (raisePeerLost j e s).port.config = s.port.config ∧
    (raisePeerLost j e s).port.configDigest = s.port.configDigest ∧
    (raisePeerLost j e s).port.receiving = s.port.receiving ∧
    (raisePeerLost j e s).port.resetArmed = s.port.resetArmed ∧
    (raisePeerLost j e s).port.response = s.port.response ∧ (raisePeerLost j e s).cal.committed = s.cal.committed := by
  simp only [raisePeerLost]; (repeat' split) <;> simp

@[simp] theorem peerLost_keeps (j : Station) (e : PeerEntry) (s : State) :
    (peerLost j e s).pending = s.pending ∧ (peerLost j e s).now = s.now ∧ (peerLost j e s).power = s.power ∧
    (peerLost j e s).standby = s.standby ∧ (peerLost j e s).decoder = s.decoder ∧
    (peerLost j e s).sensing = s.sensing ∧ (peerLost j e s).peers = s.peers ∧ (peerLost j e s).mem = s.mem ∧
    (peerLost j e s).link.station = s.link.station ∧ (peerLost j e s).link.state = s.link.state ∧
    (peerLost j e s).link.timed = s.link.timed ∧ (peerLost j e s).link.cycle = s.link.cycle ∧
    (peerLost j e s).link.cycleStart = s.link.cycleStart ∧ (peerLost j e s).link.muted = s.link.muted ∧
    (peerLost j e s).link.mismatches = s.link.mismatches ∧ (peerLost j e s).link.tx = s.link.tx ∧
    (peerLost j e s).link.offsets = s.link.offsets ∧ (peerLost j e s).link.acceptedInCycle = s.link.acceptedInCycle ∧
    (peerLost j e s).link.foreignInCycle = s.link.foreignInCycle ∧
    (peerLost j e s).link.listenSince = s.link.listenSince ∧ (peerLost j e s).hold.keyCount = s.hold.keyCount ∧
    (peerLost j e s).hold.lockClear = s.hold.lockClear ∧ (peerLost j e s).hold.lockClearLeft = s.hold.lockClearLeft ∧
    (peerLost j e s).coord.run = s.coord.run ∧ (peerLost j e s).coord.journalActive = s.coord.journalActive ∧
    (peerLost j e s).coord.start = s.coord.start ∧ (peerLost j e s).coord.restart = s.coord.restart ∧
    (peerLost j e s).coord.restartLeft = s.coord.restartLeft ∧
    (peerLost j e s).coord.lastRunClaim = s.coord.lastRunClaim ∧ (peerLost j e s).plan.steps = s.plan.steps ∧
    (peerLost j e s).plan.isSealed = s.plan.isSealed ∧ (peerLost j e s).plan.digest = s.plan.digest ∧
    (peerLost j e s).store.scanDone = s.store.scanDone ∧ (peerLost j e s).store.tail = s.store.tail ∧
    (peerLost j e s).store.pointer = s.store.pointer ∧ (peerLost j e s).store.finalOut = s.store.finalOut ∧
    (peerLost j e s).store.dip = s.store.dip ∧ (peerLost j e s).store.retainedLockout = s.store.retainedLockout ∧
    (peerLost j e s).port.config = s.port.config ∧ (peerLost j e s).port.configDigest = s.port.configDigest ∧
    (peerLost j e s).port.receiving = s.port.receiving ∧ (peerLost j e s).port.resetArmed = s.port.resetArmed ∧
    (peerLost j e s).port.response = s.port.response ∧ (peerLost j e s).cal.committed = s.cal.committed := by
  simp only [peerLost]; (repeat' split) <;> simp

@[simp] theorem agePeer_keeps (j : Station) (s : State) :
    (agePeer j s).pending = s.pending ∧ (agePeer j s).now = s.now ∧ (agePeer j s).power = s.power ∧
    (agePeer j s).standby = s.standby ∧ (agePeer j s).decoder = s.decoder ∧ (agePeer j s).sensing = s.sensing ∧
    (agePeer j s).mem = s.mem ∧ (agePeer j s).link.station = s.link.station ∧
    (agePeer j s).link.state = s.link.state ∧ (agePeer j s).link.timed = s.link.timed ∧
    (agePeer j s).link.cycle = s.link.cycle ∧ (agePeer j s).link.cycleStart = s.link.cycleStart ∧
    (agePeer j s).link.muted = s.link.muted ∧ (agePeer j s).link.mismatches = s.link.mismatches ∧
    (agePeer j s).link.tx = s.link.tx ∧ (agePeer j s).link.offsets = s.link.offsets ∧
    (agePeer j s).link.acceptedInCycle = s.link.acceptedInCycle ∧
    (agePeer j s).link.foreignInCycle = s.link.foreignInCycle ∧ (agePeer j s).link.listenSince = s.link.listenSince ∧
    (agePeer j s).hold.keyCount = s.hold.keyCount ∧ (agePeer j s).hold.lockClear = s.hold.lockClear ∧
    (agePeer j s).hold.lockClearLeft = s.hold.lockClearLeft ∧ (agePeer j s).coord.run = s.coord.run ∧
    (agePeer j s).coord.journalActive = s.coord.journalActive ∧ (agePeer j s).coord.start = s.coord.start ∧
    (agePeer j s).coord.restart = s.coord.restart ∧ (agePeer j s).coord.restartLeft = s.coord.restartLeft ∧
    (agePeer j s).coord.lastRunClaim = s.coord.lastRunClaim ∧ (agePeer j s).plan.steps = s.plan.steps ∧
    (agePeer j s).plan.isSealed = s.plan.isSealed ∧ (agePeer j s).plan.digest = s.plan.digest ∧
    (agePeer j s).store.scanDone = s.store.scanDone ∧ (agePeer j s).store.tail = s.store.tail ∧
    (agePeer j s).store.pointer = s.store.pointer ∧ (agePeer j s).store.finalOut = s.store.finalOut ∧
    (agePeer j s).store.dip = s.store.dip ∧ (agePeer j s).store.retainedLockout = s.store.retainedLockout ∧
    (agePeer j s).port.config = s.port.config ∧ (agePeer j s).port.configDigest = s.port.configDigest ∧
    (agePeer j s).port.receiving = s.port.receiving ∧ (agePeer j s).port.resetArmed = s.port.resetArmed ∧
    (agePeer j s).port.response = s.port.response ∧ (agePeer j s).cal.committed = s.cal.committed := by
  simp only [agePeer]; (repeat' split) <;> simp

theorem ageFold_keeps (l : List Station) (s t : State)
    (h : l.foldl (fun s j => if j = s.own then s else agePeer j s) s = t) :
    t.pending = s.pending ∧ t.now = s.now ∧ t.power = s.power ∧ t.standby = s.standby ∧ t.decoder = s.decoder ∧
    t.sensing = s.sensing ∧ t.mem = s.mem ∧ t.link.station = s.link.station ∧ t.link.state = s.link.state ∧
    t.link.timed = s.link.timed ∧ t.link.cycle = s.link.cycle ∧ t.link.cycleStart = s.link.cycleStart ∧
    t.link.muted = s.link.muted ∧ t.link.mismatches = s.link.mismatches ∧ t.link.tx = s.link.tx ∧
    t.link.offsets = s.link.offsets ∧ t.link.acceptedInCycle = s.link.acceptedInCycle ∧
    t.link.foreignInCycle = s.link.foreignInCycle ∧ t.link.listenSince = s.link.listenSince ∧
    t.hold.keyCount = s.hold.keyCount ∧ t.hold.lockClear = s.hold.lockClear ∧
    t.hold.lockClearLeft = s.hold.lockClearLeft ∧ t.coord.run = s.coord.run ∧
    t.coord.journalActive = s.coord.journalActive ∧ t.coord.start = s.coord.start ∧
    t.coord.restart = s.coord.restart ∧ t.coord.restartLeft = s.coord.restartLeft ∧
    t.coord.lastRunClaim = s.coord.lastRunClaim ∧ t.plan.steps = s.plan.steps ∧ t.plan.isSealed = s.plan.isSealed ∧
    t.plan.digest = s.plan.digest ∧ t.store.scanDone = s.store.scanDone ∧ t.store.tail = s.store.tail ∧
    t.store.pointer = s.store.pointer ∧ t.store.finalOut = s.store.finalOut ∧ t.store.dip = s.store.dip ∧
    t.store.retainedLockout = s.store.retainedLockout ∧ t.port.config = s.port.config ∧
    t.port.configDigest = s.port.configDigest ∧ t.port.receiving = s.port.receiving ∧
    t.port.resetArmed = s.port.resetArmed ∧ t.port.response = s.port.response ∧ t.cal.committed = s.cal.committed := by
  induction l generalizing s with
  | nil => simp only [List.foldl_nil] at h; subst h; simp
  | cons j l ih =>
    have k := ih _ h
    simp only at k
    split at k <;> simpa using k

@[simp] theorem ageAll_keeps (s : State) :
    (ageAll s).pending = s.pending ∧ (ageAll s).now = s.now ∧ (ageAll s).power = s.power ∧
    (ageAll s).standby = s.standby ∧ (ageAll s).decoder = s.decoder ∧ (ageAll s).sensing = s.sensing ∧
    (ageAll s).mem = s.mem ∧ (ageAll s).link.station = s.link.station ∧ (ageAll s).link.state = s.link.state ∧
    (ageAll s).link.timed = s.link.timed ∧ (ageAll s).link.cycle = s.link.cycle ∧
    (ageAll s).link.cycleStart = s.link.cycleStart ∧ (ageAll s).link.muted = s.link.muted ∧
    (ageAll s).link.mismatches = s.link.mismatches ∧ (ageAll s).link.tx = s.link.tx ∧
    (ageAll s).link.offsets = s.link.offsets ∧ (ageAll s).link.acceptedInCycle = s.link.acceptedInCycle ∧
    (ageAll s).link.foreignInCycle = s.link.foreignInCycle ∧ (ageAll s).link.listenSince = s.link.listenSince ∧
    (ageAll s).hold.keyCount = s.hold.keyCount ∧ (ageAll s).hold.lockClear = s.hold.lockClear ∧
    (ageAll s).hold.lockClearLeft = s.hold.lockClearLeft ∧ (ageAll s).coord.run = s.coord.run ∧
    (ageAll s).coord.journalActive = s.coord.journalActive ∧ (ageAll s).coord.start = s.coord.start ∧
    (ageAll s).coord.restart = s.coord.restart ∧ (ageAll s).coord.restartLeft = s.coord.restartLeft ∧
    (ageAll s).coord.lastRunClaim = s.coord.lastRunClaim ∧ (ageAll s).plan.steps = s.plan.steps ∧
    (ageAll s).plan.isSealed = s.plan.isSealed ∧ (ageAll s).plan.digest = s.plan.digest ∧
    (ageAll s).store.scanDone = s.store.scanDone ∧ (ageAll s).store.tail = s.store.tail ∧
    (ageAll s).store.pointer = s.store.pointer ∧ (ageAll s).store.finalOut = s.store.finalOut ∧
    (ageAll s).store.dip = s.store.dip ∧ (ageAll s).store.retainedLockout = s.store.retainedLockout ∧
    (ageAll s).port.config = s.port.config ∧ (ageAll s).port.configDigest = s.port.configDigest ∧
    (ageAll s).port.receiving = s.port.receiving ∧ (ageAll s).port.resetArmed = s.port.resetArmed ∧
    (ageAll s).port.response = s.port.response ∧ (ageAll s).cal.committed = s.cal.committed := by
  exact ageFold_keeps stations s _ rfl

@[simp] theorem enterListening_keeps (s : State) :
    (enterListening s).pending = s.pending ∧ (enterListening s).now = s.now ∧
    (enterListening s).freeCount = s.freeCount ∧ (enterListening s).power = s.power ∧
    (enterListening s).standby = s.standby ∧ (enterListening s).decoder = s.decoder ∧
    (enterListening s).sensing = s.sensing ∧ (enterListening s).engine = s.engine ∧
    (enterListening s).peers = s.peers ∧ (enterListening s).plan = s.plan ∧ (enterListening s).hold = s.hold ∧
    (enterListening s).gate = s.gate ∧ (enterListening s).cal = s.cal ∧ (enterListening s).store = s.store ∧
    (enterListening s).mem = s.mem ∧ (enterListening s).port = s.port ∧
    (enterListening s).link.station = s.link.station ∧ (enterListening s).link.cycle = s.link.cycle ∧
    (enterListening s).link.cycleStart = s.link.cycleStart ∧ (enterListening s).link.muted = s.link.muted ∧
    (enterListening s).link.mismatches = s.link.mismatches ∧ (enterListening s).coord.phase = s.coord.phase ∧
    (enterListening s).coord.run = s.coord.run ∧ (enterListening s).coord.journalActive = s.coord.journalActive ∧
    (enterListening s).coord.start = s.coord.start ∧ (enterListening s).coord.restart = s.coord.restart ∧
    (enterListening s).coord.restartLeft = s.coord.restartLeft ∧
    (enterListening s).coord.lastRunClaim = s.coord.lastRunClaim := by
  simp [enterListening]

@[simp] theorem raiseLinkAlone_keeps (detail : Int) (s : State) :
    (raiseLinkAlone detail s).pending = s.pending ∧ (raiseLinkAlone detail s).now = s.now ∧
    (raiseLinkAlone detail s).freeCount = s.freeCount ∧ (raiseLinkAlone detail s).power = s.power ∧
    (raiseLinkAlone detail s).standby = s.standby ∧ (raiseLinkAlone detail s).decoder = s.decoder ∧
    (raiseLinkAlone detail s).sensing = s.sensing ∧ (raiseLinkAlone detail s).peers = s.peers ∧
    (raiseLinkAlone detail s).mem = s.mem ∧ (raiseLinkAlone detail s).link.station = s.link.station ∧
    (raiseLinkAlone detail s).link.state = s.link.state ∧ (raiseLinkAlone detail s).link.timed = s.link.timed ∧
    (raiseLinkAlone detail s).link.cycle = s.link.cycle ∧
    (raiseLinkAlone detail s).link.cycleStart = s.link.cycleStart ∧
    (raiseLinkAlone detail s).link.muted = s.link.muted ∧
    (raiseLinkAlone detail s).link.mismatches = s.link.mismatches ∧ (raiseLinkAlone detail s).link.tx = s.link.tx ∧
    (raiseLinkAlone detail s).link.offsets = s.link.offsets ∧
    (raiseLinkAlone detail s).link.acceptedInCycle = s.link.acceptedInCycle ∧
    (raiseLinkAlone detail s).link.foreignInCycle = s.link.foreignInCycle ∧
    (raiseLinkAlone detail s).link.listenSince = s.link.listenSince ∧
    (raiseLinkAlone detail s).hold.keyCount = s.hold.keyCount ∧
    (raiseLinkAlone detail s).hold.lockClear = s.hold.lockClear ∧
    (raiseLinkAlone detail s).hold.lockClearLeft = s.hold.lockClearLeft ∧
    (raiseLinkAlone detail s).coord.run = s.coord.run ∧
    (raiseLinkAlone detail s).coord.journalActive = s.coord.journalActive ∧
    (raiseLinkAlone detail s).coord.start = s.coord.start ∧
    (raiseLinkAlone detail s).coord.restart = s.coord.restart ∧
    (raiseLinkAlone detail s).coord.restartLeft = s.coord.restartLeft ∧
    (raiseLinkAlone detail s).coord.lastRunClaim = s.coord.lastRunClaim ∧
    (raiseLinkAlone detail s).plan.steps = s.plan.steps ∧ (raiseLinkAlone detail s).plan.isSealed = s.plan.isSealed ∧
    (raiseLinkAlone detail s).plan.digest = s.plan.digest ∧
    (raiseLinkAlone detail s).store.scanDone = s.store.scanDone ∧
    (raiseLinkAlone detail s).store.tail = s.store.tail ∧ (raiseLinkAlone detail s).store.pointer = s.store.pointer ∧
    (raiseLinkAlone detail s).store.finalOut = s.store.finalOut ∧ (raiseLinkAlone detail s).store.dip = s.store.dip ∧
    (raiseLinkAlone detail s).store.retainedLockout = s.store.retainedLockout ∧
    (raiseLinkAlone detail s).port.config = s.port.config ∧
    (raiseLinkAlone detail s).port.configDigest = s.port.configDigest ∧
    (raiseLinkAlone detail s).port.receiving = s.port.receiving ∧
    (raiseLinkAlone detail s).port.resetArmed = s.port.resetArmed ∧
    (raiseLinkAlone detail s).port.response = s.port.response ∧
    (raiseLinkAlone detail s).cal.committed = s.cal.committed := by
  simp only [raiseLinkAlone]; (repeat' split) <;> simp

@[simp] theorem adoptFrame_keeps (j : Station) (r : StatusRecord) (start : Rat) (s : State) :
    (adoptFrame j r start s).pending = s.pending ∧ (adoptFrame j r start s).now = s.now ∧
    (adoptFrame j r start s).power = s.power ∧ (adoptFrame j r start s).standby = s.standby ∧
    (adoptFrame j r start s).decoder = s.decoder ∧ (adoptFrame j r start s).sensing = s.sensing ∧
    (adoptFrame j r start s).mem = s.mem ∧ (adoptFrame j r start s).link.station = s.link.station ∧
    (adoptFrame j r start s).link.muted = s.link.muted ∧
    (adoptFrame j r start s).link.mismatches = s.link.mismatches ∧ (adoptFrame j r start s).link.tx = s.link.tx ∧
    (adoptFrame j r start s).link.listenSince = s.link.listenSince ∧
    (adoptFrame j r start s).hold.keyCount = s.hold.keyCount ∧ (adoptFrame j r start s).coord.run = s.coord.run ∧
    (adoptFrame j r start s).coord.journalActive = s.coord.journalActive ∧
    (adoptFrame j r start s).coord.start = s.coord.start ∧ (adoptFrame j r start s).plan.steps = s.plan.steps ∧
    (adoptFrame j r start s).plan.isSealed = s.plan.isSealed ∧ (adoptFrame j r start s).plan.digest = s.plan.digest ∧
    (adoptFrame j r start s).store.scanDone = s.store.scanDone ∧ (adoptFrame j r start s).store.tail = s.store.tail ∧
    (adoptFrame j r start s).store.pointer = s.store.pointer ∧
    (adoptFrame j r start s).store.finalOut = s.store.finalOut ∧ (adoptFrame j r start s).store.dip = s.store.dip ∧
    (adoptFrame j r start s).store.retainedLockout = s.store.retainedLockout ∧
    (adoptFrame j r start s).port.config = s.port.config ∧
    (adoptFrame j r start s).port.configDigest = s.port.configDigest ∧
    (adoptFrame j r start s).port.receiving = s.port.receiving ∧
    (adoptFrame j r start s).port.resetArmed = s.port.resetArmed ∧
    (adoptFrame j r start s).port.response = s.port.response ∧
    (adoptFrame j r start s).cal.committed = s.cal.committed := by
  simp only [adoptFrame]; (repeat' split) <;> simp

@[simp] theorem reportStranger_keeps (j : Station) (s : State) :
    (reportStranger j s).pending = s.pending ∧ (reportStranger j s).now = s.now ∧
    (reportStranger j s).freeCount = s.freeCount ∧ (reportStranger j s).power = s.power ∧
    (reportStranger j s).standby = s.standby ∧ (reportStranger j s).decoder = s.decoder ∧
    (reportStranger j s).sensing = s.sensing ∧ (reportStranger j s).peers = s.peers ∧
    (reportStranger j s).mem = s.mem ∧ (reportStranger j s).link.station = s.link.station ∧
    (reportStranger j s).link.state = s.link.state ∧ (reportStranger j s).link.timed = s.link.timed ∧
    (reportStranger j s).link.cycle = s.link.cycle ∧ (reportStranger j s).link.cycleStart = s.link.cycleStart ∧
    (reportStranger j s).link.muted = s.link.muted ∧ (reportStranger j s).link.mismatches = s.link.mismatches ∧
    (reportStranger j s).link.tx = s.link.tx ∧ (reportStranger j s).link.offsets = s.link.offsets ∧
    (reportStranger j s).link.acceptedInCycle = s.link.acceptedInCycle ∧
    (reportStranger j s).link.foreignInCycle = s.link.foreignInCycle ∧
    (reportStranger j s).link.listenSince = s.link.listenSince ∧
    (reportStranger j s).hold.keyCount = s.hold.keyCount ∧ (reportStranger j s).hold.lockClear = s.hold.lockClear ∧
    (reportStranger j s).hold.lockClearLeft = s.hold.lockClearLeft ∧ (reportStranger j s).coord.run = s.coord.run ∧
    (reportStranger j s).coord.journalActive = s.coord.journalActive ∧
    (reportStranger j s).coord.start = s.coord.start ∧ (reportStranger j s).coord.restart = s.coord.restart ∧
    (reportStranger j s).coord.restartLeft = s.coord.restartLeft ∧
    (reportStranger j s).coord.lastRunClaim = s.coord.lastRunClaim ∧ (reportStranger j s).plan.steps = s.plan.steps ∧
    (reportStranger j s).plan.isSealed = s.plan.isSealed ∧ (reportStranger j s).plan.digest = s.plan.digest ∧
    (reportStranger j s).store.scanDone = s.store.scanDone ∧ (reportStranger j s).store.tail = s.store.tail ∧
    (reportStranger j s).store.pointer = s.store.pointer ∧ (reportStranger j s).store.finalOut = s.store.finalOut ∧
    (reportStranger j s).store.dip = s.store.dip ∧
    (reportStranger j s).store.retainedLockout = s.store.retainedLockout ∧
    (reportStranger j s).port.config = s.port.config ∧ (reportStranger j s).port.configDigest = s.port.configDigest ∧
    (reportStranger j s).port.receiving = s.port.receiving ∧
    (reportStranger j s).port.resetArmed = s.port.resetArmed ∧ (reportStranger j s).port.response = s.port.response ∧
    (reportStranger j s).cal.committed = s.cal.committed := by
  simp only [reportStranger]; (repeat' split) <;> simp

@[simp] theorem attributeFrame_keeps (j : Station) (r : StatusRecord) (start : Rat) (s : State) :
    (attributeFrame j r start s).pending = s.pending ∧ (attributeFrame j r start s).now = s.now ∧
    (attributeFrame j r start s).freeCount = s.freeCount ∧ (attributeFrame j r start s).power = s.power ∧
    (attributeFrame j r start s).standby = s.standby ∧ (attributeFrame j r start s).decoder = s.decoder ∧
    (attributeFrame j r start s).sensing = s.sensing ∧ (attributeFrame j r start s).mem = s.mem ∧
    (attributeFrame j r start s).link.station = s.link.station ∧
    (attributeFrame j r start s).link.cycle = s.link.cycle ∧
    (attributeFrame j r start s).link.cycleStart = s.link.cycleStart ∧
    (attributeFrame j r start s).link.muted = s.link.muted ∧
    (attributeFrame j r start s).link.mismatches = s.link.mismatches ∧
    (attributeFrame j r start s).hold.keyCount = s.hold.keyCount ∧
    (attributeFrame j r start s).coord.run = s.coord.run ∧
    (attributeFrame j r start s).coord.journalActive = s.coord.journalActive ∧
    (attributeFrame j r start s).coord.start = s.coord.start ∧
    (attributeFrame j r start s).plan.steps = s.plan.steps ∧
    (attributeFrame j r start s).plan.isSealed = s.plan.isSealed ∧
    (attributeFrame j r start s).plan.digest = s.plan.digest ∧
    (attributeFrame j r start s).store.scanDone = s.store.scanDone ∧
    (attributeFrame j r start s).store.tail = s.store.tail ∧
    (attributeFrame j r start s).store.pointer = s.store.pointer ∧
    (attributeFrame j r start s).store.finalOut = s.store.finalOut ∧
    (attributeFrame j r start s).store.dip = s.store.dip ∧
    (attributeFrame j r start s).store.retainedLockout = s.store.retainedLockout ∧
    (attributeFrame j r start s).port.config = s.port.config ∧
    (attributeFrame j r start s).port.configDigest = s.port.configDigest ∧
    (attributeFrame j r start s).port.receiving = s.port.receiving ∧
    (attributeFrame j r start s).port.resetArmed = s.port.resetArmed ∧
    (attributeFrame j r start s).port.response = s.port.response ∧
    (attributeFrame j r start s).cal.committed = s.cal.committed := by
  simp only [attributeFrame]; (repeat' split) <;> simp

@[simp] theorem examineFrame_keeps (r : StatusRecord) (start : Rat) (s : State) :
    (examineFrame r start s).pending = s.pending ∧ (examineFrame r start s).now = s.now ∧
    (examineFrame r start s).power = s.power ∧ (examineFrame r start s).standby = s.standby ∧
    (examineFrame r start s).decoder = s.decoder ∧ (examineFrame r start s).sensing = s.sensing ∧
    (examineFrame r start s).mem = s.mem ∧ (examineFrame r start s).link.station = s.link.station ∧
    (examineFrame r start s).link.muted = s.link.muted ∧
    (examineFrame r start s).link.mismatches = s.link.mismatches ∧
    (examineFrame r start s).hold.keyCount = s.hold.keyCount ∧ (examineFrame r start s).coord.run = s.coord.run ∧
    (examineFrame r start s).coord.journalActive = s.coord.journalActive ∧
    (examineFrame r start s).coord.start = s.coord.start ∧ (examineFrame r start s).plan.steps = s.plan.steps ∧
    (examineFrame r start s).plan.isSealed = s.plan.isSealed ∧ (examineFrame r start s).plan.digest = s.plan.digest ∧
    (examineFrame r start s).store.scanDone = s.store.scanDone ∧ (examineFrame r start s).store.tail = s.store.tail ∧
    (examineFrame r start s).store.pointer = s.store.pointer ∧
    (examineFrame r start s).store.finalOut = s.store.finalOut ∧ (examineFrame r start s).store.dip = s.store.dip ∧
    (examineFrame r start s).store.retainedLockout = s.store.retainedLockout ∧
    (examineFrame r start s).port.config = s.port.config ∧
    (examineFrame r start s).port.configDigest = s.port.configDigest ∧
    (examineFrame r start s).port.receiving = s.port.receiving ∧
    (examineFrame r start s).port.resetArmed = s.port.resetArmed ∧
    (examineFrame r start s).port.response = s.port.response ∧
    (examineFrame r start s).cal.committed = s.cal.committed := by
  simp only [examineFrame]; (repeat' split) <;> simp

@[simp] theorem cycleEnd_keeps (s : State) :
    (cycleEnd s).pending = s.pending ∧ (cycleEnd s).now = s.now ∧ (cycleEnd s).freeCount = s.freeCount ∧
    (cycleEnd s).power = s.power ∧ (cycleEnd s).standby = s.standby ∧ (cycleEnd s).decoder = s.decoder ∧
    (cycleEnd s).sensing = s.sensing ∧ (cycleEnd s).peers = s.peers ∧ (cycleEnd s).mem = s.mem ∧
    (cycleEnd s).link.station = s.link.station ∧ (cycleEnd s).link.cycle = s.link.cycle ∧
    (cycleEnd s).link.cycleStart = s.link.cycleStart ∧ (cycleEnd s).link.muted = s.link.muted ∧
    (cycleEnd s).link.mismatches = s.link.mismatches ∧ (cycleEnd s).hold.keyCount = s.hold.keyCount ∧
    (cycleEnd s).hold.lockClear = s.hold.lockClear ∧ (cycleEnd s).hold.lockClearLeft = s.hold.lockClearLeft ∧
    (cycleEnd s).coord.run = s.coord.run ∧ (cycleEnd s).coord.journalActive = s.coord.journalActive ∧
    (cycleEnd s).coord.start = s.coord.start ∧ (cycleEnd s).coord.restart = s.coord.restart ∧
    (cycleEnd s).coord.restartLeft = s.coord.restartLeft ∧ (cycleEnd s).coord.lastRunClaim = s.coord.lastRunClaim ∧
    (cycleEnd s).plan.steps = s.plan.steps ∧ (cycleEnd s).plan.isSealed = s.plan.isSealed ∧
    (cycleEnd s).plan.digest = s.plan.digest ∧ (cycleEnd s).store.scanDone = s.store.scanDone ∧
    (cycleEnd s).store.tail = s.store.tail ∧ (cycleEnd s).store.pointer = s.store.pointer ∧
    (cycleEnd s).store.finalOut = s.store.finalOut ∧ (cycleEnd s).store.dip = s.store.dip ∧
    (cycleEnd s).store.retainedLockout = s.store.retainedLockout ∧ (cycleEnd s).port.config = s.port.config ∧
    (cycleEnd s).port.configDigest = s.port.configDigest ∧ (cycleEnd s).port.receiving = s.port.receiving ∧
    (cycleEnd s).port.resetArmed = s.port.resetArmed ∧ (cycleEnd s).port.response = s.port.response ∧
    (cycleEnd s).cal.committed = s.cal.committed := by
  simp only [cycleEnd]; (repeat' split) <;> simp

@[simp] theorem startCycle_keeps (s : State) :
    (startCycle s).pending = s.pending ∧ (startCycle s).now = s.now ∧ (startCycle s).freeCount = s.freeCount ∧
    (startCycle s).power = s.power ∧ (startCycle s).standby = s.standby ∧ (startCycle s).decoder = s.decoder ∧
    (startCycle s).sensing = s.sensing ∧ (startCycle s).engine = s.engine ∧ (startCycle s).peers = s.peers ∧
    (startCycle s).coord = s.coord ∧ (startCycle s).plan = s.plan ∧ (startCycle s).hold = s.hold ∧
    (startCycle s).gate = s.gate ∧ (startCycle s).mem = s.mem ∧ (startCycle s).port = s.port ∧
    (startCycle s).link.station = s.link.station ∧ (startCycle s).link.state = s.link.state ∧
    (startCycle s).link.timed = s.link.timed ∧ (startCycle s).link.muted = s.link.muted ∧
    (startCycle s).link.mismatches = s.link.mismatches ∧ (startCycle s).link.tx = s.link.tx ∧
    (startCycle s).link.listenSince = s.link.listenSince ∧ (startCycle s).store.scanDone = s.store.scanDone ∧
    (startCycle s).store.tail = s.store.tail ∧ (startCycle s).store.pointer = s.store.pointer ∧
    (startCycle s).store.finalOut = s.store.finalOut ∧ (startCycle s).store.dip = s.store.dip ∧
    (startCycle s).store.retainedLockout = s.store.retainedLockout ∧ (startCycle s).cal.committed = s.cal.committed := by
  simp [startCycle]

@[simp] theorem completeGathering_keeps (s : State) :
    (completeGathering s).pending = s.pending ∧ (completeGathering s).now = s.now ∧
    (completeGathering s).freeCount = s.freeCount ∧ (completeGathering s).power = s.power ∧
    (completeGathering s).standby = s.standby ∧ (completeGathering s).decoder = s.decoder ∧
    (completeGathering s).sensing = s.sensing ∧ (completeGathering s).peers = s.peers ∧
    (completeGathering s).mem = s.mem ∧ (completeGathering s).link.station = s.link.station ∧
    (completeGathering s).link.state = s.link.state ∧ (completeGathering s).link.timed = s.link.timed ∧
    (completeGathering s).link.cycle = s.link.cycle ∧ (completeGathering s).link.cycleStart = s.link.cycleStart ∧
    (completeGathering s).link.muted = s.link.muted ∧ (completeGathering s).link.mismatches = s.link.mismatches ∧
    (completeGathering s).link.tx = s.link.tx ∧ (completeGathering s).link.offsets = s.link.offsets ∧
    (completeGathering s).link.acceptedInCycle = s.link.acceptedInCycle ∧
    (completeGathering s).link.foreignInCycle = s.link.foreignInCycle ∧
    (completeGathering s).link.listenSince = s.link.listenSince ∧
    (completeGathering s).hold.keyCount = s.hold.keyCount ∧ (completeGathering s).hold.lockClear = s.hold.lockClear ∧
    (completeGathering s).hold.lockClearLeft = s.hold.lockClearLeft ∧
    (completeGathering s).coord.journalActive = s.coord.journalActive ∧
    (completeGathering s).coord.start = s.coord.start ∧ (completeGathering s).coord.restart = s.coord.restart ∧
    (completeGathering s).coord.restartLeft = s.coord.restartLeft ∧
    (completeGathering s).coord.lastRunClaim = s.coord.lastRunClaim ∧
    (completeGathering s).plan.steps = s.plan.steps ∧ (completeGathering s).plan.isSealed = s.plan.isSealed ∧
    (completeGathering s).plan.digest = s.plan.digest ∧ (completeGathering s).store.scanDone = s.store.scanDone ∧
    (completeGathering s).store.tail = s.store.tail ∧ (completeGathering s).store.pointer = s.store.pointer ∧
    (completeGathering s).store.finalOut = s.store.finalOut ∧ (completeGathering s).store.dip = s.store.dip ∧
    (completeGathering s).store.retainedLockout = s.store.retainedLockout ∧
    (completeGathering s).port.config = s.port.config ∧
    (completeGathering s).port.configDigest = s.port.configDigest ∧
    (completeGathering s).port.receiving = s.port.receiving ∧
    (completeGathering s).port.resetArmed = s.port.resetArmed ∧
    (completeGathering s).port.response = s.port.response ∧ (completeGathering s).cal.committed = s.cal.committed := by
  simp only [completeGathering]; (repeat' split) <;> simp

@[simp] theorem countAgreement_keeps (ok : Bool) (s : State) :
    (countAgreement ok s).pending = s.pending ∧ (countAgreement ok s).now = s.now ∧
    (countAgreement ok s).freeCount = s.freeCount ∧ (countAgreement ok s).power = s.power ∧
    (countAgreement ok s).standby = s.standby ∧ (countAgreement ok s).decoder = s.decoder ∧
    (countAgreement ok s).sensing = s.sensing ∧ (countAgreement ok s).engine = s.engine ∧
    (countAgreement ok s).link = s.link ∧ (countAgreement ok s).peers = s.peers ∧
    (countAgreement ok s).plan = s.plan ∧ (countAgreement ok s).hold = s.hold ∧ (countAgreement ok s).gate = s.gate ∧
    (countAgreement ok s).cal = s.cal ∧ (countAgreement ok s).store = s.store ∧ (countAgreement ok s).mem = s.mem ∧
    (countAgreement ok s).port = s.port ∧ (countAgreement ok s).coord.phase = s.coord.phase ∧
    (countAgreement ok s).coord.run = s.coord.run ∧
    (countAgreement ok s).coord.journalActive = s.coord.journalActive ∧
    (countAgreement ok s).coord.start = s.coord.start ∧ (countAgreement ok s).coord.restart = s.coord.restart ∧
    (countAgreement ok s).coord.restartLeft = s.coord.restartLeft ∧
    (countAgreement ok s).coord.lastRunClaim = s.coord.lastRunClaim := by
  simp only [countAgreement]; (repeat' split) <;> simp

@[simp] theorem gatheringEvaluation_keeps (s : State) :
    (gatheringEvaluation s).pending = s.pending ∧ (gatheringEvaluation s).now = s.now ∧
    (gatheringEvaluation s).freeCount = s.freeCount ∧ (gatheringEvaluation s).power = s.power ∧
    (gatheringEvaluation s).standby = s.standby ∧ (gatheringEvaluation s).decoder = s.decoder ∧
    (gatheringEvaluation s).sensing = s.sensing ∧ (gatheringEvaluation s).peers = s.peers ∧
    (gatheringEvaluation s).mem = s.mem ∧ (gatheringEvaluation s).link.station = s.link.station ∧
    (gatheringEvaluation s).link.state = s.link.state ∧ (gatheringEvaluation s).link.timed = s.link.timed ∧
    (gatheringEvaluation s).link.cycle = s.link.cycle ∧ (gatheringEvaluation s).link.cycleStart = s.link.cycleStart ∧
    (gatheringEvaluation s).link.muted = s.link.muted ∧ (gatheringEvaluation s).link.mismatches = s.link.mismatches ∧
    (gatheringEvaluation s).link.tx = s.link.tx ∧ (gatheringEvaluation s).link.offsets = s.link.offsets ∧
    (gatheringEvaluation s).link.acceptedInCycle = s.link.acceptedInCycle ∧
    (gatheringEvaluation s).link.foreignInCycle = s.link.foreignInCycle ∧
    (gatheringEvaluation s).link.listenSince = s.link.listenSince ∧
    (gatheringEvaluation s).hold.keyCount = s.hold.keyCount ∧
    (gatheringEvaluation s).hold.lockClear = s.hold.lockClear ∧
    (gatheringEvaluation s).hold.lockClearLeft = s.hold.lockClearLeft ∧
    (gatheringEvaluation s).coord.journalActive = s.coord.journalActive ∧
    (gatheringEvaluation s).coord.start = s.coord.start ∧ (gatheringEvaluation s).coord.restart = s.coord.restart ∧
    (gatheringEvaluation s).coord.restartLeft = s.coord.restartLeft ∧
    (gatheringEvaluation s).coord.lastRunClaim = s.coord.lastRunClaim ∧
    (gatheringEvaluation s).plan.steps = s.plan.steps ∧ (gatheringEvaluation s).plan.isSealed = s.plan.isSealed ∧
    (gatheringEvaluation s).plan.digest = s.plan.digest ∧ (gatheringEvaluation s).store.scanDone = s.store.scanDone ∧
    (gatheringEvaluation s).store.tail = s.store.tail ∧ (gatheringEvaluation s).store.pointer = s.store.pointer ∧
    (gatheringEvaluation s).store.finalOut = s.store.finalOut ∧ (gatheringEvaluation s).store.dip = s.store.dip ∧
    (gatheringEvaluation s).store.retainedLockout = s.store.retainedLockout ∧
    (gatheringEvaluation s).port.config = s.port.config ∧
    (gatheringEvaluation s).port.configDigest = s.port.configDigest ∧
    (gatheringEvaluation s).port.receiving = s.port.receiving ∧
    (gatheringEvaluation s).port.resetArmed = s.port.resetArmed ∧
    (gatheringEvaluation s).port.response = s.port.response ∧ (gatheringEvaluation s).cal.committed = s.cal.committed := by
  simp only [gatheringEvaluation]; (repeat' split) <;> simp

@[simp] theorem completeRecovery_keeps (s : State) :
    (completeRecovery s).pending = s.pending ∧ (completeRecovery s).now = s.now ∧
    (completeRecovery s).freeCount = s.freeCount ∧ (completeRecovery s).power = s.power ∧
    (completeRecovery s).decoder = s.decoder ∧ (completeRecovery s).peers = s.peers ∧
    (completeRecovery s).store = s.store ∧ (completeRecovery s).mem = s.mem ∧
    (completeRecovery s).link.station = s.link.station ∧ (completeRecovery s).link.state = s.link.state ∧
    (completeRecovery s).link.timed = s.link.timed ∧ (completeRecovery s).link.cycle = s.link.cycle ∧
    (completeRecovery s).link.cycleStart = s.link.cycleStart ∧ (completeRecovery s).link.muted = s.link.muted ∧
    (completeRecovery s).link.mismatches = s.link.mismatches ∧ (completeRecovery s).link.tx = s.link.tx ∧
    (completeRecovery s).link.offsets = s.link.offsets ∧
    (completeRecovery s).link.acceptedInCycle = s.link.acceptedInCycle ∧
    (completeRecovery s).link.foreignInCycle = s.link.foreignInCycle ∧
    (completeRecovery s).link.listenSince = s.link.listenSince ∧ (completeRecovery s).hold.level = s.hold.level ∧
    (completeRecovery s).hold.complete = s.hold.complete ∧ (completeRecovery s).hold.seq = s.hold.seq ∧
    (completeRecovery s).hold.keyCount = s.hold.keyCount ∧ (completeRecovery s).hold.lockClear = s.hold.lockClear ∧
    (completeRecovery s).hold.lockClearLeft = s.hold.lockClearLeft ∧ (completeRecovery s).coord.run = s.coord.run ∧
    (completeRecovery s).coord.start = s.coord.start ∧ (completeRecovery s).coord.restart = s.coord.restart ∧
    (completeRecovery s).coord.restartLeft = s.coord.restartLeft ∧
    (completeRecovery s).coord.lastRunClaim = s.coord.lastRunClaim ∧ (completeRecovery s).plan.steps = s.plan.steps ∧
    (completeRecovery s).plan.isSealed = s.plan.isSealed ∧ (completeRecovery s).plan.digest = s.plan.digest ∧
    (completeRecovery s).port.config = s.port.config ∧ (completeRecovery s).port.configDigest = s.port.configDigest ∧
    (completeRecovery s).port.receiving = s.port.receiving ∧
    (completeRecovery s).port.resetArmed = s.port.resetArmed ∧ (completeRecovery s).port.response = s.port.response ∧
    (completeRecovery s).engine.order = s.engine.order ∧ (completeRecovery s).sensing.settling = s.sensing.settling ∧
    (completeRecovery s).sensing.accepted = s.sensing.accepted ∧
    (completeRecovery s).sensing.drvStill = s.sensing.drvStill ∧
    (completeRecovery s).sensing.brkFb = s.sensing.brkFb ∧ (completeRecovery s).sensing.pfail = s.sensing.pfail ∧
    (completeRecovery s).standby.supplyLoss = s.standby.supplyLoss ∧
    (completeRecovery s).standby.excursion = s.standby.excursion ∧
    (completeRecovery s).standby.alive = s.standby.alive ∧ (completeRecovery s).cal.committed = s.cal.committed ∧
    (completeRecovery s).cal.staged = s.cal.staged := by
  simp only [completeRecovery]; (repeat' split) <;> simp

@[simp] theorem recoveryEvaluation_keeps (s : State) :
    (recoveryEvaluation s).pending = s.pending ∧ (recoveryEvaluation s).now = s.now ∧
    (recoveryEvaluation s).freeCount = s.freeCount ∧ (recoveryEvaluation s).power = s.power ∧
    (recoveryEvaluation s).decoder = s.decoder ∧ (recoveryEvaluation s).peers = s.peers ∧
    (recoveryEvaluation s).store = s.store ∧ (recoveryEvaluation s).mem = s.mem ∧
    (recoveryEvaluation s).link.station = s.link.station ∧ (recoveryEvaluation s).link.state = s.link.state ∧
    (recoveryEvaluation s).link.timed = s.link.timed ∧ (recoveryEvaluation s).link.cycle = s.link.cycle ∧
    (recoveryEvaluation s).link.cycleStart = s.link.cycleStart ∧ (recoveryEvaluation s).link.muted = s.link.muted ∧
    (recoveryEvaluation s).link.mismatches = s.link.mismatches ∧ (recoveryEvaluation s).link.tx = s.link.tx ∧
    (recoveryEvaluation s).link.offsets = s.link.offsets ∧
    (recoveryEvaluation s).link.acceptedInCycle = s.link.acceptedInCycle ∧
    (recoveryEvaluation s).link.foreignInCycle = s.link.foreignInCycle ∧
    (recoveryEvaluation s).link.listenSince = s.link.listenSince ∧ (recoveryEvaluation s).hold.level = s.hold.level ∧
    (recoveryEvaluation s).hold.complete = s.hold.complete ∧ (recoveryEvaluation s).hold.seq = s.hold.seq ∧
    (recoveryEvaluation s).hold.keyCount = s.hold.keyCount ∧
    (recoveryEvaluation s).hold.lockClear = s.hold.lockClear ∧
    (recoveryEvaluation s).hold.lockClearLeft = s.hold.lockClearLeft ∧
    (recoveryEvaluation s).coord.run = s.coord.run ∧ (recoveryEvaluation s).coord.start = s.coord.start ∧
    (recoveryEvaluation s).coord.restart = s.coord.restart ∧
    (recoveryEvaluation s).coord.restartLeft = s.coord.restartLeft ∧
    (recoveryEvaluation s).coord.lastRunClaim = s.coord.lastRunClaim ∧
    (recoveryEvaluation s).plan.steps = s.plan.steps ∧ (recoveryEvaluation s).plan.isSealed = s.plan.isSealed ∧
    (recoveryEvaluation s).plan.digest = s.plan.digest ∧ (recoveryEvaluation s).port.config = s.port.config ∧
    (recoveryEvaluation s).port.configDigest = s.port.configDigest ∧
    (recoveryEvaluation s).port.receiving = s.port.receiving ∧
    (recoveryEvaluation s).port.resetArmed = s.port.resetArmed ∧
    (recoveryEvaluation s).port.response = s.port.response ∧ (recoveryEvaluation s).engine.order = s.engine.order ∧
    (recoveryEvaluation s).sensing.settling = s.sensing.settling ∧
    (recoveryEvaluation s).sensing.accepted = s.sensing.accepted ∧
    (recoveryEvaluation s).sensing.drvStill = s.sensing.drvStill ∧
    (recoveryEvaluation s).sensing.brkFb = s.sensing.brkFb ∧ (recoveryEvaluation s).sensing.pfail = s.sensing.pfail ∧
    (recoveryEvaluation s).standby.supplyLoss = s.standby.supplyLoss ∧
    (recoveryEvaluation s).standby.excursion = s.standby.excursion ∧
    (recoveryEvaluation s).standby.alive = s.standby.alive ∧ (recoveryEvaluation s).cal.committed = s.cal.committed ∧
    (recoveryEvaluation s).cal.staged = s.cal.staged := by
  simp only [recoveryEvaluation]; (repeat' split) <;> simp

@[simp] theorem slotEvaluation_keeps (s : State) :
    (slotEvaluation s).pending = s.pending ∧ (slotEvaluation s).now = s.now ∧
    (slotEvaluation s).freeCount = s.freeCount ∧ (slotEvaluation s).power = s.power ∧
    (slotEvaluation s).decoder = s.decoder ∧ (slotEvaluation s).peers = s.peers ∧ (slotEvaluation s).mem = s.mem ∧
    (slotEvaluation s).link.station = s.link.station ∧ (slotEvaluation s).link.state = s.link.state ∧
    (slotEvaluation s).link.timed = s.link.timed ∧ (slotEvaluation s).link.cycle = s.link.cycle ∧
    (slotEvaluation s).link.cycleStart = s.link.cycleStart ∧ (slotEvaluation s).link.muted = s.link.muted ∧
    (slotEvaluation s).link.mismatches = s.link.mismatches ∧ (slotEvaluation s).link.tx = s.link.tx ∧
    (slotEvaluation s).link.offsets = s.link.offsets ∧
    (slotEvaluation s).link.acceptedInCycle = s.link.acceptedInCycle ∧
    (slotEvaluation s).link.foreignInCycle = s.link.foreignInCycle ∧
    (slotEvaluation s).link.listenSince = s.link.listenSince ∧ (slotEvaluation s).hold.keyCount = s.hold.keyCount ∧
    (slotEvaluation s).hold.lockClear = s.hold.lockClear ∧
    (slotEvaluation s).hold.lockClearLeft = s.hold.lockClearLeft ∧ (slotEvaluation s).coord.start = s.coord.start ∧
    (slotEvaluation s).coord.restart = s.coord.restart ∧ (slotEvaluation s).coord.restartLeft = s.coord.restartLeft ∧
    (slotEvaluation s).coord.lastRunClaim = s.coord.lastRunClaim ∧ (slotEvaluation s).plan.steps = s.plan.steps ∧
    (slotEvaluation s).plan.isSealed = s.plan.isSealed ∧ (slotEvaluation s).plan.digest = s.plan.digest ∧
    (slotEvaluation s).store.scanDone = s.store.scanDone ∧ (slotEvaluation s).store.tail = s.store.tail ∧
    (slotEvaluation s).store.pointer = s.store.pointer ∧ (slotEvaluation s).store.finalOut = s.store.finalOut ∧
    (slotEvaluation s).store.dip = s.store.dip ∧ (slotEvaluation s).store.retainedLockout = s.store.retainedLockout ∧
    (slotEvaluation s).port.config = s.port.config ∧ (slotEvaluation s).port.configDigest = s.port.configDigest ∧
    (slotEvaluation s).port.receiving = s.port.receiving ∧ (slotEvaluation s).port.resetArmed = s.port.resetArmed ∧
    (slotEvaluation s).port.response = s.port.response ∧ (slotEvaluation s).sensing.settling = s.sensing.settling ∧
    (slotEvaluation s).sensing.accepted = s.sensing.accepted ∧
    (slotEvaluation s).sensing.drvStill = s.sensing.drvStill ∧ (slotEvaluation s).sensing.brkFb = s.sensing.brkFb ∧
    (slotEvaluation s).sensing.pfail = s.sensing.pfail ∧
    (slotEvaluation s).standby.supplyLoss = s.standby.supplyLoss ∧
    (slotEvaluation s).standby.excursion = s.standby.excursion ∧ (slotEvaluation s).standby.alive = s.standby.alive ∧
    (slotEvaluation s).cal.committed = s.cal.committed := by
  simp only [slotEvaluation]; (repeat' split) <;> simp

@[simp] theorem packAndRefresh_keeps (s : State) :
    (packAndRefresh s).pending = s.pending ∧ (packAndRefresh s).now = s.now ∧
    (packAndRefresh s).freeCount = s.freeCount ∧ (packAndRefresh s).power = s.power ∧
    (packAndRefresh s).standby = s.standby ∧ (packAndRefresh s).decoder = s.decoder ∧
    (packAndRefresh s).sensing = s.sensing ∧ (packAndRefresh s).engine = s.engine ∧
    (packAndRefresh s).plan = s.plan ∧ (packAndRefresh s).gate = s.gate ∧ (packAndRefresh s).mem = s.mem ∧
    (packAndRefresh s).link.station = s.link.station ∧ (packAndRefresh s).link.state = s.link.state ∧
    (packAndRefresh s).link.timed = s.link.timed ∧ (packAndRefresh s).link.cycle = s.link.cycle ∧
    (packAndRefresh s).link.cycleStart = s.link.cycleStart ∧ (packAndRefresh s).link.muted = s.link.muted ∧
    (packAndRefresh s).link.mismatches = s.link.mismatches ∧ (packAndRefresh s).link.tx = s.link.tx ∧
    (packAndRefresh s).link.offsets = s.link.offsets ∧
    (packAndRefresh s).link.acceptedInCycle = s.link.acceptedInCycle ∧
    (packAndRefresh s).link.foreignInCycle = s.link.foreignInCycle ∧
    (packAndRefresh s).link.listenSince = s.link.listenSince ∧ (packAndRefresh s).hold.level = s.hold.level ∧
    (packAndRefresh s).hold.seq = s.hold.seq ∧ (packAndRefresh s).hold.keyCount = s.hold.keyCount ∧
    (packAndRefresh s).coord.phase = s.coord.phase ∧ (packAndRefresh s).coord.run = s.coord.run ∧
    (packAndRefresh s).coord.journalActive = s.coord.journalActive ∧ (packAndRefresh s).coord.start = s.coord.start ∧
    (packAndRefresh s).coord.lastRunClaim = s.coord.lastRunClaim ∧
    (packAndRefresh s).store.scanDone = s.store.scanDone ∧ (packAndRefresh s).store.tail = s.store.tail ∧
    (packAndRefresh s).store.pointer = s.store.pointer ∧ (packAndRefresh s).store.finalOut = s.store.finalOut ∧
    (packAndRefresh s).store.dip = s.store.dip ∧ (packAndRefresh s).store.retainedLockout = s.store.retainedLockout ∧
    (packAndRefresh s).port.config = s.port.config ∧ (packAndRefresh s).port.configDigest = s.port.configDigest ∧
    (packAndRefresh s).port.receiving = s.port.receiving ∧ (packAndRefresh s).port.resetArmed = s.port.resetArmed ∧
    (packAndRefresh s).port.response = s.port.response ∧ (packAndRefresh s).cal.committed = s.cal.committed := by
  simp [packAndRefresh]

@[simp] theorem ownSlot_keeps (s : State) :
    (ownSlot s).pending = s.pending ∧ (ownSlot s).now = s.now ∧ (ownSlot s).freeCount = s.freeCount ∧
    (ownSlot s).power = s.power ∧ (ownSlot s).decoder = s.decoder ∧ (ownSlot s).mem = s.mem ∧
    (ownSlot s).link.station = s.link.station ∧ (ownSlot s).link.state = s.link.state ∧
    (ownSlot s).link.timed = s.link.timed ∧ (ownSlot s).link.cycle = s.link.cycle ∧
    (ownSlot s).link.cycleStart = s.link.cycleStart ∧ (ownSlot s).link.muted = s.link.muted ∧
    (ownSlot s).link.mismatches = s.link.mismatches ∧ (ownSlot s).link.offsets = s.link.offsets ∧
    (ownSlot s).link.acceptedInCycle = s.link.acceptedInCycle ∧
    (ownSlot s).link.foreignInCycle = s.link.foreignInCycle ∧ (ownSlot s).link.listenSince = s.link.listenSince ∧
    (ownSlot s).hold.keyCount = s.hold.keyCount ∧ (ownSlot s).coord.start = s.coord.start ∧
    (ownSlot s).coord.lastRunClaim = s.coord.lastRunClaim ∧ (ownSlot s).plan.steps = s.plan.steps ∧
    (ownSlot s).plan.isSealed = s.plan.isSealed ∧ (ownSlot s).plan.digest = s.plan.digest ∧
    (ownSlot s).store.scanDone = s.store.scanDone ∧ (ownSlot s).store.tail = s.store.tail ∧
    (ownSlot s).store.pointer = s.store.pointer ∧ (ownSlot s).store.finalOut = s.store.finalOut ∧
    (ownSlot s).store.dip = s.store.dip ∧ (ownSlot s).store.retainedLockout = s.store.retainedLockout ∧
    (ownSlot s).port.config = s.port.config ∧ (ownSlot s).port.configDigest = s.port.configDigest ∧
    (ownSlot s).port.receiving = s.port.receiving ∧ (ownSlot s).port.resetArmed = s.port.resetArmed ∧
    (ownSlot s).port.response = s.port.response ∧ (ownSlot s).sensing.settling = s.sensing.settling ∧
    (ownSlot s).sensing.accepted = s.sensing.accepted ∧ (ownSlot s).sensing.drvStill = s.sensing.drvStill ∧
    (ownSlot s).sensing.brkFb = s.sensing.brkFb ∧ (ownSlot s).sensing.pfail = s.sensing.pfail ∧
    (ownSlot s).standby.supplyLoss = s.standby.supplyLoss ∧ (ownSlot s).standby.excursion = s.standby.excursion ∧
    (ownSlot s).standby.alive = s.standby.alive ∧ (ownSlot s).cal.committed = s.cal.committed := by
  simp only [ownSlot]; (repeat' split) <;> simp

@[simp] theorem chooseCal_keeps (s : State) :
    (chooseCal s).pending = s.pending ∧ (chooseCal s).now = s.now ∧ (chooseCal s).freeCount = s.freeCount ∧
    (chooseCal s).power = s.power ∧ (chooseCal s).standby = s.standby ∧ (chooseCal s).decoder = s.decoder ∧
    (chooseCal s).sensing = s.sensing ∧ (chooseCal s).engine = s.engine ∧ (chooseCal s).link = s.link ∧
    (chooseCal s).peers = s.peers ∧ (chooseCal s).coord = s.coord ∧ (chooseCal s).plan = s.plan ∧
    (chooseCal s).hold = s.hold ∧ (chooseCal s).gate = s.gate ∧ (chooseCal s).store = s.store ∧
    (chooseCal s).mem = s.mem ∧ (chooseCal s).port = s.port := by
  simp only [chooseCal]; (repeat' split) <;> simp

@[simp] theorem takeValues_keeps (s : State) :
    (takeValues s).pending = s.pending ∧ (takeValues s).now = s.now ∧ (takeValues s).freeCount = s.freeCount ∧
    (takeValues s).power = s.power ∧ (takeValues s).standby = s.standby ∧ (takeValues s).decoder = s.decoder ∧
    (takeValues s).sensing = s.sensing ∧ (takeValues s).engine = s.engine ∧ (takeValues s).link = s.link ∧
    (takeValues s).peers = s.peers ∧ (takeValues s).coord = s.coord ∧ (takeValues s).plan = s.plan ∧
    (takeValues s).hold = s.hold ∧ (takeValues s).gate = s.gate ∧ (takeValues s).store = s.store ∧
    (takeValues s).mem = s.mem ∧ (takeValues s).port = s.port ∧ (takeValues s).cal.committed = s.cal.committed ∧
    (takeValues s).cal.staged = s.cal.staged := by
  simp [takeValues]

@[simp] theorem flipShift_keeps (s : State) :
    (flipShift s).pending = s.pending ∧ (flipShift s).now = s.now ∧ (flipShift s).freeCount = s.freeCount ∧
    (flipShift s).power = s.power ∧ (flipShift s).decoder = s.decoder ∧ (flipShift s).link = s.link ∧
    (flipShift s).peers = s.peers ∧ (flipShift s).coord = s.coord ∧ (flipShift s).plan = s.plan ∧
    (flipShift s).hold = s.hold ∧ (flipShift s).gate = s.gate ∧ (flipShift s).store = s.store ∧
    (flipShift s).mem = s.mem ∧ (flipShift s).port = s.port ∧ (flipShift s).engine.refState = s.engine.refState ∧
    (flipShift s).engine.order = s.engine.order ∧ (flipShift s).sensing.settling = s.sensing.settling ∧
    (flipShift s).sensing.accepted = s.sensing.accepted ∧ (flipShift s).sensing.drvStill = s.sensing.drvStill ∧
    (flipShift s).sensing.brkFb = s.sensing.brkFb ∧ (flipShift s).sensing.pfail = s.sensing.pfail ∧
    (flipShift s).standby.supplyLoss = s.standby.supplyLoss ∧ (flipShift s).standby.excursion = s.standby.excursion ∧
    (flipShift s).standby.alive = s.standby.alive ∧ (flipShift s).cal.committed = s.cal.committed ∧
    (flipShift s).cal.staged = s.cal.staged := by
  simp only [flipShift]
  cases h : shiftClaim (-(s.cal.committedTrim - s.cal.trim)) s with
  | none => simp
  | some x => have k := shiftClaim_keeps _ s x h; simp [k]

@[simp] theorem rechooseCal_keeps (s : State) :
    (rechooseCal s).pending = s.pending ∧ (rechooseCal s).now = s.now ∧ (rechooseCal s).freeCount = s.freeCount ∧
    (rechooseCal s).power = s.power ∧ (rechooseCal s).decoder = s.decoder ∧ (rechooseCal s).link = s.link ∧
    (rechooseCal s).peers = s.peers ∧ (rechooseCal s).coord = s.coord ∧ (rechooseCal s).plan = s.plan ∧
    (rechooseCal s).hold = s.hold ∧ (rechooseCal s).gate = s.gate ∧ (rechooseCal s).store = s.store ∧
    (rechooseCal s).mem = s.mem ∧ (rechooseCal s).port = s.port ∧
    (rechooseCal s).engine.refState = s.engine.refState ∧ (rechooseCal s).engine.order = s.engine.order ∧
    (rechooseCal s).sensing.settling = s.sensing.settling ∧ (rechooseCal s).sensing.accepted = s.sensing.accepted ∧
    (rechooseCal s).sensing.drvStill = s.sensing.drvStill ∧ (rechooseCal s).sensing.brkFb = s.sensing.brkFb ∧
    (rechooseCal s).sensing.pfail = s.sensing.pfail ∧ (rechooseCal s).standby.supplyLoss = s.standby.supplyLoss ∧
    (rechooseCal s).standby.excursion = s.standby.excursion ∧ (rechooseCal s).standby.alive = s.standby.alive := by
  simp only [rechooseCal]; (repeat' split) <;> simp

@[simp] theorem calWriteTests_keeps (s : State) :
    (calWriteTests s).pending = s.pending ∧ (calWriteTests s).now = s.now ∧
    (calWriteTests s).freeCount = s.freeCount ∧ (calWriteTests s).power = s.power ∧
    (calWriteTests s).standby = s.standby ∧ (calWriteTests s).decoder = s.decoder ∧
    (calWriteTests s).sensing = s.sensing ∧ (calWriteTests s).engine = s.engine ∧ (calWriteTests s).link = s.link ∧
    (calWriteTests s).peers = s.peers ∧ (calWriteTests s).coord = s.coord ∧ (calWriteTests s).plan = s.plan ∧
    (calWriteTests s).hold = s.hold ∧ (calWriteTests s).gate = s.gate ∧ (calWriteTests s).mem = s.mem ∧
    (calWriteTests s).port = s.port ∧ (calWriteTests s).store.scanDone = s.store.scanDone ∧
    (calWriteTests s).store.tail = s.store.tail ∧ (calWriteTests s).store.pointer = s.store.pointer ∧
    (calWriteTests s).store.lastTag = s.store.lastTag ∧ (calWriteTests s).store.finalOut = s.store.finalOut ∧
    (calWriteTests s).store.dip = s.store.dip ∧ (calWriteTests s).store.retainedLockout = s.store.retainedLockout ∧
    (calWriteTests s).cal.committed = s.cal.committed := by
  simp [calWriteTests]

@[simp] theorem idlePort_keeps (s : State) :
    (idlePort s).pending = s.pending ∧ (idlePort s).now = s.now ∧ (idlePort s).freeCount = s.freeCount ∧
    (idlePort s).power = s.power ∧ (idlePort s).standby = s.standby ∧ (idlePort s).decoder = s.decoder ∧
    (idlePort s).sensing = s.sensing ∧ (idlePort s).engine = s.engine ∧ (idlePort s).link = s.link ∧
    (idlePort s).peers = s.peers ∧ (idlePort s).coord = s.coord ∧ (idlePort s).plan = s.plan ∧
    (idlePort s).hold = s.hold ∧ (idlePort s).gate = s.gate ∧ (idlePort s).cal = s.cal ∧ (idlePort s).mem = s.mem ∧
    (idlePort s).port = s.port ∧ (idlePort s).store.scanDone = s.store.scanDone ∧
    (idlePort s).store.tail = s.store.tail ∧ (idlePort s).store.pointer = s.store.pointer ∧
    (idlePort s).store.lastTag = s.store.lastTag ∧ (idlePort s).store.finalOut = s.store.finalOut ∧
    (idlePort s).store.dip = s.store.dip ∧ (idlePort s).store.retainedLockout = s.store.retainedLockout := by
  simp [idlePort]

@[simp] theorem advancePointer_keeps (s : State) :
    (advancePointer s).pending = s.pending ∧ (advancePointer s).now = s.now ∧
    (advancePointer s).freeCount = s.freeCount ∧ (advancePointer s).power = s.power ∧
    (advancePointer s).standby = s.standby ∧ (advancePointer s).decoder = s.decoder ∧
    (advancePointer s).sensing = s.sensing ∧ (advancePointer s).engine = s.engine ∧
    (advancePointer s).link = s.link ∧ (advancePointer s).peers = s.peers ∧ (advancePointer s).coord = s.coord ∧
    (advancePointer s).plan = s.plan ∧ (advancePointer s).hold = s.hold ∧ (advancePointer s).gate = s.gate ∧
    (advancePointer s).cal = s.cal ∧ (advancePointer s).mem = s.mem ∧ (advancePointer s).port = s.port ∧
    (advancePointer s).store.scanDone = s.store.scanDone ∧ (advancePointer s).store.port = s.store.port ∧
    (advancePointer s).store.tail = s.store.tail ∧ (advancePointer s).store.lastTag = s.store.lastTag ∧
    (advancePointer s).store.finalOut = s.store.finalOut ∧ (advancePointer s).store.dip = s.store.dip ∧
    (advancePointer s).store.retainedLockout = s.store.retainedLockout := by
  simp [advancePointer]

@[simp] theorem takeTail_keeps (slot : Fin 96) (f : JournalFrame) (s : State) :
    (takeTail slot f s).pending = s.pending ∧ (takeTail slot f s).now = s.now ∧
    (takeTail slot f s).freeCount = s.freeCount ∧ (takeTail slot f s).power = s.power ∧
    (takeTail slot f s).standby = s.standby ∧ (takeTail slot f s).decoder = s.decoder ∧
    (takeTail slot f s).sensing = s.sensing ∧ (takeTail slot f s).engine = s.engine ∧
    (takeTail slot f s).link = s.link ∧ (takeTail slot f s).peers = s.peers ∧ (takeTail slot f s).coord = s.coord ∧
    (takeTail slot f s).plan = s.plan ∧ (takeTail slot f s).hold = s.hold ∧ (takeTail slot f s).gate = s.gate ∧
    (takeTail slot f s).cal = s.cal ∧ (takeTail slot f s).mem = s.mem ∧ (takeTail slot f s).port = s.port ∧
    (takeTail slot f s).store.scanDone = s.store.scanDone ∧ (takeTail slot f s).store.port = s.store.port ∧
    (takeTail slot f s).store.pointer = s.store.pointer ∧ (takeTail slot f s).store.lastTag = s.store.lastTag ∧
    (takeTail slot f s).store.finalOut = s.store.finalOut ∧ (takeTail slot f s).store.dip = s.store.dip ∧
    (takeTail slot f s).store.retainedLockout = s.store.retainedLockout := by
  simp [takeTail]

@[simp] theorem clearFinalOut_keeps (s : State) :
    (clearFinalOut s).pending = s.pending ∧ (clearFinalOut s).now = s.now ∧
    (clearFinalOut s).freeCount = s.freeCount ∧ (clearFinalOut s).power = s.power ∧
    (clearFinalOut s).standby = s.standby ∧ (clearFinalOut s).decoder = s.decoder ∧
    (clearFinalOut s).sensing = s.sensing ∧ (clearFinalOut s).engine = s.engine ∧ (clearFinalOut s).link = s.link ∧
    (clearFinalOut s).peers = s.peers ∧ (clearFinalOut s).coord = s.coord ∧ (clearFinalOut s).plan = s.plan ∧
    (clearFinalOut s).hold = s.hold ∧ (clearFinalOut s).gate = s.gate ∧ (clearFinalOut s).cal = s.cal ∧
    (clearFinalOut s).mem = s.mem ∧ (clearFinalOut s).port = s.port ∧
    (clearFinalOut s).store.scanDone = s.store.scanDone ∧ (clearFinalOut s).store.port = s.store.port ∧
    (clearFinalOut s).store.tail = s.store.tail ∧ (clearFinalOut s).store.pointer = s.store.pointer ∧
    (clearFinalOut s).store.lastTag = s.store.lastTag ∧ (clearFinalOut s).store.dip = s.store.dip ∧
    (clearFinalOut s).store.retainedLockout = s.store.retainedLockout := by
  simp [clearFinalOut]

@[simp] theorem orderlySealed_keeps (seq : BitVec 16) (s : State) :
    (orderlySealed seq s).pending = s.pending ∧ (orderlySealed seq s).now = s.now ∧
    (orderlySealed seq s).freeCount = s.freeCount ∧ (orderlySealed seq s).power = s.power ∧
    (orderlySealed seq s).standby = s.standby ∧ (orderlySealed seq s).decoder = s.decoder ∧
    (orderlySealed seq s).sensing = s.sensing ∧ (orderlySealed seq s).engine = s.engine ∧
    (orderlySealed seq s).link = s.link ∧ (orderlySealed seq s).peers = s.peers ∧
    (orderlySealed seq s).coord = s.coord ∧ (orderlySealed seq s).plan = s.plan ∧
    (orderlySealed seq s).hold = s.hold ∧ (orderlySealed seq s).gate = s.gate ∧ (orderlySealed seq s).cal = s.cal ∧
    (orderlySealed seq s).mem = s.mem ∧ (orderlySealed seq s).port = s.port ∧
    (orderlySealed seq s).store.scanDone = s.store.scanDone ∧ (orderlySealed seq s).store.port = s.store.port ∧
    (orderlySealed seq s).store.tail = s.store.tail ∧ (orderlySealed seq s).store.pointer = s.store.pointer ∧
    (orderlySealed seq s).store.lastTag = s.store.lastTag ∧ (orderlySealed seq s).store.finalOut = s.store.finalOut ∧
    (orderlySealed seq s).store.dip = s.store.dip ∧
    (orderlySealed seq s).store.retainedLockout = s.store.retainedLockout := by
  simp only [orderlySealed]; (repeat' split) <;> simp

@[simp] theorem stageSealed_keeps (s : State) :
    (stageSealed s).pending = s.pending ∧ (stageSealed s).now = s.now ∧ (stageSealed s).freeCount = s.freeCount ∧
    (stageSealed s).power = s.power ∧ (stageSealed s).decoder = s.decoder ∧ (stageSealed s).link = s.link ∧
    (stageSealed s).peers = s.peers ∧ (stageSealed s).coord = s.coord ∧ (stageSealed s).plan = s.plan ∧
    (stageSealed s).hold = s.hold ∧ (stageSealed s).gate = s.gate ∧ (stageSealed s).store = s.store ∧
    (stageSealed s).mem = s.mem ∧ (stageSealed s).port = s.port ∧
    (stageSealed s).engine.refState = s.engine.refState ∧ (stageSealed s).engine.order = s.engine.order ∧
    (stageSealed s).sensing.settling = s.sensing.settling ∧ (stageSealed s).sensing.accepted = s.sensing.accepted ∧
    (stageSealed s).sensing.drvStill = s.sensing.drvStill ∧ (stageSealed s).sensing.brkFb = s.sensing.brkFb ∧
    (stageSealed s).sensing.pfail = s.sensing.pfail ∧ (stageSealed s).standby.supplyLoss = s.standby.supplyLoss ∧
    (stageSealed s).standby.excursion = s.standby.excursion ∧ (stageSealed s).standby.alive = s.standby.alive := by
  simp [stageSealed]

@[simp] theorem surveyAtFlip_keeps (s : State) :
    (surveyAtFlip s).pending = s.pending ∧ (surveyAtFlip s).now = s.now ∧ (surveyAtFlip s).freeCount = s.freeCount ∧
    (surveyAtFlip s).power = s.power ∧ (surveyAtFlip s).standby = s.standby ∧ (surveyAtFlip s).decoder = s.decoder ∧
    (surveyAtFlip s).sensing = s.sensing ∧ (surveyAtFlip s).peers = s.peers ∧ (surveyAtFlip s).coord = s.coord ∧
    (surveyAtFlip s).store = s.store ∧ (surveyAtFlip s).mem = s.mem ∧
    (surveyAtFlip s).link.station = s.link.station ∧ (surveyAtFlip s).link.state = s.link.state ∧
    (surveyAtFlip s).link.timed = s.link.timed ∧ (surveyAtFlip s).link.cycle = s.link.cycle ∧
    (surveyAtFlip s).link.cycleStart = s.link.cycleStart ∧ (surveyAtFlip s).link.muted = s.link.muted ∧
    (surveyAtFlip s).link.mismatches = s.link.mismatches ∧ (surveyAtFlip s).link.tx = s.link.tx ∧
    (surveyAtFlip s).link.offsets = s.link.offsets ∧ (surveyAtFlip s).link.acceptedInCycle = s.link.acceptedInCycle ∧
    (surveyAtFlip s).link.foreignInCycle = s.link.foreignInCycle ∧
    (surveyAtFlip s).link.listenSince = s.link.listenSince ∧ (surveyAtFlip s).hold.level = s.hold.level ∧
    (surveyAtFlip s).hold.complete = s.hold.complete ∧ (surveyAtFlip s).hold.seq = s.hold.seq ∧
    (surveyAtFlip s).hold.keyCount = s.hold.keyCount ∧ (surveyAtFlip s).hold.lockClear = s.hold.lockClear ∧
    (surveyAtFlip s).hold.lockClearLeft = s.hold.lockClearLeft ∧ (surveyAtFlip s).plan.steps = s.plan.steps ∧
    (surveyAtFlip s).plan.isSealed = s.plan.isSealed ∧ (surveyAtFlip s).plan.digest = s.plan.digest ∧
    (surveyAtFlip s).plan.running = s.plan.running ∧ (surveyAtFlip s).port.config = s.port.config ∧
    (surveyAtFlip s).port.configDigest = s.port.configDigest ∧ (surveyAtFlip s).port.receiving = s.port.receiving ∧
    (surveyAtFlip s).port.resetArmed = s.port.resetArmed ∧ (surveyAtFlip s).port.response = s.port.response ∧
    (surveyAtFlip s).cal.committed = s.cal.committed ∧ (surveyAtFlip s).cal.staged = s.cal.staged := by
  simp only [surveyAtFlip]; (repeat' split) <;> simp

@[simp] theorem flipDone_keeps (s : State) :
    (flipDone s).pending = s.pending ∧ (flipDone s).now = s.now ∧ (flipDone s).freeCount = s.freeCount ∧
    (flipDone s).power = s.power ∧ (flipDone s).decoder = s.decoder ∧ (flipDone s).peers = s.peers ∧
    (flipDone s).coord = s.coord ∧ (flipDone s).store = s.store ∧ (flipDone s).mem = s.mem ∧
    (flipDone s).link.station = s.link.station ∧ (flipDone s).link.state = s.link.state ∧
    (flipDone s).link.timed = s.link.timed ∧ (flipDone s).link.cycle = s.link.cycle ∧
    (flipDone s).link.cycleStart = s.link.cycleStart ∧ (flipDone s).link.muted = s.link.muted ∧
    (flipDone s).link.mismatches = s.link.mismatches ∧ (flipDone s).link.tx = s.link.tx ∧
    (flipDone s).link.offsets = s.link.offsets ∧ (flipDone s).link.acceptedInCycle = s.link.acceptedInCycle ∧
    (flipDone s).link.foreignInCycle = s.link.foreignInCycle ∧ (flipDone s).link.listenSince = s.link.listenSince ∧
    (flipDone s).hold.level = s.hold.level ∧ (flipDone s).hold.complete = s.hold.complete ∧
    (flipDone s).hold.seq = s.hold.seq ∧ (flipDone s).hold.keyCount = s.hold.keyCount ∧
    (flipDone s).hold.lockClear = s.hold.lockClear ∧ (flipDone s).hold.lockClearLeft = s.hold.lockClearLeft ∧
    (flipDone s).plan.steps = s.plan.steps ∧ (flipDone s).plan.isSealed = s.plan.isSealed ∧
    (flipDone s).plan.digest = s.plan.digest ∧ (flipDone s).plan.running = s.plan.running ∧
    (flipDone s).port.config = s.port.config ∧ (flipDone s).port.configDigest = s.port.configDigest ∧
    (flipDone s).port.receiving = s.port.receiving ∧ (flipDone s).port.resetArmed = s.port.resetArmed ∧
    (flipDone s).port.response = s.port.response ∧ (flipDone s).sensing.settling = s.sensing.settling ∧
    (flipDone s).sensing.accepted = s.sensing.accepted ∧ (flipDone s).sensing.drvStill = s.sensing.drvStill ∧
    (flipDone s).sensing.brkFb = s.sensing.brkFb ∧ (flipDone s).sensing.pfail = s.sensing.pfail ∧
    (flipDone s).standby.supplyLoss = s.standby.supplyLoss ∧ (flipDone s).standby.excursion = s.standby.excursion ∧
    (flipDone s).standby.alive = s.standby.alive := by
  simp [flipDone]

@[simp] theorem writeCompleted_keeps (f : InFlight) (s : State) :
    (writeCompleted f s).pending = s.pending ∧ (writeCompleted f s).now = s.now ∧
    (writeCompleted f s).freeCount = s.freeCount ∧ (writeCompleted f s).power = s.power ∧
    (writeCompleted f s).decoder = s.decoder ∧ (writeCompleted f s).peers = s.peers ∧
    (writeCompleted f s).coord = s.coord ∧ (writeCompleted f s).mem = s.mem ∧
    (writeCompleted f s).link.station = s.link.station ∧ (writeCompleted f s).link.state = s.link.state ∧
    (writeCompleted f s).link.timed = s.link.timed ∧ (writeCompleted f s).link.cycle = s.link.cycle ∧
    (writeCompleted f s).link.cycleStart = s.link.cycleStart ∧ (writeCompleted f s).link.muted = s.link.muted ∧
    (writeCompleted f s).link.mismatches = s.link.mismatches ∧ (writeCompleted f s).link.tx = s.link.tx ∧
    (writeCompleted f s).link.offsets = s.link.offsets ∧
    (writeCompleted f s).link.acceptedInCycle = s.link.acceptedInCycle ∧
    (writeCompleted f s).link.foreignInCycle = s.link.foreignInCycle ∧
    (writeCompleted f s).link.listenSince = s.link.listenSince ∧ (writeCompleted f s).hold.level = s.hold.level ∧
    (writeCompleted f s).hold.complete = s.hold.complete ∧ (writeCompleted f s).hold.seq = s.hold.seq ∧
    (writeCompleted f s).hold.keyCount = s.hold.keyCount ∧ (writeCompleted f s).hold.lockClear = s.hold.lockClear ∧
    (writeCompleted f s).hold.lockClearLeft = s.hold.lockClearLeft ∧ (writeCompleted f s).plan.steps = s.plan.steps ∧
    (writeCompleted f s).plan.isSealed = s.plan.isSealed ∧ (writeCompleted f s).plan.digest = s.plan.digest ∧
    (writeCompleted f s).plan.running = s.plan.running ∧ (writeCompleted f s).store.scanDone = s.store.scanDone ∧
    (writeCompleted f s).store.lastTag = s.store.lastTag ∧ (writeCompleted f s).store.dip = s.store.dip ∧
    (writeCompleted f s).port.config = s.port.config ∧ (writeCompleted f s).port.configDigest = s.port.configDigest ∧
    (writeCompleted f s).port.receiving = s.port.receiving ∧
    (writeCompleted f s).port.resetArmed = s.port.resetArmed ∧ (writeCompleted f s).port.response = s.port.response ∧
    (writeCompleted f s).sensing.settling = s.sensing.settling ∧
    (writeCompleted f s).sensing.accepted = s.sensing.accepted ∧
    (writeCompleted f s).sensing.drvStill = s.sensing.drvStill ∧
    (writeCompleted f s).sensing.brkFb = s.sensing.brkFb ∧ (writeCompleted f s).sensing.pfail = s.sensing.pfail ∧
    (writeCompleted f s).standby.supplyLoss = s.standby.supplyLoss ∧
    (writeCompleted f s).standby.excursion = s.standby.excursion ∧
    (writeCompleted f s).standby.alive = s.standby.alive := by
  simp only [writeCompleted]; (repeat' split) <;> simp

@[simp] theorem writeCut_keeps (f : InFlight) (s : State) :
    (writeCut f s).pending = s.pending ∧ (writeCut f s).now = s.now ∧ (writeCut f s).freeCount = s.freeCount ∧
    (writeCut f s).power = s.power ∧ (writeCut f s).decoder = s.decoder ∧ (writeCut f s).link = s.link ∧
    (writeCut f s).peers = s.peers ∧ (writeCut f s).coord = s.coord ∧ (writeCut f s).plan = s.plan ∧
    (writeCut f s).hold = s.hold ∧ (writeCut f s).gate = s.gate ∧ (writeCut f s).mem = s.mem ∧
    (writeCut f s).port = s.port ∧ (writeCut f s).store.scanDone = s.store.scanDone ∧
    (writeCut f s).store.tail = s.store.tail ∧ (writeCut f s).store.lastTag = s.store.lastTag ∧
    (writeCut f s).store.finalOut = s.store.finalOut ∧ (writeCut f s).store.dip = s.store.dip ∧
    (writeCut f s).store.retainedLockout = s.store.retainedLockout ∧
    (writeCut f s).engine.refState = s.engine.refState ∧ (writeCut f s).engine.order = s.engine.order ∧
    (writeCut f s).sensing.settling = s.sensing.settling ∧ (writeCut f s).sensing.accepted = s.sensing.accepted ∧
    (writeCut f s).sensing.drvStill = s.sensing.drvStill ∧ (writeCut f s).sensing.brkFb = s.sensing.brkFb ∧
    (writeCut f s).sensing.pfail = s.sensing.pfail ∧ (writeCut f s).standby.supplyLoss = s.standby.supplyLoss ∧
    (writeCut f s).standby.excursion = s.standby.excursion ∧ (writeCut f s).standby.alive = s.standby.alive := by
  simp only [writeCut]; (repeat' split) <;> simp

@[simp] theorem raiseWriteFailed_keeps (f : InFlight) (s : State) :
    (raiseWriteFailed f s).pending = s.pending ∧ (raiseWriteFailed f s).now = s.now ∧
    (raiseWriteFailed f s).freeCount = s.freeCount ∧ (raiseWriteFailed f s).power = s.power ∧
    (raiseWriteFailed f s).standby = s.standby ∧ (raiseWriteFailed f s).decoder = s.decoder ∧
    (raiseWriteFailed f s).sensing = s.sensing ∧ (raiseWriteFailed f s).peers = s.peers ∧
    (raiseWriteFailed f s).mem = s.mem ∧ (raiseWriteFailed f s).link.station = s.link.station ∧
    (raiseWriteFailed f s).link.state = s.link.state ∧ (raiseWriteFailed f s).link.timed = s.link.timed ∧
    (raiseWriteFailed f s).link.cycle = s.link.cycle ∧ (raiseWriteFailed f s).link.cycleStart = s.link.cycleStart ∧
    (raiseWriteFailed f s).link.muted = s.link.muted ∧ (raiseWriteFailed f s).link.mismatches = s.link.mismatches ∧
    (raiseWriteFailed f s).link.tx = s.link.tx ∧ (raiseWriteFailed f s).link.offsets = s.link.offsets ∧
    (raiseWriteFailed f s).link.acceptedInCycle = s.link.acceptedInCycle ∧
    (raiseWriteFailed f s).link.foreignInCycle = s.link.foreignInCycle ∧
    (raiseWriteFailed f s).link.listenSince = s.link.listenSince ∧
    (raiseWriteFailed f s).hold.keyCount = s.hold.keyCount ∧
    (raiseWriteFailed f s).hold.lockClear = s.hold.lockClear ∧
    (raiseWriteFailed f s).hold.lockClearLeft = s.hold.lockClearLeft ∧
    (raiseWriteFailed f s).coord.run = s.coord.run ∧
    (raiseWriteFailed f s).coord.journalActive = s.coord.journalActive ∧
    (raiseWriteFailed f s).coord.start = s.coord.start ∧ (raiseWriteFailed f s).coord.restart = s.coord.restart ∧
    (raiseWriteFailed f s).coord.restartLeft = s.coord.restartLeft ∧
    (raiseWriteFailed f s).coord.lastRunClaim = s.coord.lastRunClaim ∧
    (raiseWriteFailed f s).plan.steps = s.plan.steps ∧ (raiseWriteFailed f s).plan.isSealed = s.plan.isSealed ∧
    (raiseWriteFailed f s).plan.digest = s.plan.digest ∧ (raiseWriteFailed f s).store.scanDone = s.store.scanDone ∧
    (raiseWriteFailed f s).store.tail = s.store.tail ∧ (raiseWriteFailed f s).store.pointer = s.store.pointer ∧
    (raiseWriteFailed f s).store.finalOut = s.store.finalOut ∧ (raiseWriteFailed f s).store.dip = s.store.dip ∧
    (raiseWriteFailed f s).store.retainedLockout = s.store.retainedLockout ∧
    (raiseWriteFailed f s).port.config = s.port.config ∧
    (raiseWriteFailed f s).port.configDigest = s.port.configDigest ∧
    (raiseWriteFailed f s).port.receiving = s.port.receiving ∧
    (raiseWriteFailed f s).port.resetArmed = s.port.resetArmed ∧
    (raiseWriteFailed f s).port.response = s.port.response ∧ (raiseWriteFailed f s).cal.committed = s.cal.committed := by
  simp [raiseWriteFailed]

@[simp] theorem failedEffect_keeps (f : InFlight) (s : State) :
    (failedEffect f s).pending = s.pending ∧ (failedEffect f s).now = s.now ∧
    (failedEffect f s).freeCount = s.freeCount ∧ (failedEffect f s).power = s.power ∧
    (failedEffect f s).decoder = s.decoder ∧ (failedEffect f s).peers = s.peers ∧
    (failedEffect f s).coord = s.coord ∧ (failedEffect f s).plan = s.plan ∧ (failedEffect f s).gate = s.gate ∧
    (failedEffect f s).mem = s.mem ∧ (failedEffect f s).link.station = s.link.station ∧
    (failedEffect f s).link.state = s.link.state ∧ (failedEffect f s).link.timed = s.link.timed ∧
    (failedEffect f s).link.cycle = s.link.cycle ∧ (failedEffect f s).link.cycleStart = s.link.cycleStart ∧
    (failedEffect f s).link.muted = s.link.muted ∧ (failedEffect f s).link.mismatches = s.link.mismatches ∧
    (failedEffect f s).link.tx = s.link.tx ∧ (failedEffect f s).link.offsets = s.link.offsets ∧
    (failedEffect f s).link.acceptedInCycle = s.link.acceptedInCycle ∧
    (failedEffect f s).link.foreignInCycle = s.link.foreignInCycle ∧
    (failedEffect f s).link.listenSince = s.link.listenSince ∧ (failedEffect f s).hold.level = s.hold.level ∧
    (failedEffect f s).hold.complete = s.hold.complete ∧ (failedEffect f s).hold.seq = s.hold.seq ∧
    (failedEffect f s).hold.keyCount = s.hold.keyCount ∧ (failedEffect f s).hold.lockClear = s.hold.lockClear ∧
    (failedEffect f s).hold.lockClearLeft = s.hold.lockClearLeft ∧
    (failedEffect f s).store.scanDone = s.store.scanDone ∧ (failedEffect f s).store.port = s.store.port ∧
    (failedEffect f s).store.tail = s.store.tail ∧ (failedEffect f s).store.lastTag = s.store.lastTag ∧
    (failedEffect f s).store.dip = s.store.dip ∧ (failedEffect f s).store.retainedLockout = s.store.retainedLockout ∧
    (failedEffect f s).port.config = s.port.config ∧ (failedEffect f s).port.configDigest = s.port.configDigest ∧
    (failedEffect f s).port.receiving = s.port.receiving ∧ (failedEffect f s).port.resetArmed = s.port.resetArmed ∧
    (failedEffect f s).port.response = s.port.response ∧ (failedEffect f s).engine.refState = s.engine.refState ∧
    (failedEffect f s).engine.order = s.engine.order ∧ (failedEffect f s).sensing.settling = s.sensing.settling ∧
    (failedEffect f s).sensing.accepted = s.sensing.accepted ∧
    (failedEffect f s).sensing.drvStill = s.sensing.drvStill ∧ (failedEffect f s).sensing.brkFb = s.sensing.brkFb ∧
    (failedEffect f s).sensing.pfail = s.sensing.pfail ∧
    (failedEffect f s).standby.supplyLoss = s.standby.supplyLoss ∧
    (failedEffect f s).standby.excursion = s.standby.excursion ∧ (failedEffect f s).standby.alive = s.standby.alive := by
  simp only [failedEffect, failedEffect.endProposalOnFailedFlip]; (repeat' split) <;> simp

@[simp] theorem lockRetry_keeps (f : InFlight) (s : State) :
    (lockRetry f s).pending = s.pending ∧ (lockRetry f s).now = s.now ∧ (lockRetry f s).freeCount = s.freeCount ∧
    (lockRetry f s).power = s.power ∧ (lockRetry f s).standby = s.standby ∧ (lockRetry f s).decoder = s.decoder ∧
    (lockRetry f s).sensing = s.sensing ∧ (lockRetry f s).engine = s.engine ∧ (lockRetry f s).link = s.link ∧
    (lockRetry f s).peers = s.peers ∧ (lockRetry f s).coord = s.coord ∧ (lockRetry f s).plan = s.plan ∧
    (lockRetry f s).hold = s.hold ∧ (lockRetry f s).gate = s.gate ∧ (lockRetry f s).mem = s.mem ∧
    (lockRetry f s).port = s.port ∧ (lockRetry f s).store.scanDone = s.store.scanDone ∧
    (lockRetry f s).store.tail = s.store.tail ∧ (lockRetry f s).store.pointer = s.store.pointer ∧
    (lockRetry f s).store.lastTag = s.store.lastTag ∧ (lockRetry f s).store.finalOut = s.store.finalOut ∧
    (lockRetry f s).store.dip = s.store.dip ∧ (lockRetry f s).store.retainedLockout = s.store.retainedLockout ∧
    (lockRetry f s).cal.committed = s.cal.committed := by
  simp only [lockRetry]; (repeat' split) <;> simp

@[simp] theorem failedTests_keeps (f : InFlight) (s : State) :
    (failedTests f s).pending = s.pending ∧ (failedTests f s).now = s.now ∧
    (failedTests f s).freeCount = s.freeCount ∧ (failedTests f s).power = s.power ∧
    (failedTests f s).standby = s.standby ∧ (failedTests f s).decoder = s.decoder ∧
    (failedTests f s).sensing = s.sensing ∧ (failedTests f s).engine = s.engine ∧ (failedTests f s).link = s.link ∧
    (failedTests f s).peers = s.peers ∧ (failedTests f s).coord = s.coord ∧ (failedTests f s).plan = s.plan ∧
    (failedTests f s).hold = s.hold ∧ (failedTests f s).gate = s.gate ∧ (failedTests f s).mem = s.mem ∧
    (failedTests f s).port = s.port ∧ (failedTests f s).store.scanDone = s.store.scanDone ∧
    (failedTests f s).store.tail = s.store.tail ∧ (failedTests f s).store.pointer = s.store.pointer ∧
    (failedTests f s).store.lastTag = s.store.lastTag ∧ (failedTests f s).store.finalOut = s.store.finalOut ∧
    (failedTests f s).store.dip = s.store.dip ∧ (failedTests f s).store.retainedLockout = s.store.retainedLockout ∧
    (failedTests f s).cal.committed = s.cal.committed := by
  simp only [failedTests]; (repeat' split) <;> simp

@[simp] theorem writeFailed_keeps (f : InFlight) (s : State) :
    (writeFailed f s).pending = s.pending ∧ (writeFailed f s).now = s.now ∧
    (writeFailed f s).freeCount = s.freeCount ∧ (writeFailed f s).power = s.power ∧
    (writeFailed f s).decoder = s.decoder ∧ (writeFailed f s).peers = s.peers ∧ (writeFailed f s).mem = s.mem ∧
    (writeFailed f s).link.station = s.link.station ∧ (writeFailed f s).link.state = s.link.state ∧
    (writeFailed f s).link.timed = s.link.timed ∧ (writeFailed f s).link.cycle = s.link.cycle ∧
    (writeFailed f s).link.cycleStart = s.link.cycleStart ∧ (writeFailed f s).link.muted = s.link.muted ∧
    (writeFailed f s).link.mismatches = s.link.mismatches ∧ (writeFailed f s).link.tx = s.link.tx ∧
    (writeFailed f s).link.offsets = s.link.offsets ∧
    (writeFailed f s).link.acceptedInCycle = s.link.acceptedInCycle ∧
    (writeFailed f s).link.foreignInCycle = s.link.foreignInCycle ∧
    (writeFailed f s).link.listenSince = s.link.listenSince ∧ (writeFailed f s).hold.keyCount = s.hold.keyCount ∧
    (writeFailed f s).hold.lockClear = s.hold.lockClear ∧
    (writeFailed f s).hold.lockClearLeft = s.hold.lockClearLeft ∧ (writeFailed f s).coord.run = s.coord.run ∧
    (writeFailed f s).coord.journalActive = s.coord.journalActive ∧ (writeFailed f s).coord.start = s.coord.start ∧
    (writeFailed f s).coord.restart = s.coord.restart ∧ (writeFailed f s).coord.restartLeft = s.coord.restartLeft ∧
    (writeFailed f s).coord.lastRunClaim = s.coord.lastRunClaim ∧ (writeFailed f s).plan.steps = s.plan.steps ∧
    (writeFailed f s).plan.isSealed = s.plan.isSealed ∧ (writeFailed f s).plan.digest = s.plan.digest ∧
    (writeFailed f s).store.scanDone = s.store.scanDone ∧ (writeFailed f s).store.tail = s.store.tail ∧
    (writeFailed f s).store.dip = s.store.dip ∧ (writeFailed f s).store.retainedLockout = s.store.retainedLockout ∧
    (writeFailed f s).port.config = s.port.config ∧ (writeFailed f s).port.configDigest = s.port.configDigest ∧
    (writeFailed f s).port.receiving = s.port.receiving ∧ (writeFailed f s).port.resetArmed = s.port.resetArmed ∧
    (writeFailed f s).port.response = s.port.response ∧ (writeFailed f s).sensing.settling = s.sensing.settling ∧
    (writeFailed f s).sensing.accepted = s.sensing.accepted ∧
    (writeFailed f s).sensing.drvStill = s.sensing.drvStill ∧ (writeFailed f s).sensing.brkFb = s.sensing.brkFb ∧
    (writeFailed f s).sensing.pfail = s.sensing.pfail ∧ (writeFailed f s).standby.supplyLoss = s.standby.supplyLoss ∧
    (writeFailed f s).standby.excursion = s.standby.excursion ∧ (writeFailed f s).standby.alive = s.standby.alive := by
  simp [writeFailed]

@[simp] theorem endBeat_keeps (f : InFlight) (readback : List Byte) (s : State) :
    (endBeat f readback s).pending = s.pending ∧ (endBeat f readback s).now = s.now ∧
    (endBeat f readback s).freeCount = s.freeCount ∧ (endBeat f readback s).power = s.power ∧
    (endBeat f readback s).decoder = s.decoder ∧ (endBeat f readback s).peers = s.peers ∧
    (endBeat f readback s).link.station = s.link.station ∧ (endBeat f readback s).link.state = s.link.state ∧
    (endBeat f readback s).link.timed = s.link.timed ∧ (endBeat f readback s).link.cycle = s.link.cycle ∧
    (endBeat f readback s).link.cycleStart = s.link.cycleStart ∧ (endBeat f readback s).link.muted = s.link.muted ∧
    (endBeat f readback s).link.mismatches = s.link.mismatches ∧ (endBeat f readback s).link.tx = s.link.tx ∧
    (endBeat f readback s).link.offsets = s.link.offsets ∧
    (endBeat f readback s).link.acceptedInCycle = s.link.acceptedInCycle ∧
    (endBeat f readback s).link.foreignInCycle = s.link.foreignInCycle ∧
    (endBeat f readback s).link.listenSince = s.link.listenSince ∧
    (endBeat f readback s).hold.keyCount = s.hold.keyCount ∧
    (endBeat f readback s).hold.lockClear = s.hold.lockClear ∧
    (endBeat f readback s).hold.lockClearLeft = s.hold.lockClearLeft ∧
    (endBeat f readback s).coord.run = s.coord.run ∧
    (endBeat f readback s).coord.journalActive = s.coord.journalActive ∧
    (endBeat f readback s).coord.start = s.coord.start ∧ (endBeat f readback s).coord.restart = s.coord.restart ∧
    (endBeat f readback s).coord.restartLeft = s.coord.restartLeft ∧
    (endBeat f readback s).coord.lastRunClaim = s.coord.lastRunClaim ∧
    (endBeat f readback s).plan.steps = s.plan.steps ∧ (endBeat f readback s).plan.isSealed = s.plan.isSealed ∧
    (endBeat f readback s).plan.digest = s.plan.digest ∧ (endBeat f readback s).store.scanDone = s.store.scanDone ∧
    (endBeat f readback s).store.dip = s.store.dip ∧ (endBeat f readback s).port.config = s.port.config ∧
    (endBeat f readback s).port.configDigest = s.port.configDigest ∧
    (endBeat f readback s).port.receiving = s.port.receiving ∧
    (endBeat f readback s).port.resetArmed = s.port.resetArmed ∧
    (endBeat f readback s).port.response = s.port.response ∧
    (endBeat f readback s).sensing.settling = s.sensing.settling ∧
    (endBeat f readback s).sensing.accepted = s.sensing.accepted ∧
    (endBeat f readback s).sensing.drvStill = s.sensing.drvStill ∧
    (endBeat f readback s).sensing.brkFb = s.sensing.brkFb ∧ (endBeat f readback s).sensing.pfail = s.sensing.pfail ∧
    (endBeat f readback s).standby.supplyLoss = s.standby.supplyLoss ∧
    (endBeat f readback s).standby.excursion = s.standby.excursion ∧
    (endBeat f readback s).standby.alive = s.standby.alive := by
  simp only [endBeat]; (repeat' split) <;> simp

@[simp] theorem arrivalCut_keeps (s : State) :
    (arrivalCut s).pending = s.pending ∧ (arrivalCut s).now = s.now ∧ (arrivalCut s).freeCount = s.freeCount ∧
    (arrivalCut s).power = s.power ∧ (arrivalCut s).standby = s.standby ∧ (arrivalCut s).decoder = s.decoder ∧
    (arrivalCut s).sensing = s.sensing ∧ (arrivalCut s).engine = s.engine ∧ (arrivalCut s).link = s.link ∧
    (arrivalCut s).peers = s.peers ∧ (arrivalCut s).coord = s.coord ∧ (arrivalCut s).plan = s.plan ∧
    (arrivalCut s).hold = s.hold ∧ (arrivalCut s).gate = s.gate ∧ (arrivalCut s).mem = s.mem ∧
    (arrivalCut s).port = s.port ∧ (arrivalCut s).store.scanDone = s.store.scanDone ∧
    (arrivalCut s).store.tail = s.store.tail ∧ (arrivalCut s).store.pointer = s.store.pointer ∧
    (arrivalCut s).store.retainedLockout = s.store.retainedLockout ∧ (arrivalCut s).cal.committed = s.cal.committed := by
  simp only [arrivalCut]; (repeat' split) <;> simp

@[simp] theorem pfailArrival_keeps (s : State) :
    (pfailArrival s).pending = s.pending ∧ (pfailArrival s).now = s.now ∧ (pfailArrival s).freeCount = s.freeCount ∧
    (pfailArrival s).power = s.power ∧ (pfailArrival s).standby = s.standby ∧ (pfailArrival s).decoder = s.decoder ∧
    (pfailArrival s).sensing = s.sensing ∧ (pfailArrival s).engine = s.engine ∧ (pfailArrival s).link = s.link ∧
    (pfailArrival s).peers = s.peers ∧ (pfailArrival s).coord = s.coord ∧ (pfailArrival s).plan = s.plan ∧
    (pfailArrival s).hold = s.hold ∧ (pfailArrival s).gate = s.gate ∧ (pfailArrival s).mem = s.mem ∧
    (pfailArrival s).port = s.port ∧ (pfailArrival s).store.scanDone = s.store.scanDone ∧
    (pfailArrival s).store.tail = s.store.tail ∧ (pfailArrival s).store.pointer = s.store.pointer ∧
    (pfailArrival s).store.retainedLockout = s.store.retainedLockout ∧
    (pfailArrival s).cal.committed = s.cal.committed := by
  simp only [pfailArrival]; (repeat' split) <;> simp

@[simp] theorem pfailWithdrawal_keeps (s : State) :
    (pfailWithdrawal s).pending = s.pending ∧ (pfailWithdrawal s).now = s.now ∧
    (pfailWithdrawal s).freeCount = s.freeCount ∧ (pfailWithdrawal s).power = s.power ∧
    (pfailWithdrawal s).standby = s.standby ∧ (pfailWithdrawal s).decoder = s.decoder ∧
    (pfailWithdrawal s).sensing = s.sensing ∧ (pfailWithdrawal s).peers = s.peers ∧ (pfailWithdrawal s).mem = s.mem ∧
    (pfailWithdrawal s).link.station = s.link.station ∧ (pfailWithdrawal s).link.state = s.link.state ∧
    (pfailWithdrawal s).link.timed = s.link.timed ∧ (pfailWithdrawal s).link.cycle = s.link.cycle ∧
    (pfailWithdrawal s).link.cycleStart = s.link.cycleStart ∧ (pfailWithdrawal s).link.muted = s.link.muted ∧
    (pfailWithdrawal s).link.mismatches = s.link.mismatches ∧ (pfailWithdrawal s).link.tx = s.link.tx ∧
    (pfailWithdrawal s).link.offsets = s.link.offsets ∧
    (pfailWithdrawal s).link.acceptedInCycle = s.link.acceptedInCycle ∧
    (pfailWithdrawal s).link.foreignInCycle = s.link.foreignInCycle ∧
    (pfailWithdrawal s).link.listenSince = s.link.listenSince ∧ (pfailWithdrawal s).hold.keyCount = s.hold.keyCount ∧
    (pfailWithdrawal s).hold.lockClear = s.hold.lockClear ∧
    (pfailWithdrawal s).hold.lockClearLeft = s.hold.lockClearLeft ∧ (pfailWithdrawal s).coord.run = s.coord.run ∧
    (pfailWithdrawal s).coord.journalActive = s.coord.journalActive ∧
    (pfailWithdrawal s).coord.start = s.coord.start ∧ (pfailWithdrawal s).coord.restart = s.coord.restart ∧
    (pfailWithdrawal s).coord.restartLeft = s.coord.restartLeft ∧
    (pfailWithdrawal s).coord.lastRunClaim = s.coord.lastRunClaim ∧ (pfailWithdrawal s).plan.steps = s.plan.steps ∧
    (pfailWithdrawal s).plan.isSealed = s.plan.isSealed ∧ (pfailWithdrawal s).plan.digest = s.plan.digest ∧
    (pfailWithdrawal s).store.scanDone = s.store.scanDone ∧ (pfailWithdrawal s).store.tail = s.store.tail ∧
    (pfailWithdrawal s).store.pointer = s.store.pointer ∧ (pfailWithdrawal s).store.finalOut = s.store.finalOut ∧
    (pfailWithdrawal s).store.retainedLockout = s.store.retainedLockout ∧
    (pfailWithdrawal s).port.config = s.port.config ∧ (pfailWithdrawal s).port.configDigest = s.port.configDigest ∧
    (pfailWithdrawal s).port.receiving = s.port.receiving ∧ (pfailWithdrawal s).port.resetArmed = s.port.resetArmed ∧
    (pfailWithdrawal s).port.response = s.port.response ∧ (pfailWithdrawal s).cal.committed = s.cal.committed := by
  simp only [pfailWithdrawal]; (repeat' split) <;> simp

@[simp] theorem scanJournal_keeps (s : State) :
    (scanJournal s).pending = s.pending ∧ (scanJournal s).now = s.now ∧ (scanJournal s).freeCount = s.freeCount ∧
    (scanJournal s).power = s.power ∧ (scanJournal s).standby = s.standby ∧ (scanJournal s).decoder = s.decoder ∧
    (scanJournal s).sensing = s.sensing ∧ (scanJournal s).engine = s.engine ∧ (scanJournal s).link = s.link ∧
    (scanJournal s).peers = s.peers ∧ (scanJournal s).plan = s.plan ∧ (scanJournal s).hold = s.hold ∧
    (scanJournal s).gate = s.gate ∧ (scanJournal s).cal = s.cal ∧ (scanJournal s).mem = s.mem ∧
    (scanJournal s).port = s.port ∧ (scanJournal s).coord.phase = s.coord.phase ∧
    (scanJournal s).coord.run = s.coord.run ∧ (scanJournal s).coord.journalActive = s.coord.journalActive ∧
    (scanJournal s).coord.restart = s.coord.restart ∧ (scanJournal s).coord.restartLeft = s.coord.restartLeft ∧
    (scanJournal s).store.port = s.store.port ∧ (scanJournal s).store.finalOut = s.store.finalOut ∧
    (scanJournal s).store.dip = s.store.dip ∧ (scanJournal s).store.retainedLockout = s.store.retainedLockout := by
  simp only [scanJournal]; (repeat' split) <;> simp

@[simp] theorem scanLockout_keeps (s : State) :
    (scanLockout s).pending = s.pending ∧ (scanLockout s).now = s.now ∧ (scanLockout s).freeCount = s.freeCount ∧
    (scanLockout s).power = s.power ∧ (scanLockout s).standby = s.standby ∧ (scanLockout s).decoder = s.decoder ∧
    (scanLockout s).sensing = s.sensing ∧ (scanLockout s).peers = s.peers ∧ (scanLockout s).coord = s.coord ∧
    (scanLockout s).mem = s.mem ∧ (scanLockout s).link.station = s.link.station ∧
    (scanLockout s).link.state = s.link.state ∧ (scanLockout s).link.timed = s.link.timed ∧
    (scanLockout s).link.cycle = s.link.cycle ∧ (scanLockout s).link.cycleStart = s.link.cycleStart ∧
    (scanLockout s).link.muted = s.link.muted ∧ (scanLockout s).link.mismatches = s.link.mismatches ∧
    (scanLockout s).link.tx = s.link.tx ∧ (scanLockout s).link.offsets = s.link.offsets ∧
    (scanLockout s).link.acceptedInCycle = s.link.acceptedInCycle ∧
    (scanLockout s).link.foreignInCycle = s.link.foreignInCycle ∧
    (scanLockout s).link.listenSince = s.link.listenSince ∧ (scanLockout s).hold.seq = s.hold.seq ∧
    (scanLockout s).hold.keyCount = s.hold.keyCount ∧ (scanLockout s).hold.lockClear = s.hold.lockClear ∧
    (scanLockout s).hold.lockClearLeft = s.hold.lockClearLeft ∧ (scanLockout s).plan.steps = s.plan.steps ∧
    (scanLockout s).plan.isSealed = s.plan.isSealed ∧ (scanLockout s).plan.digest = s.plan.digest ∧
    (scanLockout s).store.scanDone = s.store.scanDone ∧ (scanLockout s).store.tail = s.store.tail ∧
    (scanLockout s).store.pointer = s.store.pointer ∧ (scanLockout s).store.lastTag = s.store.lastTag ∧
    (scanLockout s).store.finalOut = s.store.finalOut ∧ (scanLockout s).store.dip = s.store.dip ∧
    (scanLockout s).port.config = s.port.config ∧ (scanLockout s).port.configDigest = s.port.configDigest ∧
    (scanLockout s).port.receiving = s.port.receiving ∧ (scanLockout s).port.resetArmed = s.port.resetArmed ∧
    (scanLockout s).port.response = s.port.response ∧ (scanLockout s).cal.committed = s.cal.committed := by
  simp only [scanLockout]; (repeat' split) <;> simp

@[simp] theorem endScan_keeps (s : State) :
    (endScan s).pending = s.pending ∧ (endScan s).now = s.now ∧ (endScan s).freeCount = s.freeCount ∧
    (endScan s).power = s.power ∧ (endScan s).standby = s.standby ∧ (endScan s).decoder = s.decoder ∧
    (endScan s).sensing = s.sensing ∧ (endScan s).peers = s.peers ∧ (endScan s).mem = s.mem ∧
    (endScan s).link.station = s.link.station ∧ (endScan s).link.state = s.link.state ∧
    (endScan s).link.timed = s.link.timed ∧ (endScan s).link.cycle = s.link.cycle ∧
    (endScan s).link.cycleStart = s.link.cycleStart ∧ (endScan s).link.muted = s.link.muted ∧
    (endScan s).link.mismatches = s.link.mismatches ∧ (endScan s).link.tx = s.link.tx ∧
    (endScan s).link.offsets = s.link.offsets ∧ (endScan s).link.acceptedInCycle = s.link.acceptedInCycle ∧
    (endScan s).link.foreignInCycle = s.link.foreignInCycle ∧ (endScan s).link.listenSince = s.link.listenSince ∧
    (endScan s).hold.seq = s.hold.seq ∧ (endScan s).hold.keyCount = s.hold.keyCount ∧
    (endScan s).hold.lockClear = s.hold.lockClear ∧ (endScan s).hold.lockClearLeft = s.hold.lockClearLeft ∧
    (endScan s).coord.phase = s.coord.phase ∧ (endScan s).coord.run = s.coord.run ∧
    (endScan s).coord.journalActive = s.coord.journalActive ∧ (endScan s).coord.restart = s.coord.restart ∧
    (endScan s).coord.restartLeft = s.coord.restartLeft ∧ (endScan s).plan.steps = s.plan.steps ∧
    (endScan s).plan.isSealed = s.plan.isSealed ∧ (endScan s).plan.digest = s.plan.digest ∧
    (endScan s).store.finalOut = s.store.finalOut ∧ (endScan s).store.dip = s.store.dip ∧
    (endScan s).port.config = s.port.config ∧ (endScan s).port.configDigest = s.port.configDigest ∧
    (endScan s).port.receiving = s.port.receiving ∧ (endScan s).port.resetArmed = s.port.resetArmed ∧
    (endScan s).port.response = s.port.response := by
  simp [endScan]

@[simp] theorem stillArrival_keeps (s : State) :
    (stillArrival s).pending = s.pending ∧ (stillArrival s).now = s.now ∧ (stillArrival s).freeCount = s.freeCount ∧
    (stillArrival s).power = s.power ∧ (stillArrival s).standby = s.standby ∧ (stillArrival s).decoder = s.decoder ∧
    (stillArrival s).sensing = s.sensing ∧ (stillArrival s).peers = s.peers ∧ (stillArrival s).mem = s.mem ∧
    (stillArrival s).link.station = s.link.station ∧ (stillArrival s).link.state = s.link.state ∧
    (stillArrival s).link.timed = s.link.timed ∧ (stillArrival s).link.cycle = s.link.cycle ∧
    (stillArrival s).link.cycleStart = s.link.cycleStart ∧ (stillArrival s).link.muted = s.link.muted ∧
    (stillArrival s).link.mismatches = s.link.mismatches ∧ (stillArrival s).link.tx = s.link.tx ∧
    (stillArrival s).link.offsets = s.link.offsets ∧ (stillArrival s).link.acceptedInCycle = s.link.acceptedInCycle ∧
    (stillArrival s).link.foreignInCycle = s.link.foreignInCycle ∧
    (stillArrival s).link.listenSince = s.link.listenSince ∧ (stillArrival s).hold.keyCount = s.hold.keyCount ∧
    (stillArrival s).hold.lockClear = s.hold.lockClear ∧ (stillArrival s).hold.lockClearLeft = s.hold.lockClearLeft ∧
    (stillArrival s).coord.run = s.coord.run ∧ (stillArrival s).coord.journalActive = s.coord.journalActive ∧
    (stillArrival s).coord.start = s.coord.start ∧ (stillArrival s).coord.restart = s.coord.restart ∧
    (stillArrival s).coord.restartLeft = s.coord.restartLeft ∧
    (stillArrival s).coord.lastRunClaim = s.coord.lastRunClaim ∧ (stillArrival s).plan.steps = s.plan.steps ∧
    (stillArrival s).plan.isSealed = s.plan.isSealed ∧ (stillArrival s).plan.digest = s.plan.digest ∧
    (stillArrival s).store.scanDone = s.store.scanDone ∧ (stillArrival s).store.tail = s.store.tail ∧
    (stillArrival s).store.pointer = s.store.pointer ∧ (stillArrival s).store.finalOut = s.store.finalOut ∧
    (stillArrival s).store.dip = s.store.dip ∧ (stillArrival s).store.retainedLockout = s.store.retainedLockout ∧
    (stillArrival s).port.config = s.port.config ∧ (stillArrival s).port.configDigest = s.port.configDigest ∧
    (stillArrival s).port.receiving = s.port.receiving ∧ (stillArrival s).port.resetArmed = s.port.resetArmed ∧
    (stillArrival s).port.response = s.port.response ∧ (stillArrival s).cal.committed = s.cal.committed := by
  simp [stillArrival]

@[simp] theorem switchChanged_keeps (i : SwitchInput) (active : Bool) (s : State) :
    (switchChanged i active s).pending = s.pending ∧ (switchChanged i active s).now = s.now ∧
    (switchChanged i active s).freeCount = s.freeCount ∧ (switchChanged i active s).power = s.power ∧
    (switchChanged i active s).standby = s.standby ∧ (switchChanged i active s).decoder = s.decoder ∧
    (switchChanged i active s).sensing = s.sensing ∧ (switchChanged i active s).peers = s.peers ∧
    (switchChanged i active s).mem = s.mem ∧ (switchChanged i active s).link.station = s.link.station ∧
    (switchChanged i active s).link.state = s.link.state ∧ (switchChanged i active s).link.timed = s.link.timed ∧
    (switchChanged i active s).link.cycle = s.link.cycle ∧
    (switchChanged i active s).link.cycleStart = s.link.cycleStart ∧
    (switchChanged i active s).link.muted = s.link.muted ∧
    (switchChanged i active s).link.mismatches = s.link.mismatches ∧ (switchChanged i active s).link.tx = s.link.tx ∧
    (switchChanged i active s).link.offsets = s.link.offsets ∧
    (switchChanged i active s).link.acceptedInCycle = s.link.acceptedInCycle ∧
    (switchChanged i active s).link.foreignInCycle = s.link.foreignInCycle ∧
    (switchChanged i active s).link.listenSince = s.link.listenSince ∧
    (switchChanged i active s).hold.lockClear = s.hold.lockClear ∧
    (switchChanged i active s).hold.lockClearLeft = s.hold.lockClearLeft ∧
    (switchChanged i active s).coord.run = s.coord.run ∧
    (switchChanged i active s).coord.journalActive = s.coord.journalActive ∧
    (switchChanged i active s).coord.start = s.coord.start ∧
    (switchChanged i active s).coord.restart = s.coord.restart ∧
    (switchChanged i active s).coord.restartLeft = s.coord.restartLeft ∧
    (switchChanged i active s).coord.lastRunClaim = s.coord.lastRunClaim ∧
    (switchChanged i active s).plan.steps = s.plan.steps ∧
    (switchChanged i active s).plan.isSealed = s.plan.isSealed ∧
    (switchChanged i active s).plan.digest = s.plan.digest ∧
    (switchChanged i active s).store.scanDone = s.store.scanDone ∧
    (switchChanged i active s).store.tail = s.store.tail ∧
    (switchChanged i active s).store.pointer = s.store.pointer ∧
    (switchChanged i active s).store.finalOut = s.store.finalOut ∧
    (switchChanged i active s).store.dip = s.store.dip ∧
    (switchChanged i active s).store.retainedLockout = s.store.retainedLockout ∧
    (switchChanged i active s).port.config = s.port.config ∧
    (switchChanged i active s).port.configDigest = s.port.configDigest ∧
    (switchChanged i active s).port.receiving = s.port.receiving ∧
    (switchChanged i active s).port.resetArmed = s.port.resetArmed ∧
    (switchChanged i active s).port.response = s.port.response ∧
    (switchChanged i active s).cal.committed = s.cal.committed := by
  simp only [switchChanged]; (repeat' split) <;> simp

@[simp] theorem switchSample_keeps (i : SwitchInput) (raw : Bool) (s : State) :
    (switchSample i raw s).pending = s.pending ∧ (switchSample i raw s).now = s.now ∧
    (switchSample i raw s).freeCount = s.freeCount ∧ (switchSample i raw s).power = s.power ∧
    (switchSample i raw s).standby = s.standby ∧ (switchSample i raw s).decoder = s.decoder ∧
    (switchSample i raw s).peers = s.peers ∧ (switchSample i raw s).mem = s.mem ∧
    (switchSample i raw s).link.station = s.link.station ∧ (switchSample i raw s).link.state = s.link.state ∧
    (switchSample i raw s).link.timed = s.link.timed ∧ (switchSample i raw s).link.cycle = s.link.cycle ∧
    (switchSample i raw s).link.cycleStart = s.link.cycleStart ∧ (switchSample i raw s).link.muted = s.link.muted ∧
    (switchSample i raw s).link.mismatches = s.link.mismatches ∧ (switchSample i raw s).link.tx = s.link.tx ∧
    (switchSample i raw s).link.offsets = s.link.offsets ∧
    (switchSample i raw s).link.acceptedInCycle = s.link.acceptedInCycle ∧
    (switchSample i raw s).link.foreignInCycle = s.link.foreignInCycle ∧
    (switchSample i raw s).link.listenSince = s.link.listenSince ∧
    (switchSample i raw s).hold.lockClear = s.hold.lockClear ∧
    (switchSample i raw s).hold.lockClearLeft = s.hold.lockClearLeft ∧
    (switchSample i raw s).coord.run = s.coord.run ∧
    (switchSample i raw s).coord.journalActive = s.coord.journalActive ∧
    (switchSample i raw s).coord.start = s.coord.start ∧ (switchSample i raw s).coord.restart = s.coord.restart ∧
    (switchSample i raw s).coord.restartLeft = s.coord.restartLeft ∧
    (switchSample i raw s).coord.lastRunClaim = s.coord.lastRunClaim ∧
    (switchSample i raw s).plan.steps = s.plan.steps ∧ (switchSample i raw s).plan.isSealed = s.plan.isSealed ∧
    (switchSample i raw s).plan.digest = s.plan.digest ∧ (switchSample i raw s).store.scanDone = s.store.scanDone ∧
    (switchSample i raw s).store.tail = s.store.tail ∧ (switchSample i raw s).store.pointer = s.store.pointer ∧
    (switchSample i raw s).store.finalOut = s.store.finalOut ∧ (switchSample i raw s).store.dip = s.store.dip ∧
    (switchSample i raw s).store.retainedLockout = s.store.retainedLockout ∧
    (switchSample i raw s).port.config = s.port.config ∧
    (switchSample i raw s).port.configDigest = s.port.configDigest ∧
    (switchSample i raw s).port.receiving = s.port.receiving ∧
    (switchSample i raw s).port.resetArmed = s.port.resetArmed ∧
    (switchSample i raw s).port.response = s.port.response ∧
    (switchSample i raw s).sensing.settling = s.sensing.settling ∧
    (switchSample i raw s).sensing.captures = s.sensing.captures ∧
    (switchSample i raw s).sensing.accepted = s.sensing.accepted ∧
    (switchSample i raw s).sensing.pfail = s.sensing.pfail ∧ (switchSample i raw s).cal.committed = s.cal.committed := by
  simp only [switchSample]; (repeat' split) <;> simp

@[simp] theorem pfailSample_keeps (raw : Bool) (s : State) :
    (pfailSample raw s).pending = s.pending ∧ (pfailSample raw s).now = s.now ∧
    (pfailSample raw s).freeCount = s.freeCount ∧ (pfailSample raw s).power = s.power ∧
    (pfailSample raw s).standby = s.standby ∧ (pfailSample raw s).decoder = s.decoder ∧
    (pfailSample raw s).peers = s.peers ∧ (pfailSample raw s).mem = s.mem ∧
    (pfailSample raw s).link.station = s.link.station ∧ (pfailSample raw s).link.state = s.link.state ∧
    (pfailSample raw s).link.timed = s.link.timed ∧ (pfailSample raw s).link.cycle = s.link.cycle ∧
    (pfailSample raw s).link.cycleStart = s.link.cycleStart ∧ (pfailSample raw s).link.muted = s.link.muted ∧
    (pfailSample raw s).link.mismatches = s.link.mismatches ∧ (pfailSample raw s).link.tx = s.link.tx ∧
    (pfailSample raw s).link.offsets = s.link.offsets ∧
    (pfailSample raw s).link.acceptedInCycle = s.link.acceptedInCycle ∧
    (pfailSample raw s).link.foreignInCycle = s.link.foreignInCycle ∧
    (pfailSample raw s).link.listenSince = s.link.listenSince ∧ (pfailSample raw s).hold.keyCount = s.hold.keyCount ∧
    (pfailSample raw s).hold.lockClear = s.hold.lockClear ∧
    (pfailSample raw s).hold.lockClearLeft = s.hold.lockClearLeft ∧ (pfailSample raw s).coord.run = s.coord.run ∧
    (pfailSample raw s).coord.journalActive = s.coord.journalActive ∧
    (pfailSample raw s).coord.start = s.coord.start ∧ (pfailSample raw s).coord.restart = s.coord.restart ∧
    (pfailSample raw s).coord.restartLeft = s.coord.restartLeft ∧
    (pfailSample raw s).coord.lastRunClaim = s.coord.lastRunClaim ∧ (pfailSample raw s).plan.steps = s.plan.steps ∧
    (pfailSample raw s).plan.isSealed = s.plan.isSealed ∧ (pfailSample raw s).plan.digest = s.plan.digest ∧
    (pfailSample raw s).store.scanDone = s.store.scanDone ∧ (pfailSample raw s).store.tail = s.store.tail ∧
    (pfailSample raw s).store.pointer = s.store.pointer ∧
    (pfailSample raw s).store.retainedLockout = s.store.retainedLockout ∧
    (pfailSample raw s).port.config = s.port.config ∧ (pfailSample raw s).port.configDigest = s.port.configDigest ∧
    (pfailSample raw s).port.receiving = s.port.receiving ∧ (pfailSample raw s).port.resetArmed = s.port.resetArmed ∧
    (pfailSample raw s).port.response = s.port.response ∧ (pfailSample raw s).sensing.settling = s.sensing.settling ∧
    (pfailSample raw s).sensing.captures = s.sensing.captures ∧
    (pfailSample raw s).sensing.accepted = s.sensing.accepted ∧
    (pfailSample raw s).sensing.drvStill = s.sensing.drvStill ∧ (pfailSample raw s).sensing.brkFb = s.sensing.brkFb ∧
    (pfailSample raw s).cal.committed = s.cal.committed := by
  simp only [pfailSample]; (repeat' split) <;> simp

@[simp] theorem countTransition_keeps (positive : Bool) (s : State) :
    (countTransition positive s).pending = s.pending ∧ (countTransition positive s).now = s.now ∧
    (countTransition positive s).freeCount = s.freeCount ∧ (countTransition positive s).power = s.power ∧
    (countTransition positive s).decoder = s.decoder ∧ (countTransition positive s).sensing = s.sensing ∧
    (countTransition positive s).engine = s.engine ∧ (countTransition positive s).link = s.link ∧
    (countTransition positive s).peers = s.peers ∧ (countTransition positive s).coord = s.coord ∧
    (countTransition positive s).plan = s.plan ∧ (countTransition positive s).hold = s.hold ∧
    (countTransition positive s).gate = s.gate ∧ (countTransition positive s).cal = s.cal ∧
    (countTransition positive s).store = s.store ∧ (countTransition positive s).mem = s.mem ∧
    (countTransition positive s).port = s.port ∧
    (countTransition positive s).standby.supplyLoss = s.standby.supplyLoss ∧
    (countTransition positive s).standby.excursion = s.standby.excursion ∧
    (countTransition positive s).standby.alive = s.standby.alive := by
  simp [countTransition]

@[simp] theorem dropCaptures_keeps (s : State) :
    (dropCaptures s).pending = s.pending ∧ (dropCaptures s).now = s.now ∧ (dropCaptures s).freeCount = s.freeCount ∧
    (dropCaptures s).power = s.power ∧ (dropCaptures s).standby = s.standby ∧ (dropCaptures s).decoder = s.decoder ∧
    (dropCaptures s).engine = s.engine ∧ (dropCaptures s).link = s.link ∧ (dropCaptures s).peers = s.peers ∧
    (dropCaptures s).coord = s.coord ∧ (dropCaptures s).plan = s.plan ∧ (dropCaptures s).hold = s.hold ∧
    (dropCaptures s).gate = s.gate ∧ (dropCaptures s).cal = s.cal ∧ (dropCaptures s).store = s.store ∧
    (dropCaptures s).mem = s.mem ∧ (dropCaptures s).port = s.port ∧
    (dropCaptures s).sensing.settling = s.sensing.settling ∧ (dropCaptures s).sensing.accepted = s.sensing.accepted ∧
    (dropCaptures s).sensing.drvStill = s.sensing.drvStill ∧ (dropCaptures s).sensing.brkFb = s.sensing.brkFb ∧
    (dropCaptures s).sensing.pfail = s.sensing.pfail := by
  simp [dropCaptures]

@[simp] theorem mainQuadError_keeps (s : State) :
    (mainQuadError s).pending = s.pending ∧ (mainQuadError s).now = s.now ∧
    (mainQuadError s).freeCount = s.freeCount ∧ (mainQuadError s).power = s.power ∧
    (mainQuadError s).decoder = s.decoder ∧ (mainQuadError s).peers = s.peers ∧ (mainQuadError s).mem = s.mem ∧
    (mainQuadError s).link.station = s.link.station ∧ (mainQuadError s).link.state = s.link.state ∧
    (mainQuadError s).link.timed = s.link.timed ∧ (mainQuadError s).link.cycle = s.link.cycle ∧
    (mainQuadError s).link.cycleStart = s.link.cycleStart ∧ (mainQuadError s).link.muted = s.link.muted ∧
    (mainQuadError s).link.mismatches = s.link.mismatches ∧ (mainQuadError s).link.tx = s.link.tx ∧
    (mainQuadError s).link.offsets = s.link.offsets ∧
    (mainQuadError s).link.acceptedInCycle = s.link.acceptedInCycle ∧
    (mainQuadError s).link.foreignInCycle = s.link.foreignInCycle ∧
    (mainQuadError s).link.listenSince = s.link.listenSince ∧ (mainQuadError s).hold.keyCount = s.hold.keyCount ∧
    (mainQuadError s).hold.lockClear = s.hold.lockClear ∧
    (mainQuadError s).hold.lockClearLeft = s.hold.lockClearLeft ∧ (mainQuadError s).coord.run = s.coord.run ∧
    (mainQuadError s).coord.journalActive = s.coord.journalActive ∧ (mainQuadError s).coord.start = s.coord.start ∧
    (mainQuadError s).coord.restart = s.coord.restart ∧ (mainQuadError s).coord.restartLeft = s.coord.restartLeft ∧
    (mainQuadError s).coord.lastRunClaim = s.coord.lastRunClaim ∧ (mainQuadError s).plan.steps = s.plan.steps ∧
    (mainQuadError s).plan.isSealed = s.plan.isSealed ∧ (mainQuadError s).plan.digest = s.plan.digest ∧
    (mainQuadError s).store.scanDone = s.store.scanDone ∧ (mainQuadError s).store.tail = s.store.tail ∧
    (mainQuadError s).store.pointer = s.store.pointer ∧ (mainQuadError s).store.finalOut = s.store.finalOut ∧
    (mainQuadError s).store.dip = s.store.dip ∧ (mainQuadError s).store.retainedLockout = s.store.retainedLockout ∧
    (mainQuadError s).port.config = s.port.config ∧ (mainQuadError s).port.configDigest = s.port.configDigest ∧
    (mainQuadError s).port.receiving = s.port.receiving ∧ (mainQuadError s).port.resetArmed = s.port.resetArmed ∧
    (mainQuadError s).port.response = s.port.response ∧ (mainQuadError s).sensing.settling = s.sensing.settling ∧
    (mainQuadError s).sensing.accepted = s.sensing.accepted ∧
    (mainQuadError s).sensing.drvStill = s.sensing.drvStill ∧ (mainQuadError s).sensing.brkFb = s.sensing.brkFb ∧
    (mainQuadError s).sensing.pfail = s.sensing.pfail ∧ (mainQuadError s).standby.counter = s.standby.counter ∧
    (mainQuadError s).standby.supplyLoss = s.standby.supplyLoss ∧
    (mainQuadError s).standby.excursion = s.standby.excursion ∧ (mainQuadError s).standby.alive = s.standby.alive ∧
    (mainQuadError s).cal.committed = s.cal.committed := by
  simp [mainQuadError]

@[simp] theorem resolveSpurious_keeps (e : PendingEdge) (s : State) :
    (resolveSpurious e s).pending = s.pending ∧ (resolveSpurious e s).now = s.now ∧
    (resolveSpurious e s).freeCount = s.freeCount ∧ (resolveSpurious e s).power = s.power ∧
    (resolveSpurious e s).standby = s.standby ∧ (resolveSpurious e s).decoder = s.decoder ∧
    (resolveSpurious e s).peers = s.peers ∧ (resolveSpurious e s).mem = s.mem ∧
    (resolveSpurious e s).link.station = s.link.station ∧ (resolveSpurious e s).link.state = s.link.state ∧
    (resolveSpurious e s).link.timed = s.link.timed ∧ (resolveSpurious e s).link.cycle = s.link.cycle ∧
    (resolveSpurious e s).link.cycleStart = s.link.cycleStart ∧ (resolveSpurious e s).link.muted = s.link.muted ∧
    (resolveSpurious e s).link.mismatches = s.link.mismatches ∧ (resolveSpurious e s).link.tx = s.link.tx ∧
    (resolveSpurious e s).link.offsets = s.link.offsets ∧
    (resolveSpurious e s).link.acceptedInCycle = s.link.acceptedInCycle ∧
    (resolveSpurious e s).link.foreignInCycle = s.link.foreignInCycle ∧
    (resolveSpurious e s).link.listenSince = s.link.listenSince ∧
    (resolveSpurious e s).hold.keyCount = s.hold.keyCount ∧ (resolveSpurious e s).hold.lockClear = s.hold.lockClear ∧
    (resolveSpurious e s).hold.lockClearLeft = s.hold.lockClearLeft ∧ (resolveSpurious e s).coord.run = s.coord.run ∧
    (resolveSpurious e s).coord.journalActive = s.coord.journalActive ∧
    (resolveSpurious e s).coord.start = s.coord.start ∧ (resolveSpurious e s).coord.restart = s.coord.restart ∧
    (resolveSpurious e s).coord.restartLeft = s.coord.restartLeft ∧
    (resolveSpurious e s).coord.lastRunClaim = s.coord.lastRunClaim ∧
    (resolveSpurious e s).plan.steps = s.plan.steps ∧ (resolveSpurious e s).plan.isSealed = s.plan.isSealed ∧
    (resolveSpurious e s).plan.digest = s.plan.digest ∧ (resolveSpurious e s).store.scanDone = s.store.scanDone ∧
    (resolveSpurious e s).store.tail = s.store.tail ∧ (resolveSpurious e s).store.pointer = s.store.pointer ∧
    (resolveSpurious e s).store.finalOut = s.store.finalOut ∧ (resolveSpurious e s).store.dip = s.store.dip ∧
    (resolveSpurious e s).store.retainedLockout = s.store.retainedLockout ∧
    (resolveSpurious e s).port.config = s.port.config ∧
    (resolveSpurious e s).port.configDigest = s.port.configDigest ∧
    (resolveSpurious e s).port.receiving = s.port.receiving ∧
    (resolveSpurious e s).port.resetArmed = s.port.resetArmed ∧
    (resolveSpurious e s).port.response = s.port.response ∧
    (resolveSpurious e s).sensing.settling = s.sensing.settling ∧
    (resolveSpurious e s).sensing.captures = s.sensing.captures ∧
    (resolveSpurious e s).sensing.accepted = s.sensing.accepted ∧
    (resolveSpurious e s).sensing.drvStill = s.sensing.drvStill ∧
    (resolveSpurious e s).sensing.brkFb = s.sensing.brkFb ∧ (resolveSpurious e s).sensing.pfail = s.sensing.pfail ∧
    (resolveSpurious e s).cal.committed = s.cal.committed := by
  simp [resolveSpurious]

@[simp] theorem edgeDistance_keeps (s : State) :
    (edgeDistance s).pending = s.pending ∧ (edgeDistance s).now = s.now ∧ (edgeDistance s).freeCount = s.freeCount ∧
    (edgeDistance s).power = s.power ∧ (edgeDistance s).standby = s.standby ∧ (edgeDistance s).decoder = s.decoder ∧
    (edgeDistance s).peers = s.peers ∧ (edgeDistance s).mem = s.mem ∧
    (edgeDistance s).link.station = s.link.station ∧ (edgeDistance s).link.state = s.link.state ∧
    (edgeDistance s).link.timed = s.link.timed ∧ (edgeDistance s).link.cycle = s.link.cycle ∧
    (edgeDistance s).link.cycleStart = s.link.cycleStart ∧ (edgeDistance s).link.muted = s.link.muted ∧
    (edgeDistance s).link.mismatches = s.link.mismatches ∧ (edgeDistance s).link.tx = s.link.tx ∧
    (edgeDistance s).link.offsets = s.link.offsets ∧ (edgeDistance s).link.acceptedInCycle = s.link.acceptedInCycle ∧
    (edgeDistance s).link.foreignInCycle = s.link.foreignInCycle ∧
    (edgeDistance s).link.listenSince = s.link.listenSince ∧ (edgeDistance s).hold.keyCount = s.hold.keyCount ∧
    (edgeDistance s).hold.lockClear = s.hold.lockClear ∧ (edgeDistance s).hold.lockClearLeft = s.hold.lockClearLeft ∧
    (edgeDistance s).coord.run = s.coord.run ∧ (edgeDistance s).coord.journalActive = s.coord.journalActive ∧
    (edgeDistance s).coord.start = s.coord.start ∧ (edgeDistance s).coord.restart = s.coord.restart ∧
    (edgeDistance s).coord.restartLeft = s.coord.restartLeft ∧
    (edgeDistance s).coord.lastRunClaim = s.coord.lastRunClaim ∧ (edgeDistance s).plan.steps = s.plan.steps ∧
    (edgeDistance s).plan.isSealed = s.plan.isSealed ∧ (edgeDistance s).plan.digest = s.plan.digest ∧
    (edgeDistance s).store.scanDone = s.store.scanDone ∧ (edgeDistance s).store.tail = s.store.tail ∧
    (edgeDistance s).store.pointer = s.store.pointer ∧ (edgeDistance s).store.finalOut = s.store.finalOut ∧
    (edgeDistance s).store.dip = s.store.dip ∧ (edgeDistance s).store.retainedLockout = s.store.retainedLockout ∧
    (edgeDistance s).port.config = s.port.config ∧ (edgeDistance s).port.configDigest = s.port.configDigest ∧
    (edgeDistance s).port.receiving = s.port.receiving ∧ (edgeDistance s).port.resetArmed = s.port.resetArmed ∧
    (edgeDistance s).port.response = s.port.response ∧ (edgeDistance s).sensing.settling = s.sensing.settling ∧
    (edgeDistance s).sensing.captures = s.sensing.captures ∧ (edgeDistance s).sensing.accepted = s.sensing.accepted ∧
    (edgeDistance s).sensing.drvStill = s.sensing.drvStill ∧ (edgeDistance s).sensing.brkFb = s.sensing.brkFb ∧
    (edgeDistance s).sensing.pfail = s.sensing.pfail ∧ (edgeDistance s).cal.committed = s.cal.committed := by
  simp only [edgeDistance]; (repeat' split) <;> simp

@[simp] theorem mainTransition_keeps (positive : Bool) (s : State) :
    (mainTransition positive s).pending = s.pending ∧ (mainTransition positive s).now = s.now ∧
    (mainTransition positive s).freeCount = s.freeCount ∧ (mainTransition positive s).power = s.power ∧
    (mainTransition positive s).decoder = s.decoder ∧ (mainTransition positive s).peers = s.peers ∧
    (mainTransition positive s).mem = s.mem ∧ (mainTransition positive s).link.station = s.link.station ∧
    (mainTransition positive s).link.state = s.link.state ∧ (mainTransition positive s).link.timed = s.link.timed ∧
    (mainTransition positive s).link.cycle = s.link.cycle ∧
    (mainTransition positive s).link.cycleStart = s.link.cycleStart ∧
    (mainTransition positive s).link.muted = s.link.muted ∧
    (mainTransition positive s).link.mismatches = s.link.mismatches ∧
    (mainTransition positive s).link.tx = s.link.tx ∧ (mainTransition positive s).link.offsets = s.link.offsets ∧
    (mainTransition positive s).link.acceptedInCycle = s.link.acceptedInCycle ∧
    (mainTransition positive s).link.foreignInCycle = s.link.foreignInCycle ∧
    (mainTransition positive s).link.listenSince = s.link.listenSince ∧
    (mainTransition positive s).hold.keyCount = s.hold.keyCount ∧
    (mainTransition positive s).hold.lockClear = s.hold.lockClear ∧
    (mainTransition positive s).hold.lockClearLeft = s.hold.lockClearLeft ∧
    (mainTransition positive s).coord.run = s.coord.run ∧
    (mainTransition positive s).coord.journalActive = s.coord.journalActive ∧
    (mainTransition positive s).coord.start = s.coord.start ∧
    (mainTransition positive s).coord.restart = s.coord.restart ∧
    (mainTransition positive s).coord.restartLeft = s.coord.restartLeft ∧
    (mainTransition positive s).coord.lastRunClaim = s.coord.lastRunClaim ∧
    (mainTransition positive s).plan.steps = s.plan.steps ∧
    (mainTransition positive s).plan.isSealed = s.plan.isSealed ∧
    (mainTransition positive s).plan.digest = s.plan.digest ∧
    (mainTransition positive s).store.scanDone = s.store.scanDone ∧
    (mainTransition positive s).store.tail = s.store.tail ∧
    (mainTransition positive s).store.pointer = s.store.pointer ∧
    (mainTransition positive s).store.finalOut = s.store.finalOut ∧
    (mainTransition positive s).store.dip = s.store.dip ∧
    (mainTransition positive s).store.retainedLockout = s.store.retainedLockout ∧
    (mainTransition positive s).port.config = s.port.config ∧
    (mainTransition positive s).port.configDigest = s.port.configDigest ∧
    (mainTransition positive s).port.receiving = s.port.receiving ∧
    (mainTransition positive s).port.resetArmed = s.port.resetArmed ∧
    (mainTransition positive s).port.response = s.port.response ∧
    (mainTransition positive s).sensing.settling = s.sensing.settling ∧
    (mainTransition positive s).sensing.captures = s.sensing.captures ∧
    (mainTransition positive s).sensing.accepted = s.sensing.accepted ∧
    (mainTransition positive s).sensing.drvStill = s.sensing.drvStill ∧
    (mainTransition positive s).sensing.brkFb = s.sensing.brkFb ∧
    (mainTransition positive s).sensing.pfail = s.sensing.pfail ∧
    (mainTransition positive s).standby.supplyLoss = s.standby.supplyLoss ∧
    (mainTransition positive s).standby.excursion = s.standby.excursion ∧
    (mainTransition positive s).standby.alive = s.standby.alive ∧
    (mainTransition positive s).cal.committed = s.cal.committed := by
  simp [mainTransition]

@[simp] theorem mainSample_keeps (a b : Bool) (s : State) :
    (mainSample a b s).pending = s.pending ∧ (mainSample a b s).now = s.now ∧
    (mainSample a b s).freeCount = s.freeCount ∧ (mainSample a b s).power = s.power ∧
    (mainSample a b s).peers = s.peers ∧ (mainSample a b s).mem = s.mem ∧
    (mainSample a b s).link.station = s.link.station ∧ (mainSample a b s).link.state = s.link.state ∧
    (mainSample a b s).link.timed = s.link.timed ∧ (mainSample a b s).link.cycle = s.link.cycle ∧
    (mainSample a b s).link.cycleStart = s.link.cycleStart ∧ (mainSample a b s).link.muted = s.link.muted ∧
    (mainSample a b s).link.mismatches = s.link.mismatches ∧ (mainSample a b s).link.tx = s.link.tx ∧
    (mainSample a b s).link.offsets = s.link.offsets ∧
    (mainSample a b s).link.acceptedInCycle = s.link.acceptedInCycle ∧
    (mainSample a b s).link.foreignInCycle = s.link.foreignInCycle ∧
    (mainSample a b s).link.listenSince = s.link.listenSince ∧ (mainSample a b s).hold.keyCount = s.hold.keyCount ∧
    (mainSample a b s).hold.lockClear = s.hold.lockClear ∧
    (mainSample a b s).hold.lockClearLeft = s.hold.lockClearLeft ∧ (mainSample a b s).coord.run = s.coord.run ∧
    (mainSample a b s).coord.journalActive = s.coord.journalActive ∧ (mainSample a b s).coord.start = s.coord.start ∧
    (mainSample a b s).coord.restart = s.coord.restart ∧ (mainSample a b s).coord.restartLeft = s.coord.restartLeft ∧
    (mainSample a b s).coord.lastRunClaim = s.coord.lastRunClaim ∧ (mainSample a b s).plan.steps = s.plan.steps ∧
    (mainSample a b s).plan.isSealed = s.plan.isSealed ∧ (mainSample a b s).plan.digest = s.plan.digest ∧
    (mainSample a b s).store.scanDone = s.store.scanDone ∧ (mainSample a b s).store.tail = s.store.tail ∧
    (mainSample a b s).store.pointer = s.store.pointer ∧ (mainSample a b s).store.finalOut = s.store.finalOut ∧
    (mainSample a b s).store.dip = s.store.dip ∧ (mainSample a b s).store.retainedLockout = s.store.retainedLockout ∧
    (mainSample a b s).port.config = s.port.config ∧ (mainSample a b s).port.configDigest = s.port.configDigest ∧
    (mainSample a b s).port.receiving = s.port.receiving ∧ (mainSample a b s).port.resetArmed = s.port.resetArmed ∧
    (mainSample a b s).port.response = s.port.response ∧ (mainSample a b s).sensing.settling = s.sensing.settling ∧
    (mainSample a b s).sensing.accepted = s.sensing.accepted ∧
    (mainSample a b s).sensing.drvStill = s.sensing.drvStill ∧ (mainSample a b s).sensing.brkFb = s.sensing.brkFb ∧
    (mainSample a b s).sensing.pfail = s.sensing.pfail ∧
    (mainSample a b s).standby.supplyLoss = s.standby.supplyLoss ∧
    (mainSample a b s).standby.excursion = s.standby.excursion ∧ (mainSample a b s).standby.alive = s.standby.alive ∧
    (mainSample a b s).cal.committed = s.cal.committed := by
  simp only [mainSample]; (repeat' split) <;> simp

@[simp] theorem noteExcursion_keeps (s : State) :
    (noteExcursion s).pending = s.pending ∧ (noteExcursion s).now = s.now ∧
    (noteExcursion s).freeCount = s.freeCount ∧ (noteExcursion s).power = s.power ∧
    (noteExcursion s).decoder = s.decoder ∧ (noteExcursion s).sensing = s.sensing ∧
    (noteExcursion s).engine = s.engine ∧ (noteExcursion s).link = s.link ∧ (noteExcursion s).peers = s.peers ∧
    (noteExcursion s).coord = s.coord ∧ (noteExcursion s).plan = s.plan ∧ (noteExcursion s).hold = s.hold ∧
    (noteExcursion s).gate = s.gate ∧ (noteExcursion s).cal = s.cal ∧ (noteExcursion s).store = s.store ∧
    (noteExcursion s).mem = s.mem ∧ (noteExcursion s).port = s.port ∧
    (noteExcursion s).standby.counter = s.standby.counter ∧
    (noteExcursion s).standby.supplyLoss = s.standby.supplyLoss ∧ (noteExcursion s).standby.alive = s.standby.alive := by
  simp only [noteExcursion]; (repeat' split) <;> simp

@[simp] theorem standbyTransition_keeps (positive : Bool) (s : State) :
    (standbyTransition positive s).pending = s.pending ∧ (standbyTransition positive s).now = s.now ∧
    (standbyTransition positive s).freeCount = s.freeCount ∧ (standbyTransition positive s).power = s.power ∧
    (standbyTransition positive s).sensing = s.sensing ∧ (standbyTransition positive s).peers = s.peers ∧
    (standbyTransition positive s).mem = s.mem ∧ (standbyTransition positive s).link.station = s.link.station ∧
    (standbyTransition positive s).link.state = s.link.state ∧
    (standbyTransition positive s).link.timed = s.link.timed ∧
    (standbyTransition positive s).link.cycle = s.link.cycle ∧
    (standbyTransition positive s).link.cycleStart = s.link.cycleStart ∧
    (standbyTransition positive s).link.muted = s.link.muted ∧
    (standbyTransition positive s).link.mismatches = s.link.mismatches ∧
    (standbyTransition positive s).link.tx = s.link.tx ∧
    (standbyTransition positive s).link.offsets = s.link.offsets ∧
    (standbyTransition positive s).link.acceptedInCycle = s.link.acceptedInCycle ∧
    (standbyTransition positive s).link.foreignInCycle = s.link.foreignInCycle ∧
    (standbyTransition positive s).link.listenSince = s.link.listenSince ∧
    (standbyTransition positive s).hold.keyCount = s.hold.keyCount ∧
    (standbyTransition positive s).hold.lockClear = s.hold.lockClear ∧
    (standbyTransition positive s).hold.lockClearLeft = s.hold.lockClearLeft ∧
    (standbyTransition positive s).coord.run = s.coord.run ∧
    (standbyTransition positive s).coord.journalActive = s.coord.journalActive ∧
    (standbyTransition positive s).coord.start = s.coord.start ∧
    (standbyTransition positive s).coord.restart = s.coord.restart ∧
    (standbyTransition positive s).coord.restartLeft = s.coord.restartLeft ∧
    (standbyTransition positive s).coord.lastRunClaim = s.coord.lastRunClaim ∧
    (standbyTransition positive s).plan.steps = s.plan.steps ∧
    (standbyTransition positive s).plan.isSealed = s.plan.isSealed ∧
    (standbyTransition positive s).plan.digest = s.plan.digest ∧
    (standbyTransition positive s).store.scanDone = s.store.scanDone ∧
    (standbyTransition positive s).store.tail = s.store.tail ∧
    (standbyTransition positive s).store.pointer = s.store.pointer ∧
    (standbyTransition positive s).store.finalOut = s.store.finalOut ∧
    (standbyTransition positive s).store.dip = s.store.dip ∧
    (standbyTransition positive s).store.retainedLockout = s.store.retainedLockout ∧
    (standbyTransition positive s).port.config = s.port.config ∧
    (standbyTransition positive s).port.configDigest = s.port.configDigest ∧
    (standbyTransition positive s).port.receiving = s.port.receiving ∧
    (standbyTransition positive s).port.resetArmed = s.port.resetArmed ∧
    (standbyTransition positive s).port.response = s.port.response ∧
    (standbyTransition positive s).standby.supplyLoss = s.standby.supplyLoss ∧
    (standbyTransition positive s).standby.alive = s.standby.alive ∧
    (standbyTransition positive s).cal.committed = s.cal.committed := by
  simp only [standbyTransition]; (repeat' split) <;> simp

@[simp] theorem standbyRead_keeps (a b : Bool) (s : State) :
    (standbyRead a b s).pending = s.pending ∧ (standbyRead a b s).now = s.now ∧
    (standbyRead a b s).freeCount = s.freeCount ∧ (standbyRead a b s).power = s.power ∧
    (standbyRead a b s).sensing = s.sensing ∧ (standbyRead a b s).peers = s.peers ∧ (standbyRead a b s).mem = s.mem ∧
    (standbyRead a b s).link.station = s.link.station ∧ (standbyRead a b s).link.state = s.link.state ∧
    (standbyRead a b s).link.timed = s.link.timed ∧ (standbyRead a b s).link.cycle = s.link.cycle ∧
    (standbyRead a b s).link.cycleStart = s.link.cycleStart ∧ (standbyRead a b s).link.muted = s.link.muted ∧
    (standbyRead a b s).link.mismatches = s.link.mismatches ∧ (standbyRead a b s).link.tx = s.link.tx ∧
    (standbyRead a b s).link.offsets = s.link.offsets ∧
    (standbyRead a b s).link.acceptedInCycle = s.link.acceptedInCycle ∧
    (standbyRead a b s).link.foreignInCycle = s.link.foreignInCycle ∧
    (standbyRead a b s).link.listenSince = s.link.listenSince ∧ (standbyRead a b s).hold.keyCount = s.hold.keyCount ∧
    (standbyRead a b s).hold.lockClear = s.hold.lockClear ∧
    (standbyRead a b s).hold.lockClearLeft = s.hold.lockClearLeft ∧ (standbyRead a b s).coord.run = s.coord.run ∧
    (standbyRead a b s).coord.journalActive = s.coord.journalActive ∧
    (standbyRead a b s).coord.start = s.coord.start ∧ (standbyRead a b s).coord.restart = s.coord.restart ∧
    (standbyRead a b s).coord.restartLeft = s.coord.restartLeft ∧
    (standbyRead a b s).coord.lastRunClaim = s.coord.lastRunClaim ∧ (standbyRead a b s).plan.steps = s.plan.steps ∧
    (standbyRead a b s).plan.isSealed = s.plan.isSealed ∧ (standbyRead a b s).plan.digest = s.plan.digest ∧
    (standbyRead a b s).store.scanDone = s.store.scanDone ∧ (standbyRead a b s).store.tail = s.store.tail ∧
    (standbyRead a b s).store.pointer = s.store.pointer ∧ (standbyRead a b s).store.finalOut = s.store.finalOut ∧
    (standbyRead a b s).store.dip = s.store.dip ∧
    (standbyRead a b s).store.retainedLockout = s.store.retainedLockout ∧
    (standbyRead a b s).port.config = s.port.config ∧ (standbyRead a b s).port.configDigest = s.port.configDigest ∧
    (standbyRead a b s).port.receiving = s.port.receiving ∧ (standbyRead a b s).port.resetArmed = s.port.resetArmed ∧
    (standbyRead a b s).port.response = s.port.response ∧
    (standbyRead a b s).standby.supplyLoss = s.standby.supplyLoss ∧
    (standbyRead a b s).standby.alive = s.standby.alive ∧ (standbyRead a b s).cal.committed = s.cal.committed := by
  simp only [standbyRead]; (repeat' split) <;> simp

@[simp] theorem pushCapture_keeps (c : Capture) (s : State) :
    (pushCapture c s).pending = s.pending ∧ (pushCapture c s).now = s.now ∧
    (pushCapture c s).freeCount = s.freeCount ∧ (pushCapture c s).power = s.power ∧
    (pushCapture c s).decoder = s.decoder ∧ (pushCapture c s).peers = s.peers ∧ (pushCapture c s).mem = s.mem ∧
    (pushCapture c s).link.station = s.link.station ∧ (pushCapture c s).link.state = s.link.state ∧
    (pushCapture c s).link.timed = s.link.timed ∧ (pushCapture c s).link.cycle = s.link.cycle ∧
    (pushCapture c s).link.cycleStart = s.link.cycleStart ∧ (pushCapture c s).link.muted = s.link.muted ∧
    (pushCapture c s).link.mismatches = s.link.mismatches ∧ (pushCapture c s).link.tx = s.link.tx ∧
    (pushCapture c s).link.offsets = s.link.offsets ∧
    (pushCapture c s).link.acceptedInCycle = s.link.acceptedInCycle ∧
    (pushCapture c s).link.foreignInCycle = s.link.foreignInCycle ∧
    (pushCapture c s).link.listenSince = s.link.listenSince ∧ (pushCapture c s).hold.keyCount = s.hold.keyCount ∧
    (pushCapture c s).hold.lockClear = s.hold.lockClear ∧
    (pushCapture c s).hold.lockClearLeft = s.hold.lockClearLeft ∧ (pushCapture c s).coord.run = s.coord.run ∧
    (pushCapture c s).coord.journalActive = s.coord.journalActive ∧ (pushCapture c s).coord.start = s.coord.start ∧
    (pushCapture c s).coord.restart = s.coord.restart ∧ (pushCapture c s).coord.restartLeft = s.coord.restartLeft ∧
    (pushCapture c s).coord.lastRunClaim = s.coord.lastRunClaim ∧ (pushCapture c s).plan.steps = s.plan.steps ∧
    (pushCapture c s).plan.isSealed = s.plan.isSealed ∧ (pushCapture c s).plan.digest = s.plan.digest ∧
    (pushCapture c s).store.scanDone = s.store.scanDone ∧ (pushCapture c s).store.tail = s.store.tail ∧
    (pushCapture c s).store.pointer = s.store.pointer ∧ (pushCapture c s).store.finalOut = s.store.finalOut ∧
    (pushCapture c s).store.dip = s.store.dip ∧ (pushCapture c s).store.retainedLockout = s.store.retainedLockout ∧
    (pushCapture c s).port.config = s.port.config ∧ (pushCapture c s).port.configDigest = s.port.configDigest ∧
    (pushCapture c s).port.receiving = s.port.receiving ∧ (pushCapture c s).port.resetArmed = s.port.resetArmed ∧
    (pushCapture c s).port.response = s.port.response ∧ (pushCapture c s).sensing.settling = s.sensing.settling ∧
    (pushCapture c s).sensing.accepted = s.sensing.accepted ∧
    (pushCapture c s).sensing.drvStill = s.sensing.drvStill ∧ (pushCapture c s).sensing.brkFb = s.sensing.brkFb ∧
    (pushCapture c s).sensing.pfail = s.sensing.pfail ∧ (pushCapture c s).standby.supplyLoss = s.standby.supplyLoss ∧
    (pushCapture c s).standby.excursion = s.standby.excursion ∧ (pushCapture c s).standby.alive = s.standby.alive ∧
    (pushCapture c s).cal.committed = s.cal.committed := by
  simp [pushCapture]

@[simp] theorem useLastChange_keeps (s : State) :
    (useLastChange s).pending = s.pending ∧ (useLastChange s).now = s.now ∧
    (useLastChange s).freeCount = s.freeCount ∧ (useLastChange s).power = s.power ∧
    (useLastChange s).standby = s.standby ∧ (useLastChange s).decoder = s.decoder ∧
    (useLastChange s).engine = s.engine ∧ (useLastChange s).link = s.link ∧ (useLastChange s).peers = s.peers ∧
    (useLastChange s).coord = s.coord ∧ (useLastChange s).plan = s.plan ∧ (useLastChange s).hold = s.hold ∧
    (useLastChange s).gate = s.gate ∧ (useLastChange s).cal = s.cal ∧ (useLastChange s).store = s.store ∧
    (useLastChange s).mem = s.mem ∧ (useLastChange s).port = s.port ∧
    (useLastChange s).sensing.settling = s.sensing.settling ∧
    (useLastChange s).sensing.captures = s.sensing.captures ∧
    (useLastChange s).sensing.accepted = s.sensing.accepted ∧
    (useLastChange s).sensing.drvStill = s.sensing.drvStill ∧ (useLastChange s).sensing.brkFb = s.sensing.brkFb ∧
    (useLastChange s).sensing.pfail = s.sensing.pfail := by
  simp [useLastChange]

@[simp] theorem qualify_keeps (l : LastChange) (d : Direction) (value : Position) (cycle : Option (BitVec 32)) (s : State) :
    (qualify l d value cycle s).pending = s.pending ∧ (qualify l d value cycle s).now = s.now ∧
    (qualify l d value cycle s).freeCount = s.freeCount ∧ (qualify l d value cycle s).power = s.power ∧
    (qualify l d value cycle s).decoder = s.decoder ∧ (qualify l d value cycle s).peers = s.peers ∧
    (qualify l d value cycle s).mem = s.mem ∧ (qualify l d value cycle s).link.station = s.link.station ∧
    (qualify l d value cycle s).link.state = s.link.state ∧ (qualify l d value cycle s).link.timed = s.link.timed ∧
    (qualify l d value cycle s).link.cycle = s.link.cycle ∧
    (qualify l d value cycle s).link.cycleStart = s.link.cycleStart ∧
    (qualify l d value cycle s).link.muted = s.link.muted ∧
    (qualify l d value cycle s).link.mismatches = s.link.mismatches ∧
    (qualify l d value cycle s).link.tx = s.link.tx ∧ (qualify l d value cycle s).link.offsets = s.link.offsets ∧
    (qualify l d value cycle s).link.acceptedInCycle = s.link.acceptedInCycle ∧
    (qualify l d value cycle s).link.foreignInCycle = s.link.foreignInCycle ∧
    (qualify l d value cycle s).link.listenSince = s.link.listenSince ∧
    (qualify l d value cycle s).hold.keyCount = s.hold.keyCount ∧
    (qualify l d value cycle s).hold.lockClear = s.hold.lockClear ∧
    (qualify l d value cycle s).hold.lockClearLeft = s.hold.lockClearLeft ∧
    (qualify l d value cycle s).coord.run = s.coord.run ∧
    (qualify l d value cycle s).coord.journalActive = s.coord.journalActive ∧
    (qualify l d value cycle s).coord.start = s.coord.start ∧
    (qualify l d value cycle s).coord.restart = s.coord.restart ∧
    (qualify l d value cycle s).coord.restartLeft = s.coord.restartLeft ∧
    (qualify l d value cycle s).coord.lastRunClaim = s.coord.lastRunClaim ∧
    (qualify l d value cycle s).plan.steps = s.plan.steps ∧
    (qualify l d value cycle s).plan.isSealed = s.plan.isSealed ∧
    (qualify l d value cycle s).plan.digest = s.plan.digest ∧
    (qualify l d value cycle s).store.scanDone = s.store.scanDone ∧
    (qualify l d value cycle s).store.tail = s.store.tail ∧
    (qualify l d value cycle s).store.pointer = s.store.pointer ∧
    (qualify l d value cycle s).store.finalOut = s.store.finalOut ∧
    (qualify l d value cycle s).store.dip = s.store.dip ∧
    (qualify l d value cycle s).store.retainedLockout = s.store.retainedLockout ∧
    (qualify l d value cycle s).port.config = s.port.config ∧
    (qualify l d value cycle s).port.configDigest = s.port.configDigest ∧
    (qualify l d value cycle s).port.receiving = s.port.receiving ∧
    (qualify l d value cycle s).port.resetArmed = s.port.resetArmed ∧
    (qualify l d value cycle s).port.response = s.port.response ∧
    (qualify l d value cycle s).sensing.settling = s.sensing.settling ∧
    (qualify l d value cycle s).sensing.accepted = s.sensing.accepted ∧
    (qualify l d value cycle s).sensing.drvStill = s.sensing.drvStill ∧
    (qualify l d value cycle s).sensing.brkFb = s.sensing.brkFb ∧
    (qualify l d value cycle s).sensing.pfail = s.sensing.pfail ∧
    (qualify l d value cycle s).standby.supplyLoss = s.standby.supplyLoss ∧
    (qualify l d value cycle s).standby.excursion = s.standby.excursion ∧
    (qualify l d value cycle s).standby.alive = s.standby.alive ∧
    (qualify l d value cycle s).cal.committed = s.cal.committed := by
  simp [qualify]

@[simp] theorem acceptStep_keeps (l : LastChange) (d : Direction) (s : State) :
    (acceptStep l d s).pending = s.pending ∧ (acceptStep l d s).now = s.now ∧
    (acceptStep l d s).freeCount = s.freeCount ∧ (acceptStep l d s).power = s.power ∧
    (acceptStep l d s).decoder = s.decoder ∧ (acceptStep l d s).peers = s.peers ∧ (acceptStep l d s).mem = s.mem ∧
    (acceptStep l d s).link.station = s.link.station ∧ (acceptStep l d s).link.state = s.link.state ∧
    (acceptStep l d s).link.timed = s.link.timed ∧ (acceptStep l d s).link.cycle = s.link.cycle ∧
    (acceptStep l d s).link.cycleStart = s.link.cycleStart ∧ (acceptStep l d s).link.muted = s.link.muted ∧
    (acceptStep l d s).link.mismatches = s.link.mismatches ∧ (acceptStep l d s).link.tx = s.link.tx ∧
    (acceptStep l d s).link.offsets = s.link.offsets ∧
    (acceptStep l d s).link.acceptedInCycle = s.link.acceptedInCycle ∧
    (acceptStep l d s).link.foreignInCycle = s.link.foreignInCycle ∧
    (acceptStep l d s).link.listenSince = s.link.listenSince ∧ (acceptStep l d s).hold.keyCount = s.hold.keyCount ∧
    (acceptStep l d s).hold.lockClear = s.hold.lockClear ∧
    (acceptStep l d s).hold.lockClearLeft = s.hold.lockClearLeft ∧ (acceptStep l d s).coord.run = s.coord.run ∧
    (acceptStep l d s).coord.journalActive = s.coord.journalActive ∧ (acceptStep l d s).coord.start = s.coord.start ∧
    (acceptStep l d s).coord.restart = s.coord.restart ∧ (acceptStep l d s).coord.restartLeft = s.coord.restartLeft ∧
    (acceptStep l d s).coord.lastRunClaim = s.coord.lastRunClaim ∧ (acceptStep l d s).plan.steps = s.plan.steps ∧
    (acceptStep l d s).plan.isSealed = s.plan.isSealed ∧ (acceptStep l d s).plan.digest = s.plan.digest ∧
    (acceptStep l d s).store.scanDone = s.store.scanDone ∧ (acceptStep l d s).store.tail = s.store.tail ∧
    (acceptStep l d s).store.pointer = s.store.pointer ∧ (acceptStep l d s).store.finalOut = s.store.finalOut ∧
    (acceptStep l d s).store.dip = s.store.dip ∧ (acceptStep l d s).store.retainedLockout = s.store.retainedLockout ∧
    (acceptStep l d s).port.config = s.port.config ∧ (acceptStep l d s).port.configDigest = s.port.configDigest ∧
    (acceptStep l d s).port.receiving = s.port.receiving ∧ (acceptStep l d s).port.resetArmed = s.port.resetArmed ∧
    (acceptStep l d s).port.response = s.port.response ∧ (acceptStep l d s).sensing.settling = s.sensing.settling ∧
    (acceptStep l d s).sensing.accepted = s.sensing.accepted ∧
    (acceptStep l d s).sensing.drvStill = s.sensing.drvStill ∧ (acceptStep l d s).sensing.brkFb = s.sensing.brkFb ∧
    (acceptStep l d s).sensing.pfail = s.sensing.pfail ∧
    (acceptStep l d s).standby.supplyLoss = s.standby.supplyLoss ∧
    (acceptStep l d s).standby.excursion = s.standby.excursion ∧ (acceptStep l d s).standby.alive = s.standby.alive ∧
    (acceptStep l d s).cal.committed = s.cal.committed := by
  simp only [acceptStep]; (repeat' split) <;> simp

@[simp] theorem acceptJump_keeps (step : Option Nat) (old new : Nat) (s : State) :
    (acceptJump step old new s).pending = s.pending ∧ (acceptJump step old new s).now = s.now ∧
    (acceptJump step old new s).freeCount = s.freeCount ∧ (acceptJump step old new s).power = s.power ∧
    (acceptJump step old new s).standby = s.standby ∧ (acceptJump step old new s).decoder = s.decoder ∧
    (acceptJump step old new s).peers = s.peers ∧ (acceptJump step old new s).mem = s.mem ∧
    (acceptJump step old new s).link.station = s.link.station ∧
    (acceptJump step old new s).link.state = s.link.state ∧ (acceptJump step old new s).link.timed = s.link.timed ∧
    (acceptJump step old new s).link.cycle = s.link.cycle ∧
    (acceptJump step old new s).link.cycleStart = s.link.cycleStart ∧
    (acceptJump step old new s).link.muted = s.link.muted ∧
    (acceptJump step old new s).link.mismatches = s.link.mismatches ∧
    (acceptJump step old new s).link.tx = s.link.tx ∧ (acceptJump step old new s).link.offsets = s.link.offsets ∧
    (acceptJump step old new s).link.acceptedInCycle = s.link.acceptedInCycle ∧
    (acceptJump step old new s).link.foreignInCycle = s.link.foreignInCycle ∧
    (acceptJump step old new s).link.listenSince = s.link.listenSince ∧
    (acceptJump step old new s).hold.keyCount = s.hold.keyCount ∧
    (acceptJump step old new s).hold.lockClear = s.hold.lockClear ∧
    (acceptJump step old new s).hold.lockClearLeft = s.hold.lockClearLeft ∧
    (acceptJump step old new s).coord.run = s.coord.run ∧
    (acceptJump step old new s).coord.journalActive = s.coord.journalActive ∧
    (acceptJump step old new s).coord.start = s.coord.start ∧
    (acceptJump step old new s).coord.restart = s.coord.restart ∧
    (acceptJump step old new s).coord.restartLeft = s.coord.restartLeft ∧
    (acceptJump step old new s).coord.lastRunClaim = s.coord.lastRunClaim ∧
    (acceptJump step old new s).plan.steps = s.plan.steps ∧
    (acceptJump step old new s).plan.isSealed = s.plan.isSealed ∧
    (acceptJump step old new s).plan.digest = s.plan.digest ∧
    (acceptJump step old new s).store.scanDone = s.store.scanDone ∧
    (acceptJump step old new s).store.tail = s.store.tail ∧
    (acceptJump step old new s).store.pointer = s.store.pointer ∧
    (acceptJump step old new s).store.finalOut = s.store.finalOut ∧
    (acceptJump step old new s).store.dip = s.store.dip ∧
    (acceptJump step old new s).store.retainedLockout = s.store.retainedLockout ∧
    (acceptJump step old new s).port.config = s.port.config ∧
    (acceptJump step old new s).port.configDigest = s.port.configDigest ∧
    (acceptJump step old new s).port.receiving = s.port.receiving ∧
    (acceptJump step old new s).port.resetArmed = s.port.resetArmed ∧
    (acceptJump step old new s).port.response = s.port.response ∧
    (acceptJump step old new s).sensing.settling = s.sensing.settling ∧
    (acceptJump step old new s).sensing.accepted = s.sensing.accepted ∧
    (acceptJump step old new s).sensing.drvStill = s.sensing.drvStill ∧
    (acceptJump step old new s).sensing.brkFb = s.sensing.brkFb ∧
    (acceptJump step old new s).sensing.pfail = s.sensing.pfail ∧
    (acceptJump step old new s).cal.committed = s.cal.committed := by
  simp [acceptJump]

@[simp] theorem acceptSector_keeps (n : Nat) (s : State) :
    (acceptSector n s).pending = s.pending ∧ (acceptSector n s).now = s.now ∧
    (acceptSector n s).freeCount = s.freeCount ∧ (acceptSector n s).power = s.power ∧
    (acceptSector n s).decoder = s.decoder ∧ (acceptSector n s).peers = s.peers ∧ (acceptSector n s).mem = s.mem ∧
    (acceptSector n s).link.station = s.link.station ∧ (acceptSector n s).link.state = s.link.state ∧
    (acceptSector n s).link.timed = s.link.timed ∧ (acceptSector n s).link.cycle = s.link.cycle ∧
    (acceptSector n s).link.cycleStart = s.link.cycleStart ∧ (acceptSector n s).link.muted = s.link.muted ∧
    (acceptSector n s).link.mismatches = s.link.mismatches ∧ (acceptSector n s).link.tx = s.link.tx ∧
    (acceptSector n s).link.offsets = s.link.offsets ∧
    (acceptSector n s).link.acceptedInCycle = s.link.acceptedInCycle ∧
    (acceptSector n s).link.foreignInCycle = s.link.foreignInCycle ∧
    (acceptSector n s).link.listenSince = s.link.listenSince ∧ (acceptSector n s).hold.keyCount = s.hold.keyCount ∧
    (acceptSector n s).hold.lockClear = s.hold.lockClear ∧
    (acceptSector n s).hold.lockClearLeft = s.hold.lockClearLeft ∧ (acceptSector n s).coord.run = s.coord.run ∧
    (acceptSector n s).coord.journalActive = s.coord.journalActive ∧ (acceptSector n s).coord.start = s.coord.start ∧
    (acceptSector n s).coord.restart = s.coord.restart ∧ (acceptSector n s).coord.restartLeft = s.coord.restartLeft ∧
    (acceptSector n s).coord.lastRunClaim = s.coord.lastRunClaim ∧ (acceptSector n s).plan.steps = s.plan.steps ∧
    (acceptSector n s).plan.isSealed = s.plan.isSealed ∧ (acceptSector n s).plan.digest = s.plan.digest ∧
    (acceptSector n s).store.scanDone = s.store.scanDone ∧ (acceptSector n s).store.tail = s.store.tail ∧
    (acceptSector n s).store.pointer = s.store.pointer ∧ (acceptSector n s).store.finalOut = s.store.finalOut ∧
    (acceptSector n s).store.dip = s.store.dip ∧ (acceptSector n s).store.retainedLockout = s.store.retainedLockout ∧
    (acceptSector n s).port.config = s.port.config ∧ (acceptSector n s).port.configDigest = s.port.configDigest ∧
    (acceptSector n s).port.receiving = s.port.receiving ∧ (acceptSector n s).port.resetArmed = s.port.resetArmed ∧
    (acceptSector n s).port.response = s.port.response ∧ (acceptSector n s).sensing.settling = s.sensing.settling ∧
    (acceptSector n s).sensing.drvStill = s.sensing.drvStill ∧ (acceptSector n s).sensing.brkFb = s.sensing.brkFb ∧
    (acceptSector n s).sensing.pfail = s.sensing.pfail ∧
    (acceptSector n s).standby.supplyLoss = s.standby.supplyLoss ∧
    (acceptSector n s).standby.excursion = s.standby.excursion ∧ (acceptSector n s).standby.alive = s.standby.alive ∧
    (acceptSector n s).cal.committed = s.cal.committed := by
  simp only [acceptSector]; (repeat' split) <;> simp

@[simp] theorem sectorSample_keeps (lines : BitVec 5) (s : State) :
    (sectorSample lines s).pending = s.pending ∧ (sectorSample lines s).now = s.now ∧
    (sectorSample lines s).freeCount = s.freeCount ∧ (sectorSample lines s).power = s.power ∧
    (sectorSample lines s).decoder = s.decoder ∧ (sectorSample lines s).peers = s.peers ∧
    (sectorSample lines s).mem = s.mem ∧ (sectorSample lines s).link.station = s.link.station ∧
    (sectorSample lines s).link.state = s.link.state ∧ (sectorSample lines s).link.timed = s.link.timed ∧
    (sectorSample lines s).link.cycle = s.link.cycle ∧ (sectorSample lines s).link.cycleStart = s.link.cycleStart ∧
    (sectorSample lines s).link.muted = s.link.muted ∧ (sectorSample lines s).link.mismatches = s.link.mismatches ∧
    (sectorSample lines s).link.tx = s.link.tx ∧ (sectorSample lines s).link.offsets = s.link.offsets ∧
    (sectorSample lines s).link.acceptedInCycle = s.link.acceptedInCycle ∧
    (sectorSample lines s).link.foreignInCycle = s.link.foreignInCycle ∧
    (sectorSample lines s).link.listenSince = s.link.listenSince ∧
    (sectorSample lines s).hold.keyCount = s.hold.keyCount ∧
    (sectorSample lines s).hold.lockClear = s.hold.lockClear ∧
    (sectorSample lines s).hold.lockClearLeft = s.hold.lockClearLeft ∧
    (sectorSample lines s).coord.run = s.coord.run ∧
    (sectorSample lines s).coord.journalActive = s.coord.journalActive ∧
    (sectorSample lines s).coord.start = s.coord.start ∧ (sectorSample lines s).coord.restart = s.coord.restart ∧
    (sectorSample lines s).coord.restartLeft = s.coord.restartLeft ∧
    (sectorSample lines s).coord.lastRunClaim = s.coord.lastRunClaim ∧
    (sectorSample lines s).plan.steps = s.plan.steps ∧ (sectorSample lines s).plan.isSealed = s.plan.isSealed ∧
    (sectorSample lines s).plan.digest = s.plan.digest ∧ (sectorSample lines s).store.scanDone = s.store.scanDone ∧
    (sectorSample lines s).store.tail = s.store.tail ∧ (sectorSample lines s).store.pointer = s.store.pointer ∧
    (sectorSample lines s).store.finalOut = s.store.finalOut ∧ (sectorSample lines s).store.dip = s.store.dip ∧
    (sectorSample lines s).store.retainedLockout = s.store.retainedLockout ∧
    (sectorSample lines s).port.config = s.port.config ∧
    (sectorSample lines s).port.configDigest = s.port.configDigest ∧
    (sectorSample lines s).port.receiving = s.port.receiving ∧
    (sectorSample lines s).port.resetArmed = s.port.resetArmed ∧
    (sectorSample lines s).port.response = s.port.response ∧
    (sectorSample lines s).sensing.settling = s.sensing.settling ∧
    (sectorSample lines s).sensing.drvStill = s.sensing.drvStill ∧
    (sectorSample lines s).sensing.brkFb = s.sensing.brkFb ∧ (sectorSample lines s).sensing.pfail = s.sensing.pfail ∧
    (sectorSample lines s).standby.supplyLoss = s.standby.supplyLoss ∧
    (sectorSample lines s).standby.excursion = s.standby.excursion ∧
    (sectorSample lines s).standby.alive = s.standby.alive ∧ (sectorSample lines s).cal.committed = s.cal.committed := by
  simp only [sectorSample]; (repeat' split) <;> simp

@[simp] theorem displaceEdge_keeps (s : State) :
    (displaceEdge s).pending = s.pending ∧ (displaceEdge s).now = s.now ∧ (displaceEdge s).freeCount = s.freeCount ∧
    (displaceEdge s).power = s.power ∧ (displaceEdge s).standby = s.standby ∧ (displaceEdge s).decoder = s.decoder ∧
    (displaceEdge s).peers = s.peers ∧ (displaceEdge s).mem = s.mem ∧
    (displaceEdge s).link.station = s.link.station ∧ (displaceEdge s).link.state = s.link.state ∧
    (displaceEdge s).link.timed = s.link.timed ∧ (displaceEdge s).link.cycle = s.link.cycle ∧
    (displaceEdge s).link.cycleStart = s.link.cycleStart ∧ (displaceEdge s).link.muted = s.link.muted ∧
    (displaceEdge s).link.mismatches = s.link.mismatches ∧ (displaceEdge s).link.tx = s.link.tx ∧
    (displaceEdge s).link.offsets = s.link.offsets ∧ (displaceEdge s).link.acceptedInCycle = s.link.acceptedInCycle ∧
    (displaceEdge s).link.foreignInCycle = s.link.foreignInCycle ∧
    (displaceEdge s).link.listenSince = s.link.listenSince ∧ (displaceEdge s).hold.keyCount = s.hold.keyCount ∧
    (displaceEdge s).hold.lockClear = s.hold.lockClear ∧ (displaceEdge s).hold.lockClearLeft = s.hold.lockClearLeft ∧
    (displaceEdge s).coord.run = s.coord.run ∧ (displaceEdge s).coord.journalActive = s.coord.journalActive ∧
    (displaceEdge s).coord.start = s.coord.start ∧ (displaceEdge s).coord.restart = s.coord.restart ∧
    (displaceEdge s).coord.restartLeft = s.coord.restartLeft ∧
    (displaceEdge s).coord.lastRunClaim = s.coord.lastRunClaim ∧ (displaceEdge s).plan.steps = s.plan.steps ∧
    (displaceEdge s).plan.isSealed = s.plan.isSealed ∧ (displaceEdge s).plan.digest = s.plan.digest ∧
    (displaceEdge s).store.scanDone = s.store.scanDone ∧ (displaceEdge s).store.tail = s.store.tail ∧
    (displaceEdge s).store.pointer = s.store.pointer ∧ (displaceEdge s).store.finalOut = s.store.finalOut ∧
    (displaceEdge s).store.dip = s.store.dip ∧ (displaceEdge s).store.retainedLockout = s.store.retainedLockout ∧
    (displaceEdge s).port.config = s.port.config ∧ (displaceEdge s).port.configDigest = s.port.configDigest ∧
    (displaceEdge s).port.receiving = s.port.receiving ∧ (displaceEdge s).port.resetArmed = s.port.resetArmed ∧
    (displaceEdge s).port.response = s.port.response ∧ (displaceEdge s).sensing.settling = s.sensing.settling ∧
    (displaceEdge s).sensing.captures = s.sensing.captures ∧ (displaceEdge s).sensing.accepted = s.sensing.accepted ∧
    (displaceEdge s).sensing.drvStill = s.sensing.drvStill ∧ (displaceEdge s).sensing.brkFb = s.sensing.brkFb ∧
    (displaceEdge s).sensing.pfail = s.sensing.pfail ∧ (displaceEdge s).cal.committed = s.cal.committed := by
  simp only [displaceEdge]; (repeat' split) <;> simp

@[simp] theorem latchEdge_keeps (sector : Nat) (s : State) :
    (latchEdge sector s).pending = s.pending ∧ (latchEdge sector s).now = s.now ∧
    (latchEdge sector s).freeCount = s.freeCount ∧ (latchEdge sector s).power = s.power ∧
    (latchEdge sector s).decoder = s.decoder ∧ (latchEdge sector s).peers = s.peers ∧
    (latchEdge sector s).mem = s.mem ∧ (latchEdge sector s).link.station = s.link.station ∧
    (latchEdge sector s).link.state = s.link.state ∧ (latchEdge sector s).link.timed = s.link.timed ∧
    (latchEdge sector s).link.cycle = s.link.cycle ∧ (latchEdge sector s).link.cycleStart = s.link.cycleStart ∧
    (latchEdge sector s).link.muted = s.link.muted ∧ (latchEdge sector s).link.mismatches = s.link.mismatches ∧
    (latchEdge sector s).link.tx = s.link.tx ∧ (latchEdge sector s).link.offsets = s.link.offsets ∧
    (latchEdge sector s).link.acceptedInCycle = s.link.acceptedInCycle ∧
    (latchEdge sector s).link.foreignInCycle = s.link.foreignInCycle ∧
    (latchEdge sector s).link.listenSince = s.link.listenSince ∧
    (latchEdge sector s).hold.keyCount = s.hold.keyCount ∧ (latchEdge sector s).hold.lockClear = s.hold.lockClear ∧
    (latchEdge sector s).hold.lockClearLeft = s.hold.lockClearLeft ∧ (latchEdge sector s).coord.run = s.coord.run ∧
    (latchEdge sector s).coord.journalActive = s.coord.journalActive ∧
    (latchEdge sector s).coord.start = s.coord.start ∧ (latchEdge sector s).coord.restart = s.coord.restart ∧
    (latchEdge sector s).coord.restartLeft = s.coord.restartLeft ∧
    (latchEdge sector s).coord.lastRunClaim = s.coord.lastRunClaim ∧ (latchEdge sector s).plan.steps = s.plan.steps ∧
    (latchEdge sector s).plan.isSealed = s.plan.isSealed ∧ (latchEdge sector s).plan.digest = s.plan.digest ∧
    (latchEdge sector s).store.scanDone = s.store.scanDone ∧ (latchEdge sector s).store.tail = s.store.tail ∧
    (latchEdge sector s).store.pointer = s.store.pointer ∧ (latchEdge sector s).store.finalOut = s.store.finalOut ∧
    (latchEdge sector s).store.dip = s.store.dip ∧
    (latchEdge sector s).store.retainedLockout = s.store.retainedLockout ∧
    (latchEdge sector s).port.config = s.port.config ∧ (latchEdge sector s).port.configDigest = s.port.configDigest ∧
    (latchEdge sector s).port.receiving = s.port.receiving ∧
    (latchEdge sector s).port.resetArmed = s.port.resetArmed ∧ (latchEdge sector s).port.response = s.port.response ∧
    (latchEdge sector s).sensing.settling = s.sensing.settling ∧
    (latchEdge sector s).sensing.accepted = s.sensing.accepted ∧
    (latchEdge sector s).sensing.drvStill = s.sensing.drvStill ∧
    (latchEdge sector s).sensing.brkFb = s.sensing.brkFb ∧ (latchEdge sector s).sensing.pfail = s.sensing.pfail ∧
    (latchEdge sector s).standby.supplyLoss = s.standby.supplyLoss ∧
    (latchEdge sector s).standby.excursion = s.standby.excursion ∧
    (latchEdge sector s).standby.alive = s.standby.alive ∧ (latchEdge sector s).cal.committed = s.cal.committed := by
  simp only [latchEdge]; (repeat' split) <;> simp

@[simp] theorem motionCheck_keeps (s : State) :
    (motionCheck s).pending = s.pending ∧ (motionCheck s).now = s.now ∧ (motionCheck s).freeCount = s.freeCount ∧
    (motionCheck s).power = s.power ∧ (motionCheck s).standby = s.standby ∧ (motionCheck s).decoder = s.decoder ∧
    (motionCheck s).engine = s.engine ∧ (motionCheck s).link = s.link ∧ (motionCheck s).peers = s.peers ∧
    (motionCheck s).coord = s.coord ∧ (motionCheck s).hold = s.hold ∧ (motionCheck s).gate = s.gate ∧
    (motionCheck s).cal = s.cal ∧ (motionCheck s).store = s.store ∧ (motionCheck s).mem = s.mem ∧
    (motionCheck s).port = s.port ∧ (motionCheck s).plan.steps = s.plan.steps ∧
    (motionCheck s).plan.isSealed = s.plan.isSealed ∧ (motionCheck s).plan.digest = s.plan.digest ∧
    (motionCheck s).plan.running = s.plan.running ∧ (motionCheck s).sensing.settling = s.sensing.settling ∧
    (motionCheck s).sensing.captures = s.sensing.captures ∧ (motionCheck s).sensing.accepted = s.sensing.accepted ∧
    (motionCheck s).sensing.drvStill = s.sensing.drvStill ∧ (motionCheck s).sensing.brkFb = s.sensing.brkFb ∧
    (motionCheck s).sensing.pfail = s.sensing.pfail := by
  simp only [motionCheck]; (repeat' split) <;> simp

@[simp] theorem endSettling_keeps (s : State) :
    (endSettling s).pending = s.pending ∧ (endSettling s).now = s.now ∧ (endSettling s).freeCount = s.freeCount ∧
    (endSettling s).power = s.power ∧ (endSettling s).link = s.link ∧ (endSettling s).peers = s.peers ∧
    (endSettling s).coord = s.coord ∧ (endSettling s).plan = s.plan ∧ (endSettling s).hold = s.hold ∧
    (endSettling s).gate = s.gate ∧ (endSettling s).store = s.store ∧ (endSettling s).mem = s.mem ∧
    (endSettling s).port = s.port ∧ (endSettling s).engine.refState = s.engine.refState ∧
    (endSettling s).engine.order = s.engine.order ∧ (endSettling s).sensing.accepted = s.sensing.accepted ∧
    (endSettling s).sensing.drvStill = s.sensing.drvStill ∧ (endSettling s).sensing.brkFb = s.sensing.brkFb ∧
    (endSettling s).sensing.pfail = s.sensing.pfail ∧ (endSettling s).standby.supplyLoss = s.standby.supplyLoss ∧
    (endSettling s).standby.excursion = s.standby.excursion ∧ (endSettling s).standby.alive = s.standby.alive ∧
    (endSettling s).cal.committed = s.cal.committed ∧ (endSettling s).cal.staged = s.cal.staged := by
  simp only [endSettling]; (repeat' split) <;> simp

@[simp] theorem stopBeat_keeps (s : State) :
    (stopBeat s).pending = s.pending ∧ (stopBeat s).now = s.now ∧ (stopBeat s).power = s.power ∧
    (stopBeat s).standby = s.standby ∧ (stopBeat s).decoder = s.decoder ∧ (stopBeat s).sensing = s.sensing ∧
    (stopBeat s).engine = s.engine ∧ (stopBeat s).link = s.link ∧ (stopBeat s).peers = s.peers ∧
    (stopBeat s).coord = s.coord ∧ (stopBeat s).plan = s.plan ∧ (stopBeat s).hold = s.hold ∧
    (stopBeat s).gate = s.gate ∧ (stopBeat s).cal = s.cal ∧ (stopBeat s).store = s.store ∧ (stopBeat s).port = s.port := by
  simp only [stopBeat]; (repeat' split) <;> simp

@[simp] theorem resetMainDomain_keeps (kind : StartKind) (alive : Bool) (straps : Station) (s : State) :
    (resetMainDomain kind alive straps s).pending = s.pending ∧ (resetMainDomain kind alive straps s).now = s.now ∧
    (resetMainDomain kind alive straps s).freeCount = s.freeCount ∧
    (resetMainDomain kind alive straps s).power = s.power ∧
    (resetMainDomain kind alive straps s).standby = s.standby ∧ (resetMainDomain kind alive straps s).mem = s.mem := by
  simp [resetMainDomain]

@[simp] theorem loseMainSupply_keeps (s : State) :
    (loseMainSupply s).pending = s.pending ∧ (loseMainSupply s).now = s.now ∧
    (loseMainSupply s).sensing = s.sensing ∧ (loseMainSupply s).engine = s.engine ∧
    (loseMainSupply s).link = s.link ∧ (loseMainSupply s).peers = s.peers ∧ (loseMainSupply s).coord = s.coord ∧
    (loseMainSupply s).plan = s.plan ∧ (loseMainSupply s).hold = s.hold ∧ (loseMainSupply s).gate = s.gate ∧
    (loseMainSupply s).cal = s.cal ∧ (loseMainSupply s).store = s.store ∧ (loseMainSupply s).port = s.port ∧
    (loseMainSupply s).standby.counter = s.standby.counter ∧ (loseMainSupply s).standby.alive = s.standby.alive := by
  simp only [loseMainSupply]; (repeat' split) <;> simp

@[simp] theorem loseStandby_keeps (s : State) :
    (loseStandby s).pending = s.pending ∧ (loseStandby s).now = s.now ∧ (loseStandby s).decoder = s.decoder ∧
    (loseStandby s).sensing = s.sensing ∧ (loseStandby s).engine = s.engine ∧ (loseStandby s).link = s.link ∧
    (loseStandby s).peers = s.peers ∧ (loseStandby s).coord = s.coord ∧ (loseStandby s).plan = s.plan ∧
    (loseStandby s).hold = s.hold ∧ (loseStandby s).gate = s.gate ∧ (loseStandby s).cal = s.cal ∧
    (loseStandby s).store = s.store ∧ (loseStandby s).mem = s.mem ∧ (loseStandby s).port = s.port := by
  simp [loseStandby]

@[simp] theorem raiseMainSupply_keeps (alive : Bool) (straps : Station) (s : State) :
    (raiseMainSupply alive straps s).pending = s.pending ∧ (raiseMainSupply alive straps s).now = s.now ∧
    (raiseMainSupply alive straps s).freeCount = s.freeCount ∧ (raiseMainSupply alive straps s).standby = s.standby ∧
    (raiseMainSupply alive straps s).mem = s.mem := by
  simp only [raiseMainSupply]; (repeat' split) <;> simp

@[simp] theorem coldStart_keeps (straps : Station) (s : State) :
    (coldStart straps s).pending = s.pending ∧ (coldStart straps s).now = s.now ∧
    (coldStart straps s).freeCount = s.freeCount ∧ (coldStart straps s).mem = s.mem := by
  simp [coldStart]

@[simp] theorem assertReset_keeps (s : State) :
    (assertReset s).pending = s.pending ∧ (assertReset s).now = s.now ∧ (assertReset s).freeCount = s.freeCount ∧
    (assertReset s).standby = s.standby ∧ (assertReset s).mem = s.mem := by
  simp only [assertReset]; (repeat' split) <;> simp

@[simp] theorem releaseReset_keeps (straps : Station) (s : State) :
    (releaseReset straps s).pending = s.pending ∧ (releaseReset straps s).now = s.now ∧
    (releaseReset straps s).freeCount = s.freeCount ∧ (releaseReset straps s).standby = s.standby ∧
    (releaseReset straps s).mem = s.mem := by
  simp only [releaseReset]; (repeat' split) <;> simp

@[simp] theorem seekStall_keeps (s : State) :
    (seekStall s).pending = s.pending ∧ (seekStall s).now = s.now ∧ (seekStall s).freeCount = s.freeCount ∧
    (seekStall s).power = s.power ∧ (seekStall s).standby = s.standby ∧ (seekStall s).decoder = s.decoder ∧
    (seekStall s).sensing = s.sensing ∧ (seekStall s).peers = s.peers ∧ (seekStall s).mem = s.mem ∧
    (seekStall s).link.station = s.link.station ∧ (seekStall s).link.state = s.link.state ∧
    (seekStall s).link.timed = s.link.timed ∧ (seekStall s).link.cycle = s.link.cycle ∧
    (seekStall s).link.cycleStart = s.link.cycleStart ∧ (seekStall s).link.muted = s.link.muted ∧
    (seekStall s).link.mismatches = s.link.mismatches ∧ (seekStall s).link.tx = s.link.tx ∧
    (seekStall s).link.offsets = s.link.offsets ∧ (seekStall s).link.acceptedInCycle = s.link.acceptedInCycle ∧
    (seekStall s).link.foreignInCycle = s.link.foreignInCycle ∧ (seekStall s).link.listenSince = s.link.listenSince ∧
    (seekStall s).hold.keyCount = s.hold.keyCount ∧ (seekStall s).hold.lockClear = s.hold.lockClear ∧
    (seekStall s).hold.lockClearLeft = s.hold.lockClearLeft ∧ (seekStall s).coord.run = s.coord.run ∧
    (seekStall s).coord.journalActive = s.coord.journalActive ∧ (seekStall s).coord.start = s.coord.start ∧
    (seekStall s).coord.restart = s.coord.restart ∧ (seekStall s).coord.restartLeft = s.coord.restartLeft ∧
    (seekStall s).coord.lastRunClaim = s.coord.lastRunClaim ∧ (seekStall s).plan.steps = s.plan.steps ∧
    (seekStall s).plan.isSealed = s.plan.isSealed ∧ (seekStall s).plan.digest = s.plan.digest ∧
    (seekStall s).store.scanDone = s.store.scanDone ∧ (seekStall s).store.tail = s.store.tail ∧
    (seekStall s).store.pointer = s.store.pointer ∧ (seekStall s).store.finalOut = s.store.finalOut ∧
    (seekStall s).store.dip = s.store.dip ∧ (seekStall s).store.retainedLockout = s.store.retainedLockout ∧
    (seekStall s).port.config = s.port.config ∧ (seekStall s).port.configDigest = s.port.configDigest ∧
    (seekStall s).port.receiving = s.port.receiving ∧ (seekStall s).port.resetArmed = s.port.resetArmed ∧
    (seekStall s).port.response = s.port.response ∧ (seekStall s).cal.committed = s.cal.committed := by
  simp only [seekStall]; (repeat' split) <;> simp

@[simp] theorem parkStall_keeps (s : State) :
    (parkStall s).pending = s.pending ∧ (parkStall s).now = s.now ∧ (parkStall s).freeCount = s.freeCount ∧
    (parkStall s).power = s.power ∧ (parkStall s).standby = s.standby ∧ (parkStall s).decoder = s.decoder ∧
    (parkStall s).sensing = s.sensing ∧ (parkStall s).peers = s.peers ∧ (parkStall s).mem = s.mem ∧
    (parkStall s).link.station = s.link.station ∧ (parkStall s).link.state = s.link.state ∧
    (parkStall s).link.timed = s.link.timed ∧ (parkStall s).link.cycle = s.link.cycle ∧
    (parkStall s).link.cycleStart = s.link.cycleStart ∧ (parkStall s).link.muted = s.link.muted ∧
    (parkStall s).link.mismatches = s.link.mismatches ∧ (parkStall s).link.tx = s.link.tx ∧
    (parkStall s).link.offsets = s.link.offsets ∧ (parkStall s).link.acceptedInCycle = s.link.acceptedInCycle ∧
    (parkStall s).link.foreignInCycle = s.link.foreignInCycle ∧ (parkStall s).link.listenSince = s.link.listenSince ∧
    (parkStall s).hold.keyCount = s.hold.keyCount ∧ (parkStall s).hold.lockClear = s.hold.lockClear ∧
    (parkStall s).hold.lockClearLeft = s.hold.lockClearLeft ∧ (parkStall s).coord.run = s.coord.run ∧
    (parkStall s).coord.journalActive = s.coord.journalActive ∧ (parkStall s).coord.start = s.coord.start ∧
    (parkStall s).coord.restart = s.coord.restart ∧ (parkStall s).coord.restartLeft = s.coord.restartLeft ∧
    (parkStall s).coord.lastRunClaim = s.coord.lastRunClaim ∧ (parkStall s).plan.steps = s.plan.steps ∧
    (parkStall s).plan.isSealed = s.plan.isSealed ∧ (parkStall s).plan.digest = s.plan.digest ∧
    (parkStall s).store.scanDone = s.store.scanDone ∧ (parkStall s).store.tail = s.store.tail ∧
    (parkStall s).store.pointer = s.store.pointer ∧ (parkStall s).store.finalOut = s.store.finalOut ∧
    (parkStall s).store.dip = s.store.dip ∧ (parkStall s).store.retainedLockout = s.store.retainedLockout ∧
    (parkStall s).port.config = s.port.config ∧ (parkStall s).port.configDigest = s.port.configDigest ∧
    (parkStall s).port.receiving = s.port.receiving ∧ (parkStall s).port.resetArmed = s.port.resetArmed ∧
    (parkStall s).port.response = s.port.response ∧ (parkStall s).cal.committed = s.cal.committed := by
  simp only [parkStall]; (repeat' split) <;> simp

@[simp] theorem surveyStall_keeps (s : State) :
    (surveyStall s).pending = s.pending ∧ (surveyStall s).now = s.now ∧ (surveyStall s).freeCount = s.freeCount ∧
    (surveyStall s).power = s.power ∧ (surveyStall s).standby = s.standby ∧ (surveyStall s).decoder = s.decoder ∧
    (surveyStall s).sensing = s.sensing ∧ (surveyStall s).peers = s.peers ∧ (surveyStall s).coord = s.coord ∧
    (surveyStall s).mem = s.mem ∧ (surveyStall s).link.station = s.link.station ∧
    (surveyStall s).link.state = s.link.state ∧ (surveyStall s).link.timed = s.link.timed ∧
    (surveyStall s).link.cycle = s.link.cycle ∧ (surveyStall s).link.cycleStart = s.link.cycleStart ∧
    (surveyStall s).link.muted = s.link.muted ∧ (surveyStall s).link.mismatches = s.link.mismatches ∧
    (surveyStall s).link.tx = s.link.tx ∧ (surveyStall s).link.offsets = s.link.offsets ∧
    (surveyStall s).link.acceptedInCycle = s.link.acceptedInCycle ∧
    (surveyStall s).link.foreignInCycle = s.link.foreignInCycle ∧
    (surveyStall s).link.listenSince = s.link.listenSince ∧ (surveyStall s).hold.level = s.hold.level ∧
    (surveyStall s).hold.complete = s.hold.complete ∧ (surveyStall s).hold.seq = s.hold.seq ∧
    (surveyStall s).hold.keyCount = s.hold.keyCount ∧ (surveyStall s).hold.lockClear = s.hold.lockClear ∧
    (surveyStall s).hold.lockClearLeft = s.hold.lockClearLeft ∧ (surveyStall s).plan.steps = s.plan.steps ∧
    (surveyStall s).plan.isSealed = s.plan.isSealed ∧ (surveyStall s).plan.digest = s.plan.digest ∧
    (surveyStall s).plan.running = s.plan.running ∧ (surveyStall s).store.scanDone = s.store.scanDone ∧
    (surveyStall s).store.tail = s.store.tail ∧ (surveyStall s).store.pointer = s.store.pointer ∧
    (surveyStall s).store.lastTag = s.store.lastTag ∧ (surveyStall s).store.finalOut = s.store.finalOut ∧
    (surveyStall s).store.dip = s.store.dip ∧ (surveyStall s).store.retainedLockout = s.store.retainedLockout ∧
    (surveyStall s).port.config = s.port.config ∧ (surveyStall s).port.configDigest = s.port.configDigest ∧
    (surveyStall s).port.receiving = s.port.receiving ∧ (surveyStall s).port.resetArmed = s.port.resetArmed ∧
    (surveyStall s).port.response = s.port.response ∧ (surveyStall s).cal.committed = s.cal.committed := by
  simp only [surveyStall]; (repeat' split) <;> simp

@[simp] theorem escalateEntry_keeps (s : State) :
    (escalateEntry s).pending = s.pending ∧ (escalateEntry s).now = s.now ∧
    (escalateEntry s).freeCount = s.freeCount ∧ (escalateEntry s).power = s.power ∧
    (escalateEntry s).standby = s.standby ∧ (escalateEntry s).decoder = s.decoder ∧
    (escalateEntry s).sensing = s.sensing ∧ (escalateEntry s).peers = s.peers ∧ (escalateEntry s).coord = s.coord ∧
    (escalateEntry s).mem = s.mem ∧ (escalateEntry s).link.station = s.link.station ∧
    (escalateEntry s).link.state = s.link.state ∧ (escalateEntry s).link.timed = s.link.timed ∧
    (escalateEntry s).link.cycle = s.link.cycle ∧ (escalateEntry s).link.cycleStart = s.link.cycleStart ∧
    (escalateEntry s).link.muted = s.link.muted ∧ (escalateEntry s).link.mismatches = s.link.mismatches ∧
    (escalateEntry s).link.tx = s.link.tx ∧ (escalateEntry s).link.offsets = s.link.offsets ∧
    (escalateEntry s).link.acceptedInCycle = s.link.acceptedInCycle ∧
    (escalateEntry s).link.foreignInCycle = s.link.foreignInCycle ∧
    (escalateEntry s).link.listenSince = s.link.listenSince ∧ (escalateEntry s).hold.seq = s.hold.seq ∧
    (escalateEntry s).hold.keyCount = s.hold.keyCount ∧ (escalateEntry s).hold.lockClear = s.hold.lockClear ∧
    (escalateEntry s).hold.lockClearLeft = s.hold.lockClearLeft ∧ (escalateEntry s).plan.steps = s.plan.steps ∧
    (escalateEntry s).plan.isSealed = s.plan.isSealed ∧ (escalateEntry s).plan.digest = s.plan.digest ∧
    (escalateEntry s).store.scanDone = s.store.scanDone ∧ (escalateEntry s).store.tail = s.store.tail ∧
    (escalateEntry s).store.pointer = s.store.pointer ∧ (escalateEntry s).store.finalOut = s.store.finalOut ∧
    (escalateEntry s).store.dip = s.store.dip ∧ (escalateEntry s).store.retainedLockout = s.store.retainedLockout ∧
    (escalateEntry s).port.config = s.port.config ∧ (escalateEntry s).port.configDigest = s.port.configDigest ∧
    (escalateEntry s).port.receiving = s.port.receiving ∧ (escalateEntry s).port.resetArmed = s.port.resetArmed ∧
    (escalateEntry s).port.response = s.port.response ∧ (escalateEntry s).cal.committed = s.cal.committed := by
  simp only [escalateEntry]; (repeat' split) <;> simp

@[simp] theorem abandonFrame_keeps (s : State) :
    (abandonFrame s).pending = s.pending ∧ (abandonFrame s).now = s.now ∧ (abandonFrame s).freeCount = s.freeCount ∧
    (abandonFrame s).power = s.power ∧ (abandonFrame s).standby = s.standby ∧ (abandonFrame s).decoder = s.decoder ∧
    (abandonFrame s).sensing = s.sensing ∧ (abandonFrame s).peers = s.peers ∧ (abandonFrame s).mem = s.mem ∧
    (abandonFrame s).link.station = s.link.station ∧ (abandonFrame s).link.cycle = s.link.cycle ∧
    (abandonFrame s).link.cycleStart = s.link.cycleStart ∧ (abandonFrame s).hold.keyCount = s.hold.keyCount ∧
    (abandonFrame s).hold.lockClear = s.hold.lockClear ∧ (abandonFrame s).hold.lockClearLeft = s.hold.lockClearLeft ∧
    (abandonFrame s).coord.run = s.coord.run ∧ (abandonFrame s).coord.journalActive = s.coord.journalActive ∧
    (abandonFrame s).coord.start = s.coord.start ∧ (abandonFrame s).coord.restart = s.coord.restart ∧
    (abandonFrame s).coord.restartLeft = s.coord.restartLeft ∧
    (abandonFrame s).coord.lastRunClaim = s.coord.lastRunClaim ∧ (abandonFrame s).plan.steps = s.plan.steps ∧
    (abandonFrame s).plan.isSealed = s.plan.isSealed ∧ (abandonFrame s).plan.digest = s.plan.digest ∧
    (abandonFrame s).store.scanDone = s.store.scanDone ∧ (abandonFrame s).store.tail = s.store.tail ∧
    (abandonFrame s).store.pointer = s.store.pointer ∧ (abandonFrame s).store.finalOut = s.store.finalOut ∧
    (abandonFrame s).store.dip = s.store.dip ∧ (abandonFrame s).store.retainedLockout = s.store.retainedLockout ∧
    (abandonFrame s).port.config = s.port.config ∧ (abandonFrame s).port.configDigest = s.port.configDigest ∧
    (abandonFrame s).port.receiving = s.port.receiving ∧ (abandonFrame s).port.resetArmed = s.port.resetArmed ∧
    (abandonFrame s).port.response = s.port.response ∧ (abandonFrame s).cal.committed = s.cal.committed := by
  simp only [abandonFrame]; (repeat' split) <;> simp

@[simp] theorem receiveFrame_keeps (ago : Time) (bytes : List Byte) (s : State) :
    (receiveFrame ago bytes s).pending = s.pending ∧ (receiveFrame ago bytes s).now = s.now ∧
    (receiveFrame ago bytes s).power = s.power ∧ (receiveFrame ago bytes s).standby = s.standby ∧
    (receiveFrame ago bytes s).decoder = s.decoder ∧ (receiveFrame ago bytes s).sensing = s.sensing ∧
    (receiveFrame ago bytes s).mem = s.mem ∧ (receiveFrame ago bytes s).link.station = s.link.station ∧
    (receiveFrame ago bytes s).link.muted = s.link.muted ∧
    (receiveFrame ago bytes s).link.mismatches = s.link.mismatches ∧
    (receiveFrame ago bytes s).hold.keyCount = s.hold.keyCount ∧ (receiveFrame ago bytes s).coord.run = s.coord.run ∧
    (receiveFrame ago bytes s).coord.journalActive = s.coord.journalActive ∧
    (receiveFrame ago bytes s).coord.start = s.coord.start ∧ (receiveFrame ago bytes s).plan.steps = s.plan.steps ∧
    (receiveFrame ago bytes s).plan.isSealed = s.plan.isSealed ∧
    (receiveFrame ago bytes s).plan.digest = s.plan.digest ∧
    (receiveFrame ago bytes s).store.scanDone = s.store.scanDone ∧
    (receiveFrame ago bytes s).store.tail = s.store.tail ∧
    (receiveFrame ago bytes s).store.pointer = s.store.pointer ∧
    (receiveFrame ago bytes s).store.finalOut = s.store.finalOut ∧
    (receiveFrame ago bytes s).store.dip = s.store.dip ∧
    (receiveFrame ago bytes s).store.retainedLockout = s.store.retainedLockout ∧
    (receiveFrame ago bytes s).port.config = s.port.config ∧
    (receiveFrame ago bytes s).port.configDigest = s.port.configDigest ∧
    (receiveFrame ago bytes s).port.receiving = s.port.receiving ∧
    (receiveFrame ago bytes s).port.resetArmed = s.port.resetArmed ∧
    (receiveFrame ago bytes s).port.response = s.port.response ∧
    (receiveFrame ago bytes s).cal.committed = s.cal.committed := by
  simp only [receiveFrame]; (repeat' split) <;> simp

@[simp] theorem slotEnd_keeps (k : Station) (s : State) :
    (slotEnd k s).pending = s.pending ∧ (slotEnd k s).now = s.now ∧ (slotEnd k s).power = s.power ∧
    (slotEnd k s).standby = s.standby ∧ (slotEnd k s).decoder = s.decoder ∧ (slotEnd k s).sensing = s.sensing ∧
    (slotEnd k s).mem = s.mem ∧ (slotEnd k s).link.station = s.link.station ∧
    (slotEnd k s).link.state = s.link.state ∧ (slotEnd k s).link.timed = s.link.timed ∧
    (slotEnd k s).link.cycle = s.link.cycle ∧ (slotEnd k s).link.cycleStart = s.link.cycleStart ∧
    (slotEnd k s).link.muted = s.link.muted ∧ (slotEnd k s).link.mismatches = s.link.mismatches ∧
    (slotEnd k s).link.tx = s.link.tx ∧ (slotEnd k s).link.offsets = s.link.offsets ∧
    (slotEnd k s).link.acceptedInCycle = s.link.acceptedInCycle ∧
    (slotEnd k s).link.foreignInCycle = s.link.foreignInCycle ∧ (slotEnd k s).link.listenSince = s.link.listenSince ∧
    (slotEnd k s).hold.keyCount = s.hold.keyCount ∧ (slotEnd k s).hold.lockClear = s.hold.lockClear ∧
    (slotEnd k s).hold.lockClearLeft = s.hold.lockClearLeft ∧ (slotEnd k s).coord.run = s.coord.run ∧
    (slotEnd k s).coord.journalActive = s.coord.journalActive ∧ (slotEnd k s).coord.start = s.coord.start ∧
    (slotEnd k s).coord.restart = s.coord.restart ∧ (slotEnd k s).coord.restartLeft = s.coord.restartLeft ∧
    (slotEnd k s).coord.lastRunClaim = s.coord.lastRunClaim ∧ (slotEnd k s).plan.steps = s.plan.steps ∧
    (slotEnd k s).plan.isSealed = s.plan.isSealed ∧ (slotEnd k s).plan.digest = s.plan.digest ∧
    (slotEnd k s).store.scanDone = s.store.scanDone ∧ (slotEnd k s).store.tail = s.store.tail ∧
    (slotEnd k s).store.pointer = s.store.pointer ∧ (slotEnd k s).store.finalOut = s.store.finalOut ∧
    (slotEnd k s).store.dip = s.store.dip ∧ (slotEnd k s).store.retainedLockout = s.store.retainedLockout ∧
    (slotEnd k s).port.config = s.port.config ∧ (slotEnd k s).port.configDigest = s.port.configDigest ∧
    (slotEnd k s).port.receiving = s.port.receiving ∧ (slotEnd k s).port.resetArmed = s.port.resetArmed ∧
    (slotEnd k s).port.response = s.port.response ∧ (slotEnd k s).cal.committed = s.cal.committed := by
  simp only [slotEnd]; (repeat' split) <;> simp

@[simp] theorem listenPeriod_keeps (s : State) :
    (listenPeriod s).pending = s.pending ∧ (listenPeriod s).now = s.now ∧ (listenPeriod s).power = s.power ∧
    (listenPeriod s).standby = s.standby ∧ (listenPeriod s).decoder = s.decoder ∧
    (listenPeriod s).sensing = s.sensing ∧ (listenPeriod s).mem = s.mem ∧
    (listenPeriod s).link.station = s.link.station ∧ (listenPeriod s).link.state = s.link.state ∧
    (listenPeriod s).link.timed = s.link.timed ∧ (listenPeriod s).link.cycle = s.link.cycle ∧
    (listenPeriod s).link.cycleStart = s.link.cycleStart ∧ (listenPeriod s).link.muted = s.link.muted ∧
    (listenPeriod s).link.mismatches = s.link.mismatches ∧ (listenPeriod s).link.tx = s.link.tx ∧
    (listenPeriod s).link.offsets = s.link.offsets ∧ (listenPeriod s).link.acceptedInCycle = s.link.acceptedInCycle ∧
    (listenPeriod s).link.foreignInCycle = s.link.foreignInCycle ∧
    (listenPeriod s).link.listenSince = s.link.listenSince ∧ (listenPeriod s).hold.keyCount = s.hold.keyCount ∧
    (listenPeriod s).coord.run = s.coord.run ∧ (listenPeriod s).coord.journalActive = s.coord.journalActive ∧
    (listenPeriod s).coord.start = s.coord.start ∧ (listenPeriod s).coord.lastRunClaim = s.coord.lastRunClaim ∧
    (listenPeriod s).plan.steps = s.plan.steps ∧ (listenPeriod s).plan.isSealed = s.plan.isSealed ∧
    (listenPeriod s).plan.digest = s.plan.digest ∧ (listenPeriod s).store.scanDone = s.store.scanDone ∧
    (listenPeriod s).store.tail = s.store.tail ∧ (listenPeriod s).store.pointer = s.store.pointer ∧
    (listenPeriod s).store.finalOut = s.store.finalOut ∧ (listenPeriod s).store.dip = s.store.dip ∧
    (listenPeriod s).store.retainedLockout = s.store.retainedLockout ∧ (listenPeriod s).port.config = s.port.config ∧
    (listenPeriod s).port.configDigest = s.port.configDigest ∧ (listenPeriod s).port.receiving = s.port.receiving ∧
    (listenPeriod s).port.resetArmed = s.port.resetArmed ∧ (listenPeriod s).port.response = s.port.response ∧
    (listenPeriod s).cal.committed = s.cal.committed := by
  simp [listenPeriod]

@[simp] theorem timeItself_keeps (s : State) :
    (timeItself s).pending = s.pending ∧ (timeItself s).now = s.now ∧ (timeItself s).freeCount = s.freeCount ∧
    (timeItself s).power = s.power ∧ (timeItself s).standby = s.standby ∧ (timeItself s).decoder = s.decoder ∧
    (timeItself s).sensing = s.sensing ∧ (timeItself s).peers = s.peers ∧ (timeItself s).mem = s.mem ∧
    (timeItself s).link.station = s.link.station ∧ (timeItself s).link.muted = s.link.muted ∧
    (timeItself s).link.mismatches = s.link.mismatches ∧ (timeItself s).link.tx = s.link.tx ∧
    (timeItself s).link.listenSince = s.link.listenSince ∧ (timeItself s).hold.keyCount = s.hold.keyCount ∧
    (timeItself s).hold.lockClear = s.hold.lockClear ∧ (timeItself s).hold.lockClearLeft = s.hold.lockClearLeft ∧
    (timeItself s).coord.run = s.coord.run ∧ (timeItself s).coord.journalActive = s.coord.journalActive ∧
    (timeItself s).coord.start = s.coord.start ∧ (timeItself s).coord.restart = s.coord.restart ∧
    (timeItself s).coord.restartLeft = s.coord.restartLeft ∧
    (timeItself s).coord.lastRunClaim = s.coord.lastRunClaim ∧ (timeItself s).plan.steps = s.plan.steps ∧
    (timeItself s).plan.isSealed = s.plan.isSealed ∧ (timeItself s).plan.digest = s.plan.digest ∧
    (timeItself s).store.scanDone = s.store.scanDone ∧ (timeItself s).store.tail = s.store.tail ∧
    (timeItself s).store.pointer = s.store.pointer ∧ (timeItself s).store.finalOut = s.store.finalOut ∧
    (timeItself s).store.dip = s.store.dip ∧ (timeItself s).store.retainedLockout = s.store.retainedLockout ∧
    (timeItself s).port.config = s.port.config ∧ (timeItself s).port.configDigest = s.port.configDigest ∧
    (timeItself s).port.receiving = s.port.receiving ∧ (timeItself s).port.resetArmed = s.port.resetArmed ∧
    (timeItself s).port.response = s.port.response ∧ (timeItself s).cal.committed = s.cal.committed := by
  simp [timeItself]

@[simp] theorem openRequest_keeps (keepsKey : Bool) (s : State) :
    (openRequest keepsKey s).pending = s.pending ∧ (openRequest keepsKey s).now = s.now ∧
    (openRequest keepsKey s).freeCount = s.freeCount ∧ (openRequest keepsKey s).power = s.power ∧
    (openRequest keepsKey s).standby = s.standby ∧ (openRequest keepsKey s).decoder = s.decoder ∧
    (openRequest keepsKey s).sensing = s.sensing ∧ (openRequest keepsKey s).engine = s.engine ∧
    (openRequest keepsKey s).link = s.link ∧ (openRequest keepsKey s).peers = s.peers ∧
    (openRequest keepsKey s).coord = s.coord ∧ (openRequest keepsKey s).plan = s.plan ∧
    (openRequest keepsKey s).gate = s.gate ∧ (openRequest keepsKey s).cal = s.cal ∧
    (openRequest keepsKey s).store = s.store ∧ (openRequest keepsKey s).mem = s.mem ∧
    (openRequest keepsKey s).hold.level = s.hold.level ∧ (openRequest keepsKey s).hold.complete = s.hold.complete ∧
    (openRequest keepsKey s).hold.seq = s.hold.seq ∧ (openRequest keepsKey s).hold.faults = s.hold.faults ∧
    (openRequest keepsKey s).hold.lockClear = s.hold.lockClear ∧
    (openRequest keepsKey s).hold.lockClearLeft = s.hold.lockClearLeft ∧
    (openRequest keepsKey s).port.config = s.port.config ∧
    (openRequest keepsKey s).port.configDigest = s.port.configDigest ∧
    (openRequest keepsKey s).port.resetArmed = s.port.resetArmed := by
  simp only [openRequest]; (repeat' split) <;> simp

@[simp] theorem joinArm_keeps (s : State) :
    (joinArm s).pending = s.pending ∧ (joinArm s).now = s.now ∧ (joinArm s).freeCount = s.freeCount ∧
    (joinArm s).power = s.power ∧ (joinArm s).standby = s.standby ∧ (joinArm s).decoder = s.decoder ∧
    (joinArm s).sensing = s.sensing ∧ (joinArm s).engine = s.engine ∧ (joinArm s).mem = s.mem ∧
    (joinArm s).link.station = s.link.station ∧ (joinArm s).link.cycle = s.link.cycle ∧
    (joinArm s).link.cycleStart = s.link.cycleStart ∧ (joinArm s).link.muted = s.link.muted ∧
    (joinArm s).link.mismatches = s.link.mismatches ∧ (joinArm s).hold.level = s.hold.level ∧
    (joinArm s).hold.seq = s.hold.seq ∧ (joinArm s).hold.keyCount = s.hold.keyCount ∧
    (joinArm s).hold.lockClear = s.hold.lockClear ∧ (joinArm s).hold.lockClearLeft = s.hold.lockClearLeft ∧
    (joinArm s).coord.run = s.coord.run ∧ (joinArm s).coord.journalActive = s.coord.journalActive ∧
    (joinArm s).coord.start = s.coord.start ∧ (joinArm s).coord.restart = s.coord.restart ∧
    (joinArm s).coord.restartLeft = s.coord.restartLeft ∧ (joinArm s).coord.lastRunClaim = s.coord.lastRunClaim ∧
    (joinArm s).plan.steps = s.plan.steps ∧ (joinArm s).plan.isSealed = s.plan.isSealed ∧
    (joinArm s).plan.digest = s.plan.digest ∧ (joinArm s).store.scanDone = s.store.scanDone ∧
    (joinArm s).store.tail = s.store.tail ∧ (joinArm s).store.pointer = s.store.pointer ∧
    (joinArm s).store.finalOut = s.store.finalOut ∧ (joinArm s).store.dip = s.store.dip ∧
    (joinArm s).store.retainedLockout = s.store.retainedLockout ∧ (joinArm s).port.config = s.port.config ∧
    (joinArm s).port.configDigest = s.port.configDigest ∧ (joinArm s).port.receiving = s.port.receiving ∧
    (joinArm s).port.resetArmed = s.port.resetArmed ∧ (joinArm s).port.response = s.port.response ∧
    (joinArm s).cal.committed = s.cal.committed := by
  simp [joinArm]

@[simp] theorem abandonSeek_keeps (c : SeekContext) (s : State) :
    (abandonSeek c s).pending = s.pending ∧ (abandonSeek c s).now = s.now ∧
    (abandonSeek c s).freeCount = s.freeCount ∧ (abandonSeek c s).power = s.power ∧
    (abandonSeek c s).standby = s.standby ∧ (abandonSeek c s).decoder = s.decoder ∧
    (abandonSeek c s).sensing = s.sensing ∧ (abandonSeek c s).peers = s.peers ∧ (abandonSeek c s).mem = s.mem ∧
    (abandonSeek c s).link.station = s.link.station ∧ (abandonSeek c s).link.state = s.link.state ∧
    (abandonSeek c s).link.timed = s.link.timed ∧ (abandonSeek c s).link.cycle = s.link.cycle ∧
    (abandonSeek c s).link.cycleStart = s.link.cycleStart ∧ (abandonSeek c s).link.muted = s.link.muted ∧
    (abandonSeek c s).link.mismatches = s.link.mismatches ∧ (abandonSeek c s).link.tx = s.link.tx ∧
    (abandonSeek c s).link.offsets = s.link.offsets ∧
    (abandonSeek c s).link.acceptedInCycle = s.link.acceptedInCycle ∧
    (abandonSeek c s).link.foreignInCycle = s.link.foreignInCycle ∧
    (abandonSeek c s).link.listenSince = s.link.listenSince ∧ (abandonSeek c s).hold.keyCount = s.hold.keyCount ∧
    (abandonSeek c s).hold.lockClear = s.hold.lockClear ∧
    (abandonSeek c s).hold.lockClearLeft = s.hold.lockClearLeft ∧ (abandonSeek c s).coord.run = s.coord.run ∧
    (abandonSeek c s).coord.journalActive = s.coord.journalActive ∧ (abandonSeek c s).coord.start = s.coord.start ∧
    (abandonSeek c s).coord.restart = s.coord.restart ∧ (abandonSeek c s).coord.restartLeft = s.coord.restartLeft ∧
    (abandonSeek c s).coord.lastRunClaim = s.coord.lastRunClaim ∧ (abandonSeek c s).plan.steps = s.plan.steps ∧
    (abandonSeek c s).plan.isSealed = s.plan.isSealed ∧ (abandonSeek c s).plan.digest = s.plan.digest ∧
    (abandonSeek c s).store.scanDone = s.store.scanDone ∧ (abandonSeek c s).store.tail = s.store.tail ∧
    (abandonSeek c s).store.pointer = s.store.pointer ∧ (abandonSeek c s).store.finalOut = s.store.finalOut ∧
    (abandonSeek c s).store.dip = s.store.dip ∧ (abandonSeek c s).store.retainedLockout = s.store.retainedLockout ∧
    (abandonSeek c s).port.config = s.port.config ∧ (abandonSeek c s).port.configDigest = s.port.configDigest ∧
    (abandonSeek c s).port.receiving = s.port.receiving ∧ (abandonSeek c s).port.resetArmed = s.port.resetArmed ∧
    (abandonSeek c s).port.response = s.port.response ∧ (abandonSeek c s).cal.committed = s.cal.committed := by
  simp only [abandonSeek]; (repeat' split) <;> simp

@[simp] theorem abandonSurvey_keeps (c : SurveyContext) (s : State) :
    (abandonSurvey c s).pending = s.pending ∧ (abandonSurvey c s).now = s.now ∧
    (abandonSurvey c s).freeCount = s.freeCount ∧ (abandonSurvey c s).power = s.power ∧
    (abandonSurvey c s).standby = s.standby ∧ (abandonSurvey c s).decoder = s.decoder ∧
    (abandonSurvey c s).sensing = s.sensing ∧ (abandonSurvey c s).peers = s.peers ∧
    (abandonSurvey c s).coord = s.coord ∧ (abandonSurvey c s).store = s.store ∧ (abandonSurvey c s).mem = s.mem ∧
    (abandonSurvey c s).link.station = s.link.station ∧ (abandonSurvey c s).link.state = s.link.state ∧
    (abandonSurvey c s).link.timed = s.link.timed ∧ (abandonSurvey c s).link.cycle = s.link.cycle ∧
    (abandonSurvey c s).link.cycleStart = s.link.cycleStart ∧ (abandonSurvey c s).link.muted = s.link.muted ∧
    (abandonSurvey c s).link.mismatches = s.link.mismatches ∧ (abandonSurvey c s).link.tx = s.link.tx ∧
    (abandonSurvey c s).link.offsets = s.link.offsets ∧
    (abandonSurvey c s).link.acceptedInCycle = s.link.acceptedInCycle ∧
    (abandonSurvey c s).link.foreignInCycle = s.link.foreignInCycle ∧
    (abandonSurvey c s).link.listenSince = s.link.listenSince ∧ (abandonSurvey c s).hold.level = s.hold.level ∧
    (abandonSurvey c s).hold.complete = s.hold.complete ∧ (abandonSurvey c s).hold.seq = s.hold.seq ∧
    (abandonSurvey c s).hold.keyCount = s.hold.keyCount ∧ (abandonSurvey c s).hold.lockClear = s.hold.lockClear ∧
    (abandonSurvey c s).hold.lockClearLeft = s.hold.lockClearLeft ∧ (abandonSurvey c s).plan.steps = s.plan.steps ∧
    (abandonSurvey c s).plan.isSealed = s.plan.isSealed ∧ (abandonSurvey c s).plan.digest = s.plan.digest ∧
    (abandonSurvey c s).plan.running = s.plan.running ∧ (abandonSurvey c s).port.config = s.port.config ∧
    (abandonSurvey c s).port.configDigest = s.port.configDigest ∧
    (abandonSurvey c s).port.receiving = s.port.receiving ∧ (abandonSurvey c s).port.resetArmed = s.port.resetArmed ∧
    (abandonSurvey c s).port.response = s.port.response ∧ (abandonSurvey c s).cal.committed = s.cal.committed ∧
    (abandonSurvey c s).cal.staged = s.cal.staged := by
  simp only [abandonSurvey]; (repeat' split) <;> simp

@[simp] theorem startSurvey_keeps (k : SurveyKind) (m : Int) (s : State) :
    (startSurvey k m s).pending = s.pending ∧ (startSurvey k m s).now = s.now ∧
    (startSurvey k m s).freeCount = s.freeCount ∧ (startSurvey k m s).power = s.power ∧
    (startSurvey k m s).standby = s.standby ∧ (startSurvey k m s).decoder = s.decoder ∧
    (startSurvey k m s).sensing = s.sensing ∧ (startSurvey k m s).peers = s.peers ∧ (startSurvey k m s).mem = s.mem ∧
    (startSurvey k m s).link.station = s.link.station ∧ (startSurvey k m s).link.state = s.link.state ∧
    (startSurvey k m s).link.timed = s.link.timed ∧ (startSurvey k m s).link.cycle = s.link.cycle ∧
    (startSurvey k m s).link.cycleStart = s.link.cycleStart ∧ (startSurvey k m s).link.muted = s.link.muted ∧
    (startSurvey k m s).link.mismatches = s.link.mismatches ∧ (startSurvey k m s).link.tx = s.link.tx ∧
    (startSurvey k m s).link.offsets = s.link.offsets ∧
    (startSurvey k m s).link.acceptedInCycle = s.link.acceptedInCycle ∧
    (startSurvey k m s).link.foreignInCycle = s.link.foreignInCycle ∧
    (startSurvey k m s).link.listenSince = s.link.listenSince ∧ (startSurvey k m s).hold.keyCount = s.hold.keyCount ∧
    (startSurvey k m s).hold.lockClear = s.hold.lockClear ∧
    (startSurvey k m s).hold.lockClearLeft = s.hold.lockClearLeft ∧ (startSurvey k m s).coord.run = s.coord.run ∧
    (startSurvey k m s).coord.journalActive = s.coord.journalActive ∧
    (startSurvey k m s).coord.start = s.coord.start ∧ (startSurvey k m s).coord.restart = s.coord.restart ∧
    (startSurvey k m s).coord.restartLeft = s.coord.restartLeft ∧
    (startSurvey k m s).coord.lastRunClaim = s.coord.lastRunClaim ∧ (startSurvey k m s).plan.steps = s.plan.steps ∧
    (startSurvey k m s).plan.isSealed = s.plan.isSealed ∧ (startSurvey k m s).plan.digest = s.plan.digest ∧
    (startSurvey k m s).store.scanDone = s.store.scanDone ∧ (startSurvey k m s).store.tail = s.store.tail ∧
    (startSurvey k m s).store.pointer = s.store.pointer ∧ (startSurvey k m s).store.finalOut = s.store.finalOut ∧
    (startSurvey k m s).store.dip = s.store.dip ∧
    (startSurvey k m s).store.retainedLockout = s.store.retainedLockout ∧
    (startSurvey k m s).port.config = s.port.config ∧ (startSurvey k m s).port.configDigest = s.port.configDigest ∧
    (startSurvey k m s).port.receiving = s.port.receiving ∧ (startSurvey k m s).port.resetArmed = s.port.resetArmed ∧
    (startSurvey k m s).port.response = s.port.response ∧ (startSurvey k m s).cal.committed = s.cal.committed := by
  simp [startSurvey]

@[simp] theorem propose_keeps (g : BitVec 16) (s : State) :
    (propose g s).pending = s.pending ∧ (propose g s).now = s.now ∧ (propose g s).freeCount = s.freeCount ∧
    (propose g s).power = s.power ∧ (propose g s).standby = s.standby ∧ (propose g s).decoder = s.decoder ∧
    (propose g s).sensing = s.sensing ∧ (propose g s).engine = s.engine ∧ (propose g s).link = s.link ∧
    (propose g s).peers = s.peers ∧ (propose g s).coord = s.coord ∧ (propose g s).plan = s.plan ∧
    (propose g s).hold = s.hold ∧ (propose g s).gate = s.gate ∧ (propose g s).mem = s.mem ∧
    (propose g s).port = s.port ∧ (propose g s).store.scanDone = s.store.scanDone ∧
    (propose g s).store.tail = s.store.tail ∧ (propose g s).store.pointer = s.store.pointer ∧
    (propose g s).store.lastTag = s.store.lastTag ∧ (propose g s).store.finalOut = s.store.finalOut ∧
    (propose g s).store.dip = s.store.dip ∧ (propose g s).store.retainedLockout = s.store.retainedLockout ∧
    (propose g s).cal.committed = s.cal.committed := by
  simp [propose]

@[simp] theorem setKeyCount_keeps (n : Nat) (s : State) :
    (setKeyCount n s).pending = s.pending ∧ (setKeyCount n s).now = s.now ∧
    (setKeyCount n s).freeCount = s.freeCount ∧ (setKeyCount n s).power = s.power ∧
    (setKeyCount n s).standby = s.standby ∧ (setKeyCount n s).decoder = s.decoder ∧
    (setKeyCount n s).sensing = s.sensing ∧ (setKeyCount n s).engine = s.engine ∧ (setKeyCount n s).link = s.link ∧
    (setKeyCount n s).peers = s.peers ∧ (setKeyCount n s).coord = s.coord ∧ (setKeyCount n s).plan = s.plan ∧
    (setKeyCount n s).gate = s.gate ∧ (setKeyCount n s).cal = s.cal ∧ (setKeyCount n s).store = s.store ∧
    (setKeyCount n s).mem = s.mem ∧ (setKeyCount n s).port = s.port ∧ (setKeyCount n s).hold.level = s.hold.level ∧
    (setKeyCount n s).hold.complete = s.hold.complete ∧ (setKeyCount n s).hold.seq = s.hold.seq ∧
    (setKeyCount n s).hold.faults = s.hold.faults ∧ (setKeyCount n s).hold.lockClear = s.hold.lockClear ∧
    (setKeyCount n s).hold.lockClearLeft = s.hold.lockClearLeft := by
  simp [setKeyCount]

@[simp] theorem receiveCode_keeps (code : Byte) (s : State) :
    (receiveCode code s).pending = s.pending ∧ (receiveCode code s).now = s.now ∧
    (receiveCode code s).freeCount = s.freeCount ∧ (receiveCode code s).power = s.power ∧
    (receiveCode code s).standby = s.standby ∧ (receiveCode code s).decoder = s.decoder ∧
    (receiveCode code s).sensing = s.sensing ∧ (receiveCode code s).engine = s.engine ∧
    (receiveCode code s).link = s.link ∧ (receiveCode code s).peers = s.peers ∧
    (receiveCode code s).coord = s.coord ∧ (receiveCode code s).plan = s.plan ∧ (receiveCode code s).gate = s.gate ∧
    (receiveCode code s).cal = s.cal ∧ (receiveCode code s).store = s.store ∧ (receiveCode code s).mem = s.mem ∧
    (receiveCode code s).hold.level = s.hold.level ∧ (receiveCode code s).hold.complete = s.hold.complete ∧
    (receiveCode code s).hold.seq = s.hold.seq ∧ (receiveCode code s).hold.faults = s.hold.faults ∧
    (receiveCode code s).hold.lockClear = s.hold.lockClear ∧
    (receiveCode code s).hold.lockClearLeft = s.hold.lockClearLeft ∧
    (receiveCode code s).port.config = s.port.config ∧ (receiveCode code s).port.configDigest = s.port.configDigest ∧
    (receiveCode code s).port.resetArmed = s.port.resetArmed := by
  simp only [receiveCode]; (repeat' split) <;> simp

@[simp] theorem decideConfigure_keeps (p : List Byte) (s : State) :
    (decideConfigure p s).state.pending = s.pending ∧ (decideConfigure p s).state.now = s.now ∧
    (decideConfigure p s).state.freeCount = s.freeCount ∧ (decideConfigure p s).state.power = s.power ∧
    (decideConfigure p s).state.standby = s.standby ∧ (decideConfigure p s).state.decoder = s.decoder ∧
    (decideConfigure p s).state.sensing = s.sensing ∧ (decideConfigure p s).state.engine = s.engine ∧
    (decideConfigure p s).state.link = s.link ∧ (decideConfigure p s).state.peers = s.peers ∧
    (decideConfigure p s).state.coord = s.coord ∧ (decideConfigure p s).state.plan = s.plan ∧
    (decideConfigure p s).state.gate = s.gate ∧ (decideConfigure p s).state.cal = s.cal ∧
    (decideConfigure p s).state.store = s.store ∧ (decideConfigure p s).state.mem = s.mem ∧
    (decideConfigure p s).state.hold.level = s.hold.level ∧
    (decideConfigure p s).state.hold.complete = s.hold.complete ∧ (decideConfigure p s).state.hold.seq = s.hold.seq ∧
    (decideConfigure p s).state.hold.keyCount = s.hold.keyCount ∧
    (decideConfigure p s).state.hold.faults = s.hold.faults ∧
    (decideConfigure p s).state.hold.lockClear = s.hold.lockClear ∧
    (decideConfigure p s).state.hold.lockClearLeft = s.hold.lockClearLeft ∧
    (decideConfigure p s).state.port.receiving = s.port.receiving ∧
    (decideConfigure p s).state.port.resetArmed = s.port.resetArmed ∧
    (decideConfigure p s).state.port.response = s.port.response := by
  simp only [decideConfigure]; (repeat' split) <;> simp [Reply.refuse, Reply.ok, Hold.dispose]

@[simp] theorem decidePlanClear_keeps (s : State) :
    (decidePlanClear s).state.pending = s.pending ∧ (decidePlanClear s).state.now = s.now ∧
    (decidePlanClear s).state.freeCount = s.freeCount ∧ (decidePlanClear s).state.power = s.power ∧
    (decidePlanClear s).state.standby = s.standby ∧ (decidePlanClear s).state.decoder = s.decoder ∧
    (decidePlanClear s).state.sensing = s.sensing ∧ (decidePlanClear s).state.engine = s.engine ∧
    (decidePlanClear s).state.link = s.link ∧ (decidePlanClear s).state.peers = s.peers ∧
    (decidePlanClear s).state.coord = s.coord ∧ (decidePlanClear s).state.hold = s.hold ∧
    (decidePlanClear s).state.gate = s.gate ∧ (decidePlanClear s).state.cal = s.cal ∧
    (decidePlanClear s).state.store = s.store ∧ (decidePlanClear s).state.mem = s.mem ∧
    (decidePlanClear s).state.port = s.port ∧ (decidePlanClear s).state.plan.running = s.plan.running := by
  simp only [decidePlanClear]; (repeat' split) <;> simp [Reply.refuse, Reply.ok]

@[simp] theorem decidePlanStep_keeps (p : List Byte) (s : State) :
    (decidePlanStep p s).state.pending = s.pending ∧ (decidePlanStep p s).state.now = s.now ∧
    (decidePlanStep p s).state.freeCount = s.freeCount ∧ (decidePlanStep p s).state.power = s.power ∧
    (decidePlanStep p s).state.standby = s.standby ∧ (decidePlanStep p s).state.decoder = s.decoder ∧
    (decidePlanStep p s).state.sensing = s.sensing ∧ (decidePlanStep p s).state.engine = s.engine ∧
    (decidePlanStep p s).state.link = s.link ∧ (decidePlanStep p s).state.peers = s.peers ∧
    (decidePlanStep p s).state.coord = s.coord ∧ (decidePlanStep p s).state.hold = s.hold ∧
    (decidePlanStep p s).state.gate = s.gate ∧ (decidePlanStep p s).state.cal = s.cal ∧
    (decidePlanStep p s).state.store = s.store ∧ (decidePlanStep p s).state.mem = s.mem ∧
    (decidePlanStep p s).state.port = s.port ∧ (decidePlanStep p s).state.plan.isSealed = s.plan.isSealed ∧
    (decidePlanStep p s).state.plan.digest = s.plan.digest ∧ (decidePlanStep p s).state.plan.running = s.plan.running := by
  simp only [decidePlanStep]; (repeat' split) <;> simp [Reply.refuse, Reply.ok]

@[simp] theorem decidePlanSeal_keeps (s : State) :
    (decidePlanSeal s).state.pending = s.pending ∧ (decidePlanSeal s).state.now = s.now ∧
    (decidePlanSeal s).state.freeCount = s.freeCount ∧ (decidePlanSeal s).state.power = s.power ∧
    (decidePlanSeal s).state.standby = s.standby ∧ (decidePlanSeal s).state.decoder = s.decoder ∧
    (decidePlanSeal s).state.sensing = s.sensing ∧ (decidePlanSeal s).state.engine = s.engine ∧
    (decidePlanSeal s).state.link = s.link ∧ (decidePlanSeal s).state.peers = s.peers ∧
    (decidePlanSeal s).state.coord = s.coord ∧ (decidePlanSeal s).state.hold = s.hold ∧
    (decidePlanSeal s).state.gate = s.gate ∧ (decidePlanSeal s).state.cal = s.cal ∧
    (decidePlanSeal s).state.store = s.store ∧ (decidePlanSeal s).state.mem = s.mem ∧
    (decidePlanSeal s).state.port = s.port ∧ (decidePlanSeal s).state.plan.steps = s.plan.steps ∧
    (decidePlanSeal s).state.plan.running = s.plan.running := by
  simp only [decidePlanSeal]; (repeat' split) <;> simp [Reply.refuse, Reply.ok]

@[simp] theorem decideJoin_keeps (s : State) :
    (decideJoin s).state.pending = s.pending ∧ (decideJoin s).state.now = s.now ∧
    (decideJoin s).state.freeCount = s.freeCount ∧ (decideJoin s).state.power = s.power ∧
    (decideJoin s).state.standby = s.standby ∧ (decideJoin s).state.decoder = s.decoder ∧
    (decideJoin s).state.sensing = s.sensing ∧ (decideJoin s).state.engine = s.engine ∧
    (decideJoin s).state.mem = s.mem ∧ (decideJoin s).state.link.station = s.link.station ∧
    (decideJoin s).state.link.cycle = s.link.cycle ∧ (decideJoin s).state.link.cycleStart = s.link.cycleStart ∧
    (decideJoin s).state.link.muted = s.link.muted ∧ (decideJoin s).state.link.mismatches = s.link.mismatches ∧
    (decideJoin s).state.hold.level = s.hold.level ∧ (decideJoin s).state.hold.seq = s.hold.seq ∧
    (decideJoin s).state.hold.keyCount = s.hold.keyCount ∧ (decideJoin s).state.hold.lockClear = s.hold.lockClear ∧
    (decideJoin s).state.hold.lockClearLeft = s.hold.lockClearLeft ∧ (decideJoin s).state.coord.run = s.coord.run ∧
    (decideJoin s).state.coord.journalActive = s.coord.journalActive ∧
    (decideJoin s).state.coord.start = s.coord.start ∧ (decideJoin s).state.coord.restart = s.coord.restart ∧
    (decideJoin s).state.coord.restartLeft = s.coord.restartLeft ∧
    (decideJoin s).state.coord.lastRunClaim = s.coord.lastRunClaim ∧ (decideJoin s).state.plan.steps = s.plan.steps ∧
    (decideJoin s).state.plan.isSealed = s.plan.isSealed ∧ (decideJoin s).state.plan.digest = s.plan.digest ∧
    (decideJoin s).state.store.scanDone = s.store.scanDone ∧ (decideJoin s).state.store.tail = s.store.tail ∧
    (decideJoin s).state.store.pointer = s.store.pointer ∧ (decideJoin s).state.store.finalOut = s.store.finalOut ∧
    (decideJoin s).state.store.dip = s.store.dip ∧
    (decideJoin s).state.store.retainedLockout = s.store.retainedLockout ∧
    (decideJoin s).state.port.config = s.port.config ∧ (decideJoin s).state.port.configDigest = s.port.configDigest ∧
    (decideJoin s).state.port.receiving = s.port.receiving ∧
    (decideJoin s).state.port.resetArmed = s.port.resetArmed ∧ (decideJoin s).state.port.response = s.port.response ∧
    (decideJoin s).state.cal.committed = s.cal.committed := by
  simp only [decideJoin]; (repeat' split) <;> simp [Reply.refuse, Reply.ok]

@[simp] theorem decideStatus_keeps (s : State) :
    (decideStatus s).state.pending = s.pending ∧ (decideStatus s).state.now = s.now ∧
    (decideStatus s).state.freeCount = s.freeCount ∧ (decideStatus s).state.power = s.power ∧
    (decideStatus s).state.standby = s.standby ∧ (decideStatus s).state.decoder = s.decoder ∧
    (decideStatus s).state.sensing = s.sensing ∧ (decideStatus s).state.engine = s.engine ∧
    (decideStatus s).state.link = s.link ∧ (decideStatus s).state.peers = s.peers ∧
    (decideStatus s).state.coord = s.coord ∧ (decideStatus s).state.plan = s.plan ∧
    (decideStatus s).state.hold = s.hold ∧ (decideStatus s).state.gate = s.gate ∧
    (decideStatus s).state.cal = s.cal ∧ (decideStatus s).state.store = s.store ∧
    (decideStatus s).state.mem = s.mem ∧ (decideStatus s).state.port.config = s.port.config ∧
    (decideStatus s).state.port.configDigest = s.port.configDigest ∧
    (decideStatus s).state.port.receiving = s.port.receiving ∧
    (decideStatus s).state.port.resetArmed = s.port.resetArmed ∧
    (decideStatus s).state.port.response = s.port.response := by
  simp [decideStatus, Reply.ok]

@[simp] theorem decidePeers_keeps (s : State) :
    (decidePeers s).state.pending = s.pending ∧ (decidePeers s).state.now = s.now ∧
    (decidePeers s).state.freeCount = s.freeCount ∧ (decidePeers s).state.power = s.power ∧
    (decidePeers s).state.standby = s.standby ∧ (decidePeers s).state.decoder = s.decoder ∧
    (decidePeers s).state.sensing = s.sensing ∧ (decidePeers s).state.engine = s.engine ∧
    (decidePeers s).state.link = s.link ∧ (decidePeers s).state.peers = s.peers ∧
    (decidePeers s).state.coord = s.coord ∧ (decidePeers s).state.plan = s.plan ∧
    (decidePeers s).state.hold = s.hold ∧ (decidePeers s).state.gate = s.gate ∧ (decidePeers s).state.cal = s.cal ∧
    (decidePeers s).state.store = s.store ∧ (decidePeers s).state.mem = s.mem ∧ (decidePeers s).state.port = s.port := by
  simp [decidePeers, Reply.ok]

@[simp] theorem decidePosition_keeps (s : State) :
    (decidePosition s).state.pending = s.pending ∧ (decidePosition s).state.now = s.now ∧
    (decidePosition s).state.freeCount = s.freeCount ∧ (decidePosition s).state.power = s.power ∧
    (decidePosition s).state.standby = s.standby ∧ (decidePosition s).state.decoder = s.decoder ∧
    (decidePosition s).state.sensing = s.sensing ∧ (decidePosition s).state.engine = s.engine ∧
    (decidePosition s).state.link = s.link ∧ (decidePosition s).state.peers = s.peers ∧
    (decidePosition s).state.coord = s.coord ∧ (decidePosition s).state.plan = s.plan ∧
    (decidePosition s).state.hold = s.hold ∧ (decidePosition s).state.gate = s.gate ∧
    (decidePosition s).state.cal = s.cal ∧ (decidePosition s).state.store = s.store ∧
    (decidePosition s).state.mem = s.mem ∧ (decidePosition s).state.port = s.port := by
  simp only [decidePosition]; (repeat' split) <;> simp [Reply.refuse, Reply.ok]

@[simp] theorem decideOrder_keeps (s : State) :
    (decideOrder s).state.pending = s.pending ∧ (decideOrder s).state.now = s.now ∧
    (decideOrder s).state.freeCount = s.freeCount ∧ (decideOrder s).state.power = s.power ∧
    (decideOrder s).state.standby = s.standby ∧ (decideOrder s).state.decoder = s.decoder ∧
    (decideOrder s).state.sensing = s.sensing ∧ (decideOrder s).state.engine = s.engine ∧
    (decideOrder s).state.link = s.link ∧ (decideOrder s).state.peers = s.peers ∧
    (decideOrder s).state.coord = s.coord ∧ (decideOrder s).state.plan = s.plan ∧
    (decideOrder s).state.hold = s.hold ∧ (decideOrder s).state.gate = s.gate ∧ (decideOrder s).state.cal = s.cal ∧
    (decideOrder s).state.store = s.store ∧ (decideOrder s).state.mem = s.mem ∧ (decideOrder s).state.port = s.port := by
  simp [decideOrder, Reply.ok]

@[simp] theorem decideFaults_keeps (s : State) :
    (decideFaults s).state.pending = s.pending ∧ (decideFaults s).state.now = s.now ∧
    (decideFaults s).state.freeCount = s.freeCount ∧ (decideFaults s).state.power = s.power ∧
    (decideFaults s).state.standby = s.standby ∧ (decideFaults s).state.decoder = s.decoder ∧
    (decideFaults s).state.sensing = s.sensing ∧ (decideFaults s).state.engine = s.engine ∧
    (decideFaults s).state.link = s.link ∧ (decideFaults s).state.peers = s.peers ∧
    (decideFaults s).state.coord = s.coord ∧ (decideFaults s).state.plan = s.plan ∧
    (decideFaults s).state.hold = s.hold ∧ (decideFaults s).state.gate = s.gate ∧
    (decideFaults s).state.cal = s.cal ∧ (decideFaults s).state.store = s.store ∧
    (decideFaults s).state.mem = s.mem ∧ (decideFaults s).state.port = s.port := by
  simp [decideFaults, Reply.ok]

@[simp] theorem decideCalRead_keeps (s : State) :
    (decideCalRead s).state.pending = s.pending ∧ (decideCalRead s).state.now = s.now ∧
    (decideCalRead s).state.freeCount = s.freeCount ∧ (decideCalRead s).state.power = s.power ∧
    (decideCalRead s).state.standby = s.standby ∧ (decideCalRead s).state.decoder = s.decoder ∧
    (decideCalRead s).state.sensing = s.sensing ∧ (decideCalRead s).state.engine = s.engine ∧
    (decideCalRead s).state.link = s.link ∧ (decideCalRead s).state.peers = s.peers ∧
    (decideCalRead s).state.coord = s.coord ∧ (decideCalRead s).state.plan = s.plan ∧
    (decideCalRead s).state.hold = s.hold ∧ (decideCalRead s).state.gate = s.gate ∧
    (decideCalRead s).state.cal = s.cal ∧ (decideCalRead s).state.store = s.store ∧
    (decideCalRead s).state.mem = s.mem ∧ (decideCalRead s).state.port = s.port := by
  simp only [decideCalRead]; (repeat' split) <;> simp [Reply.refuse, Reply.ok]

@[simp] theorem decideJournalRead_keeps (p : List Byte) (s : State) :
    (decideJournalRead p s).state.pending = s.pending ∧ (decideJournalRead p s).state.now = s.now ∧
    (decideJournalRead p s).state.freeCount = s.freeCount ∧ (decideJournalRead p s).state.power = s.power ∧
    (decideJournalRead p s).state.standby = s.standby ∧ (decideJournalRead p s).state.decoder = s.decoder ∧
    (decideJournalRead p s).state.sensing = s.sensing ∧ (decideJournalRead p s).state.engine = s.engine ∧
    (decideJournalRead p s).state.link = s.link ∧ (decideJournalRead p s).state.peers = s.peers ∧
    (decideJournalRead p s).state.coord = s.coord ∧ (decideJournalRead p s).state.plan = s.plan ∧
    (decideJournalRead p s).state.hold = s.hold ∧ (decideJournalRead p s).state.gate = s.gate ∧
    (decideJournalRead p s).state.cal = s.cal ∧ (decideJournalRead p s).state.store = s.store ∧
    (decideJournalRead p s).state.mem = s.mem ∧ (decideJournalRead p s).state.port = s.port := by
  simp only [decideJournalRead]; (repeat' split) <;> simp [Reply.refuse, Reply.ok]

@[simp] theorem decideFaultClear_keeps (s : State) :
    (decideFaultClear s).state.pending = s.pending ∧ (decideFaultClear s).state.now = s.now ∧
    (decideFaultClear s).state.freeCount = s.freeCount ∧ (decideFaultClear s).state.power = s.power ∧
    (decideFaultClear s).state.standby = s.standby ∧ (decideFaultClear s).state.decoder = s.decoder ∧
    (decideFaultClear s).state.sensing = s.sensing ∧ (decideFaultClear s).state.engine = s.engine ∧
    (decideFaultClear s).state.link = s.link ∧ (decideFaultClear s).state.peers = s.peers ∧
    (decideFaultClear s).state.coord = s.coord ∧ (decideFaultClear s).state.plan = s.plan ∧
    (decideFaultClear s).state.gate = s.gate ∧ (decideFaultClear s).state.cal = s.cal ∧
    (decideFaultClear s).state.store = s.store ∧ (decideFaultClear s).state.mem = s.mem ∧
    (decideFaultClear s).state.port = s.port ∧ (decideFaultClear s).state.hold.level = s.hold.level ∧
    (decideFaultClear s).state.hold.complete = s.hold.complete ∧ (decideFaultClear s).state.hold.seq = s.hold.seq ∧
    (decideFaultClear s).state.hold.keyCount = s.hold.keyCount ∧
    (decideFaultClear s).state.hold.lockClear = s.hold.lockClear ∧
    (decideFaultClear s).state.hold.lockClearLeft = s.hold.lockClearLeft := by
  simp [decideFaultClear, Reply.ok]

@[simp] theorem decideAbandon_keeps (s : State) :
    (decideAbandon s).state.pending = s.pending ∧ (decideAbandon s).state.now = s.now ∧
    (decideAbandon s).state.freeCount = s.freeCount ∧ (decideAbandon s).state.power = s.power ∧
    (decideAbandon s).state.standby = s.standby ∧ (decideAbandon s).state.decoder = s.decoder ∧
    (decideAbandon s).state.sensing = s.sensing ∧ (decideAbandon s).state.peers = s.peers ∧
    (decideAbandon s).state.mem = s.mem ∧ (decideAbandon s).state.link.station = s.link.station ∧
    (decideAbandon s).state.link.state = s.link.state ∧ (decideAbandon s).state.link.timed = s.link.timed ∧
    (decideAbandon s).state.link.cycle = s.link.cycle ∧ (decideAbandon s).state.link.cycleStart = s.link.cycleStart ∧
    (decideAbandon s).state.link.muted = s.link.muted ∧ (decideAbandon s).state.link.mismatches = s.link.mismatches ∧
    (decideAbandon s).state.link.tx = s.link.tx ∧ (decideAbandon s).state.link.offsets = s.link.offsets ∧
    (decideAbandon s).state.link.acceptedInCycle = s.link.acceptedInCycle ∧
    (decideAbandon s).state.link.foreignInCycle = s.link.foreignInCycle ∧
    (decideAbandon s).state.link.listenSince = s.link.listenSince ∧
    (decideAbandon s).state.hold.keyCount = s.hold.keyCount ∧
    (decideAbandon s).state.hold.lockClear = s.hold.lockClear ∧
    (decideAbandon s).state.hold.lockClearLeft = s.hold.lockClearLeft ∧
    (decideAbandon s).state.coord.run = s.coord.run ∧
    (decideAbandon s).state.coord.journalActive = s.coord.journalActive ∧
    (decideAbandon s).state.coord.start = s.coord.start ∧ (decideAbandon s).state.coord.restart = s.coord.restart ∧
    (decideAbandon s).state.coord.restartLeft = s.coord.restartLeft ∧
    (decideAbandon s).state.coord.lastRunClaim = s.coord.lastRunClaim ∧
    (decideAbandon s).state.plan.steps = s.plan.steps ∧ (decideAbandon s).state.plan.isSealed = s.plan.isSealed ∧
    (decideAbandon s).state.plan.digest = s.plan.digest ∧ (decideAbandon s).state.store.scanDone = s.store.scanDone ∧
    (decideAbandon s).state.store.tail = s.store.tail ∧ (decideAbandon s).state.store.pointer = s.store.pointer ∧
    (decideAbandon s).state.store.finalOut = s.store.finalOut ∧ (decideAbandon s).state.store.dip = s.store.dip ∧
    (decideAbandon s).state.store.retainedLockout = s.store.retainedLockout ∧
    (decideAbandon s).state.port.config = s.port.config ∧
    (decideAbandon s).state.port.configDigest = s.port.configDigest ∧
    (decideAbandon s).state.port.receiving = s.port.receiving ∧
    (decideAbandon s).state.port.resetArmed = s.port.resetArmed ∧
    (decideAbandon s).state.port.response = s.port.response ∧ (decideAbandon s).state.cal.committed = s.cal.committed := by
  simp only [decideAbandon]; (repeat' split) <;> simp [Reply.refuse, Reply.ok]

@[simp] theorem decideSurvey_keeps (p : List Byte) (s : State) :
    (decideSurvey p s).state.pending = s.pending ∧ (decideSurvey p s).state.now = s.now ∧
    (decideSurvey p s).state.freeCount = s.freeCount ∧ (decideSurvey p s).state.power = s.power ∧
    (decideSurvey p s).state.standby = s.standby ∧ (decideSurvey p s).state.decoder = s.decoder ∧
    (decideSurvey p s).state.sensing = s.sensing ∧ (decideSurvey p s).state.peers = s.peers ∧
    (decideSurvey p s).state.mem = s.mem ∧ (decideSurvey p s).state.link.station = s.link.station ∧
    (decideSurvey p s).state.link.state = s.link.state ∧ (decideSurvey p s).state.link.timed = s.link.timed ∧
    (decideSurvey p s).state.link.cycle = s.link.cycle ∧
    (decideSurvey p s).state.link.cycleStart = s.link.cycleStart ∧
    (decideSurvey p s).state.link.muted = s.link.muted ∧
    (decideSurvey p s).state.link.mismatches = s.link.mismatches ∧ (decideSurvey p s).state.link.tx = s.link.tx ∧
    (decideSurvey p s).state.link.offsets = s.link.offsets ∧
    (decideSurvey p s).state.link.acceptedInCycle = s.link.acceptedInCycle ∧
    (decideSurvey p s).state.link.foreignInCycle = s.link.foreignInCycle ∧
    (decideSurvey p s).state.link.listenSince = s.link.listenSince ∧
    (decideSurvey p s).state.hold.keyCount = s.hold.keyCount ∧
    (decideSurvey p s).state.hold.lockClear = s.hold.lockClear ∧
    (decideSurvey p s).state.hold.lockClearLeft = s.hold.lockClearLeft ∧
    (decideSurvey p s).state.coord.run = s.coord.run ∧
    (decideSurvey p s).state.coord.journalActive = s.coord.journalActive ∧
    (decideSurvey p s).state.coord.start = s.coord.start ∧ (decideSurvey p s).state.coord.restart = s.coord.restart ∧
    (decideSurvey p s).state.coord.restartLeft = s.coord.restartLeft ∧
    (decideSurvey p s).state.coord.lastRunClaim = s.coord.lastRunClaim ∧
    (decideSurvey p s).state.plan.steps = s.plan.steps ∧ (decideSurvey p s).state.plan.isSealed = s.plan.isSealed ∧
    (decideSurvey p s).state.plan.digest = s.plan.digest ∧
    (decideSurvey p s).state.store.scanDone = s.store.scanDone ∧ (decideSurvey p s).state.store.tail = s.store.tail ∧
    (decideSurvey p s).state.store.pointer = s.store.pointer ∧
    (decideSurvey p s).state.store.finalOut = s.store.finalOut ∧ (decideSurvey p s).state.store.dip = s.store.dip ∧
    (decideSurvey p s).state.store.retainedLockout = s.store.retainedLockout ∧
    (decideSurvey p s).state.port.config = s.port.config ∧
    (decideSurvey p s).state.port.configDigest = s.port.configDigest ∧
    (decideSurvey p s).state.port.receiving = s.port.receiving ∧
    (decideSurvey p s).state.port.resetArmed = s.port.resetArmed ∧
    (decideSurvey p s).state.port.response = s.port.response ∧
    (decideSurvey p s).state.cal.committed = s.cal.committed := by
  simp only [decideSurvey]; (repeat' split) <;> simp [Reply.refuse, Reply.ok]

@[simp] theorem decideTrim_keeps (p : List Byte) (s : State) :
    (decideTrim p s).state.pending = s.pending ∧ (decideTrim p s).state.now = s.now ∧
    (decideTrim p s).state.freeCount = s.freeCount ∧ (decideTrim p s).state.power = s.power ∧
    (decideTrim p s).state.standby = s.standby ∧ (decideTrim p s).state.decoder = s.decoder ∧
    (decideTrim p s).state.sensing = s.sensing ∧ (decideTrim p s).state.engine = s.engine ∧
    (decideTrim p s).state.link = s.link ∧ (decideTrim p s).state.peers = s.peers ∧
    (decideTrim p s).state.coord = s.coord ∧ (decideTrim p s).state.plan = s.plan ∧
    (decideTrim p s).state.hold = s.hold ∧ (decideTrim p s).state.gate = s.gate ∧
    (decideTrim p s).state.store = s.store ∧ (decideTrim p s).state.mem = s.mem ∧
    (decideTrim p s).state.port = s.port ∧ (decideTrim p s).state.cal.committed = s.cal.committed ∧
    (decideTrim p s).state.cal.staged = s.cal.staged := by
  simp only [decideTrim]; (repeat' split) <;> simp [Reply.refuse, Reply.ok]

@[simp] theorem decideCalCommit_keeps (s : State) :
    (decideCalCommit s).state.pending = s.pending ∧ (decideCalCommit s).state.now = s.now ∧
    (decideCalCommit s).state.freeCount = s.freeCount ∧ (decideCalCommit s).state.power = s.power ∧
    (decideCalCommit s).state.standby = s.standby ∧ (decideCalCommit s).state.decoder = s.decoder ∧
    (decideCalCommit s).state.sensing = s.sensing ∧ (decideCalCommit s).state.engine = s.engine ∧
    (decideCalCommit s).state.link = s.link ∧ (decideCalCommit s).state.peers = s.peers ∧
    (decideCalCommit s).state.coord = s.coord ∧ (decideCalCommit s).state.plan = s.plan ∧
    (decideCalCommit s).state.hold = s.hold ∧ (decideCalCommit s).state.gate = s.gate ∧
    (decideCalCommit s).state.mem = s.mem ∧ (decideCalCommit s).state.port = s.port ∧
    (decideCalCommit s).state.store.scanDone = s.store.scanDone ∧
    (decideCalCommit s).state.store.tail = s.store.tail ∧ (decideCalCommit s).state.store.pointer = s.store.pointer ∧
    (decideCalCommit s).state.store.lastTag = s.store.lastTag ∧
    (decideCalCommit s).state.store.finalOut = s.store.finalOut ∧ (decideCalCommit s).state.store.dip = s.store.dip ∧
    (decideCalCommit s).state.store.retainedLockout = s.store.retainedLockout ∧
    (decideCalCommit s).state.cal.committed = s.cal.committed := by
  simp only [decideCalCommit]; (repeat' split) <;> simp [Reply.refuse, Reply.ok]

@[simp] theorem decideResume_keeps (s : State) :
    (decideResume s).state.pending = s.pending ∧ (decideResume s).state.now = s.now ∧
    (decideResume s).state.freeCount = s.freeCount ∧ (decideResume s).state.power = s.power ∧
    (decideResume s).state.standby = s.standby ∧ (decideResume s).state.decoder = s.decoder ∧
    (decideResume s).state.sensing = s.sensing ∧ (decideResume s).state.peers = s.peers ∧
    (decideResume s).state.mem = s.mem ∧ (decideResume s).state.link.station = s.link.station ∧
    (decideResume s).state.link.state = s.link.state ∧ (decideResume s).state.link.timed = s.link.timed ∧
    (decideResume s).state.link.cycle = s.link.cycle ∧ (decideResume s).state.link.cycleStart = s.link.cycleStart ∧
    (decideResume s).state.link.muted = s.link.muted ∧ (decideResume s).state.link.mismatches = s.link.mismatches ∧
    (decideResume s).state.link.tx = s.link.tx ∧ (decideResume s).state.link.offsets = s.link.offsets ∧
    (decideResume s).state.link.acceptedInCycle = s.link.acceptedInCycle ∧
    (decideResume s).state.link.foreignInCycle = s.link.foreignInCycle ∧
    (decideResume s).state.link.listenSince = s.link.listenSince ∧ (decideResume s).state.hold.seq = s.hold.seq ∧
    (decideResume s).state.hold.keyCount = s.hold.keyCount ∧
    (decideResume s).state.hold.lockClear = s.hold.lockClear ∧
    (decideResume s).state.hold.lockClearLeft = s.hold.lockClearLeft ∧
    (decideResume s).state.coord.run = s.coord.run ∧
    (decideResume s).state.coord.journalActive = s.coord.journalActive ∧
    (decideResume s).state.coord.start = s.coord.start ∧ (decideResume s).state.coord.restart = s.coord.restart ∧
    (decideResume s).state.coord.restartLeft = s.coord.restartLeft ∧
    (decideResume s).state.coord.lastRunClaim = s.coord.lastRunClaim ∧
    (decideResume s).state.plan.steps = s.plan.steps ∧ (decideResume s).state.plan.isSealed = s.plan.isSealed ∧
    (decideResume s).state.plan.digest = s.plan.digest ∧ (decideResume s).state.store.scanDone = s.store.scanDone ∧
    (decideResume s).state.store.tail = s.store.tail ∧ (decideResume s).state.store.pointer = s.store.pointer ∧
    (decideResume s).state.store.lastTag = s.store.lastTag ∧
    (decideResume s).state.store.finalOut = s.store.finalOut ∧ (decideResume s).state.store.dip = s.store.dip ∧
    (decideResume s).state.store.retainedLockout = s.store.retainedLockout ∧
    (decideResume s).state.port.config = s.port.config ∧
    (decideResume s).state.port.configDigest = s.port.configDigest ∧
    (decideResume s).state.port.receiving = s.port.receiving ∧
    (decideResume s).state.port.resetArmed = s.port.resetArmed ∧
    (decideResume s).state.port.response = s.port.response ∧
    (decideResume s).state.engine.operation = s.engine.operation ∧
    (decideResume s).state.cal.committed = s.cal.committed := by
  simp only [decideResume]; (repeat' split) <;> simp [Reply.refuse, Reply.ok]

@[simp] theorem decideRestart_keeps (s : State) :
    (decideRestart s).state.pending = s.pending ∧ (decideRestart s).state.now = s.now ∧
    (decideRestart s).state.freeCount = s.freeCount ∧ (decideRestart s).state.power = s.power ∧
    (decideRestart s).state.standby = s.standby ∧ (decideRestart s).state.decoder = s.decoder ∧
    (decideRestart s).state.sensing = s.sensing ∧ (decideRestart s).state.peers = s.peers ∧
    (decideRestart s).state.mem = s.mem ∧ (decideRestart s).state.link.station = s.link.station ∧
    (decideRestart s).state.link.state = s.link.state ∧ (decideRestart s).state.link.timed = s.link.timed ∧
    (decideRestart s).state.link.cycle = s.link.cycle ∧ (decideRestart s).state.link.cycleStart = s.link.cycleStart ∧
    (decideRestart s).state.link.muted = s.link.muted ∧ (decideRestart s).state.link.mismatches = s.link.mismatches ∧
    (decideRestart s).state.link.tx = s.link.tx ∧ (decideRestart s).state.link.offsets = s.link.offsets ∧
    (decideRestart s).state.link.acceptedInCycle = s.link.acceptedInCycle ∧
    (decideRestart s).state.link.foreignInCycle = s.link.foreignInCycle ∧
    (decideRestart s).state.link.listenSince = s.link.listenSince ∧ (decideRestart s).state.hold.seq = s.hold.seq ∧
    (decideRestart s).state.hold.keyCount = s.hold.keyCount ∧
    (decideRestart s).state.hold.lockClear = s.hold.lockClear ∧
    (decideRestart s).state.hold.lockClearLeft = s.hold.lockClearLeft ∧
    (decideRestart s).state.coord.run = s.coord.run ∧
    (decideRestart s).state.coord.journalActive = s.coord.journalActive ∧
    (decideRestart s).state.coord.start = s.coord.start ∧ (decideRestart s).state.plan.steps = s.plan.steps ∧
    (decideRestart s).state.plan.isSealed = s.plan.isSealed ∧ (decideRestart s).state.plan.digest = s.plan.digest ∧
    (decideRestart s).state.store.scanDone = s.store.scanDone ∧ (decideRestart s).state.store.port = s.store.port ∧
    (decideRestart s).state.store.tail = s.store.tail ∧ (decideRestart s).state.store.pointer = s.store.pointer ∧
    (decideRestart s).state.store.lastTag = s.store.lastTag ∧
    (decideRestart s).state.store.finalOut = s.store.finalOut ∧ (decideRestart s).state.store.dip = s.store.dip ∧
    (decideRestart s).state.store.retainedLockout = s.store.retainedLockout ∧
    (decideRestart s).state.port.config = s.port.config ∧
    (decideRestart s).state.port.configDigest = s.port.configDigest ∧
    (decideRestart s).state.port.receiving = s.port.receiving ∧
    (decideRestart s).state.port.resetArmed = s.port.resetArmed ∧
    (decideRestart s).state.port.response = s.port.response ∧
    (decideRestart s).state.engine.refState = s.engine.refState ∧
    (decideRestart s).state.engine.operation = s.engine.operation ∧
    (decideRestart s).state.cal.committed = s.cal.committed ∧ (decideRestart s).state.cal.staged = s.cal.staged := by
  simp only [decideRestart]; (repeat' split) <;> simp [Reply.refuse, Reply.ok]

@[simp] theorem decideLockoutClear_keeps (s : State) :
    (decideLockoutClear s).state.pending = s.pending ∧ (decideLockoutClear s).state.now = s.now ∧
    (decideLockoutClear s).state.freeCount = s.freeCount ∧ (decideLockoutClear s).state.power = s.power ∧
    (decideLockoutClear s).state.standby = s.standby ∧ (decideLockoutClear s).state.decoder = s.decoder ∧
    (decideLockoutClear s).state.sensing = s.sensing ∧ (decideLockoutClear s).state.peers = s.peers ∧
    (decideLockoutClear s).state.mem = s.mem ∧ (decideLockoutClear s).state.link.station = s.link.station ∧
    (decideLockoutClear s).state.link.state = s.link.state ∧ (decideLockoutClear s).state.link.timed = s.link.timed ∧
    (decideLockoutClear s).state.link.cycle = s.link.cycle ∧
    (decideLockoutClear s).state.link.cycleStart = s.link.cycleStart ∧
    (decideLockoutClear s).state.link.muted = s.link.muted ∧
    (decideLockoutClear s).state.link.mismatches = s.link.mismatches ∧
    (decideLockoutClear s).state.link.tx = s.link.tx ∧ (decideLockoutClear s).state.link.offsets = s.link.offsets ∧
    (decideLockoutClear s).state.link.acceptedInCycle = s.link.acceptedInCycle ∧
    (decideLockoutClear s).state.link.foreignInCycle = s.link.foreignInCycle ∧
    (decideLockoutClear s).state.link.listenSince = s.link.listenSince ∧
    (decideLockoutClear s).state.hold.seq = s.hold.seq ∧ (decideLockoutClear s).state.coord.run = s.coord.run ∧
    (decideLockoutClear s).state.coord.journalActive = s.coord.journalActive ∧
    (decideLockoutClear s).state.coord.start = s.coord.start ∧
    (decideLockoutClear s).state.coord.restart = s.coord.restart ∧
    (decideLockoutClear s).state.coord.restartLeft = s.coord.restartLeft ∧
    (decideLockoutClear s).state.coord.lastRunClaim = s.coord.lastRunClaim ∧
    (decideLockoutClear s).state.plan.steps = s.plan.steps ∧
    (decideLockoutClear s).state.plan.isSealed = s.plan.isSealed ∧
    (decideLockoutClear s).state.plan.digest = s.plan.digest ∧
    (decideLockoutClear s).state.store.scanDone = s.store.scanDone ∧
    (decideLockoutClear s).state.store.tail = s.store.tail ∧
    (decideLockoutClear s).state.store.pointer = s.store.pointer ∧
    (decideLockoutClear s).state.store.lastTag = s.store.lastTag ∧
    (decideLockoutClear s).state.store.finalOut = s.store.finalOut ∧
    (decideLockoutClear s).state.store.dip = s.store.dip ∧
    (decideLockoutClear s).state.store.retainedLockout = s.store.retainedLockout ∧
    (decideLockoutClear s).state.port.config = s.port.config ∧
    (decideLockoutClear s).state.port.configDigest = s.port.configDigest ∧
    (decideLockoutClear s).state.port.receiving = s.port.receiving ∧
    (decideLockoutClear s).state.port.resetArmed = s.port.resetArmed ∧
    (decideLockoutClear s).state.port.response = s.port.response ∧
    (decideLockoutClear s).state.engine.operation = s.engine.operation ∧
    (decideLockoutClear s).state.cal.committed = s.cal.committed := by
  simp only [decideLockoutClear]; (repeat' split) <;> simp [Reply.refuse, Reply.ok]

@[simp] theorem decideShutdown_keeps (s : State) :
    (decideShutdown s).state.pending = s.pending ∧ (decideShutdown s).state.now = s.now ∧
    (decideShutdown s).state.freeCount = s.freeCount ∧ (decideShutdown s).state.power = s.power ∧
    (decideShutdown s).state.standby = s.standby ∧ (decideShutdown s).state.decoder = s.decoder ∧
    (decideShutdown s).state.sensing = s.sensing ∧ (decideShutdown s).state.peers = s.peers ∧
    (decideShutdown s).state.mem = s.mem ∧ (decideShutdown s).state.link.station = s.link.station ∧
    (decideShutdown s).state.link.state = s.link.state ∧ (decideShutdown s).state.link.timed = s.link.timed ∧
    (decideShutdown s).state.link.cycle = s.link.cycle ∧
    (decideShutdown s).state.link.cycleStart = s.link.cycleStart ∧
    (decideShutdown s).state.link.muted = s.link.muted ∧
    (decideShutdown s).state.link.mismatches = s.link.mismatches ∧ (decideShutdown s).state.link.tx = s.link.tx ∧
    (decideShutdown s).state.link.offsets = s.link.offsets ∧
    (decideShutdown s).state.link.acceptedInCycle = s.link.acceptedInCycle ∧
    (decideShutdown s).state.link.foreignInCycle = s.link.foreignInCycle ∧
    (decideShutdown s).state.link.listenSince = s.link.listenSince ∧
    (decideShutdown s).state.hold.keyCount = s.hold.keyCount ∧
    (decideShutdown s).state.hold.lockClear = s.hold.lockClear ∧
    (decideShutdown s).state.hold.lockClearLeft = s.hold.lockClearLeft ∧
    (decideShutdown s).state.coord.run = s.coord.run ∧
    (decideShutdown s).state.coord.journalActive = s.coord.journalActive ∧
    (decideShutdown s).state.coord.start = s.coord.start ∧ (decideShutdown s).state.coord.restart = s.coord.restart ∧
    (decideShutdown s).state.coord.restartLeft = s.coord.restartLeft ∧
    (decideShutdown s).state.coord.lastRunClaim = s.coord.lastRunClaim ∧
    (decideShutdown s).state.plan.steps = s.plan.steps ∧ (decideShutdown s).state.plan.isSealed = s.plan.isSealed ∧
    (decideShutdown s).state.plan.digest = s.plan.digest ∧
    (decideShutdown s).state.store.scanDone = s.store.scanDone ∧ (decideShutdown s).state.store.tail = s.store.tail ∧
    (decideShutdown s).state.store.pointer = s.store.pointer ∧
    (decideShutdown s).state.store.finalOut = s.store.finalOut ∧ (decideShutdown s).state.store.dip = s.store.dip ∧
    (decideShutdown s).state.store.retainedLockout = s.store.retainedLockout ∧
    (decideShutdown s).state.port.config = s.port.config ∧
    (decideShutdown s).state.port.configDigest = s.port.configDigest ∧
    (decideShutdown s).state.port.receiving = s.port.receiving ∧
    (decideShutdown s).state.port.resetArmed = s.port.resetArmed ∧
    (decideShutdown s).state.port.response = s.port.response ∧
    (decideShutdown s).state.cal.committed = s.cal.committed := by
  simp only [decideShutdown]; (repeat' split) <;> simp [Reply.refuse, Reply.ok]

@[simp] theorem decideReset_keeps (s : State) :
    (decideReset s).state.pending = s.pending ∧ (decideReset s).state.now = s.now ∧
    (decideReset s).state.freeCount = s.freeCount ∧ (decideReset s).state.power = s.power ∧
    (decideReset s).state.standby = s.standby ∧ (decideReset s).state.decoder = s.decoder ∧
    (decideReset s).state.sensing = s.sensing ∧ (decideReset s).state.engine = s.engine ∧
    (decideReset s).state.link = s.link ∧ (decideReset s).state.peers = s.peers ∧
    (decideReset s).state.coord = s.coord ∧ (decideReset s).state.plan = s.plan ∧
    (decideReset s).state.hold = s.hold ∧ (decideReset s).state.gate = s.gate ∧ (decideReset s).state.cal = s.cal ∧
    (decideReset s).state.store = s.store ∧ (decideReset s).state.mem = s.mem ∧
    (decideReset s).state.port.config = s.port.config ∧
    (decideReset s).state.port.configDigest = s.port.configDigest ∧
    (decideReset s).state.port.receiving = s.port.receiving ∧ (decideReset s).state.port.response = s.port.response := by
  simp [decideReset, Reply.ok]

/-- What holds of a state whatever the port and the key count are, and is kept by the decision, is kept by a request. -/
theorem answerRequest_property (P : State → Prop) (keepsKey : Bool) (len : Nat) (ps : List Byte)
    (decideOn : State → Reply) (s : State) (hport : ∀ t x, P t → P (t.setPort x))
    (hkey : ∀ t, P t → P (t.setHold { t.hold with keyCount := 0 })) (hd : ∀ t, P t → P (decideOn t).state) (h : P s) :
    P (answerRequest keepsKey len ps decideOn s) := by
  have ho : P (openRequest keepsKey s) := by
    simp only [openRequest]; split
    · exact hport _ _ h
    · exact hkey _ (hport _ _ h)
  simp only [answerRequest, closeRequest, Reply.refuse]
  split
  · split
    · exact hport _ _ (hd _ ho)
    · exact hport _ _ ho
  · exact h

end Sys2Proof.Machine
end

