-- ==== Sys2Proof/Laws/Requests.lean ====
section
/-! SUPPORT. How a request is opened, decided and answered: the form every meaning of a request takes. -/

namespace Sys2Proof.Machine

/-- Time passing does not close the port. -/
theorem portReady_advance (dt : Time) (s : State) (h : s.portReady = true) : (advance dt s).portReady = true := h

/-- A request of its fixed length other than LOCKOUT_CLEAR is decided on the opened state (R200, R201). -/
theorem answerRequest_taken (n : Nat) (ps : List Byte) (d : State → Reply) (dt : Time) (s : State)
    (h : s.portReady = true) (hl : ps.length = n) :
    answerRequest false n ps d (advance dt s) = closeRequest (d (s.opened dt)) := by
  simp only [answerRequest, portReady_advance dt s h, hl, if_true]; rfl

/-- LOCKOUT_CLEAR is decided on the arrived state: it keeps the key count (R177). -/
theorem answerRequest_keeping (n : Nat) (ps : List Byte) (d : State → Reply) (dt : Time) (s : State)
    (h : s.portReady = true) (hl : ps.length = n) :
    answerRequest true n ps d (advance dt s) = closeRequest (d (s.arrived dt)) := by
  simp only [answerRequest, portReady_advance dt s h, hl, if_true]; rfl

/-- A refused request answers with its status and changes nothing else (R202). -/
theorem closeRequest_refuse (st : PortStatus) (s : State) : closeRequest (.refuse st s) = s.respond st [] := rfl

/-- A request taken answers OK with its data on the state the decision left. -/
theorem closeRequest_ok (data : List Byte) (s : State) : closeRequest (.ok data s) = s.respond .ok data := rfl

/-- An arrival leaves everything but the clock and the port. -/
@[simp] theorem State.arrived_keeps (s : State) (dt : Time) :
    (s.arrived dt).pending = s.pending ∧ (s.arrived dt).now = s.now + dt ∧ (s.arrived dt).freeCount = s.freeCount ∧
    (s.arrived dt).power = s.power ∧ (s.arrived dt).standby = s.standby ∧ (s.arrived dt).decoder = s.decoder ∧
    (s.arrived dt).sensing = s.sensing ∧ (s.arrived dt).engine = s.engine ∧ (s.arrived dt).link = s.link ∧
    (s.arrived dt).peers = s.peers ∧ (s.arrived dt).coord = s.coord ∧ (s.arrived dt).plan = s.plan ∧
    (s.arrived dt).hold = s.hold ∧ (s.arrived dt).gate = s.gate ∧ (s.arrived dt).cal = s.cal ∧
    (s.arrived dt).store = s.store ∧ (s.arrived dt).mem = s.mem ∧ (s.arrived dt).port.config = s.port.config ∧
    (s.arrived dt).port.attention = s.port.attention :=
  ⟨rfl, rfl, rfl, rfl, rfl, rfl, rfl, rfl, rfl, rfl, rfl, rfl, rfl, rfl, rfl, rfl, rfl, rfl, rfl⟩

/-- Opening a request leaves everything but the clock, the key count and the port. -/
@[simp] theorem State.opened_keeps (s : State) (dt : Time) :
    (s.opened dt).pending = s.pending ∧ (s.opened dt).now = s.now + dt ∧ (s.opened dt).freeCount = s.freeCount ∧
    (s.opened dt).power = s.power ∧ (s.opened dt).standby = s.standby ∧ (s.opened dt).decoder = s.decoder ∧
    (s.opened dt).sensing = s.sensing ∧ (s.opened dt).engine = s.engine ∧ (s.opened dt).link = s.link ∧
    (s.opened dt).peers = s.peers ∧ (s.opened dt).coord = s.coord ∧ (s.opened dt).plan = s.plan ∧
    (s.opened dt).gate = s.gate ∧ (s.opened dt).cal = s.cal ∧ (s.opened dt).store = s.store ∧
    (s.opened dt).mem = s.mem ∧ (s.opened dt).hold.level = s.hold.level ∧ (s.opened dt).hold.seq = s.hold.seq ∧
    (s.opened dt).hold.complete = s.hold.complete ∧ (s.opened dt).hold.faults = s.hold.faults ∧
    (s.opened dt).port.config = s.port.config ∧ (s.opened dt).port.attention = s.port.attention :=
  ⟨rfl, rfl, rfl, rfl, rfl, rfl, rfl, rfl, rfl, rfl, rfl, rfl, rfl, rfl, rfl, rfl, rfl, rfl, rfl, rfl, rfl, rfl⟩

/-- A response record changes the port alone. -/
@[simp] theorem State.respond_keeps (s : State) (st : PortStatus) (data : List Byte) :
    (s.respond st data).pending = s.pending ∧ (s.respond st data).now = s.now ∧
    (s.respond st data).freeCount = s.freeCount ∧ (s.respond st data).power = s.power ∧
    (s.respond st data).standby = s.standby ∧ (s.respond st data).decoder = s.decoder ∧
    (s.respond st data).sensing = s.sensing ∧ (s.respond st data).engine = s.engine ∧
    (s.respond st data).link = s.link ∧ (s.respond st data).peers = s.peers ∧ (s.respond st data).coord = s.coord ∧
    (s.respond st data).plan = s.plan ∧ (s.respond st data).hold = s.hold ∧ (s.respond st data).gate = s.gate ∧
    (s.respond st data).cal = s.cal ∧ (s.respond st data).store = s.store ∧ (s.respond st data).mem = s.mem ∧
    (s.respond st data).port.response = some ⟨st, data⟩ ∧ (s.respond st data).port.config = s.port.config ∧
    (s.respond st data).port.attention = s.port.attention :=
  ⟨rfl, rfl, rfl, rfl, rfl, rfl, rfl, rfl, rfl, rfl, rfl, rfl, rfl, rfl, rfl, rfl, rfl, rfl, rfl, rfl⟩

end Sys2Proof.Machine
end

