-- ==== Sys2Proof/Laws/Faults.lean ====
section
/-! SUPPORT. What raising a fault leaves in the fault list: a record stands there after what follows it. -/

namespace Sys2Proof.Machine

/-- A record stands among the last `n` of a fault list. -/
def recentFault (n : Nat) (r : FaultRecord) (l : List FaultRecord) : Prop := r ∈ l.reverse.take n

/-- Among more of the last records it stands too. -/
theorem recentFault_mono {n m : Nat} {r : FaultRecord} {l : List FaultRecord} (h : recentFault n r l) (hm : n ≤ m) :
    recentFault m r l :=
  List.take_subset_take_left _ hm h

/-- A recent record is in the list. -/
theorem recentFault_mem {n : Nat} {r : FaultRecord} {l : List FaultRecord} (h : recentFault n r l) : r ∈ l :=
  List.mem_reverse.1 (List.mem_of_mem_take h)

/-- What a list holds after an append, newest first. -/
theorem appendFault_reverse (l : List FaultRecord) (x : FaultRecord) :
    ∃ k, 7 ≤ k ∧ (appendFault l x).reverse = x :: l.reverse.take k := by
  unfold appendFault
  split
  · refine ⟨max 7 l.length, by omega, ?_⟩
    rw [List.reverse_append, List.take_of_length_le (by simp)]; simp
  · refine ⟨7, le_refl _, ?_⟩
    rw [List.reverse_append, List.reverse_drop]
    simp only [List.reverse_cons, List.reverse_nil, List.nil_append, List.singleton_append]
    congr 2; omega

/-- The record just appended is the newest. -/
theorem recentFault_append_self (l : List FaultRecord) (r : FaultRecord) : recentFault 1 r (appendFault l r) := by
  obtain ⟨k, _, h⟩ := appendFault_reverse l r
  simp [recentFault, h]

/-- One append moves a recent record one place. -/
theorem recentFault_append {n : Nat} {r : FaultRecord} {l : List FaultRecord} (x : FaultRecord)
    (h : recentFault n r l) (hn : n ≤ 7) : recentFault (n + 1) r (appendFault l x) := by
  obtain ⟨k, hk, e⟩ := appendFault_reverse l x
  unfold recentFault at *
  rw [e, List.take_succ_cons, List.take_take]
  exact List.mem_cons_of_mem _ (by rwa [Nat.min_eq_left (by omega)])

/-- The fault list keeps at most eight records (R157). -/
theorem appendFault_length (l : List FaultRecord) (x : FaultRecord) (h : l.length ≤ 8) :
    (appendFault l x).length ≤ 8 := by
  unfold appendFault; split <;> simp <;> omega

/-- The record a fault of the station leaves. -/
def State.recordOf (s : State) (code : Byte) (cls : FaultClass) (o : Station) (step : Option Nat) (d : BitVec 32) :
    FaultRecord :=
  ⟨code, cls, o, step, s.coord.run, s.link.cycle, s.hold.seq, d⟩

/-- Recording a fault appends its record. -/
theorem recordFault_faults (code : Byte) (cls : FaultClass) (o : Station) (step : Option Nat) (d : BitVec 32)
    (s : State) :
    (recordFault code cls o step d s).hold.faults = appendFault s.hold.faults (s.recordOf code cls o step d) := by
  simp only [recordFault, State.recordOf]; split <;> simp

/-- A fault of the station appends its record. -/
theorem noteFault_faults (code : FaultCode) (cls : FaultClass) (step : Option Nat) (d : Int) (s : State) :
    (noteFault code cls step d s).hold.faults =
      appendFault s.hold.faults (s.recordOf code.byte cls s.own step (sat32 d)) :=
  recordFault_faults ..

/-- Ending the own proposal records at most one fault. -/
theorem withdrawProposal_recent {n : Nat} {r : FaultRecord} (d : Int) (s : State) (hn : n ≤ 7)
    (h : recentFault n r s.hold.faults) : recentFault (n + 1) r (withdrawProposal d s).hold.faults := by
  simp only [withdrawProposal]
  split
  · split
    · exact recentFault_mono h (Nat.le_succ n)
    · simp only [endProposal, sightingUpdate]
      split <;> simp only [State.setCal_hold, noteFault_faults] <;> exact recentFault_append _ h hn
  · exact recentFault_mono h (Nat.le_succ n)

/-- What a hold does to the engine records no fault. -/
@[simp] theorem engineHold_faults (s : State) : (engineHold s).hold.faults = s.hold.faults := by
  simp only [engineHold, seekReturnHeld, surveyReturn]
  (repeat' split) <;> simp_all

/-- Holding reaches the other blocks with at most one fault recorded. -/
theorem holdReaches_recent {n : Nat} {r : FaultRecord} (s : State) (hn : n ≤ 7) (h : recentFault n r s.hold.faults) :
    recentFault (n + 1) r (holdReaches s).hold.faults := by
  simp only [holdReaches]
  exact withdrawProposal_recent 2 _ hn (by simpa using h)

/-- Beginning an entry records at most one fault. -/
theorem beginEntry_recent {n : Nat} {r : FaultRecord} (s : State) (hn : n ≤ 7) (h : recentFault n r s.hold.faults) :
    recentFault (n + 1) r (beginEntry s).hold.faults := by
  simp only [beginEntry, entryTest_keeps]
  exact holdReaches_recent _ hn (by simpa using h)

/-- Entering lockout records at most one fault. -/
theorem enterLockout_recent {n : Nat} {r : FaultRecord} (post : Bool) (s : State) (hn : n ≤ 7)
    (h : recentFault n r s.hold.faults) : recentFault (n + 1) r (enterLockout post s).hold.faults := by
  simp only [enterLockout]
  split
  · simp only [postLockRecord_keeps]; exact holdReaches_recent _ hn (by simpa using h)
  · exact holdReaches_recent _ hn (by simpa using h)

/-- A change of phase records at most one fault. -/
theorem setPhase_recent {n : Nat} {r : FaultRecord} (p : ArmPhase) (s : State) (hn : n ≤ 7)
    (h : recentFault n r s.hold.faults) : recentFault (n + 1) r (setPhase p s).hold.faults := by
  simp only [setPhase]
  split
  · exact recentFault_mono h (Nat.le_succ n)
  · have key : recentFault (n + 1) r (if s.coord.phase = .ready then withdrawProposal 4
        (addCause .phaseChanged ((s.setCoord { s.coord with
          phase := p, agreement := 0, restartedReported := [], verdictTested := false,
          deadline := s.phaseDeadline p }).setLink { s.link with outOfArm := [] }))
        else addCause .phaseChanged ((s.setCoord { s.coord with
          phase := p, agreement := 0, restartedReported := [], verdictTested := false,
          deadline := s.phaseDeadline p }).setLink { s.link with outOfArm := [] })).hold.faults := by
      split
      · exact withdrawProposal_recent 4 _ hn (by simpa using h)
      · exact recentFault_mono (by simpa using h) (Nat.le_succ n)
    cases p <;> simpa using key

/-- Halting records at most one fault. -/
theorem haltPhase_recent {n : Nat} {r : FaultRecord} (s : State) (hn : n ≤ 7) (h : recentFault n r s.hold.faults) :
    recentFault (n + 1) r (haltPhase s).hold.faults := by
  unfold haltPhase
  split <;> first | exact setPhase_recent _ s hn h | exact recentFault_mono h (Nat.le_succ n)

/-- A fault raised stands among the three newest records (R156, R160). -/
theorem raiseFault_recent (code : FaultCode) (cls : FaultClass) (step : Option Nat) (d : Int) (s : State) :
    ∃ r, recentFault 3 r (raiseFault code cls step d s).hold.faults ∧ r.code = code.byte ∧ r.cls = cls ∧
      r.origin = s.own ∧ r.step = step ∧ r.detail = sat32 d := by
  have put : ∀ t : State, t.own = s.own → ∃ r, recentFault 1 r (noteFault code cls step d t).hold.faults ∧
      r.code = code.byte ∧ r.cls = cls ∧ r.origin = s.own ∧ r.step = step ∧ r.detail = sat32 d := by
    intro t ht
    refine ⟨_, by rw [noteFault_faults]; exact recentFault_append_self _ _, rfl, rfl, ht, rfl, rfl⟩
  have simple : ∃ r, recentFault 3 r (noteFault code cls step d s).hold.faults ∧ r.code = code.byte ∧ r.cls = cls ∧
      r.origin = s.own ∧ r.step = step ∧ r.detail = sat32 d := by
    obtain ⟨r, h, k⟩ := put s rfl
    exact ⟨r, recentFault_mono h (by omega), k⟩
  have level : ∃ r, recentFault 2 r
      (match s.hold.level with
        | .none => beginEntry (noteFault code cls step d (newHold .stop code.byte s))
        | .stop => if s.hold.complete then beginEntry (noteFault code cls step d (newHold .stop code.byte s))
            else beginEntry (noteFault code cls step d (setLevel .drop s))
        | .drop => if s.hold.complete then beginEntry (noteFault code cls step d (newHold .drop code.byte s))
            else enterLockout true (noteFault code cls step d (setLevel .lockout s))
        | .lockout => noteFault code cls step d s).hold.faults ∧ r.code = code.byte ∧ r.cls = cls ∧
      r.origin = s.own ∧ r.step = step ∧ r.detail = sat32 d := by
    have own1 : ∀ l, (newHold l code.byte s).own = s.own := fun l => by simp [State.own]
    have own2 : ∀ l, (setLevel l s).own = s.own := fun l => by simp [State.own]
    have via : ∀ t : State, t.own = s.own → ∃ r, recentFault 2 r (beginEntry (noteFault code cls step d t)).hold.faults ∧
        r.code = code.byte ∧ r.cls = cls ∧ r.origin = s.own ∧ r.step = step ∧ r.detail = sat32 d := fun t ht => by
      obtain ⟨r, h, k⟩ := put t ht
      exact ⟨r, beginEntry_recent _ (by omega) h, k⟩
    split
    · exact via _ (own1 _)
    · split
      · exact via _ (own1 _)
      · exact via _ (own2 _)
    · split
      · exact via _ (own1 _)
      · obtain ⟨r, h, k⟩ := put _ (own2 .lockout)
        exact ⟨r, enterLockout_recent _ _ (by omega) h, k⟩
    · obtain ⟨r, h, k⟩ := put s rfl
      exact ⟨r, recentFault_mono h (by omega), k⟩
  cases cls
  · exact simple
  · exact simple
  · obtain ⟨r, h, k⟩ := level
    exact ⟨r, recentFault_mono h (by omega), k⟩
  · obtain ⟨r, h, k⟩ := level
    exact ⟨r, haltPhase_recent _ (by omega) h, k⟩
  · exact simple

/-- A recent record stays recent through a fault: one record of its own, and at most two others. -/
theorem raiseFault_older {n : Nat} {r : FaultRecord} (code : FaultCode) (cls : FaultClass) (step : Option Nat) (d : Int)
    (s : State) (hn : n ≤ 5) (h : recentFault n r s.hold.faults) :
    recentFault (n + 3) r (raiseFault code cls step d s).hold.faults := by
  have put : ∀ t : State, recentFault n r t.hold.faults →
      recentFault (n + 1) r (noteFault code cls step d t).hold.faults := by
    intro t ht; rw [noteFault_faults]; exact recentFault_append _ ht (by omega)
  have simple : recentFault (n + 3) r (noteFault code cls step d s).hold.faults := recentFault_mono (put s h) (by omega)
  have fresh : ∀ l, recentFault n r (newHold l code.byte s).hold.faults := fun l => by simpa [newHold] using h
  have set : ∀ l, recentFault n r (setLevel l s).hold.faults := fun l => by simpa using h
  have via : ∀ t : State, recentFault n r t.hold.faults →
      recentFault (n + 2) r (beginEntry (noteFault code cls step d t)).hold.faults :=
    fun t ht => beginEntry_recent _ (by omega) (put t ht)
  have level : recentFault (n + 2) r
      (match s.hold.level with
        | .none => beginEntry (noteFault code cls step d (newHold .stop code.byte s))
        | .stop => if s.hold.complete then beginEntry (noteFault code cls step d (newHold .stop code.byte s))
            else beginEntry (noteFault code cls step d (setLevel .drop s))
        | .drop => if s.hold.complete then beginEntry (noteFault code cls step d (newHold .drop code.byte s))
            else enterLockout true (noteFault code cls step d (setLevel .lockout s))
        | .lockout => noteFault code cls step d s).hold.faults := by
    split
    · exact via _ (fresh _)
    · split
      · exact via _ (fresh _)
      · exact via _ (set _)
    · split
      · exact via _ (fresh _)
      · exact enterLockout_recent _ _ (by omega) (put _ (set _))
    · exact recentFault_mono (put s h) (by omega)
  cases cls
  · exact simple
  · exact simple
  · exact recentFault_mono level (by omega)
  · exact haltPhase_recent _ (by omega) level
  · exact simple

end Sys2Proof.Machine
end

