-- ==== Sys2Proof/Laws/Holds.lean ====
section
/-! SUPPORT. What the Hold Unit's operations do: the attention causes they keep, the hold state a fault leaves, the phase
a change of phase leaves, and what the end of a hold leaves. -/

namespace Sys2Proof.Machine

/-! ### Attention causes are only added -/

/-- The set holds a cause. -/
def CauseSet.has (a : CauseSet) : Cause → Bool
  | .orderChanged => a.orderChanged
  | .faultRecorded => a.faultRecorded
  | .phaseChanged => a.phaseChanged
  | .holdChanged => a.holdChanged
  | .surveyDone => a.surveyDone
  | .calChanged => a.calChanged

@[simp] theorem CauseSet.has_put (a : CauseSet) (c d : Cause) :
    (a.put c true).has d = (decide (c = d) || a.has d) := by
  cases c <;> cases d <;> simp [CauseSet.put, CauseSet.has]

/-- A cause added is there. -/
theorem addCause_attention (c d : Cause) (s : State) :
    (addCause c s).port.attention.has d = (decide (c = d) || s.port.attention.has d) := by
  simp [addCause]

@[simp] theorem addCause_self (c : Cause) (s : State) : (addCause c s).port.attention.has c = true := by
  simp [addCause]

@[simp] theorem addCause_has (c d : Cause) (s : State) (h : s.port.attention.has d = true) :
    (addCause c s).port.attention.has d = true := by
  simp [addCause, h]

@[simp] theorem writeOrder_has (o : MotionOrder) (d : Cause) (s : State) (h : s.port.attention.has d = true) :
    (writeOrder o s).port.attention.has d = true := by
  simp only [writeOrder]; split <;> simp (maxDischargeDepth := 9) [h]

@[simp] theorem engineWrite_has (o : MotionOrder) (d : Cause) (s : State) (h : s.port.attention.has d = true) :
    (engineWrite o s).port.attention.has d = true := by
  simp only [engineWrite]; split <;> simp (maxDischargeDepth := 9) [h]

@[simp] theorem noteFault_has (code : FaultCode) (cls : FaultClass) (step : Option Nat) (x : Int) (d : Cause) (s : State)
    (h : s.port.attention.has d = true) : (noteFault code cls step x s).port.attention.has d = true := by
  simp only [noteFault, recordFault]; split <;> simp (maxDischargeDepth := 9) [h]

@[simp] theorem withdrawProposal_has (x : Int) (d : Cause) (s : State) (h : s.port.attention.has d = true) :
    (withdrawProposal x s).port.attention.has d = true := by
  simp only [withdrawProposal, endProposal, sightingUpdate]; (repeat' split) <;> simp (maxDischargeDepth := 9) [h]

@[simp] theorem operationEnded_has (d : Cause) (s : State) (h : s.port.attention.has d = true) :
    (operationEnded s).port.attention.has d = true := by
  simp only [operationEnded]; split <;> simp (maxDischargeDepth := 9) [h]

@[simp] theorem seekFinish_has (c : SeekContext) (d : Cause) (s : State) (h : s.port.attention.has d = true) :
    (seekFinish c s).port.attention.has d = true := by
  simp (maxDischargeDepth := 9) [seekFinish, h]

@[simp] theorem surveyFinish_has (c : SurveyContext) (o : SurveyOutcome) (b : Bool) (d : Cause) (s : State)
    (h : s.port.attention.has d = true) : (surveyFinish c o b s).port.attention.has d = true := by
  simp (maxDischargeDepth := 9) [surveyFinish, h]

/-- A survey that ends adds SURVEY_DONE (R189). -/
@[simp] theorem surveyFinish_done (c : SurveyContext) (o : SurveyOutcome) (b : Bool) (s : State) :
    (surveyFinish c o b s).port.attention.has .surveyDone = true := by
  simp [surveyFinish]

@[simp] theorem engineHold_has (d : Cause) (s : State) (h : s.port.attention.has d = true) :
    (engineHold s).port.attention.has d = true := by
  simp only [engineHold, seekReturnHeld, surveyReturn]; (repeat' split) <;> simp (maxDischargeDepth := 9) [h]

@[simp] theorem holdReaches_has (d : Cause) (s : State) (h : s.port.attention.has d = true) :
    (holdReaches s).port.attention.has d = true := by
  simp (maxDischargeDepth := 9) [holdReaches, h]

@[simp] theorem setComplete_has (b : Bool) (d : Cause) (s : State) (h : s.port.attention.has d = true) :
    (setComplete b s).port.attention.has d = true := by
  simp only [setComplete]; split <;> simp (maxDischargeDepth := 9) [h]

@[simp] theorem setLevel_has (l : HoldLevel) (d : Cause) (s : State) (h : s.port.attention.has d = true) :
    (setLevel l s).port.attention.has d = true := by
  simp only [setLevel]; split <;> simp (maxDischargeDepth := 9) [h]

@[simp] theorem changeSeq_has (q : BitVec 16) (d : Cause) (s : State) (h : s.port.attention.has d = true) :
    (changeSeq q s).port.attention.has d = true := by
  simp only [changeSeq]; split <;> simp (maxDischargeDepth := 9) [h]

@[simp] theorem entryTest_has (d : Cause) (s : State) (h : s.port.attention.has d = true) :
    (entryTest s).port.attention.has d = true := by
  simp only [entryTest]; (repeat' split) <;> simp (maxDischargeDepth := 9) [h]

@[simp] theorem beginEntry_has (d : Cause) (s : State) (h : s.port.attention.has d = true) :
    (beginEntry s).port.attention.has d = true := by
  simp (maxDischargeDepth := 9) [beginEntry, h]

@[simp] theorem enterLockout_has (post : Bool) (d : Cause) (s : State) (h : s.port.attention.has d = true) :
    (enterLockout post s).port.attention.has d = true := by
  simp only [enterLockout]; split <;> simp (maxDischargeDepth := 9) [h]

/-- The station right after a change of phase, before the plan and the gate follow (R72, R198). -/
def State.phaseBegun (s : State) (p : ArmPhase) : State :=
  let t := addCause .phaseChanged ((s.setCoord { s.coord with
    phase := p, agreement := 0, restartedReported := [], verdictTested := false, deadline := s.phaseDeadline p }).setLink
    { s.link with outOfArm := [] })
  if s.coord.phase = .ready then withdrawProposal 4 t else t

/-- A change of phase in its parts (R72, R83, R84, R150, R198). -/
theorem setPhase_parts (p : ArmPhase) (s : State) (h : s.coord.phase ≠ p) :
    setPhase p s = gateUpdate (if p = .halted then planAbandon (s.phaseBegun p)
      else if p = .homing then planReset (s.phaseBegun p) else s.phaseBegun p) := by
  simp only [setPhase, if_neg h]
  cases p <;> rfl

theorem phaseBegun_has (p : ArmPhase) (d : Cause) (s : State) (h : s.port.attention.has d = true) :
    (s.phaseBegun p).port.attention.has d = true := by
  simp only [State.phaseBegun]; split <;> simp (maxDischargeDepth := 9) [h]

theorem phaseBegun_changed (p : ArmPhase) (s : State) : (s.phaseBegun p).port.attention.has .phaseChanged = true := by
  simp only [State.phaseBegun]; split <;> simp (maxDischargeDepth := 9)

@[simp] theorem setPhase_has (p : ArmPhase) (d : Cause) (s : State) (h : s.port.attention.has d = true) :
    (setPhase p s).port.attention.has d = true := by
  by_cases hp : s.coord.phase = p
  · rw [setPhase, if_pos hp]; exact h
  · rw [setPhase_parts p s hp]
    have := phaseBegun_has p d s h
    (repeat' split) <;> simpa

/-- A change of phase adds PHASE_CHANGED (R211). -/
theorem setPhase_changed (p : ArmPhase) (s : State) (h : s.coord.phase ≠ p) :
    (setPhase p s).port.attention.has .phaseChanged = true := by
  rw [setPhase_parts p s h]
  have := phaseBegun_changed p s
  (repeat' split) <;> simpa

/-- What a change of phase gives the Coordinator: the deadline of the new phase, and the counts and sets that begin anew
(R72). -/
theorem setPhase_coord (p : ArmPhase) (s : State) (h : s.coord.phase ≠ p) :
    (setPhase p s).coord = { s.coord with
      phase := p, agreement := 0, restartedReported := [], verdictTested := false, deadline := s.phaseDeadline p } := by
  rw [setPhase_parts p s h]
  have : (s.phaseBegun p).coord = { s.coord with
      phase := p, agreement := 0, restartedReported := [], verdictTested := false, deadline := s.phaseDeadline p } := by
    simp only [State.phaseBegun]; split <;> simp
  (repeat' split) <;> simpa

/-- Out of any phase but READY, and into any but HALTED and HOMING, a change of phase reaches the Coordinator, the link's
out-of-arm set, the gate and the attention causes alone. -/
theorem setPhase_plain (p : ArmPhase) (s : State) (h : s.coord.phase ≠ p) (h1 : s.coord.phase ≠ .ready)
    (h2 : p ≠ .halted) (h3 : p ≠ .homing) :
    setPhase p s = gateUpdate (addCause .phaseChanged ((s.setCoord { s.coord with
      phase := p, agreement := 0, restartedReported := [], verdictTested := false,
      deadline := s.phaseDeadline p }).setLink { s.link with outOfArm := [] })) := by
  rw [setPhase_parts p s h, if_neg h2, if_neg h3, State.phaseBegun, if_neg h1]

/-! ### The hold state -/

/-- The engine's part of a hold leaves the record that already holds reason HOLD (R27). -/
theorem engineWrite_held (o : MotionOrder) (s : State) (h : s.engine.order.reason = some .hold) : engineWrite o s = s := by
  simp [engineWrite, h]

@[simp] theorem setLevel_hold (l : HoldLevel) (s : State) : (setLevel l s).hold = { s.hold with level := l } := by
  simp only [setLevel]; split
  · rename_i h; rw [← h]
  · simp

@[simp] theorem setComplete_hold (b : Bool) (s : State) : (setComplete b s).hold = { s.hold with complete := b } := by
  simp only [setComplete]; split
  · rename_i h; rw [← h]
  · simp

@[simp] theorem setCause_hold (c : Byte) (o : Station) (s : State) :
    (setCause c o s).hold = { s.hold with cause := c, origin := o } := by
  simp [setCause]

/-- What withdrawing the own proposal leaves of the hold state: everything but the fault list (R198). -/
theorem withdrawProposal_hold (d : Int) (s : State) :
    ∃ l, (withdrawProposal d s).hold = { s.hold with faults := l } := by
  have note : ∀ t : State, ∃ l, (noteFault .calAborted .note none d t).hold = { t.hold with faults := l } := by
    intro t; exact ⟨_, by simp only [noteFault, recordFault]; split <;> simp <;> rfl⟩
  simp only [withdrawProposal, endProposal, sightingUpdate]
  (repeat' split) <;> first | exact ⟨_, rfl⟩ | (simp only [State.setCal_hold]; exact note _) | exact note _

@[simp] theorem operationEnded_order (s : State) : (operationEnded s).engine.order = s.engine.order := by
  simp only [operationEnded, demote]; (repeat' split) <;> simp

/-- The engine's answer to a hold leaves the order record that holds reason HOLD (R27). -/
theorem engineHold_order (s : State) (h : s.engine.order.reason = some .hold) :
    (engineHold s).engine.order = s.engine.order := by
  simp only [engineHold, seekReturnHeld, surveyReturn, seekFinish, surveyFinish]
  (repeat' split) <;> simp_all [engineWrite]

/-- Holding leaves the order record that holds reason HOLD. -/
theorem holdReaches_order (s : State) (h : s.engine.order.reason = some .hold) :
    (holdReaches s).engine.order = s.engine.order := by
  simp [holdReaches, engineHold_order s h]

/-- Holding leaves the hold state but for the fault list. -/
theorem holdReaches_hold (s : State) : ∃ l, (holdReaches s).hold = { s.hold with faults := l } := by
  have e : ∃ l, (engineHold s).hold = { s.hold with faults := l } := by
    refine ⟨s.hold.faults, ?_⟩
    simp only [engineHold, seekReturnHeld, surveyReturn]
    (repeat' split) <;> simp_all
  obtain ⟨l, e⟩ := e
  obtain ⟨k, w⟩ := withdrawProposal_hold 2 (noteDropMotion (gateUpdate (planHold (engineHold s))))
  exact ⟨k, by rw [holdReaches, w]; simp [e]⟩

/-- The test of an entry changes of the hold state the entry alone (R170). -/
theorem entryTest_hold (s : State) :
    (entryTest s).hold = s.hold ∨ (entryTest s).hold = { s.hold with complete := true, deadline := none } := by
  simp only [entryTest]
  (repeat' split) <;> simp

@[simp] theorem writeOrder_order (o : MotionOrder) (s : State) : (writeOrder o s).engine.order = o := by
  simp only [writeOrder]; split
  · assumption
  · simp

/-- What an entry leaves: the sequence, level, cause and origin it began with, no resume flag, and STOP with reason HOLD
ordered (R161). -/
theorem beginEntry_spec (s : State) :
    (beginEntry s).hold.cause = s.hold.cause ∧ (beginEntry s).hold.origin = s.hold.origin ∧
    (beginEntry s).hold.resume = false ∧ (beginEntry s).hold.resumeFor = 0 ∧
    (beginEntry s).hold.newest = s.hold.newest ∧ (beginEntry s).engine.order = .stop .hold := by
  simp only [beginEntry]
  generalize hg : (writeOrder (.stop .hold) ((setComplete false s).setHold _)) = u
  have hu : u.engine.order = .stop .hold := by rw [← hg]; simp
  have hh : u.hold.cause = s.hold.cause ∧ u.hold.origin = s.hold.origin ∧ u.hold.resume = false ∧
      u.hold.resumeFor = 0 ∧ u.hold.newest = s.hold.newest := by rw [← hg]; simp
  obtain ⟨l, e⟩ := holdReaches_hold u
  have o : (holdReaches u).engine.order = .stop .hold := by rw [holdReaches_order u (by rw [hu]; rfl), hu]
  rcases entryTest_hold (holdReaches u) with k | k <;> rw [k, e] <;> simp [hh, o]

@[simp] theorem changeSeq_seq (q : BitVec 16) (s : State) : (changeSeq q s).hold.seq = q := by
  simp only [changeSeq]; split
  · assumption
  · simp

/-- A new hold: its sequence, level, cause and origin, its resume flag clear (R159, R160). -/
theorem newHold_spec (l : HoldLevel) (cause : Byte) (s : State) :
    (newHold l cause s).hold.level = l ∧ (newHold l cause s).hold.seq = s.hold.freshSeq ∧
    (newHold l cause s).hold.cause = cause ∧ (newHold l cause s).hold.origin = s.own ∧
    (newHold l cause s).engine = s.engine := by
  simp [newHold]

@[simp] theorem noteFault_hold (code : FaultCode) (cls : FaultClass) (step : Option Nat) (d : Int) (s : State) :
    (noteFault code cls step d s).hold = { s.hold with
      faults := appendFault s.hold.faults (s.recordOf code.byte cls s.own step (sat32 d)) } := by
  rw [← noteFault_faults]; simp only [noteFault, recordFault]; split <;> simp

/-- A HOLD-class fault raised at level NONE or over a complete entry begins a new hold: the next sequence, its code as the
cause and this station as the origin, STOP ordered, and HOLD_CHANGED (R159, R160, R161). -/
theorem raiseHold_new (code : FaultCode) (d : Int) (s : State)
    (h : s.hold.level = .none ∨ ((s.hold.level = .stop ∨ s.hold.level = .drop) ∧ s.hold.complete = true)) :
    (raiseHold code d s).hold.level = (if s.hold.level = .drop then .drop else .stop) ∧
    (raiseHold code d s).hold.seq = s.hold.freshSeq ∧ (raiseHold code d s).hold.cause = code.byte ∧
    (raiseHold code d s).hold.origin = s.own ∧ (raiseHold code d s).hold.resume = false ∧
    (raiseHold code d s).engine.order = .stop .hold ∧ (raiseHold code d s).coord = s.coord := by
  have key : ∀ l, (beginEntry (noteFault code .hold none d (newHold l code.byte s))).hold.level = l ∧
      (beginEntry (noteFault code .hold none d (newHold l code.byte s))).hold.seq = s.hold.freshSeq ∧
      (beginEntry (noteFault code .hold none d (newHold l code.byte s))).hold.cause = code.byte ∧
      (beginEntry (noteFault code .hold none d (newHold l code.byte s))).hold.origin = s.own ∧
      (beginEntry (noteFault code .hold none d (newHold l code.byte s))).hold.resume = false ∧
      (beginEntry (noteFault code .hold none d (newHold l code.byte s))).engine.order = .stop .hold ∧
      (beginEntry (noteFault code .hold none d (newHold l code.byte s))).coord = s.coord := by
    intro l
    obtain ⟨a, b, c, d', e, f⟩ := beginEntry_spec (noteFault code .hold none d (newHold l code.byte s))
    obtain ⟨p, q, r, o, u⟩ := newHold_spec l code.byte s
    rw [a, b, c, f]
    simp [p, q, r, o]
  rcases h with h | ⟨h | h, k⟩
  · simp only [raiseHold, raiseFault, h, reduceCtorEq, if_false]; exact key _
  · simp only [raiseHold, raiseFault, h, k, reduceCtorEq, if_true, if_false]; exact key _
  · simp only [raiseHold, raiseFault, h, k, reduceCtorEq, if_true, if_false]; exact key _

/-- A HOLD-class fault that begins a new hold adds HOLD_CHANGED (R211). -/
theorem raiseHold_changed (code : FaultCode) (d : Int) (s : State)
    (h : s.hold.level = .none ∨ ((s.hold.level = .stop ∨ s.hold.level = .drop) ∧ s.hold.complete = true)) :
    (raiseHold code d s).port.attention.has .holdChanged = true := by
  have fresh : ∀ t : State, t.hold.complete = true → (beginEntry t).port.attention.has .holdChanged = true := by
    intro t ht
    simp only [beginEntry, setComplete, ht]
    simp (maxDischargeDepth := 9)
  have keep : ∀ l, s.hold.complete = true →
      (noteFault code .hold none d (newHold l code.byte s)).hold.complete = true := by
    intro l k; simp [newHold, k]
  rcases h with h | ⟨h | h, k⟩
  · simp only [raiseHold, raiseFault, h, reduceCtorEq, if_false]
    apply beginEntry_has; apply noteFault_has
    simp [newHold, setCause, setLevel, h]
  · simp only [raiseHold, raiseFault, h, k, reduceCtorEq, if_true, if_false]; exact fresh _ (keep _ k)
  · simp only [raiseHold, raiseFault, h, k, reduceCtorEq, if_true, if_false]; exact fresh _ (keep _ k)

/-- A change of phase leaves the hold state but for the fault list. -/
theorem setPhase_hold (p : ArmPhase) (s : State) : ∃ l, (setPhase p s).hold = { s.hold with faults := l } := by
  by_cases h : s.coord.phase = p
  · exact ⟨_, by rw [setPhase, if_pos h]⟩
  · have b : ∃ l, (s.phaseBegun p).hold = { s.hold with faults := l } := by
      simp only [State.phaseBegun]; split
      · obtain ⟨l, e⟩ := withdrawProposal_hold 4 (addCause .phaseChanged ((s.setCoord { s.coord with
          phase := p, agreement := 0, restartedReported := [], verdictTested := false,
          deadline := s.phaseDeadline p }).setLink { s.link with outOfArm := [] }))
        exact ⟨l, by rw [e]; simp⟩
      · exact ⟨s.hold.faults, by simp⟩
    obtain ⟨l, e⟩ := b
    refine ⟨l, ?_⟩
    rw [setPhase_parts p s h]
    (repeat' split) <;> simpa using e

/-! ### The end of a hold -/

/-- The order record after a hold has gone (R176). -/
theorem clearHoldOrder_engine (s : State) : (clearHoldOrder s).engine =
    { s.engine with order := if s.engine.order.reason = some .hold then .none else s.engine.order } := by
  simp only [clearHoldOrder]
  split
  · simp only [writeOrder]; split
    · rename_i h; rw [← h]
    · simp
  · rfl

/-- What the fall of the level to NONE leaves (R176). -/
theorem levelToNone_spec (s : State) :
    (levelToNone s).hold = { s.hold with level := .none, complete := false, deadline := none } ∧
    (levelToNone s).engine = { s.engine with
      order := if s.engine.order.reason = some .hold then .none else s.engine.order } ∧
    (levelToNone s).store = { s.store with closing := none } := by
  refine ⟨?_, ?_, ?_⟩
  · simp [levelToNone]
  · rw [levelToNone]; simp only [clearHoldOrder_engine]; simp
  · simp [levelToNone]

/-- A level that was not NONE leaves HOLD_CHANGED as it falls (R176, R211). -/
theorem levelToNone_changed (s : State) (h : s.hold.level ≠ .none) :
    (levelToNone s).port.attention.has .holdChanged = true := by
  have k : ∀ t : State, t.port.attention.has .holdChanged = true →
      (clearHoldOrder t).port.attention.has .holdChanged = true := by
    intro t ht; simp only [clearHoldOrder]; split <;> simp [ht]
  rw [levelToNone]
  apply k
  simp only [State.setStore_port, State.setHold_port]
  apply setComplete_has
  simp [setLevel, h]

/-- Using the drop motion flag reaches the engine's reference state and the Plan Unit alone (R151). -/
theorem useDropMotion_spec (s : State) :
    (useDropMotion s).engine.order = s.engine.order ∧ (useDropMotion s).hold = s.hold ∧
    (useDropMotion s).store = s.store ∧ (useDropMotion s).port = s.port := by
  simp only [useDropMotion, demote]; (repeat' split) <;> simp

/-- The gate is OPEN as soon as it is permitted (R166). -/
theorem gateUpdate_permitted (s : State) (h : s.permitted = true) : (gateUpdate s).gate = .opened := by
  have hl : s.hold.level.dropped = false := by
    simp only [State.permitted, Bool.and_eq_true, decide_eq_true_eq] at h
    simp [h.1.2, HoldLevel.dropped]
  simp [gateUpdate, nextGate, h, hl]

/-- Staging leaves what the gate's permission is read from. -/
theorem stageTest_permitted (s : State) : (stageTest s).permitted = s.permitted := by
  simp [State.permitted, State.moveRequested]

/-- A posted write reaches the port and the pending set alone of the store controller (R91). -/
theorem postWrite_store (r : WriteRequest) (s : State) :
    ∃ p q, (postWrite r s).store = { s.store with port := p, pending := q } := by
  simp only [postWrite, grant, addPending]
  split
  · exact ⟨_, _, rfl⟩
  · split
    · split <;> exact ⟨_, _, rfl⟩
    · exact ⟨_, _, rfl⟩

/-- Staging reaches the port and the pending set alone of the store controller (R191). -/
theorem stageTest_store (s : State) : ∃ p q, (stageTest s).store = { s.store with port := p, pending := q } := by
  simp only [stageTest]
  (repeat' split) <;> first | exact ⟨_, _, rfl⟩ | exact postWrite_store _ _

/-- A place replaced in a vector reads back. -/
@[simp] theorem vput_get {α : Type} {n : Nat} (v : Vector α n) (i j : Fin n) (x : α) :
    (vput v i x).get j = if i = j then x else v.get j := by
  simp only [vput, Vector.get_eq_getElem, Vector.getElem_set, Fin.ext_iff]

/-- A LOCK_CLEAR posted is pending or in flight, and no LOCK_RECORD is pending any more (R108). -/
theorem postLockClear_store (s : State) :
    (postLockClear s).store.busyWith .lockClear = true ∧ (postLockClear s).store.isPending .lockRecord = false := by
  simp only [postLockClear, postWrite, WriteRequest.kind]
  split
  · rename_i h; simp at h
  · split <;>
      simp [grant, addPending, dropPending, Store.busyWith, Store.isPending, Store.inFlight, WriteKind.place,
        WriteRequest.kind]

/-- A hand-off keeps the attention causes (R70, R211). -/
@[simp] theorem handOff_has (d : Cause) (s : State) (h : s.port.attention.has d = true) :
    (handOff s).port.attention.has d = true := by
  have k : ∀ t : State, t.port.attention.has d = true → (proposalSuccess t).port.attention.has d = true := by
    intro t ht; simp only [proposalSuccess, endProposal]; (repeat' split) <;> simp [ht]
  simp only [handOff]
  apply k
  have e := entryTest_has d s h
  simpa using e

/-- A fault raised keeps the attention causes (R211). -/
@[simp] theorem raiseFault_has (code : FaultCode) (cls : FaultClass) (step : Option Nat) (x : Int) (d : Cause) (s : State)
    (h : s.port.attention.has d = true) : (raiseFault code cls step x s).port.attention.has d = true := by
  have n : ∀ t : State, t.port.attention.has d = true → (noteFault code cls step x t).port.attention.has d = true :=
    fun t ht => noteFault_has _ _ _ _ _ _ ht
  have nh : ∀ l, (newHold l code.byte s).port.attention.has d = true := by
    intro l; simp (maxDischargeDepth := 9) [newHold, setCause, h]
  have key : (match s.hold.level with
      | .none => beginEntry (noteFault code cls step x (newHold .stop code.byte s))
      | .stop => if s.hold.complete then beginEntry (noteFault code cls step x (newHold .stop code.byte s))
          else beginEntry (noteFault code cls step x (setLevel .drop s))
      | .drop => if s.hold.complete then beginEntry (noteFault code cls step x (newHold .drop code.byte s))
          else enterLockout true (noteFault code cls step x (setLevel .lockout s))
      | .lockout => noteFault code cls step x s).port.attention.has d = true := by
    (repeat' split) <;> simp (maxDischargeDepth := 9) [h, nh]
  cases cls
  · exact n s h
  · exact n s h
  · exact key
  · simp only [raiseFault, if_true, haltPhase]
    split <;> first | exact setPhase_has _ _ _ key | exact key
  · exact n s h

/-- What a fault of a class other than ABORT does beside its record: nothing at NOTE, RETRY and ESCALATION; at HOLD and
LOCKOUT nothing, and at a lower level what holding does (R153, R160). -/
theorem raiseFault_cases (P : State → Prop) (code : FaultCode) (cls : FaultClass) (step : Option Nat) (d : Int) (s : State)
    (hc : cls ≠ .abort) (h : P s) (hn : ∀ t, P t → P (noteFault code cls step d t))
    (hnew : ∀ l t, P t → P (newHold l code.byte t)) (hset : ∀ l t, P t → P (setLevel l t))
    (hb : ∀ t, P t → P (beginEntry t)) (hl : ∀ t, P t → P (enterLockout true t)) :
    P (raiseFault code cls step d s) := by
  cases cls
  · exact hn _ h
  · exact hn _ h
  · simp only [raiseFault, reduceCtorEq, if_false]
    (repeat' split)
    · exact hb _ (hn _ (hnew _ _ h))
    · exact hb _ (hn _ (hnew _ _ h))
    · exact hb _ (hn _ (hset _ _ h))
    · exact hb _ (hn _ (hnew _ _ h))
    · exact hl _ (hn _ (hset _ _ h))
    · exact hn _ h
  · exact absurd rfl hc
  · exact hn _ h

/-- A fault of a class other than ABORT leaves the Coordinator. -/
theorem raiseFault_coord (code : FaultCode) (cls : FaultClass) (step : Option Nat) (d : Int) (s : State)
    (hc : cls ≠ .abort) : (raiseFault code cls step d s).coord = s.coord := by
  apply raiseFault_cases (fun t => t.coord = s.coord) _ _ _ _ _ hc rfl <;> intros <;> simp_all [newHold]

/-- Holding leaves whether the demotion of R151 waits. -/
theorem engineHold_ended (s : State) (h : ∀ c, s.engine.operation = .seek c → c.endCause = some .abandoned)
    (hs : ∀ c, s.engine.operation ≠ .survey c) (hp : ∀ p, s.engine.operation ≠ .park p) : engineHold s = s := by
  simp only [engineHold]
  split
  · rfl
  · rename_i p hq; exact absurd hq (hp p)
  · rename_i c hq
    split
    · rfl
    · rw [h c hq]
  · rename_i c hq; exact absurd hq (hs c)

/-- An abandoned seek is left as it is by a fault of a class other than ABORT (R39, R40). -/
theorem raiseFault_abandoned (code : FaultCode) (cls : FaultClass) (step : Option Nat) (d : Int) (s : State)
    (c : SeekContext) (hc : cls ≠ .abort) (h : s.engine.operation = .seek c) (he : c.endCause = some .abandoned) :
    (raiseFault code cls step d s).engine.operation = .seek c ∧
    (raiseFault code cls step d s).engine.refState = s.engine.refState ∧
    (raiseFault code cls step d s).plan.demote = s.plan.demote := by
  have hold : ∀ t : State, t.engine.operation = .seek c ∧ t.engine.refState = s.engine.refState ∧
      t.plan.demote = s.plan.demote → (holdReaches t).engine.operation = .seek c ∧
      (holdReaches t).engine.refState = s.engine.refState ∧ (holdReaches t).plan.demote = s.plan.demote := by
    intro t ht
    have : engineHold t = t := by
      apply engineHold_ended
      · intro x hx; rw [ht.1] at hx; injection hx with hx; rw [← hx]; exact he
      · intro x hx; rw [ht.1] at hx; cases hx
      · intro x hx; rw [ht.1] at hx; cases hx
    simp only [holdReaches, this, withdrawProposal_keeps]
    simp only [noteDropMotion, planHold]
    (repeat' split) <;> simp [ht]
  have wo : ∀ (o : MotionOrder) (t : State), (writeOrder o t).engine = { t.engine with order := o } := by
    intro o t; simp only [writeOrder]; split
    · rename_i hh; rw [← hh]
    · simp
  apply raiseFault_cases (fun t => t.engine.operation = .seek c ∧ t.engine.refState = s.engine.refState ∧
    t.plan.demote = s.plan.demote) _ _ _ _ _ hc ⟨h, rfl, rfl⟩
  · intro t ht; simpa using ht
  · intro l t ht; simpa [newHold] using ht
  · intro l t ht; simpa using ht
  · intro t ht
    simp only [beginEntry, entryTest_keeps]
    exact hold _ (by simpa [wo] using ht)
  · intro t ht
    simp only [enterLockout, if_true, postLockRecord_keeps]
    exact hold _ (by simpa [wo] using ht)

/-- The end of an operation leaves the operation record, and does nothing where no demotion waits (R151). -/
theorem operationEnded_spec (s : State) :
    (operationEnded s).engine.operation = s.engine.operation ∧ (s.plan.demote = false → operationEnded s = s) := by
  simp only [operationEnded, demote]
  refine ⟨?_, fun h => by rw [h]; rfl⟩
  (repeat' split) <;> simp

/-- A write of the order record leaves the engine's other items (R26). -/
theorem writeOrder_engine (o : MotionOrder) (s : State) : (writeOrder o s).engine = { s.engine with order := o } := by
  simp only [writeOrder]; split
  · rename_i h; rw [← h]
  · simp

@[simp] theorem engineWrite_items (o : MotionOrder) (s : State) :
    (engineWrite o s).engine.operation = s.engine.operation ∧ (engineWrite o s).engine.refState = s.engine.refState ∧
    (engineWrite o s).engine.parked = s.engine.parked ∧
    (engineWrite o s).engine.lastDeviation = s.engine.lastDeviation ∧
    (engineWrite o s).engine.mismatch = s.engine.mismatch := by
  simp only [engineWrite]; split <;> simp [writeOrder_engine]

/-- Kinds are told apart by their places (R91). -/
theorem WriteKind.place_inj {a b : WriteKind} (h : a.place = b.place) : a = b := by
  cases a <;> cases b <;> simp_all [WriteKind.place]

/-- A posted write is pending or in flight, and the requests of the other kinds stay as they were (R91, R98). -/
theorem postWrite_posted (r : WriteRequest) (s : State) (h : r.kind = .calStage → s.sensing.pfail.level = false) :
    (postWrite r s).store.busyWith r.kind = true ∧
    ∀ k, k ≠ r.kind → (postWrite r s).store.isPending k = s.store.isPending k := by
  have hg : ¬ ((decide (r.kind = .calStage) && s.sensing.pfail.level) = true) := by
    intro hc; simp only [Bool.and_eq_true, decide_eq_true_eq] at hc
    rw [h hc.1] at hc; exact absurd hc.2 (by simp)
  simp only [postWrite, if_neg hg]
  split
  · have gs : (grant r s).store = { s.store with
        port := some { request := r, target := s.targetOf r, beat := 0, isCut := false } } := by
      simp only [grant]; split <;> rfl
    rw [gs]
    exact ⟨by simp [Store.busyWith, Store.inFlight], fun _ _ => rfl⟩
  · refine ⟨by simp [addPending, Store.busyWith, Store.isPending], fun k hk => ?_⟩
    have : r.kind.place ≠ k.place := fun e => hk (WriteKind.place_inj e).symm
    simp [addPending, Store.isPending, this]

end Sys2Proof.Machine
end

