-- ==== Sys2Proof/Laws/Coord.lean ====
section
/-! SUPPORT. The operations that raise no ABORT-class fault leave the Coordinator. -/

namespace Sys2Proof.Machine

/-- A disposition's class is not ABORT (R155). -/
theorem dispositionClass_ne (b : Bool) : dispositionClass b ≠ .abort := by cases b <;> simp [dispositionClass]

@[simp] theorem raiseHold_coord (code : FaultCode) (detail : Int) (s : State) : (raiseHold code detail s).coord = s.coord := by
  exact raiseFault_coord _ _ _ _ _ (by simp)

@[simp] theorem raiseSpurious_coord (sector : Nat) (s : State) : (raiseSpurious sector s).coord = s.coord := by
  exact raiseFault_coord _ _ _ _ _ (dispositionClass_ne _)

@[simp] theorem raiseBacklash_coord (b : Int) (s : State) : (raiseBacklash b s).coord = s.coord := by
  exact raiseFault_coord _ _ _ _ _ (dispositionClass_ne _)

@[simp] theorem raiseRatio_coord (d : Int) (s : State) : (raiseRatio d s).coord = s.coord := by
  exact raiseFault_coord _ _ _ _ _ (dispositionClass_ne _)

@[simp] theorem engineOrder_coord (o : MotionOrder) (s : State) : (engineOrder o s).coord = s.coord := by
  simp only [engineOrder]; (repeat' split) <;> simp [raiseFault_coord]

@[simp] theorem limitArrival_coord (d : Int) (s : State) : (limitArrival d s).coord = s.coord := by
  simp only [limitArrival]; (repeat' split) <;> simp [raiseFault_coord]

@[simp] theorem startSeek_coord (k : SeekKind) (d : StepDir) (speed : SpeedClass) (limit : Nat) (step : Option Nat) (s : State) : (startSeek k d speed limit step s).coord = s.coord := by
  simp [startSeek]

@[simp] theorem planRetry_coord (step : Option Nat) (code : FaultCode) (detail : Int) (s : State) : (planRetry step code detail s).coord = s.coord := by
  simp only [planRetry]; (repeat' split) <;> simp [raiseFault_coord]

@[simp] theorem seekReturn_coord (c : SeekContext) (e : SeekEnd) (s : State) : (seekReturn c e s).coord = s.coord := by
  simp only [seekReturn]; (repeat' split) <;> simp

@[simp] theorem endSeek_coord (c : SeekContext) (e : SeekEnd) (detail : Int) (s : State) : (endSeek c e detail s).coord = s.coord := by
  simp only [endSeek]; (repeat' split) <;> simp

@[simp] theorem seekClaim_coord (c : SeekContext) (v : Int) (s : State) : (seekClaim c v s).coord = s.coord := by
  simp only [seekClaim]
  cases h : setClaimNewest v s with
  | none => simp
  | some x => have k := setClaimNewest_keeps v s x h; simp [k]

@[simp] theorem seekCapture_coord (c : SeekContext) (x : Capture) (s : State) : (seekCapture c x s).coord = s.coord := by
  simp only [seekCapture]; (repeat' split) <;> simp

@[simp] theorem markCheck_coord (x : Capture) (s : State) : (markCheck x s).coord = s.coord := by
  simp only [markCheck]; (repeat' split) <;> simp [raiseFault_coord]

@[simp] theorem surveyEnterCapture_coord (c : SurveyContext) (phase : Nat) (s : State) : (surveyEnterCapture c phase s).coord = s.coord := by
  simp only [surveyEnterCapture]; (repeat' split) <;> simp

@[simp] theorem surveyEnterGoto_coord (c : SurveyContext) (phase : Nat) (s : State) : (surveyEnterGoto c phase s).coord = s.coord := by
  simp [surveyEnterGoto]

@[simp] theorem surveyEnterApproach_coord (c : SurveyContext) (phase : Nat) (s : State) : (surveyEnterApproach c phase s).coord = s.coord := by
  simp only [surveyEnterApproach]; (repeat' split) <;> simp

@[simp] theorem surveyFail_coord (c : SurveyContext) (phase : Nat) (s : State) : (surveyFail c phase s).coord = s.coord := by
  simp only [surveyFail]; (repeat' split) <;> simp

@[simp] theorem surveyComplete_coord (c : SurveyContext) (s : State) : (surveyComplete c s).coord = s.coord := by
  simp only [surveyComplete]; (repeat' split) <;> simp

@[simp] theorem surveyStandstill_coord (c : SurveyContext) (s : State) : (surveyStandstill c s).coord = s.coord := by
  simp only [surveyStandstill]; (repeat' split) <;> simp

@[simp] theorem surveyTake_coord (c : SurveyContext) (x : Capture) (s : State) : (surveyTake c x s).coord = s.coord := by
  simp only [surveyTake]; (repeat' split) <;> simp

@[simp] theorem surveyCapture_coord (c : SurveyContext) (x : Capture) (s : State) : (surveyCapture c x s).coord = s.coord := by
  simp only [surveyCapture]; (repeat' split) <;> simp

@[simp] theorem offerCapture_coord (x : Capture) (s : State) : (offerCapture x s).coord = s.coord := by
  simp only [offerCapture]; (repeat' split) <;> simp

@[simp] theorem startPark_coord (step : Option Nat) (s : State) : (startPark step s).coord = s.coord := by
  simp only [startPark]; (repeat' split) <;> simp

@[simp] theorem parkStandstill_coord (p : ParkOperation) (s : State) : (parkStandstill p s).coord = s.coord := by
  simp only [parkStandstill]; (repeat' split) <;> simp

@[simp] theorem engineStandstill_coord (s : State) : (engineStandstill s).coord = s.coord := by
  simp only [engineStandstill]; (repeat' split) <;> simp

@[simp] theorem engineTravel_coord (s : State) : (engineTravel s).coord = s.coord := by
  simp only [engineTravel]; (repeat' split) <;> simp

@[simp] theorem homeEdge_coord (arrival : Bool) (s : State) : (homeEdge arrival s).coord = s.coord := by
  simp only [homeEdge]; (repeat' split) <;> simp

@[simp] theorem stillArrival_coord (s : State) : (stillArrival s).coord = s.coord := by
  simp [stillArrival]

@[simp] theorem switchChanged_coord (i : SwitchInput) (active : Bool) (s : State) : (switchChanged i active s).coord = s.coord := by
  simp only [switchChanged]; (repeat' split) <;> simp

@[simp] theorem resolveSpurious_coord (e : PendingEdge) (s : State) : (resolveSpurious e s).coord = s.coord := by
  simp [resolveSpurious]

@[simp] theorem edgeDistance_coord (s : State) : (edgeDistance s).coord = s.coord := by
  simp only [edgeDistance]; (repeat' split) <;> simp

@[simp] theorem mainTransition_coord (positive : Bool) (s : State) : (mainTransition positive s).coord = s.coord := by
  simp [mainTransition]

@[simp] theorem pushCapture_coord (c : Capture) (s : State) : (pushCapture c s).coord = s.coord := by
  simp [pushCapture]

@[simp] theorem qualify_coord (l : LastChange) (d : Direction) (value : Position) (cycle : Option (BitVec 32)) (s : State) : (qualify l d value cycle s).coord = s.coord := by
  simp [qualify]

@[simp] theorem acceptStep_coord (l : LastChange) (d : Direction) (s : State) : (acceptStep l d s).coord = s.coord := by
  simp only [acceptStep]; (repeat' split) <;> simp

@[simp] theorem displaceEdge_coord (s : State) : (displaceEdge s).coord = s.coord := by
  simp only [displaceEdge]; (repeat' split) <;> simp

@[simp] theorem latchEdge_coord (sector : Nat) (s : State) : (latchEdge sector s).coord = s.coord := by
  simp only [latchEdge]; (repeat' split) <;> simp

@[simp] theorem parkStall_coord (s : State) : (parkStall s).coord = s.coord := by
  simp only [parkStall]; (repeat' split) <;> simp

@[simp] theorem seekStall_coord (s : State) : (seekStall s).coord = s.coord := by
  simp only [seekStall]; (repeat' split) <;> simp

@[simp] theorem surveyStall_coord (s : State) : (surveyStall s).coord = s.coord := by
  simp only [surveyStall]; (repeat' split) <;> simp

@[simp] theorem surveyAtFlip_coord (s : State) : (surveyAtFlip s).coord = s.coord := by
  simp only [surveyAtFlip]; (repeat' split) <;> simp

@[simp] theorem raisePeerLost_coord (j : Station) (e : PeerEntry) (s : State) : (raisePeerLost j e s).coord = s.coord := by
  simp only [raisePeerLost]; (repeat' split) <;> simp

@[simp] theorem raiseLinkAlone_coord (detail : Int) (s : State) : (raiseLinkAlone detail s).coord = s.coord := by
  simp only [raiseLinkAlone]; (repeat' split) <;> simp

@[simp] theorem raiseWriteFailed_coord (f : InFlight) (s : State) : (raiseWriteFailed f s).coord = s.coord := by
  simp [raiseWriteFailed]

@[simp] theorem pfailWithdrawal_coord (s : State) : (pfailWithdrawal s).coord = s.coord := by
  simp only [pfailWithdrawal]; (repeat' split) <;> simp

@[simp] theorem abandonSeek_coord (c : SeekContext) (s : State) : (abandonSeek c s).coord = s.coord := by
  simp only [abandonSeek]; (repeat' split) <;> simp [raiseFault_coord]

@[simp] theorem startOperation_coord (r : StepRecord) (s : State) : (startOperation r s).coord = s.coord := by
  simp only [startOperation]; (repeat' split) <;> simp

end Sys2Proof.Machine
end

