-- ==== Sys2Proof/Laws/Memory.lean ====
section
/-! SUPPORT. The retained store as memory: every operation keeps its canonical form, and reads follow writes. -/

namespace Sys2Proof.Machine

/-- Above an address, no address below or at it reads as anything but blank. -/
theorem Memory.read_of_above (m : Memory) (a x : Nat) (h : Memory.above a m = true) (hx : x ≤ a) :
    Memory.read m x = Memory.blank := by
  induction m with
  | nil => rfl
  | cons c rest ih =>
    simp only [Memory.above, List.all_cons, Bool.and_eq_true, decide_eq_true_eq] at h
    simp only [Memory.read]
    rw [if_neg (by omega)]
    exact ih h.2

/-- A memory above an address is above every lower one. -/
theorem Memory.above_mono (m : Memory) (a b : Nat) (h : Memory.above b m = true) (hab : a ≤ b) :
    Memory.above a m = true := by
  simp only [Memory.above, List.all_eq_true, decide_eq_true_eq] at h ⊢
  exact fun c hc => lt_of_le_of_lt hab (h c hc)

/-- A write above an address stays above it. -/
theorem Memory.above_write (m : Memory) (a x : Nat) (b : Byte) (h : Memory.above a m = true) (hx : a < x) :
    Memory.above a (Memory.write m x b) = true := by
  induction m with
  | nil => simp only [Memory.write]; split <;> simp [Memory.above, hx]
  | cons c rest ih =>
    have hc : decide (a < c.1) = true ∧ Memory.above a rest = true := by simpa [Memory.above] using h
    have k := ih hc.2
    have cons : ∀ (d : Host.Cell) (l : Memory), a < d.1 → Memory.above a l = true → Memory.above a (d :: l) = true :=
      fun d l h1 h2 => by simpa [Memory.above, h1] using h2
    have hc1 : a < c.1 := by simpa using hc.1
    simp only [Memory.write]
    repeat' split
    · exact h
    · exact cons _ _ hx h
    · exact hc.2
    · exact cons _ _ hx hc.2
    · exact cons _ _ hc1 k

/-- A write keeps the canonical form (R89). -/
theorem Memory.wf_write (m : Memory) (x : Nat) (b : Byte) (h : Memory.wf m = true) :
    Memory.wf (Memory.write m x b) = true := by
  induction m with
  | nil => simp only [Memory.write]; split <;> simp_all [Memory.wf, Memory.above]
  | cons c rest ih =>
    simp only [Memory.wf, Bool.and_eq_true, decide_eq_true_eq] at h
    obtain ⟨⟨h1, h2⟩, h3⟩ := h
    simp only [Memory.write]
    split
    · rename_i hlt
      split
      · simp [Memory.wf, h1, h2, h3]
      · rename_i hb
        have h4 : Memory.above x rest = true := Memory.above_mono rest x c.1 h2 (by omega)
        simp only [Memory.above, List.all_eq_true, decide_eq_true_eq] at h4
        simp only [Memory.wf, Memory.above, Bool.and_eq_true, decide_eq_true_eq, List.all_cons, List.all_eq_true]
        simp only [Memory.above, List.all_eq_true, decide_eq_true_eq] at h2
        exact ⟨⟨hb, hlt, h4⟩, ⟨h1, h2⟩, h3⟩
    · split
      · rename_i hne heq
        split
        · exact h3
        · rename_i hb
          simp [Memory.wf, hb, h3, heq, h2]
      · rename_i hlt hne
        simp [Memory.wf, h1, ih h3, Memory.above_write rest c.1 x b h2 (by omega)]

/-- Writing bytes keeps the canonical form (R89). -/
theorem Memory.wf_writeBytes (bs : List Byte) (m : Memory) (x : Nat) (h : Memory.wf m = true) :
    Memory.wf (Memory.writeBytes m x bs) = true := by
  induction bs generalizing m x with
  | nil => exact h
  | cons b bs ih => exact ih _ _ (Memory.wf_write m x b h)

/-- A byte written reads back, and every other reads as before, in canonical form. -/
theorem Memory.read_write (m : Memory) (x y : Nat) (b : Byte) (h : Memory.wf m = true) :
    Memory.read (Memory.write m x b) y = if y = x then b else Memory.read m y := by
  induction m with
  | nil =>
    simp only [Memory.write]
    split
    · rename_i hb; subst hb; simp [Memory.read]
    · simp only [Memory.read]; split <;> split <;> simp_all
  | cons c rest ih =>
    simp only [Memory.wf, Bool.and_eq_true, decide_eq_true_eq] at h
    obtain ⟨⟨h1, h2⟩, h3⟩ := h
    have k := ih h3
    simp only [Memory.write]
    split
    · rename_i hlt
      split
      · rename_i hb
        by_cases hy : y = x
        · subst hy hb
          simp only [Memory.read, if_true]
          rw [if_neg (by omega), Memory.read_of_above rest c.1 y h2 (by omega)]
        · simp [hy]
      · by_cases hy : y = x
        · subst hy; simp [Memory.read]
        · simp only [Memory.read, if_neg hy]; rw [if_neg (by omega)]
    · split
      · rename_i hne heq
        subst heq
        split
        · rename_i hb
          by_cases hy : y = c.1
          · subst hy hb; simp [Memory.read_of_above rest c.1 c.1 h2 (by omega)]
          · simp only [Memory.read, if_neg hy]; rw [if_neg (by omega)]
        · by_cases hy : y = c.1
          · subst hy; simp [Memory.read]
          · simp only [Memory.read, if_neg hy]; rw [if_neg (by omega), if_neg (by omega)]
      · simp only [Memory.read, k]
        split <;> split <;> simp_all

/-- Bytes written change no byte outside them. -/
theorem Memory.read_writeBytes_outside (bs : List Byte) (m : Memory) (x y : Nat) (h : Memory.wf m = true)
    (hy : y < x ∨ x + bs.length ≤ y) : Memory.read (Memory.writeBytes m x bs) y = Memory.read m y := by
  induction bs generalizing m x with
  | nil => rfl
  | cons b bs ih =>
    simp only [List.length_cons] at hy
    simp only [Memory.writeBytes]
    rw [ih _ _ (Memory.wf_write m x b h) (by omega), Memory.read_write m x y b h, if_neg (by omega)]

/-- Bytes written read back. -/
theorem Memory.readBytes_writeBytes (bs : List Byte) (m : Memory) (x : Nat) (h : Memory.wf m = true) :
    Memory.readBytes (Memory.writeBytes m x bs) x bs.length = bs := by
  induction bs generalizing m x with
  | nil => rfl
  | cons b bs ih =>
    have hw := Memory.wf_write m x b h
    simp only [Memory.writeBytes, List.length_cons, Memory.readBytes]
    rw [ih _ _ hw, Memory.read_writeBytes_outside bs _ (x + 1) x hw (by omega), Memory.read_write m x x b h]
    simp

end Sys2Proof.Machine
end

