-- ==== Sys2Proof/Laws/Starts.lean ====
section
/-! SUPPORT. What a main-domain start leaves, and what a supply loss leaves of a beat in progress. -/

namespace Sys2Proof.Machine

/-- The standby decoder takes over with the reference the counting decoder had (R5). -/
theorem toStandby_eq (d : Decoder) : d.toStandby =
    { d with standbyFeeds := true, lastAccepted := if d.standbyFeeds = true then d.lastAccepted else none } := by
  simp only [Decoder.toStandby]
  split
  · rename_i h; rw [← h]
  · rfl

/-- A main-domain start of a supplied state `dt` later. -/
theorem resetMainDomain_restarted (kind : StartKind) (alive : Bool) (straps : Station) (dt : Time) (p : Power)
    (s : State) :
    resetMainDomain kind alive straps ((advance dt s).setPower p) = s.restarted dt kind alive straps p := by
  simp only [resetMainDomain, toStandby_eq]; rfl

/-- The same with the supplies as they stood. -/
theorem resetMainDomain_restarted' (kind : StartKind) (alive : Bool) (straps : Station) (dt : Time) (s : State) :
    resetMainDomain kind alive straps (advance dt s) = s.restarted dt kind alive straps s.power := by
  simp only [resetMainDomain, toStandby_eq]; rfl

/-- A beat has at most eight bytes (R90). -/
theorem beatBytes_length (f : InFlight) : f.beatBytes.length ≤ 8 := by
  simp only [InFlight.beatBytes, List.length_take]; omega

/-- With no beat in progress a supply loss leaves the store (R90). -/
theorem stopBeat_idle (s : State) (h : s.store.port = none) : stopBeat s = s := by
  simp [stopBeat, h]

/-- A supply loss changes no byte outside the beat in progress (R90). -/
theorem stopBeat_outside (s : State) (f : InFlight) (a : Nat) (h : s.store.port = some f)
    (hw : Memory.wf s.mem = true) (ha : a < f.address ∨ f.address + 8 ≤ a) :
    Memory.read (stopBeat s).mem a = Memory.read s.mem a := by
  have hl := beatBytes_length f
  simp only [stopBeat, h, bumpFree_keeps, State.setMem_mem]
  apply Memory.read_writeBytes_outside _ _ _ _ hw
  simp only [List.length_map, List.length_zipIdx]
  omega

/-- A supply loss keeps the canonical form of the store. -/
theorem stopBeat_wf (s : State) (hw : Memory.wf s.mem = true) : Memory.wf (stopBeat s).mem = true := by
  simp only [stopBeat]
  split
  · exact hw
  · simp only [bumpFree_keeps, State.setMem_mem]; exact Memory.wf_writeBytes _ _ _ hw

end Sys2Proof.Machine
end

