-- ==== Sys2Proof/Laws/Sensing.lean ====
section
/-! SUPPORT. What the sensing operations do: transitions, continuity, the engine's loss of reference, and filters. -/

namespace Sys2Proof.Machine

/-- One count up. -/
theorem shift_one (p : Position) : Position.shift p 1 = p + 1 := rfl

/-- One count down. -/
theorem shift_neg_one (p : Position) : Position.shift p (-1) = p - 1 := by
  unfold Position.shift
  rw [BitVec.sub_eq_add_neg]; congr 1

/-- A position set to the value it is claimed to have (R15). -/
theorem shift_claim (a : Position) (v : Int) : a.shift (v - a.toInt) = BitVec.ofInt 40 v := by
  rw [Position.shift, sub_eq_add_neg, BitVec.ofInt_add, BitVec.ofInt_neg, BitVec.ofInt_toInt]
  rw [add_comm, add_assoc]; simp

/-- A distance as an absolute difference. -/
theorem dist_abs (p q : Position) : ((Position.dist p q : Nat) : Int) = |p.toInt - q.toInt| := by
  rw [Int.abs_eq_natAbs]; rfl

/-- A sample with one changed line is a transition in the order of the lines (R4). -/
theorem change_counted (d : Decoder) (a b : Bool)
    (h : (a ≠ d.lineA ∧ b = d.lineB) ∨ (a = d.lineA ∧ b ≠ d.lineB)) :
    ∃ p, d.change a b = .counted p ∧ (positiveStep d.lineA d.lineB a b ↔ p = true) := by
  obtain ⟨la, lb, x, y⟩ := d
  simp only [Decoder.change, positiveStep]
  revert h; cases la <;> cases lb <;> cases a <;> cases b <;> simp

/-- A sample with both lines changed is a quadrature error (R4). -/
theorem change_both (d : Decoder) (a b : Bool) (h1 : a ≠ d.lineA) (h2 : b ≠ d.lineB) : d.change a b = .both := by
  simp [Decoder.change, h1, h2]

/-- An unchanged sample. -/
theorem change_same (d : Decoder) (a b : Bool) (h1 : a = d.lineA) (h2 : b = d.lineB) : d.change a b = .same := by
  simp [Decoder.change, h1, h2]

/-- A counted transition moves the counter by one and nothing else of the standby domain (R4, R12). -/
theorem countTransition_counter (p : Bool) (s : State) : (countTransition p s).standby =
    { s.standby with counter := if p = true then s.standby.counter + 1 else s.standby.counter - 1 } := by
  cases p
  · show ({ s.standby with counter := s.standby.counter.shift (-1) } : Standby) = _
    rw [shift_neg_one]; rfl
  · show ({ s.standby with counter := s.standby.counter.shift 1 } : Standby) = _
    rw [shift_one]; rfl

/-- A loss of continuity keeps its first cause (R13). -/
theorem loseContinuity_standby (c : StandbyError) (s : State) : (loseContinuity c s).standby =
    { s.standby with continuity := false, error := if s.standby.continuity = true then c else s.standby.error } := by
  unfold loseContinuity
  by_cases h : s.standby.continuity = true
  · rw [if_pos h, if_pos h]
    simp only []
    split <;> simp
  · rw [if_neg h, if_neg h]
    have : s.standby.continuity = false := by simpa using h
    cases hs : s.standby; simp_all

@[simp] theorem reclassify_phase (s : State) : (reclassify s).coord.phase = s.coord.phase := by
  simp only [reclassify, raiseDrift]
  (repeat' split) <;> simp [raiseFault_coord, dispositionClass_ne]

@[simp] theorem putClaim_phase (j : Station) (e : ClaimEntry) (s : State) :
    (putClaim j e s).coord.phase = s.coord.phase := by
  simp only [putClaim]; (repeat' split) <;> simp

@[simp] theorem ownClaimFollows_phase (s : State) : (ownClaimFollows s).coord.phase = s.coord.phase := by
  simp only [ownClaimFollows]; (repeat' split) <;> simp

@[simp] theorem loseContinuity_phase (c : StandbyError) (s : State) :
    (loseContinuity c s).coord.phase = s.coord.phase := by
  simp only [loseContinuity]; (repeat' split) <;> simp

/-- Outside RECOVERING no claim follows (R113). -/
theorem ownClaimFollows_outside (s : State) (h : s.coord.phase ≠ .recovering) : ownClaimFollows s = s := by
  simp only [ownClaimFollows]
  (repeat' split) <;> first | rfl | (rename_i h1 _ _; exact absurd h1 h)

/-- With no operation a fault of a class other than ABORT leaves the reference state, the operation, the parked flag and
the last deviation (R39, R43, R45). -/
theorem raiseFault_idle (code : FaultCode) (cls : FaultClass) (step : Option Nat) (d : Int) (s : State)
    (hc : cls ≠ .abort) (h : s.engine.operation = .none) :
    (raiseFault code cls step d s).engine.operation = .none ∧
    (raiseFault code cls step d s).engine.refState = s.engine.refState ∧
    (raiseFault code cls step d s).engine.parked = s.engine.parked ∧
    (raiseFault code cls step d s).engine.lastDeviation = s.engine.lastDeviation := by
  have hold : ∀ t : State, t.engine.operation = .none → (holdReaches t).engine = t.engine := by
    intro t ht
    have : engineHold t = t := by simp only [engineHold, ht]
    simp [holdReaches, this]
  apply raiseFault_cases (fun t => t.engine.operation = .none ∧ t.engine.refState = s.engine.refState ∧
    t.engine.parked = s.engine.parked ∧ t.engine.lastDeviation = s.engine.lastDeviation) _ _ _ _ _ hc ⟨h, rfl, rfl, rfl⟩
  · intro t ht; simpa using ht
  · intro l t ht; simpa [newHold] using ht
  · intro l t ht; simpa using ht
  · intro t ht
    simp only [beginEntry, entryTest_keeps]
    rw [hold _ (by simpa [writeOrder_engine] using ht.1)]
    simpa [writeOrder_engine] using ht
  · intro t ht
    simp only [enterLockout, if_true, postLockRecord_keeps]
    rw [hold _ (by simpa [writeOrder_engine] using ht.1)]
    simpa [writeOrder_engine] using ht

/-- The end of an operation moves the reference state only from REFERENCED (R151). -/
theorem operationEnded_state (s : State) (h : s.engine.refState ≠ .referenced) :
    (operationEnded s).engine = s.engine := by
  simp only [operationEnded, demote, if_neg h]; split <;> simp

/-- The engine that has lost its reference is UNREFERENCED with no operation (R25). -/
theorem engineLost_spec (s : State) :
    (engineLost s).engine.refState = .unreferenced ∧ (s.engine.refState ≠ .unreferenced →
      (engineLost s).engine.operation = .none ∧ (engineLost s).engine.parked = false) := by
  simp only [engineLost]
  split
  · rename_i h; exact ⟨h, fun k => absurd h k⟩
  · have k : ∀ t : State, (stopMotion t).engine.refState = t.engine.refState ∧
        (stopMotion t).engine.operation = t.engine.operation ∧ (stopMotion t).engine.parked = t.engine.parked := by
      intro t; simp only [stopMotion]; split <;> simp
    simp only [gateUpdate_keeps]
    rw [operationEnded_state _ (by simp)]
    simp [k]

/-- Without continuity no claim is KEPT (R121). -/
theorem classify_not_kept (n : Nat) (c : Claim) (t : Option TailParticulars) (x : AgreedStop) (h : c.continuity = false) :
    (classify n c t x).1 ≠ .kept := by
  simp only [classify, h, Bool.false_and, Bool.false_eq_true, if_false]
  (repeat' split) <;> simp

/-- A station whose own claim has no continuity classifies without raising DRIFT (R118, R124). -/
theorem reclassify_lost (s : State) (h : ∀ c, s.coord.ownClaim = some c → c.continuity = false) :
    ∃ x, reclassify s = s.setCoord x := by
  simp only [reclassify]
  split
  · exact ⟨_, rfl⟩
  · rename_i c hc
    have := classify_not_kept s.cfg.pfailSpread c s.coord.tailParts s.agreedStop (h c hc)
    rw [if_neg (by simp [this])]
    exact ⟨_, rfl⟩

/-- A loss of continuity reaches the standby domain and the Coordinator's claim alone (R13, R113). -/
theorem loseContinuity_reach (c : StandbyError) (s : State) :
    ∃ x, loseContinuity c s = (s.setStandby { s.standby with
      continuity := false, error := if s.standby.continuity = true then c else s.standby.error }).setCoord x := by
  unfold loseContinuity
  by_cases h : s.standby.continuity = true
  · rw [if_pos h, if_pos h]
    generalize hu : s.setStandby { s.standby with continuity := false, error := c } = u
    have hc : u.standby.continuity = false := by rw [← hu]; rfl
    simp only []
    split
    · simp only [ownClaimFollows]
      split
      · split
        · simp only [putClaim]
          split
          · exact ⟨_, rfl⟩
          · split
            · refine Exists.imp (fun x e => Eq.trans e rfl) (reclassify_lost _ ?_)
              intro c' h'
              exact (Option.some.inj h') ▸ hc
            · exact ⟨_, rfl⟩
        · exact ⟨_, rfl⟩
      · exact ⟨_, rfl⟩
    · exact ⟨_, rfl⟩
  · rw [if_neg h, if_neg h]
    have : s.standby.continuity = false := by simpa using h
    refine ⟨s.coord, ?_⟩
    rw [← this]; rfl

/-- The sector lines read as the Gray code of the sector (R6). -/
theorem sectorOfLines_gray (sectors n : Nat) (lines : BitVec 5) (h : sectors = 8 ∨ sectors = 16 ∨ sectors = 32)
    (hg : graySector sectors lines n) : sectorOfLines sectors lines = n := by
  obtain ⟨hn, hx⟩ := hg
  have hl : 2 ^ sectorLines sectors = sectors := by rcases h with h | h | h <;> subst h <;> rfl
  rw [sectorOfLines, hl, ← hx]
  have key : ∀ m : Fin 32, grayDecode (m.val ^^^ (m.val / 2)) = m.val := by decide
  have hn' : n < 32 := by rcases h with h | h | h <;> omega
  exact key ⟨n, hn'⟩

/-- What every engine operation keeps: an engine that is UNREFERENCED has no operation (R20, R29). -/
def Engine.sound (e : Engine) : Prop := e.refState ≠ .unreferenced ∨ e.operation = .none

/-- A hold at the engine keeps it sound. -/
theorem engineHold_sound (s : State) (h : Engine.sound s.engine) : Engine.sound (engineHold s).engine := by
  have oe : ∀ t : State, t.engine.operation = .none → Engine.sound (operationEnded t).engine := by
    intro t ht; right; rw [(operationEnded_spec t).1]; exact ht
  have sf : ∀ (c : SeekContext) (t : State), Engine.sound (seekFinish c t).engine := by
    intro c t; exact oe _ (by simp)
  have vf : ∀ (c : SurveyContext) (o : SurveyOutcome) (b : Bool) (t : State), Engine.sound (surveyFinish c o b t).engine := by
    intro c o b t; exact oe _ (by simp)
  simp only [engineHold]
  split
  · exact h
  · right; simp
  · rename_i c hc
    have nu : s.engine.refState ≠ .unreferenced := h.resolve_right (by simp [hc])
    split
    · exact h
    · split
      · split
        · simp only [seekReturnHeld, planHeld_keeps]; exact sf _ _
        · exact Or.inl nu
      · exact h
      · exact Or.inl nu
  · rename_i c hc
    have nu : s.engine.refState ≠ .unreferenced := h.resolve_right (by simp [hc])
    split
    · exact h
    · split
      · simp only [surveyReturn]
        split
        · simp only [noteFault_keeps]; exact vf _ _ _ _
        · exact vf _ _ _ _
      · exact Or.inl nu

/-- A fault of a class other than ABORT keeps the engine sound. -/
theorem raiseFault_sound (code : FaultCode) (cls : FaultClass) (step : Option Nat) (d : Int) (s : State)
    (hc : cls ≠ .abort) (h : Engine.sound s.engine) : Engine.sound (raiseFault code cls step d s).engine := by
  have hr : ∀ t : State, Engine.sound t.engine → Engine.sound (holdReaches t).engine := by
    intro t ht; simp only [holdReaches]; simp; exact engineHold_sound t ht
  have wo : ∀ t : State, Engine.sound t.engine → Engine.sound (writeOrder (.stop .hold) t).engine := by
    intro t ht; rw [writeOrder_engine]; exact ht
  apply raiseFault_cases (fun t => Engine.sound t.engine) _ _ _ _ _ hc h
  · intro t ht; simpa using ht
  · intro l t ht; rw [(newHold_spec l _ t).2.2.2.2]; exact ht
  · intro l t ht; simpa using ht
  · intro t ht; simp only [beginEntry]; simp only [entryTest_keeps]
    apply hr; apply wo; simpa using ht
  · intro t ht; simp only [enterLockout]; simp only [postLockRecord_keeps, if_true]
    apply hr; apply wo; simpa using ht

/-- The own claim's following keeps the engine sound (R113, R124). -/
theorem ownClaimFollows_sound (s : State) (h : Engine.sound s.engine) : Engine.sound (ownClaimFollows s).engine := by
  simp only [ownClaimFollows, putClaim, reclassify, raiseDrift]
  (repeat' split) <;> first | exact h | exact raiseFault_sound _ _ _ _ _ (dispositionClass_ne _) h
/-- The distance test of an edge, by absolute differences (R8, R9). -/
theorem edge_reach (s : State) (p q : Position) :
    (Position.dist p q ≤ s.edgeReach) ↔ |p.toInt - q.toInt| ≤ (s.cfg.cps : Int) / 8 := by
  rw [← dist_abs]
  show _ ≤ s.cfg.cps / 8 ↔ _
  omega

/-- Losing the reference keeps the last mark deviation (R24, R25). -/
theorem engineLost_deviation (s : State) : (engineLost s).engine.lastDeviation = s.engine.lastDeviation := by
  have k : ∀ t : State, (stopMotion t).engine.lastDeviation = t.engine.lastDeviation := by
    intro t; simp only [stopMotion]; split <;> simp
  have o : ∀ t : State, (operationEnded t).engine.lastDeviation = t.engine.lastDeviation := by
    intro t; simp only [operationEnded, demote]; (repeat' split) <;> simp
  simp only [engineLost]
  split
  · rfl
  · simp [o, k]

end Sys2Proof.Machine
end

