-- ==== Sys2Proof/Laws/Endings.lean ====
section
/-! SUPPORT. How operations, steps, holds and stations end: the lemmas the timers' statements cite. -/

namespace Sys2Proof.Machine

/-- A write by the engine reaches the order record and the attention causes alone, and not a record of reason HOLD (R26, R27). -/
theorem engineWrite_reach (o : MotionOrder) (s : State) : ∃ x : Port, engineWrite o s =
    { s with engine := { s.engine with order := if s.engine.order.reason = some .hold then s.engine.order else o }
             port := { s.port with attention := x.attention, reported := x.reported } } ∧
    (s.engine.order.reason ≠ some .hold → s.engine.order ≠ o → x.attention.orderChanged = true) ∧
    (s.engine.order.reason = some .hold ∨ s.engine.order = o → x = s.port) := by
  simp only [engineWrite, writeOrder]
  by_cases h : s.engine.order.reason = some .hold
  · rw [if_pos h, if_pos h]; exact ⟨s.port, rfl, fun k => absurd h k, fun _ => rfl⟩
  · rw [if_neg h, if_neg h]
    by_cases h2 : s.engine.order = o
    · rw [if_pos h2]; exact ⟨s.port, by rw [← h2], fun _ k => absurd h2 k, fun _ => rfl⟩
    · rw [if_neg h2]
      exact ⟨(addCause .orderChanged (s.setEngine { s.engine with order := o })).port, rfl, fun _ _ => rfl, fun k => by rcases k with k | k <;> contradiction⟩

/-- What the end of an operation leaves of the plan and the engine (R151). -/
theorem operationEnded_frame (s : State) : (operationEnded s).plan.table = s.plan.table ∧ (operationEnded s).plan.claim = s.plan.claim ∧
   (operationEnded s).plan.running = s.plan.running ∧ (operationEnded s).plan.steps = s.plan.steps ∧ (operationEnded s).plan.yieldReturn = s.plan.yieldReturn ∧
   (operationEnded s).engine.operation = s.engine.operation := by
  simp only [operationEnded, demote]
  (repeat' split) <;> simp

/-- An ended seek leaves no operation, its entry state, and the plan table (R39). -/
theorem seekFinish_frame (c : SeekContext) (s : State) : (seekFinish c s).plan.table = s.plan.table ∧ (seekFinish c s).engine.operation = .none ∧
   (s.plan.demote = false → (seekFinish c s).engine.refState = c.entry.state) := by
  simp only [seekFinish]
  refine ⟨?_, ?_, ?_⟩
  · rw [(operationEnded_frame _).1]; simp
  · rw [(operationEnded_frame _).2.2.2.2.2]; simp
  · intro h
    rw [(operationEnded_spec _).2 (by simpa using h)]; simp

/-- What a RETRY report does for a step that is RUNNING (R145, R146). -/
theorem planRetry_spec (i k : Nat) (code : FaultCode) (d : Int) (s : State) (h : s.plan.table[i]? = some ⟨.running, k, none⟩)
    (ho : s.engine.operation = .none) :
    (planRetry (some i) code d s).hasFault code .retry (some i) d ∧
    (0 < k → (planRetry (some i) code d s).plan.table[i]? = some ⟨.failedWait, k - 1, some (s.now + 500000000)⟩ ∧
      (planRetry (some i) code d s).plan.claim = none ∧ (planRetry (some i) code d s).plan.running = false ∧
      (planRetry (some i) code d s).hold.level = s.hold.level) ∧
    (k = 0 → (planRetry (some i) code d s).plan.status i = some .pending ∧
      (planRetry (some i) code d s).hasFault .retriesExhausted .hold (some i) (code.num : Int)) ∧
    (planRetry (some i) code d s).engine.operation = .none ∧ (planRetry (some i) code d s).engine.refState = s.engine.refState ∧
    (planRetry (some i) code d s).engine.parked = s.engine.parked := by
  have st : s.plan.status i = some .running := by simp [Plan.status, h]
  have lf : (s.plan.table[i]?.map (·.retries)).getD 0 = k := by simp [h]
  simp only [planRetry, st, if_true, lf]
  generalize hu : noteFault code .retry (some i) d s = u
  have u1 : u.plan = s.plan ∧ u.engine = s.engine ∧ u.hold.level = s.hold.level ∧ u.now = s.now ∧ u.own = s.own := by
    rw [← hu]; simp [State.own]
  obtain ⟨v1, v2, v3, v4, v5⟩ := u1
  have uf : ∃ r, recentFault 1 r u.hold.faults ∧ r.code = code.byte ∧ r.cls = .retry ∧ r.origin = s.own ∧ r.step = some i ∧ r.detail = sat32 d := by
    rw [← hu, noteFault_faults]; exact ⟨_, recentFault_append_self _ _, rfl, rfl, rfl, rfl, rfl⟩
  obtain ⟨r, hr, r1, r2, r3, r4, r5⟩ := uf
  by_cases hk : 0 < k
  · rw [if_pos hk]
    refine ⟨⟨r, by simpa using recentFault_mem hr, r1, r2, by rw [r3]; simp [State.own] at v5 ⊢; exact v5.symm, r4, r5⟩, ?_, fun h0 => by omega, ?_, ?_, ?_⟩
    · intro _
      refine ⟨?_, rfl, rfl, v3⟩
      show (u.plan.table.modify i _)[i]? = _
      rw [List.getElem?_modify_eq, v1, h, v4]; rfl
    · simpa [v2] using ho
    · simp [v2]
    · simp [v2]
  · rw [if_neg hk]
    generalize hw : gateUpdate _ = w
    have w1 : w.plan.table = u.plan.table.modify i (StepState.become .pending) ∧ w.plan.running = false ∧ w.engine = u.engine ∧ w.hold = u.hold ∧ w.own = s.own := by
      rw [← hw]; exact ⟨rfl, rfl, rfl, rfl, v5⟩
    obtain ⟨w1, w2, w3, w4, w5⟩ := w1
    have wo : w.engine.operation = .none := by rw [w3, v2]; exact ho
    obtain ⟨f1, f2, f3, _⟩ := raiseFault_idle .retriesExhausted .hold (some i) (code.num : Int) w (by simp) wo
    obtain ⟨q, hq, q1, q2, q3, q4, q5⟩ := raiseFault_recent .retriesExhausted .hold (some i) (code.num : Int) w
    have ow := raiseFault_older (r := r) .retriesExhausted .hold (some i) (code.num : Int) w (n := 1) (by omega) (by rw [w4]; exact hr)
    have pend : ∀ t : State, t.plan.status i = some .pending ∧ t.engine.operation = .none →
        (holdReaches t).plan.status i = some .pending ∧ (holdReaches t).engine.operation = .none := by
      rintro t ⟨h1, h2⟩
      have eh : engineHold t = t := by simp only [engineHold, h2]
      simp only [holdReaches, eh]
      refine ⟨?_, by simpa using h2⟩
      rw [show ∀ (d : Int) (x : State), (withdrawProposal d x).plan = x.plan from fun d x => by simp]
      have nd : ∀ x : State, (noteDropMotion x).plan.status i = x.plan.status i := by
        intro x; simp only [noteDropMotion]; split <;> rfl
      rw [nd]
      show (planHold t).plan.status i = _
      simp only [planHold]
      split
      · exact h1
      · simp only [Plan.status, State.setPlan_plan, List.getElem?_map] at h1 ⊢
        cases hx : t.plan.table[i]? with
        | none => rw [hx] at h1; cases h1
        | some x =>
          rw [hx] at h1
          simp at h1
          simp [StepState.unclaim, h1]
    have fin : (raiseFault .retriesExhausted .hold (some i) (code.num : Int) w).plan.status i = some .pending ∧
        (raiseFault .retriesExhausted .hold (some i) (code.num : Int) w).engine.operation = .none := by
      apply raiseFault_cases (fun t => t.plan.status i = some .pending ∧ t.engine.operation = .none) _ _ _ _ _ (by simp)
      · refine ⟨?_, wo⟩
        simp only [Plan.status, w1, v1, List.getElem?_modify_eq, h]; rfl
      · intro t ht; simpa using ht
      · intro l t ht; simpa [newHold] using ht
      · intro l t ht; simpa using ht
      · intro t ht; simp only [beginEntry, entryTest_keeps]
        exact pend _ (by simpa using ht)
      · intro t ht; simp only [enterLockout, if_true, postLockRecord_keeps]
        exact pend _ (by simpa using ht)
    refine ⟨⟨r, recentFault_mem ow, r1, r2, ?_, r4, r5⟩, fun h0 => absurd h0 hk, ?_, f1, ?_, ?_⟩
    · rw [r3]; simp only [State.own] at w5 ⊢; rw [← w5]; simp
    · intro _
      refine ⟨fin.1, ⟨q, recentFault_mem hq, q1, q2, ?_, q4, q5⟩⟩
      rw [q3]; simp [State.own]
    · rw [f2, w3, v2]
    · rw [f3, w3, v2]

/-- An ended seek leaves the hold state, the clock and the link block. -/
theorem seekFinish_reach (c : SeekContext) (s : State) : (seekFinish c s).hold = s.hold ∧ (seekFinish c s).now = s.now ∧ (seekFinish c s).link = s.link := by
  simp [seekFinish]

/-- The report DONE for a step that is RUNNING (R145). -/
theorem planDone_spec (i k : Nat) (s : State) (h : s.plan.table[i]? = some ⟨.running, k, none⟩) :
    (planDone (some i) s).plan.table[i]? = some ⟨.done, k, none⟩ ∧ (planDone (some i) s).plan.claim = none ∧
    (planDone (some i) s).plan.running = false := by
  have st : s.plan.status i = some .running := by simp [Plan.status, h]
  simp only [planDone, st, if_true]
  refine ⟨?_, rfl, rfl⟩
  show (s.plan.table.modify i _)[i]? = _
  rw [List.getElem?_modify_eq, h]; rfl

/-- A RETRY report leaves the engine and the Coordinator. -/
theorem planRetry_frame (o : Option Nat) (code : FaultCode) (d : Int) (s : State) (h : s.engine.operation = .none) :
    (planRetry o code d s).engine.operation = .none ∧ (planRetry o code d s).engine.refState = s.engine.refState ∧
    (planRetry o code d s).engine.parked = s.engine.parked ∧ (planRetry o code d s).coord = s.coord := by
  cases o with
  | none => exact ⟨h, rfl, rfl, rfl⟩
  | some i =>
    by_cases hst : s.plan.status i = some .running
    · simp only [planRetry, hst, if_true]
      split
      · simpa using h
      · obtain ⟨a1, a2, a3, _⟩ := raiseFault_idle .retriesExhausted .hold (some i) (code.num : Int) (gateUpdate ((noteFault code .retry (some i) d s).setPlan
          { (noteFault code .retry (some i) d s).plan.modifyStep i (StepState.become .pending) with running := false, claim := none, claimSent := none })) (by simp) (by simpa using h)
        refine ⟨a1, a2.trans (by simp), a3.trans (by simp), ?_⟩
        rw [raiseFault_coord _ _ _ _ _ (by simp)]; simp
    · simp only [planRetry, if_neg hst]; exact ⟨h, trivial, trivial, trivial⟩

/-- A set of stations as a detail has the bits of its members (R154). -/
theorem stationSet_testBit (p : Station → Bool) (b : Nat) (hb : b < 256) (h : ∀ j : Station, b.testBit j.val = p j) :
    stationSet (stations.filter p) = (b : Int) := by
  have key : ∀ x : Fin 256, stationSet (stations.filter fun j => x.val.testBit j.val) = (x.val : Int) := by decide +kernel
  have := key ⟨b, hb⟩
  rwa [show (fun j : Station => b.testBit j.val) = p from funext h] at this

/-- A DROP entry closes the gate, and its deadline is DROP_LIMIT away until it is complete (R161, R168). -/
theorem beginEntry_drop (s : State) (h : s.hold.level = .drop) :
    (beginEntry s).hold.level = .drop ∧ (beginEntry s).gate = .closed ∧ (beginEntry s).hold.seq = s.hold.seq ∧
    ((beginEntry s).hold.deadline = if (beginEntry s).hold.complete = true then none else some (s.now + s.cfg.dropLimit * 1000000)) := by
  have key : ∀ u : State, u.hold = { s.hold with complete := false, deadline := some (s.now + s.cfg.dropLimit * 1000000), resume := false, resumeFor := 0 } →
      (entryTest (holdReaches u)).hold.level = .drop ∧ (entryTest (holdReaches u)).gate = .closed ∧
      (entryTest (holdReaches u)).hold.seq = s.hold.seq ∧
      ((entryTest (holdReaches u)).hold.deadline =
        if (entryTest (holdReaches u)).hold.complete = true then none else some (s.now + s.cfg.dropLimit * 1000000)) := by
    intro u u1
    obtain ⟨l, hl⟩ := holdReaches_hold u
    have g : (holdReaches u).gate = .closed := by
      simp only [holdReaches]
      have : ∀ x : State, x.hold.level = .drop → (gateUpdate x).gate = .closed := by
        intro x hx; simp [gateUpdate, nextGate, hx, HoldLevel.dropped]
      rw [show ∀ (d : Int) (x : State), (withdrawProposal d x).gate = x.gate from fun d x => by simp]
      rw [show ∀ (x : State), (noteDropMotion x).gate = x.gate from fun x => by simp]
      exact this _ (by simp [u1, h])
    have gt : ∀ x : State, (entryTest x).gate = x.gate := by intro x; simp
    refine ⟨by simp [u1, h], by rw [gt]; exact g, by simp [u1], ?_⟩
    rcases entryTest_hold (holdReaches u) with e | e
    · rw [e, hl, u1]; rfl
    · rw [e]; rfl
  simp only [beginEntry]
  exact key _ (by simp [h])

/-- A posted write other than CAL_STAGE is pending or in flight (R91). -/
theorem postWrite_busy (r : WriteRequest) (s : State) (h : r.kind ≠ .calStage) : (postWrite r s).store.busyWith r.kind = true :=
  (postWrite_posted r s (fun k => absurd k h)).1

/-- What the entry to LOCKOUT leaves (R161, R168). -/
theorem enterLockout_spec (s : State) (h : s.hold.level = .lockout) :
    (enterLockout true s).hold.level = .lockout ∧ (enterLockout true s).gate = .closed ∧ (enterLockout true s).hold.seq = s.hold.seq ∧
    (enterLockout true s).hold.cause = s.hold.cause ∧ (enterLockout true s).hold.origin = s.hold.origin ∧
    (enterLockout true s).hold.deadline = none ∧ (enterLockout true s).hold.complete = false ∧
    (enterLockout true s).engine.order = .stop .hold ∧ (enterLockout true s).store.busyWith .lockRecord = true := by
  simp only [enterLockout, if_true]
  generalize hu : writeOrder _ _ = u
  have u1 : u.hold = { s.hold with complete := false, deadline := none } := by
    rw [← hu]; simp
  have u2 : u.engine.order = .stop .hold := by rw [← hu]; simp
  obtain ⟨l, hl⟩ := holdReaches_hold u
  have g : (holdReaches u).gate = .closed := by
    simp only [holdReaches]
    have : ∀ x : State, x.hold.level = .lockout → (gateUpdate x).gate = .closed := by
      intro x hx; simp [gateUpdate, nextGate, hx, HoldLevel.dropped]
    rw [show ∀ (d : Int) (x : State), (withdrawProposal d x).gate = x.gate from fun d x => by simp]
    rw [show ∀ (x : State), (noteDropMotion x).gate = x.gate from fun x => by simp]
    exact this _ (by simp [u1, h])
  have ph : ∀ x : State, (postLockRecord x).hold = x.hold ∧ (postLockRecord x).gate = x.gate ∧ (postLockRecord x).engine = x.engine := by intro x; simp
  obtain ⟨p1, p2, p3⟩ := ph (holdReaches u)
  refine ⟨by rw [p1, hl, u1]; exact h, by rw [p2]; exact g, by rw [p1, hl, u1], by rw [p1, hl, u1], by rw [p1, hl, u1], by rw [p1, hl, u1], by rw [p1, hl, u1], ?_, ?_⟩
  · rw [p3, holdReaches_order u (by rw [u2]; rfl), u2]
  · simp only [postLockRecord]
    exact postWrite_busy (.lockRecord _) _ (by simp [WriteRequest.kind])

/-- An ABORT fault halts a station that has joined, after its hold has been taken (R85, R153, R160). -/
theorem raiseFault_halts (code : FaultCode) (step : Option Nat) (d : Int) (s : State)
    (h : s.coord.phase = .gathering ∨ s.coord.phase = .recovering ∨ s.coord.phase = .homing ∨ s.coord.phase = .ready) :
    ∃ x, x.coord = s.coord ∧ raiseFault code .abort step d s = setPhase .halted x ∧
      (s.hold.level = .none → x.hold.level = .stop ∧ x.hold.seq = s.hold.freshSeq ∧ x.hold.cause = code.byte ∧ x.hold.origin = s.own) := by
  obtain ⟨x, hx⟩ : ∃ x, x = (match s.hold.level with
      | .none => beginEntry (noteFault code .abort step d (newHold .stop code.byte s))
      | .stop =>
        if s.hold.complete then beginEntry (noteFault code .abort step d (newHold .stop code.byte s))
        else beginEntry (noteFault code .abort step d (setLevel .drop s))
      | .drop =>
        if s.hold.complete then beginEntry (noteFault code .abort step d (newHold .drop code.byte s))
        else enterLockout true (noteFault code .abort step d (setLevel .lockout s))
      | .lockout => noteFault code .abort step d s) := ⟨_, rfl⟩
  have hc : x.coord = s.coord := by
    rw [hx]
    (repeat' split) <;> simp [newHold]
  refine ⟨x, hc, ?_, ?_⟩
  · have e : raiseFault code .abort step d s = haltPhase x := by rw [hx]; rfl
    rw [e]
    simp only [haltPhase, hc]
    rcases h with h | h | h | h <;> rw [h]
  · intro hl
    rw [hl] at hx
    simp only [] at hx
    obtain ⟨n1, n2, n3, n4, n5⟩ := newHold_spec .stop code.byte s
    obtain ⟨b1, b2, _⟩ := beginEntry_spec (noteFault code .abort step d (newHold .stop code.byte s))
    rw [hx]
    refine ⟨?_, ?_, ?_, ?_⟩
    · simp [n1]
    · simp [n2]
    · rw [b1]; simp [n3]
    · rw [b2]; simp [n4]

/-- An ABORT fault that concerns no plan step halts a station that has joined (R85, R153, R160). -/
theorem raiseAbort_halts (code : FaultCode) (d : Int) (s : State)
    (h : s.coord.phase = .gathering ∨ s.coord.phase = .recovering ∨ s.coord.phase = .homing ∨ s.coord.phase = .ready) :
    ∃ x, x.coord = s.coord ∧ raiseAbort code d s = setPhase .halted x ∧
      (s.hold.level = .none → x.hold.level = .stop ∧ x.hold.seq = s.hold.freshSeq ∧ x.hold.cause = code.byte ∧ x.hold.origin = s.own) :=
  raiseFault_halts code none d s h

/-- The entry to HALTED abandons the plan (R85, R150). -/
theorem setPhase_halted (s : State) (h : s.coord.phase ≠ .halted) :
    (setPhase .halted s).coord.phase = .halted ∧ (setPhase .halted s).plan.running = false ∧
    (setPhase .halted s).plan.claim = none := by
  rw [setPhase_coord .halted s h]
  rw [setPhase_parts .halted s h, if_pos rfl]
  exact ⟨rfl, rfl, rfl⟩

/-- The bits of a set of stations (R154). -/
theorem stationSet_bits (p : Station → Bool) : ∃ b : Nat, b < 256 ∧ stationSet (stations.filter p) = (b : Int) ∧
    ∀ j : Station, b.testBit j.val = p j := by
  have key : ∀ a0 a1 a2 a3 a4 a5 a6 a7 : Bool,
      let b := a0.toNat + 2 * a1.toNat + 4 * a2.toNat + 8 * a3.toNat + 16 * a4.toNat + 32 * a5.toNat + 64 * a6.toNat + 128 * a7.toNat
      b < 256 ∧ ∀ j : Fin 8, b.testBit j.val = (![a0, a1, a2, a3, a4, a5, a6, a7] j) := by
    decide +kernel
  obtain ⟨hb, hj⟩ := key (p 0) (p 1) (p 2) (p 3) (p 4) (p 5) (p 6) (p 7)
  generalize (p 0).toNat + _ + _ + _ + _ + _ + _ + _ = b at hb hj
  have hp : ∀ j : Station, b.testBit j.val = p j := by
    intro j; rw [hj j]; fin_cases j <;> rfl
  exact ⟨b, hb, stationSet_testBit p b hb hp, hp⟩

/-- A report of a RETRY fault records at most four faults: the fault itself, and what RETRIES_EXHAUSTED records. -/
theorem planRetry_older {n : Nat} {r : FaultRecord} (step : Option Nat) (code : FaultCode) (d : Int) (s : State)
    (hn : n ≤ 4) (h : recentFault n r s.hold.faults) : recentFault (n + 4) r (planRetry step code d s).hold.faults := by
  have put : ∀ i, recentFault (n + 1) r (noteFault code .retry (some i) d s).hold.faults := fun i => by
    rw [noteFault_faults]; exact recentFault_append _ h (by omega)
  simp only [planRetry]
  split
  · exact recentFault_mono h (by omega)
  · split
    · split
      · exact recentFault_mono (by simpa using put _) (by omega)
      · exact raiseFault_older _ _ _ _ _ (by omega) (by simpa using put _)
    · exact recentFault_mono h (by omega)

/-- The travel and progress checks record at most four faults. -/
theorem engineTravel_older {n : Nat} {r : FaultRecord} (s : State) (hn : n ≤ 4) (h : recentFault n r s.hold.faults) :
    recentFault (n + 4) r (engineTravel s).hold.faults := by
  have keep : recentFault (n + 4) r s.hold.faults := recentFault_mono h (by omega)
  have seek : ∀ c d, recentFault (n + 4) r (endSeek c .exhausted d s).hold.faults := fun c d => by
    simp only [endSeek, seekReturn]
    split
    · exact planRetry_older _ _ _ _ hn (by simpa using h)
    · simpa using keep
  have survey : ∀ c k, recentFault (n + 4) r (surveyFail c k s).hold.faults := fun c k => by
    simp only [surveyFail, surveyReturn]
    split
    · simp only [if_true, noteFault_faults]
      exact recentFault_mono (recentFault_append _ (by simpa using h) (by omega)) (by omega)
    · simpa using keep
  simp only [engineTravel]
  split
  · split
    · split
      · exact seek _ _
      · simpa only [State.setEngine_hold] using keep
    · exact keep
  · split
    · have test : ∀ p : Prop, [Decidable p] → ∀ c d z, z.hold.faults = s.hold.faults →
          recentFault (n + 4) r (if p then surveyFail c d s else z).hold.faults := fun p _ c d z hz => by
        split
        · exact survey _ _
        · rw [hz]; exact keep
      exact test _ _ _ _ (by simp only [State.setEngine_hold])
    · exact keep
  · exact keep

/-- What a HOLD-class fault leaves in the order record: STOP with reason HOLD, and at LOCKOUT the record as it was
(R160, R161). -/
theorem raiseFault_order (code : FaultCode) (step : Option Nat) (d : Int) (s : State) :
    (raiseFault code .hold step d s).engine.order = if s.hold.level = .lockout then s.engine.order else .stop .hold := by
  have b : ∀ t, (beginEntry t).engine.order = .stop .hold := fun t => (beginEntry_spec t).2.2.2.2.2
  simp only [raiseFault, reduceCtorEq, if_false]
  cases hl : s.hold.level <;> simp only [reduceCtorEq, if_false, if_true]
  · exact b _
  · split <;> exact b _
  · split
    · exact b _
    · exact (enterLockout_spec _ (by simp)).2.2.2.2.2.2.2.1
  · simp

/-- What a report of a RETRY fault leaves in the order record: it is written only where no retry was left (R146). -/
theorem planRetry_order (i k : Nat) (code : FaultCode) (d : Int) (s : State)
    (h : s.plan.table[i]? = some ⟨.running, k, none⟩) :
    (planRetry (some i) code d s).engine.order =
      if 0 < k ∨ s.hold.level = .lockout then s.engine.order else .stop .hold := by
  have st : s.plan.status i = some .running := by simp [Plan.status, h]
  have lf : (s.plan.table[i]?.map (·.retries)).getD 0 = k := by simp [h]
  simp only [planRetry, st, if_true, lf]
  by_cases hk : 0 < k
  · simp [hk]
  · rw [if_neg hk, raiseFault_order]; simp [hk]

/-- A report of a RETRY fault for a step that is not RUNNING does nothing (R145). -/
theorem planRetry_other (step : Option Nat) (code : FaultCode) (d : Int) (s : State)
    (h : ∀ i, step = some i → s.plan.status i ≠ some .running) : planRetry step code d s = s := by
  cases step with
  | none => rfl
  | some i => simp only [planRetry, if_neg (h i rfl)]
end Sys2Proof.Machine
end

