-- ==== Sys2Proof/Laws/Captures.lean ====
section
/-! SUPPORT. Captures: an edge qualified at once, applied claims, and what a seek's capture leaves, confirmed or not. -/

set_option linter.unusedSimpArgs false

namespace Sys2Proof.Machine

/-- An index edge whose step stands before it is qualified at once: its capture is pushed and offered (R8, R10). -/
theorem exec_indexEdge_step (dt : Time) (s : State) (c : Configuration) (a : Nat) (l : LastChange) (d : Direction) (x : Capture)
    (h : s.running = true) (hc : s.port.config = some c) (hs : s.sensing.settling = false) (ha : s.sensing.accepted = some a)
    (hp : s.sensing.pendingEdge = none) (hl : s.sensing.lastChange = some l) (hu : l.used = false)
    (hd : |l.counter.toInt - s.standby.counter.toInt| ≤ (c.cps : Int) / 8)
    (hn : stepDirection c.sectors l.old l.new = some d)
    (hx : x = ⟨s.standby.counter, markSector l.old l.new d, d, if s.link.timed = true then s.link.cycle else none, none⟩) :
    exec (.indexEdge dt) s = .next (offerCapture x ((advance dt s).setSensing { s.sensing with
      lastChange := some { l with used := true }
      captures := (s.sensing.captures ++ [x]).drop (s.sensing.captures.length + 1 - 4) })) := by
  have h' : (advance dt s).running = true := h
  have e1 : (advance dt s).port.config = some c := hc
  have e2 : (advance dt s).sensing.settling = false := hs
  have e3 : (advance dt s).sensing.accepted = some a := ha
  have e4 : (advance dt s).sensing.pendingEdge = none := hp
  have e5 : (advance dt s).sensing.lastChange = some l := hl
  have ec : (advance dt s).cfg = c := by simp only [State.cfg, e1]; rfl
  have dp : displaceEdge (advance dt s) = advance dt s := by simp only [displaceEdge, e4]
  have st : exec (.indexEdge dt) s = .next (latchEdge a (advance dt s)) := by
    simp only [exec, execIndexEdge, h', e1, e2, e3]; rfl
  have hd' : Position.dist l.counter (advance dt s).standby.counter ≤ (advance dt s).edgeReach := by
    rw [edge_reach, ec]; exact hd
  have es : (advance dt s).earlierStep (advance dt s).standby.counter = some (l, d) := by
    simp only [State.earlierStep, e5, hu, hd', ec, hn]; rfl
  have le : latchEdge a (advance dt s) = qualify l d (advance dt s).standby.counter (advance dt s).sensedCycle (advance dt s) := by
    simp only [latchEdge, dp, es]
  rw [st, le]
  simp only [qualify, pushCapture, useLastChange, State.setSensing_sensing, e5, Option.map_some,
    List.length_append, List.length_singleton]
  rw [hx]; rfl

/-- The newest capture record takes its mark (R23). -/
theorem setNewestMark_last (m : Option Int) (x : Capture) (s : State) (h : s.sensing.captures.getLast? = some x) :
    setNewestMark m s = s.setSensing { s.sensing with captures := s.sensing.captures.dropLast ++ [{ x with mark := m }] } := by
  simp only [setNewestMark, h]

/-- What an applied SET claim leaves (R13, R15, R22). -/
theorem applySet_spec (v : Int) (r : Position) (s : State) :
    (applySet v r s).standby = { s.standby with counter := s.standby.counter.shift (v - r.toInt), continuity := true, error := .none } ∧
    (applySet v r s).sensing = s.sensing.moved (v - r.toInt) ∧
    (applySet v r s).engine.operation = s.engine.operation.moved (v - r.toInt) ∧
    (applySet v r s).engine.refState = s.engine.refState ∧ (applySet v r s).engine.order = s.engine.order ∧
    (applySet v r s).plan = s.plan ∧ (applySet v r s).hold = s.hold ∧ (applySet v r s).mem = s.mem ∧
    (applySet v r s).peers = s.peers ∧ (applySet v r s).coord = s.coord ∧ (applySet v r s).cal = s.cal := by
  simp only [applySet, moveCounter, parkedCheck]
  split <;> simp

/-- What a write by the engine leaves of the engine (R26, R27). -/
theorem engineWrite_engine (o : MotionOrder) (s : State) : (engineWrite o s).engine =
    { s.engine with order := if s.engine.order.reason = some .hold then s.engine.order else o } := by
  obtain ⟨x, e, _⟩ := engineWrite_reach o s
  rw [e]

/-- What a seek whose claim has been applied leaves (R32, R33, R35, R37). -/
theorem enterCaptured_spec (k : SeekContext) (s : State) :
    (s.still = false → (enterCaptured k s).engine.refState = .captured ∧ (enterCaptured k s).engine.operation = s.engine.operation ∧
      (enterCaptured k s).engine.order = (if s.engine.order.reason = some .hold then s.engine.order else .stop .seek) ∧
      (enterCaptured k s).plan = s.plan) ∧
    (s.still = true → (enterCaptured k s).engine.operation = .none ∧
      (s.plan.demote = false → (enterCaptured k s).engine.refState = .referenced) ∧
      (enterCaptured k s).engine.order = (if s.engine.order.reason = some .hold then s.engine.order else .none) ∧
      (∀ i n, k.step = some i → s.plan.table[i]? = some ⟨.running, n, none⟩ →
        (enterCaptured k s).plan.table[i]? = some ⟨.done, n, none⟩ ∧ (enterCaptured k s).plan.claim = none
        ∧ (enterCaptured k s).plan.running = false)) ∧
    (enterCaptured k s).standby = s.standby ∧ (enterCaptured k s).sensing = s.sensing ∧
    (enterCaptured k s).hold = s.hold ∧ (enterCaptured k s).mem = s.mem ∧
    (enterCaptured k s).peers = s.peers ∧ (enterCaptured k s).coord = s.coord ∧ (enterCaptured k s).cal = s.cal := by
  have os : (engineWrite (.stop .seek) (s.setEngine { s.engine with refState := .captured })).still = s.still := by
    simp [State.still]
  refine ⟨?_, ?_, ?_⟩
  · intro h
    simp only [enterCaptured, os, h, Bool.false_eq_true, if_false, engineWrite_engine, State.setEngine_engine]
    by_cases hh : s.engine.order.reason = some .hold <;> simp [hh]
  · intro h
    simp only [enterCaptured, os, h, if_true, capturedComplete]
    refine ⟨?_, ?_, ?_, ?_⟩
    · simp [(operationEnded_spec _).1, engineWrite_engine]
    · intro hd
      rw [show ∀ x : State, (planDone k.step x).engine = x.engine from fun x => by simp]
      rw [(operationEnded_spec _).2 (by simpa using hd)]
      simp [engineWrite_engine]
    · rw [show ∀ x : State, (planDone k.step x).engine = x.engine from fun x => by simp]
      rw [operationEnded_order]
      simp only [engineWrite_engine, State.setEngine_engine]
      by_cases hh : s.engine.order.reason = some .hold <;> simp [hh, show (MotionOrder.stop .seek).reason = some .seek from rfl]
    · intro i n hi ht
      rw [hi]
      apply planDone_spec i n
      rw [(operationEnded_frame _).1]
      simpa using ht
  · simp only [enterCaptured]
    split <;> simp [capturedComplete]

/-- What a witness that does not confirm leaves (R32). -/
theorem witnessMismatch_spec (k : SeekContext) (v : Int) (s : State) :
    (witnessMismatch k v s).hasFault .witnessMismatch .note k.step v ∧
    (witnessMismatch k v s).engine.refState = .unreferenced ∧ (witnessMismatch k v s).engine.parked = false ∧
    (witnessMismatch k v s).engine.operation = .none ∧
    (s.still = false →
      (witnessMismatch k v s).engine.order = (if s.engine.order.reason = some .hold then s.engine.order else .stop .seek) ∧
      (witnessMismatch k v s).plan.table = s.plan.table ∧ (witnessMismatch k v s).plan.running = s.plan.running ∧
      (witnessMismatch k v s).plan.claim = s.plan.claim) ∧
    (s.still = true →
      (witnessMismatch k v s).engine.order = (if s.engine.order.reason = some .hold then s.engine.order else .none) ∧
      (∀ i n, k.step = some i → s.plan.table[i]? = some ⟨.running, n, none⟩ →
        (witnessMismatch k v s).plan.table[i]? = some ⟨.done, n, none⟩ ∧ (witnessMismatch k v s).plan.claim = none
        ∧ (witnessMismatch k v s).plan.running = false)) ∧
    (witnessMismatch k v s).hold.level = s.hold.level ∧ (witnessMismatch k v s).hold.seq = s.hold.seq ∧
    (witnessMismatch k v s).standby = s.standby ∧ (witnessMismatch k v s).mem = s.mem ∧
    (witnessMismatch k v s).peers = s.peers ∧ (witnessMismatch k v s).coord = s.coord ∧
    (witnessMismatch k v s).cal = s.cal := by
  simp only [witnessMismatch]
  generalize hn : noteFault .witnessMismatch .note k.step v s = n
  have n1 : n.engine = s.engine ∧ n.plan = s.plan ∧ n.sensing = s.sensing ∧ n.hold.level = s.hold.level ∧ n.hold.seq = s.hold.seq ∧
      n.standby = s.standby ∧ n.mem = s.mem ∧ n.peers = s.peers ∧ n.coord = s.coord ∧ n.cal = s.cal := by
    rw [← hn]; simp
  obtain ⟨r, hr, r1, r2, r3, r4, r5⟩ : ∃ r, r ∈ n.hold.faults ∧ r.code = FaultCode.witnessMismatch.byte ∧ r.cls = .note ∧ r.origin = s.own ∧
      r.step = k.step ∧ r.detail = sat32 v := by
    have uf : ∃ r, recentFault 1 r n.hold.faults ∧ r.code = FaultCode.witnessMismatch.byte ∧ r.cls = .note ∧ r.origin = s.own ∧ r.step = k.step ∧ r.detail = sat32 v := by
      rw [← hn, noteFault_faults]; exact ⟨_, recentFault_append_self _ _, rfl, rfl, rfl, rfl, rfl⟩
    obtain ⟨r, hr, h⟩ := uf
    exact ⟨r, recentFault_mem hr, h⟩
  have no : n.own = s.own := by rw [← hn]; simp [State.own]
  obtain ⟨n1, n2, n3, n4, n5, n6, n7, n8, n9, n10⟩ := n1
  rw [n1]
  generalize hz : operationEnded _ = z
  have z0 : z.engine = { s.engine with refState := .unreferenced, parked := false, operation := .none, mismatch := some k.step
                                       order := if s.engine.order.reason = some .hold then s.engine.order else .stop .seek } := by
    rw [← hz, operationEnded_state _ (by simp), engineWrite_engine]
    by_cases hh : s.engine.order.reason = some .hold <;> simp [hh]
  have z1 : z.plan.table = s.plan.table ∧ z.plan.running = s.plan.running ∧ z.plan.claim = s.plan.claim := by
    rw [← hz, (operationEnded_frame _).1, (operationEnded_frame _).2.2.1, (operationEnded_frame _).2.1]; simp [n2]
  have z2 : z.still = s.still ∧ z.hold = n.hold ∧ z.standby = s.standby ∧ z.mem = s.mem ∧ z.peers = s.peers ∧ z.coord = s.coord ∧ z.cal = s.cal ∧ z.own = n.own := by
    rw [← hz]; refine ⟨?_, ?_, ?_, ?_, ?_, ?_, ?_, ?_⟩ <;> simp [State.still, State.own, n3, n6, n7, n8, n9, n10]
  obtain ⟨z2, z3, z4, z5, z6, z7, z8, z9⟩ := z2
  obtain ⟨t1, t2, t3⟩ := z1
  cases hb : s.still
  · rw [z2, hb]
    simp only [Bool.false_eq_true, if_false]
    refine ⟨⟨r, by rw [z3]; exact hr, r1, r2, by rw [z9, no]; exact r3, r4, r5⟩, by rw [z0], by rw [z0], by rw [z0], fun _ => ⟨by rw [z0], t1, t2, t3⟩, fun h => by simp at h, ?_⟩
    simp [*]
  · rw [z2, hb]
    simp only [if_true]
    have em : z.engine.mismatch = some k.step := by rw [z0]
    simp only [mismatchResolve, em]
    generalize hw : engineWrite _ _ = w
    have w1 : w.engine = { s.engine with refState := .unreferenced, parked := false, operation := .none, mismatch := none
                                         order := if s.engine.order.reason = some .hold then s.engine.order else .none } := by
      rw [← hw, engineWrite_engine]
      simp only [State.setEngine_engine, z0]
      by_cases hh : s.engine.order.reason = some .hold <;> simp [hh, show (MotionOrder.stop .seek).reason = some .seek from rfl]
    have w2 : w.plan = z.plan ∧ w.hold = n.hold ∧ w.standby = s.standby ∧ w.mem = s.mem ∧ w.peers = s.peers ∧ w.coord = s.coord ∧ w.cal = s.cal ∧ w.own = n.own := by
      rw [← hw]; simp [State.own] at z9 ⊢; simp [*]
    obtain ⟨w2, w3, w4, w5, w6, w7, w8, w9⟩ := w2
    have pe : ∀ x : State, (planDone k.step x).engine = x.engine := fun x => by simp
    refine ⟨⟨r, by simpa [w3] using hr, r1, r2, ?_, r4, r5⟩, ?_, ?_, ?_, fun h => by simp at h, fun _ => ⟨?_, ?_⟩, ?_⟩
    · rw [r3, ← no, ← w9]; simp [State.own]
    · rw [pe, w1]
    · rw [pe, w1]
    · rw [pe, w1]
    · rw [pe, w1]
    · intro i m hi ht
      rw [hi]
      apply planDone_spec i m
      rw [w2, t1]; exact ht
    · simp [*]

/-- What a seek whose claim names the newest capture leaves (R15, R36, R37). -/
theorem seekClaim_spec (k : SeekContext) (v : Int) (s : State) (y : Capture) (hs : s.sensing.settling = false)
    (hy : s.sensing.captures.getLast? = some y) (hr : y.raw = s.standby.counter) (ho : s.engine.operation = .seek k) :
    ∃ q : SeekContext, q.kind = k.kind ∧ q.step = k.step ∧ q.endCause = k.endCause ∧
      seekClaim k v s = enterCaptured q (applySet v s.standby.counter s) ∧
      (applySet v s.standby.counter s).engine.operation = .seek q := by
  obtain ⟨_, _, a3, _⟩ := applySet_spec v s.standby.counter s
  have a3' : (applySet v s.standby.counter s).engine.operation = .seek { k with
      start := k.start.shift (v - s.standby.counter.toInt), phaseStart := k.phaseStart.shift (v - s.standby.counter.toInt)
      stall := k.stall.moved (v - s.standby.counter.toInt) } := by
    rw [a3, ho]; rfl
  refine ⟨_, ?_, ?_, ?_, ?_, a3'⟩
  · rfl
  · rfl
  · rfl
  · simp only [seekClaim, setClaimNewest, hs, hy, Bool.false_eq_true, if_false, hr, a3']

/-- The mark in the travel range that has the capture's sector (R33). -/
theorem travelMark_of (s : State) (c : Configuration) (n : Nat) (m : Int) (hc : s.cfg = c) (h1 : c.travelMin ≤ m) (h2 : m ≤ c.travelMax)
    (h3 : m % (c.sectors : Int) = (n : Int)) (h4 : c.travelMax - c.travelMin < (c.sectors : Int)) : s.travelMark n = some m := by
  have hp : (0 : Int) < c.sectors := by omega
  have e : c.travelMin + ((n : Int) - c.travelMin) % (c.sectors : Int) = m := by
    have : ((n : Int) - c.travelMin) % (c.sectors : Int) = m - c.travelMin := by
      rw [← h3, Int.emod_sub_emod]
      exact Int.emod_eq_of_lt (by omega) (by omega)
    omega
  simp only [State.travelMark, hc, e, if_pos h2]

/-- No mark in the travel range has the capture's sector (R33). -/
theorem travelMark_none (s : State) (c : Configuration) (n : Nat) (hc : s.cfg = c) (hp : 0 < c.sectors) (hn : n < c.sectors)
    (h : ∀ m : Int, c.travelMin ≤ m → m ≤ c.travelMax → m % (c.sectors : Int) ≠ (n : Int)) : s.travelMark n = none := by
  have hp' : (0 : Int) < c.sectors := by omega
  simp only [State.travelMark, hc]
  rw [if_neg]
  intro hle
  have h0 := Int.emod_nonneg ((n : Int) - c.travelMin) (ne_of_gt hp')
  refine h _ (by omega) hle ?_
  rw [Int.add_emod_emod]
  rw [show c.travelMin + ((n : Int) - c.travelMin) = n by ring]
  exact Int.emod_eq_of_lt (by omega) (by omega)

end Sys2Proof.Machine
end

