-- ==== Sys2Proof/Laws/Link.lean ====
section
/-! SUPPORT. The arm link: attribution, ageing, packing, and the faults of silence. -/

namespace Sys2Proof.Machine

/-- A hand-off leaves the Coordinator. -/
theorem handOff_keeps_coord (s : State) : (handOff s).coord = s.coord := by simp

/-- No link event takes place in OFF and LISTENING. -/
theorem linkTimed_off (s : State) (h : s.link.state = .off ∨ s.link.state = .listening) : s.linkTimed = false := by
  rcases h with h | h <;> simp [State.linkTimed, LinkState.sends, h]

/-- Link events take place in SYNCED and ALONE. -/
theorem linkTimed_on (s : State) (hr : s.running = true) (h : s.link.state = .synced ∨ s.link.state = .alone) : s.linkTimed = true := by
  rcases h with h | h <;> simp [State.linkTimed, LinkState.sends, h, hr]

/-- The station transmits while the frame of its slot has begun and is not over (R53, R58). -/
theorem transmitting_iff (s : State) :
    s.transmitting = true ↔ ∃ x, s.link.tx = some x ∧ x.start ≤ (s.now : Rat) := by
  simp only [State.transmitting, State.reached]
  cases s.link.tx <;> simp

/-- Before the frame of its slot begins the station does not transmit. -/
theorem transmitting_not (s : State) (h : ∀ x, s.link.tx = some x → (s.now : Rat) < x.start) : s.transmitting = false := by
  rw [← Bool.not_eq_true, transmitting_iff]
  rintro ⟨x, hx, hl⟩
  exact absurd hl (not_le.2 (h x hx))

/-- Nothing is pending exactly when no kind is (R91). -/
theorem nextPending_none (st : Store) : st.nextPending = none ↔ ∀ k : WriteKind, st.isPending k = false := by
  simp only [Store.nextPending, List.findSome?_eq_none_iff, id, Store.isPending]
  constructor
  · intro h k
    have := h (st.pending.get k.place) (by simp [Vector.get_eq_getElem])
    simp [this]
  · intro h x hx
    rw [Vector.mem_toList_iff, Vector.mem_iff_getElem] at hx
    obtain ⟨i, hi, rfl⟩ := hx
    have pk : ∀ p : Fin 8, ∃ k : WriteKind, k.place = p := by
      intro p; fin_cases p
      exacts [⟨.final, rfl⟩, ⟨.orderly, rfl⟩, ⟨.lockRecord, rfl⟩, ⟨.lockClear, rfl⟩, ⟨.calFlip, rfl⟩, ⟨.calStage, rfl⟩, ⟨.calDiscard, rfl⟩, ⟨.routine, rfl⟩]
    obtain ⟨k, hk⟩ := pk ⟨i, hi⟩
    have := h k
    rw [hk] at this
    simpa [Vector.get_eq_getElem] using this

/-- A frame that starts within half a slot of a nominal instant is attributed to its slot, with its offset (R52, R60). -/
theorem attributed_near (s : State) (k : Station) (n : Int) (start off : Rat) (hs : 0 < s.slotLength)
    (h : start = s.link.cycleStart + 4000 + ((k.val : Int) + 8 * n : Int) * s.slotLength + off)
    (h1 : - s.slotLength / 2 < off) (h2 : off < s.slotLength / 2) :
    s.attributed start = k ∧ s.offset start = off := by
  have hf : s.slotsFrom start = (k.val : Int) + 8 * n := by
    have e : (start - s.link.cycleStart - nominalDelay) / s.slotLength - 1 / 2 = (((k.val : Int) + 8 * n : Int) : Rat) + (off / s.slotLength - 1 / 2) := by
      rw [h, nominalDelay]; field_simp; ring
    have b1 : -(1 / 2 : Rat) < off / s.slotLength := by rw [lt_div_iff₀ hs]; linarith
    have b2 : off / s.slotLength < 1 / 2 := by rw [div_lt_iff₀ hs]; linarith
    unfold State.slotsFrom
    rw [e]
    generalize hm : (k.val : Int) + 8 * n = m
    have c1 := Rat.le_ceil (x := (m : Rat) + (off / s.slotLength - 1 / 2))
    have c2 := Rat.ceil_lt (x := (m : Rat) + (off / s.slotLength - 1 / 2))
    generalize ((m : Rat) + (off / s.slotLength - 1 / 2)).ceil = q at c1 c2
    have d1 : (m : Rat) < (q : Rat) + 1 := by linarith
    have d2 : (q : Rat) < (m : Rat) + 1 := by linarith
    have e1 : m < q + 1 := by exact_mod_cast d1
    have e2 : q < m + 1 := by exact_mod_cast d2
    omega
  refine ⟨?_, ?_⟩
  · unfold State.attributed
    rw [hf]
    have hk := k.isLt
    have : (((k.val : Int) + 8 * n) % 8).toNat = k.val := by omega
    rw [this]
    simp only [stationOf]
    exact Fin.ext (Nat.mod_eq_of_lt hk)
  · unfold State.offset
    rw [hf, h, nominalDelay]; ring

/-- An ACTIVE entry after a period in which it was not heard (R68, R69). -/
def PeerEntry.aged (limit : Nat) (e : PeerEntry) : PeerEntry :=
  if e.loss = .active then
    { e with loss := if limit ≤ min 255 (e.silence + 1) then .lost else .active, silence := min 255 (e.silence + 1) }
  else e

/-- Ageing reaches one entry (R68). -/
theorem agePeer_peers (j : Station) (s : State) :
    (agePeer j s).peers = vput s.peers j ((s.peers.get j).aged s.cfg.peerLossLimit) := by
  have id : ∀ e : PeerEntry, s.peers.get j = e → vput s.peers j e = s.peers := by
    intro e he; subst he; simp [vput, Vector.get_eq_getElem]
  have lost : ∀ (e : PeerEntry) (t : State), (peerLost j e t).peers = t.peers := by intro e t; simp
  simp only [agePeer, PeerEntry.aged]
  split
  · split
    · rw [lost]; rfl
    · rename_i h1 h2; show vput _ _ _ = _; rw [← h1]
  · rw [id _ rfl]

/-- Ageing leaves the own number and the configuration. -/
theorem agePeer_frame (j : Station) (s : State) : (agePeer j s).link.station = s.link.station ∧ (agePeer j s).port.config = s.port.config := by simp

/-- Ageing a list of stations reaches their entries, the own one excepted (R68). -/
theorem ageFold_peers (l : List Station) (s : State) (hl : l.Nodup) (j : Station) :
    ((l.foldl (fun s j => if j = s.own then s else agePeer j s) s).peers.get j) =
      if j ∈ l ∧ j ≠ s.own then (s.peers.get j).aged s.cfg.peerLossLimit else s.peers.get j := by
  induction l generalizing s with
  | nil => simp
  | cons a l ih =>
    rw [List.nodup_cons] at hl
    simp only [List.foldl_cons]
    by_cases ha : a = s.own
    · rw [if_pos ha, ih s hl.2]
      by_cases hj : j ∈ l ∧ j ≠ s.own
      · rw [if_pos hj, if_pos ⟨List.mem_cons_of_mem _ hj.1, hj.2⟩]
      · rw [if_neg hj, if_neg]
        rintro ⟨h1, h2⟩
        rcases List.mem_cons.1 h1 with h1 | h1
        · exact h2 (h1.trans ha)
        · exact hj ⟨h1, h2⟩
    · rw [if_neg ha, ih _ hl.2]
      have o : (agePeer a s).own = s.own := (agePeer_frame a s).1
      have c : (agePeer a s).cfg = s.cfg := by unfold State.cfg; rw [(agePeer_frame a s).2]
      rw [o, c, agePeer_peers]
      by_cases hj : j = a
      · subst hj
        rw [if_neg (fun h => hl.1 h.1), if_pos ⟨List.mem_cons_self, ha⟩]; simp
      · simp only [vput_get, if_neg (Ne.symm hj)]
        simp [hj]

/-- Ageing all reaches every entry but the own one (R68). -/
theorem ageAll_peers (s : State) (j : Station) : ((ageAll s).peers.get j) =
      if j ≠ s.own then (s.peers.get j).aged s.cfg.peerLossLimit else s.peers.get j := by
  unfold ageAll
  rw [ageFold_peers stations s (by decide) j]
  have : j ∈ stations := by revert j; decide
  simp [this]

/-- A packing takes one packing from the restart flag (R86). -/
theorem notePacking_coord (s : State) : (notePacking s).coord =
    if s.coord.restart = true then
      { s.coord with restartLeft := s.coord.restartLeft - 1, restart := decide (1 < s.coord.restartLeft) }
    else s.coord := by
  have b : ∀ x : State, (if x.hold.lockClear = true then x.setHold { x.hold with lockClearLeft := x.hold.lockClearLeft - 1, lockClear := decide (1 < x.hold.lockClearLeft) } else x).coord = x.coord := by
    intro x; split <;> rfl
  simp only [notePacking]
  refine (b _).trans ?_
  by_cases h : s.coord.restart = true
  · rw [if_pos h, if_pos h]; rfl
  · rw [if_neg h, if_neg h]

/-- A packing refreshes the own entry from the packed record, and counts for the restart flag (R57, R67, R86). -/
theorem packAndRefresh_spec (s : State) :
    (packAndRefresh s).peers = vput s.peers s.own ⟨.active, 0, some s.packRecord⟩ ∧
    (s.coord.restart = true → (packAndRefresh s).coord.restartLeft = s.coord.restartLeft - 1 ∧
      (packAndRefresh s).coord.restart = decide (1 < s.coord.restartLeft)) ∧
    (s.coord.restart = false → (packAndRefresh s).coord.restart = false) := by
  simp only [packAndRefresh]
  refine ⟨?_, ?_, ?_⟩
  · simp [refreshOwn]
  · intro h
    rw [handOff_keeps_coord, notePacking_coord, if_pos (show (refreshOwn s).coord.restart = true from h)]; exact ⟨rfl, rfl⟩
  · intro h
    rw [handOff_keeps_coord, notePacking_coord, if_neg (show ¬ (refreshOwn s).coord.restart = true by
      rw [show (refreshOwn s).coord.restart = false from h]; simp)]; exact h

/-- What the own slot packs: the own entry, the restart flag's packings, and the claim sent cycle (R57, R67, R86, R128). -/
def slotPacked (kept : Bool) (s : State) : State := packAndRefresh (noteClaimSent kept s)

/-- The claim sent cycle is no part of the packed record (R64). -/
theorem noteClaimSent_packRecord (kept : Bool) (s : State) : (noteClaimSent kept s).packRecord = s.packRecord := by
  simp only [noteClaimSent]; split <;> rfl

/-- The own slot by its parts: evaluation, packing, and the frame (R57, R59). -/
theorem ownSlot_parts (s : State) : ownSlot s = (if (slotEvaluation s).link.muted = true then slotPacked s.claimKept (slotEvaluation s)
    else (slotPacked s.claimKept (slotEvaluation s)).setLink { (slotPacked s.claimKept (slotEvaluation s)).link with
      tx := some ⟨(slotEvaluation s).slotStart (slotEvaluation s).own.val + nominalDelay,
        (slotEvaluation s).packRecord.frame⟩ }) := by
  have : (slotPacked s.claimKept (slotEvaluation s)).link.muted = (slotEvaluation s).link.muted := by simp [slotPacked]
  simp only [ownSlot, ← this]; rfl

/-- The sum of some offsets. -/
theorem sumOf_sum (l : List Rat) : sumOf l = l.sum := by
  unfold sumOf
  rw [List.sum_eq_foldl]

/-- LINK_ALONE is raised in HOMING, READY and HALTED alone (R51, R54). -/
theorem raiseLinkAlone_spec (d : Int) (s : State) :
    ((s.coord.phase = .homing ∨ s.coord.phase = .ready ∨ s.coord.phase = .halted) →
      ∃ r, recentFault 3 r (raiseLinkAlone d s).hold.faults ∧ r.code = FaultCode.byte .linkAlone ∧ r.cls = .hold ∧ r.origin = s.own ∧ r.step = none ∧ r.detail = sat32 d) ∧
    ((s.coord.phase = .isolated ∨ s.coord.phase = .gathering ∨ s.coord.phase = .recovering) → raiseLinkAlone d s = s) ∧
    (raiseLinkAlone d s).coord = s.coord := by
  refine ⟨?_, ?_, ?_⟩
  · intro h
    have : s.coord.phase.working = true := by rcases h with h | h | h <;> rw [h] <;> rfl
    simp only [raiseLinkAlone, this, if_true]
    exact raiseFault_recent .linkAlone .hold none d s
  · intro h
    have : s.coord.phase.working = false := by rcases h with h | h | h <;> rw [h] <;> rfl
    simp [raiseLinkAlone, this]
  · simp

/-- A hand-off records no fault. -/
theorem handOff_older {n : Nat} {r : FaultRecord} (s : State) (h : recentFault n r s.hold.faults) : r ∈ (handOff s).hold.faults := by
  have ps : ∀ x : State, (proposalSuccess x).hold = x.hold := by
    intro x; simp only [proposalSuccess, endProposal]; (repeat' split) <;> simp
  have : (handOff s).hold.faults = s.hold.faults := by
    simp only [handOff, ps]; simp
  rw [this]; exact recentFault_mem h

/-- PEER_LOST is raised in HOMING, READY and HALTED for a station that has not shown the closing flag (R69). -/
theorem raisePeerLost_spec (j : Station) (e : PeerEntry) (s : State) 
    (hp : s.coord.phase = .homing ∨ s.coord.phase = .ready ∨ s.coord.phase = .halted)
    (hc : ∀ r, e.record = some r → r.closing = false) :
    ∃ r, recentFault 3 r (raisePeerLost j e s).hold.faults ∧ r.code = FaultCode.byte .peerLost ∧ r.cls = .hold ∧ r.origin = s.own ∧ r.step = none ∧ r.detail = sat32 (j.val : Int) := by
  have w : s.coord.phase.working = true := by rcases hp with h | h | h <;> rw [h] <;> rfl
  have : raisePeerLost j e s = raiseHold .peerLost (j.val : Int) s := by
    simp only [raisePeerLost, w, Bool.true_and]
    cases he : e.record with
    | none => rfl
    | some q => simp [hc q he]
  rw [this]
  exact raiseFault_recent .peerLost .hold none (j.val : Int) s

/-- The fault list is left by a packing and by a hand-off. -/
theorem packAndRefresh_faults (s : State) : (packAndRefresh s).hold.faults = s.hold.faults := by
  have ps : ∀ x : State, (proposalSuccess x).hold = x.hold := by
    intro x; simp only [proposalSuccess, endProposal]; (repeat' split) <;> simp
  have ho : ∀ x : State, (handOff x).hold.faults = x.hold.faults := by
    intro x; simp only [handOff, ps]; simp
  have np : ∀ x : State, (notePacking x).hold.faults = x.hold.faults := by
    intro x; simp only [notePacking]; (repeat' split) <;> simp
  rw [packAndRefresh, ho, np]; simp [refreshOwn]

/-- What the own slot leaves after its evaluation: the own entry, the claim sent cycle, and what packing and handing off
touch (R57, R67, R70, R86, R128). -/
theorem ownSlot_after (s v : State) (hv : slotEvaluation s = v) :
    (ownSlot s).peers = vput v.peers v.own ⟨.active, 0, some v.packRecord⟩ ∧
    (ownSlot s).engine = v.engine ∧ (ownSlot s).standby = v.standby ∧ (ownSlot s).sensing = v.sensing ∧
    (ownSlot s).mem = v.mem ∧ (ownSlot s).gate = v.gate ∧ (ownSlot s).plan = (noteClaimSent s.claimKept v).plan ∧
    (ownSlot s).hold.faults = v.hold.faults ∧ (ownSlot s).hold.level = v.hold.level ∧
    (ownSlot s).port.config = v.port.config ∧ (ownSlot s).link.station = v.link.station ∧
    (ownSlot s).coord = { v.coord with
      restart := (ownSlot s).coord.restart, restartLeft := (ownSlot s).coord.restartLeft } := by
  have nc : ∀ x : State, (noteClaimSent s.claimKept x).coord = x.coord ∧ (noteClaimSent s.claimKept x).peers = x.peers ∧
      (noteClaimSent s.claimKept x).own = x.own ∧ (noteClaimSent s.claimKept x).hold = x.hold ∧ (noteClaimSent s.claimKept x).engine = x.engine ∧
      (noteClaimSent s.claimKept x).standby = x.standby ∧ (noteClaimSent s.claimKept x).sensing = x.sensing ∧ (noteClaimSent s.claimKept x).mem = x.mem ∧
      (noteClaimSent s.claimKept x).gate = x.gate ∧ (noteClaimSent s.claimKept x).port = x.port ∧ (noteClaimSent s.claimKept x).link = x.link := by
    intro x; simp only [noteClaimSent]; split <;> exact ⟨rfl, rfl, rfl, rfl, rfl, rfl, rfl, rfl, rfl, rfl, rfl⟩
  obtain ⟨n1, n2, n3, n4, n5, n6, n7, n8, n9, n10, n11⟩ := nc v
  have pc : (slotPacked s.claimKept v).coord = { v.coord with
      restart := (slotPacked s.claimKept v).coord.restart, restartLeft := (slotPacked s.claimKept v).coord.restartLeft } := by
    have : (slotPacked s.claimKept v).coord = (notePacking (refreshOwn (noteClaimSent s.claimKept v))).coord := by
      rw [slotPacked, packAndRefresh, handOff_keeps_coord]
    rw [this, notePacking_coord]
    have hc : (refreshOwn (noteClaimSent s.claimKept v)).coord = v.coord := by rw [← n1]; simp [refreshOwn]
    rw [hc]
    split <;> rfl
  have main : (slotPacked s.claimKept v).peers = vput v.peers v.own ⟨.active, 0, some v.packRecord⟩ ∧
    (slotPacked s.claimKept v).engine = v.engine ∧ (slotPacked s.claimKept v).standby = v.standby ∧ (slotPacked s.claimKept v).sensing = v.sensing ∧
    (slotPacked s.claimKept v).mem = v.mem ∧ (slotPacked s.claimKept v).gate = v.gate ∧ (slotPacked s.claimKept v).plan = (noteClaimSent s.claimKept v).plan ∧
    (slotPacked s.claimKept v).hold.faults = v.hold.faults ∧ (slotPacked s.claimKept v).hold.level = v.hold.level ∧
    (slotPacked s.claimKept v).port.config = v.port.config ∧ (slotPacked s.claimKept v).link.station = v.link.station := by
    refine ⟨?_, by simp [slotPacked], by simp [slotPacked], by simp [slotPacked], by simp [slotPacked],
      by simp [slotPacked], by simp [slotPacked], ?_, by simp [slotPacked], by simp [slotPacked],
      by simp [slotPacked]⟩
    · rw [slotPacked, (packAndRefresh_spec _).1, noteClaimSent_packRecord, n2, n3]
    · rw [slotPacked, packAndRefresh_faults, n4]
  rw [ownSlot_parts, hv]
  split
  · exact ⟨main.1, main.2.1, main.2.2.1, main.2.2.2.1, main.2.2.2.2.1, main.2.2.2.2.2.1, main.2.2.2.2.2.2.1,
      main.2.2.2.2.2.2.2.1, main.2.2.2.2.2.2.2.2.1, main.2.2.2.2.2.2.2.2.2.1, main.2.2.2.2.2.2.2.2.2.2, pc⟩
  · exact ⟨main.1, main.2.1, main.2.2.1, main.2.2.2.1, main.2.2.2.2.1, main.2.2.2.2.2.1, main.2.2.2.2.2.2.1,
      main.2.2.2.2.2.2.2.1, main.2.2.2.2.2.2.2.2.1, main.2.2.2.2.2.2.2.2.2.1, main.2.2.2.2.2.2.2.2.2.2, pc⟩
end Sys2Proof.Machine
end

