-- ==== Sys2Proof/Laws/Losses.lean ====
section
/-! SUPPORT. How many faults the loss of several peers records: one each, and one more while a proposal can still end. -/

namespace Sys2Proof.Machine

/-- An own proposal that a hold or a loss would end: its flip is not posted (R198). -/
def State.endable (s : State) : Bool :=
  match s.cal.proposal with
  | some p => !p.flipPosted
  | none => false

/-- A record stands among the last `m`, counting a place for the record the end of the own proposal would add. -/
def Room (m : Nat) (r : FaultRecord) (s : State) : Prop :=
  recentFault (if s.endable then m - 1 else m) r s.hold.faults ∧ (s.endable = true → 1 ≤ m)

/-- Posting a write leaves the own proposal. -/
@[simp] theorem postWrite_proposal (q : WriteRequest) (s : State) : (postWrite q s).cal.proposal = s.cal.proposal := by
  simp only [postWrite, grant, addPending]; (repeat' split) <;> simp

@[simp] theorem entryTest_proposal (s : State) : (entryTest s).cal.proposal = s.cal.proposal := by
  simp only [entryTest, orderlyLatch]; (repeat' split) <;> simp

@[simp] theorem postLockRecord_proposal (s : State) : (postLockRecord s).cal.proposal = s.cal.proposal := by
  simp [postLockRecord]

theorem Room.mem {m : Nat} {r : FaultRecord} {s : State} (h : Room m r s) : r ∈ s.hold.faults := recentFault_mem h.1

/-- Room is kept where the fault list stays and no proposal comes to be endable. -/
theorem Room.step {m : Nat} {r : FaultRecord} {s t : State} (h : Room m r s) (hf : t.hold.faults = s.hold.faults)
    (hc : t.endable = true → s.endable = true) : Room m r t := by
  refine ⟨?_, fun e => h.2 (hc e)⟩
  rw [hf]
  refine recentFault_mono h.1 ?_
  by_cases ht : t.endable = true
  · rw [if_pos ht, if_pos (hc ht)]
  · rw [if_neg ht]; split <;> omega

theorem Room.mono {m n : Nat} {r : FaultRecord} {s : State} (h : Room m r s) (hm : m ≤ n) : Room n r s :=
  ⟨recentFault_mono h.1 (by split <;> omega), fun e => le_trans (h.2 e) hm⟩

/-- A fault recorded takes one place. -/
theorem Room.note {m : Nat} {r : FaultRecord} {s : State} (h : Room m r s) (hm : m ≤ 7) (code : FaultCode)
    (cls : FaultClass) (step : Option Nat) (d : Int) : Room (m + 1) r (noteFault code cls step d s) := by
  have he : (noteFault code cls step d s).endable = s.endable := by simp [State.endable]
  refine ⟨?_, fun _ => by omega⟩
  rw [noteFault_faults, he]
  have hl : (if s.endable then m - 1 else m) ≤ 7 := by split <;> omega
  refine recentFault_mono (recentFault_append _ h.1 hl) ?_
  by_cases e : s.endable = true
  · rw [if_pos e, if_pos e]; have := h.2 e; omega
  · rw [if_neg e, if_neg e]

/-- The end of the own proposal takes the place kept for it. -/
theorem Room.withdraw {m : Nat} {r : FaultRecord} {s : State} (h : Room m r s) (hm : m ≤ 8) (d : Int) :
    Room m r (withdrawProposal d s) := by
  have gone : ∀ p, s.cal.proposal = some p → p.flipPosted = false → Room m r (endProposal (some d) s) := by
    intro p hp hf
    have he : s.endable = true := by simp [State.endable, hp, hf]
    have hl := h.1
    rw [if_pos he] at hl
    have := h.2 he
    have hn : (endProposal (some d) s).endable = false := by
      have : (endProposal (some d) s).cal.proposal = none := by simp only [endProposal, sightingUpdate]; split <;> simp
      simp [State.endable, this]
    have e1 : ∀ x : State, (sightingUpdate x).hold = x.hold := by intro x; simp
    refine ⟨?_, fun e => by rw [hn] at e; cases e⟩
    rw [hn]
    simp only [endProposal, e1, noteFault_faults]
    have := recentFault_append (((s.setCal { s.cal with proposal := none }).recordOf FaultCode.calAborted.byte
      .note (s.setCal { s.cal with proposal := none }).own none (sat32 d))) hl (by omega)
    exact recentFault_mono this (by simp; omega)
  simp only [withdrawProposal]
  split
  · rename_i p hp
    split
    · exact h
    · rename_i hf; exact gone p hp (by simpa using hf)
  · exact h

/-- Holding reaches the other blocks within the room. -/
theorem Room.reaches {m : Nat} {r : FaultRecord} {s : State} (h : Room m r s) (hm : m ≤ 8) : Room m r (holdReaches s) := by
  have e : (engineHold s).cal.proposal = s.cal.proposal := by
    simp only [engineHold, seekReturnHeld, surveyReturn, surveyFinish]
    (repeat' split) <;> simp_all
  simp only [holdReaches]
  exact (h.step (t := noteDropMotion (gateUpdate (planHold (engineHold s)))) (by simp) (by simp [State.endable, e])).withdraw hm 2

/-- An entry begins within the room. -/
theorem Room.entry {m : Nat} {r : FaultRecord} {s : State} (h : Room m r s) (hm : m ≤ 8) : Room m r (beginEntry s) := by
  have et : ∀ x : State, Room m r x → Room m r (entryTest x) := by
    intro x hx; exact hx.step (by simp) (by simp [State.endable])
  simp only [beginEntry]
  apply et
  apply Room.reaches _ hm
  exact h.step (by simp) (by simp [State.endable])

/-- LOCKOUT is entered within the room. -/
theorem Room.lockout {m : Nat} {r : FaultRecord} {s : State} (h : Room m r s) (hm : m ≤ 8) :
    Room m r (enterLockout true s) := by
  have pl : ∀ x : State, Room m r x → Room m r (postLockRecord x) := by
    intro x hx; exact hx.step (by simp) (by simp [State.endable])
  simp only [enterLockout, if_true]
  apply pl
  apply Room.reaches _ hm
  exact h.step (by simp) (by simp [State.endable])

/-- A HOLD-class fault takes one place for an older record. -/
theorem Room.raise {m : Nat} {r : FaultRecord} {s : State} (h : Room m r s) (hm : m ≤ 7) (code : FaultCode)
    (step : Option Nat) (d : Int) : Room (m + 1) r (raiseFault code .hold step d s) := by
  have fresh : ∀ l, Room m r (newHold l code.byte s) := fun l =>
    h.step (by simp [newHold]) (by simp [State.endable, newHold])
  have set : ∀ l, Room m r (setLevel l s) := fun l => h.step (by simp) (by simp [State.endable])
  simp only [raiseFault, reduceCtorEq, if_false]
  (repeat' split)
  · exact ((fresh _).note hm _ _ _ _).entry (by omega)
  · exact ((fresh _).note hm _ _ _ _).entry (by omega)
  · exact ((set _).note hm _ _ _ _).entry (by omega)
  · exact ((fresh _).note hm _ _ _ _).entry (by omega)
  · exact ((set _).note hm _ _ _ _).lockout (by omega)
  · exact h.note hm _ _ _ _

/-- A HOLD-class fault is recorded, with a place kept for the end of the own proposal. -/
theorem room_raised (code : FaultCode) (step : Option Nat) (d : Int) (s : State) :
    ∃ r, Room 2 r (raiseFault code .hold step d s) ∧ r.code = code.byte ∧ r.cls = .hold ∧ r.origin = s.own ∧
      r.step = step ∧ r.detail = sat32 d := by
  have put : ∀ t : State, t.own = s.own → ∃ r, Room 2 r (noteFault code .hold step d t) ∧ r.code = code.byte ∧
      r.cls = .hold ∧ r.origin = s.own ∧ r.step = step ∧ r.detail = sat32 d := by
    intro t ht
    refine ⟨t.recordOf code.byte .hold t.own step (sat32 d), ⟨?_, fun _ => by omega⟩, rfl, rfl, ht, rfl, rfl⟩
    rw [noteFault_faults]
    exact recentFault_mono (recentFault_append_self _ _) (by split <;> omega)
  have own1 : ∀ l, (newHold l code.byte s).own = s.own := fun l => by simp [State.own]
  have own2 : ∀ l, (setLevel l s).own = s.own := fun l => by simp [State.own]
  simp only [raiseFault, reduceCtorEq, if_false]
  (repeat' split)
  · obtain ⟨r, h, k⟩ := put _ (own1 _); exact ⟨r, h.entry (by omega), k⟩
  · obtain ⟨r, h, k⟩ := put _ (own1 _); exact ⟨r, h.entry (by omega), k⟩
  · obtain ⟨r, h, k⟩ := put _ (own2 _); exact ⟨r, h.entry (by omega), k⟩
  · obtain ⟨r, h, k⟩ := put _ (own1 _); exact ⟨r, h.entry (by omega), k⟩
  · obtain ⟨r, h, k⟩ := put _ (own2 _); exact ⟨r, h.lockout (by omega), k⟩
  · exact put _ rfl

/-- A hand-off records nothing and makes no proposal endable. -/
theorem Room.handOff {m : Nat} {r : FaultRecord} {s : State} (h : Room m r s) : Room m r (handOff s) := by
  have ps : ∀ x : State, Room m r x → Room m r (proposalSuccess x) := by
    intro x hx
    refine hx.step ?_ ?_
    · simp only [proposalSuccess, endProposal]; (repeat' split) <;> simp
    · simp only [proposalSuccess, endProposal, sightingUpdate]
      (repeat' split) <;> simp [State.endable]
  have ft : ∀ x : State, Room m r x → Room m r (flipTest x) := by
    intro x hx
    refine hx.step (by simp) ?_
    simp only [flipTest, postFlip]
    split
    · simp only [State.endable, postWrite_proposal, State.setCal_cal]
      cases x.cal.proposal <;> simp
    · exact id
  have st : ∀ x : State, Room m r x → Room m r (stageTest x) := by
    intro x hx
    refine hx.step (by simp) ?_
    simp only [stageTest]
    (repeat' split) <;> simp [State.endable]
  have su : ∀ x : State, Room m r x → Room m r (sightingUpdate x) := by
    intro x hx
    refine hx.step (by simp) ?_
    simp only [sightingUpdate]; split <;> simp [State.endable]
  simp only [Machine.handOff]
  apply ps; apply ft; apply st; apply su
  refine (h.step (t := entryTest s) (by simp) (by simp [State.endable])).step (by simp) (by simp [State.endable])

/-- The loss of a peer takes one place for an older record (R69, R198). -/
theorem Room.lost {m : Nat} {r : FaultRecord} {s : State} (h : Room m r s) (hm : m ≤ 7) (j : Station) (e : PeerEntry) :
    Room (m + 1) r (peerLost j e s) := by
  have raise : ∀ x : State, Room m r x → Room (m + 1) r (raisePeerLost j e x) := by
    intro x hx
    simp only [raisePeerLost]
    (repeat' split) <;> first | exact hx.raise hm _ _ _ | exact hx.mono (by omega)
  have hb : Room m r (bumpFree s) := h.step (by simp) (by simp [State.endable])
  simp only [peerLost]
  apply Room.handOff
  split
  · split
    · exact raise _ (hb.withdraw (by omega) 3)
    · exact (raise _ hb).withdraw (by omega) 3
  · exact raise _ h

/-- The loss of a peer in HOMING, READY and HALTED is recorded unless its record shows the closing flag (R69). -/
theorem room_lost (j : Station) (e : PeerEntry) (s : State)
    (hp : s.coord.phase = .homing ∨ s.coord.phase = .ready ∨ s.coord.phase = .halted)
    (hc : ∀ r, e.record = some r → r.closing = false) :
    ∃ r, Room 2 r (peerLost j e s) ∧ r.code = FaultCode.byte .peerLost ∧ r.cls = .hold ∧ r.origin = s.own ∧
      r.step = none ∧ r.detail = sat32 (j.val : Int) := by
  have raised : ∀ x : State, x.coord = s.coord → raisePeerLost j e x = raiseHold .peerLost (j.val : Int) x := by
    intro x hx
    have w : x.coord.phase.working = true := by rw [hx]; rcases hp with h | h | h <;> rw [h] <;> rfl
    simp only [raisePeerLost, w, Bool.true_and]
    cases he : e.record with
    | none => rfl
    | some q => simp [hc q he]
  have own : ∀ x : State, x.link.station = s.link.station → x.own = s.own := by intro x hx; simp [State.own, hx]
  simp only [peerLost]
  split
  · split
    · rw [raised _ (by simp)]
      obtain ⟨r, h, h1, h2, h3, h4⟩ := room_raised .peerLost none (j.val : Int) (withdrawProposal 3 (bumpFree s))
      exact ⟨r, h.handOff, h1, h2, by rw [h3]; exact own _ (by simp), h4⟩
    · rw [raised _ (by simp)]
      obtain ⟨r, h, h1, h2, h3, h4⟩ := room_raised .peerLost none (j.val : Int) (bumpFree s)
      exact ⟨r, (h.withdraw (by omega) 3).handOff, h1, h2, by rw [h3]; exact own _ (by simp), h4⟩
  · rw [raised _ rfl]
    obtain ⟨r, h, k⟩ := room_raised .peerLost none (j.val : Int) s
    exact ⟨r, h.handOff, k⟩

/-- Ageing a peer takes at most one place. -/
theorem Room.age {m : Nat} {r : FaultRecord} {s : State} (h : Room m r s) (hm : m ≤ 7) (j : Station) :
    Room (m + 1) r (agePeer j s) := by
  simp only [agePeer]
  (repeat' split)
  · exact (h.step (by simp) (by simp [State.endable])).lost hm _ _
  · exact (h.step (by simp) (by simp [State.endable])).mono (by omega)
  · exact h.mono (by omega)

@[simp] theorem agePeer_phase (j : Station) (s : State) : (agePeer j s).coord.phase = s.coord.phase := by
  simp only [agePeer, peerLost]; (repeat' split) <;> simp

/-- Ageing the stations of a list, the own one passed over. -/
def ageList (l : List Station) (s : State) : State := l.foldl (fun s j => if j = s.own then s else agePeer j s) s

theorem ageList_keeps (l : List Station) (s : State) : (ageList l s).link.station = s.link.station ∧
    (ageList l s).port.config = s.port.config ∧ (ageList l s).coord.phase = s.coord.phase := by
  induction l generalizing s with
  | nil => exact ⟨rfl, rfl, rfl⟩
  | cons a l ih =>
    obtain ⟨h1, h2, h3⟩ := ih (if a = s.own then s else agePeer a s)
    rw [ageList, List.foldl_cons]
    refine ⟨h1.trans ?_, h2.trans ?_, h3.trans ?_⟩ <;> split <;> simp

/-- Ageing the stations of a list takes at most one place for each of the others. -/
theorem Room.ages {m : Nat} {r : FaultRecord} (l : List Station) (s : State) (h : Room m r s)
    (hm : m + (l.filter fun j => decide (j ≠ s.own)).length ≤ 8) :
    Room (m + (l.filter fun j => decide (j ≠ s.own)).length) r (ageList l s) := by
  induction l generalizing m s with
  | nil => exact h
  | cons a l ih =>
    rw [ageList, List.foldl_cons]
    by_cases ha : a = s.own
    · have e : ((a :: l).filter fun j => decide (j ≠ s.own)) = l.filter fun j => decide (j ≠ s.own) := by simp [ha]
      rw [if_pos ha, e]; rw [e] at hm; exact ih s h hm
    · have e : ((a :: l).filter fun j => decide (j ≠ s.own)).length = (l.filter fun j => decide (j ≠ s.own)).length + 1 := by
        simp [ha]
      rw [e] at hm ⊢
      have o : (agePeer a s).own = s.own := by simp [State.own]
      rw [if_neg ha]
      have := ih (agePeer a s) (h.age (by omega) a) (by rw [o]; omega)
      rw [o] at this
      exact this.mono (by omega)

/-- Every peer lost at the end of a CYCLE_PERIOD in LISTENING has its PEER_LOST in the fault list (R68, R69, R157). -/
theorem ageAll_lost (s : State) (j : Station) (hj : j ≠ s.own) (ha : (s.peers.get j).loss = .active)
    (hl : s.cfg.peerLossLimit ≤ min 255 ((s.peers.get j).silence + 1))
    (hp : s.coord.phase = .homing ∨ s.coord.phase = .ready ∨ s.coord.phase = .halted)
    (hc : ∀ r, (s.peers.get j).record = some r → r.closing = false) :
    ∃ r, r ∈ (ageAll s).hold.faults ∧ r.code = FaultCode.byte .peerLost ∧ r.cls = .hold ∧ r.origin = s.own ∧
      r.step = none ∧ r.detail = sat32 (j.val : Int) := by
  have hm : ∀ k : Station, k ∈ stations := by decide
  obtain ⟨pre, post, e⟩ := List.append_of_mem (hm j)
  have nd : (pre ++ j :: post).Nodup := by rw [← e]; decide
  have cnt : ((pre ++ j :: post).filter fun k => decide (k ≠ s.own)).length = 7 := by
    rw [← e]; generalize s.own = o; revert o; decide
  rw [List.filter_append, List.filter_cons, if_pos (by simpa using hj), List.length_append, List.length_cons] at cnt
  have run : ageAll s = ageList post (agePeer j (ageList pre s)) := by
    show List.foldl _ s stations = _
    rw [e, List.foldl_append, List.foldl_cons]
    show ageList post (if j = (ageList pre s).own then ageList pre s else agePeer j (ageList pre s)) = _
    rw [if_neg (by rw [State.own, (ageList_keeps pre s).1]; exact hj)]
  obtain ⟨k1, k2, k3⟩ := ageList_keeps pre s
  have np : j ∉ pre := fun h => by
    rw [List.nodup_append] at nd
    exact (nd.2.2 j h j List.mem_cons_self) rfl
  have pg : (ageList pre s).peers.get j = s.peers.get j := by
    have := ageFold_peers pre s (List.nodup_append.1 nd).1 j
    rw [if_neg (fun h => np h.1)] at this
    exact this
  have cf : (ageList pre s).cfg = s.cfg := by unfold State.cfg; rw [k2]
  have ow : (ageList pre s).own = s.own := by unfold State.own; rw [k1]
  rw [run]
  generalize ageList pre s = u at *
  have step : agePeer j u = peerLost j (u.peers.get j) (u.setPeers (vput u.peers j
      { u.peers.get j with loss := .lost, silence := min 255 ((u.peers.get j).silence + 1) })) := by
    simp only [agePeer, pg]; rw [if_pos ha, if_pos (by rw [cf]; exact hl)]
  have got : ∃ r, Room 2 r (agePeer j u) ∧ r.code = FaultCode.byte .peerLost ∧ r.cls = .hold ∧ r.origin = s.own ∧
      r.step = none ∧ r.detail = sat32 (j.val : Int) := by
    rw [step, ← ow]
    exact room_lost j _ _ (by rw [← k3] at hp; exact hp) (by rw [pg]; exact hc)
  obtain ⟨r, h, k⟩ := got
  have ow' : (agePeer j u).own = s.own := by rw [← ow]; simp [State.own]
  have := Room.ages post (agePeer j u) h (by rw [ow']; omega)
  exact ⟨r, this.mem, k⟩

end Sys2Proof.Machine
end

