-- ==== Sys2Proof/Laws/Recovery.lean ====
section
/-! SUPPORT. The newest number of a list, as the agreed stop uses it. -/

set_option linter.unusedSimpArgs false

namespace Sys2Proof.Machine

/-- The newest of a list by serial comparison (R80, R119). -/
theorem newest16_of (l : List (BitVec 16)) (a : BitVec 16) (ha : a ∈ l) (h : ∀ b ∈ l, b = a ∨ serialNewer a b = true) : newest16 l = some a := by
  have as : ∀ a b : BitVec 16, serialNewer a b = true → serialNewer b a = false := by
    intro a b h
    simp only [serialNewer, Bool.and_eq_true, decide_eq_true_eq, Bool.and_eq_false_iff, decide_eq_false_iff_not, BitVec.toNat_sub] at *
    have := a.isLt; have := b.isLt
    omega
  have hn : newestOf l = some a := by
    cases hf : newestOf l with
    | none =>
      simp only [newestOf, List.find?_eq_none] at hf
      exfalso; apply hf a ha
      rw [List.all_eq_true]; intro b hb
      rcases h b hb with rfl | hb
      · simp [serialNewer]
      · rw [as _ _ hb]; rfl
    | some x =>
      simp only [newestOf] at hf
      have hx := List.mem_of_find?_eq_some hf
      have hp := List.find?_some hf
      rcases h x hx with rfl | hb
      · rfl
      · have := List.all_eq_true.1 hp a ha; rw [hb] at this; cases this
  have : l.isEmpty = false := by cases l <;> simp_all
  simp [newest16, this, hn]

/-- The newest of a list by serial comparison, 32 bits (R119). -/
theorem newest32_of (l : List (BitVec 32)) (a : BitVec 32) (ha : a ∈ l) (h : ∀ b ∈ l, b = a ∨ serialNewer a b = true) : newest32 l = some a := by
  have as : ∀ a b : BitVec 32, serialNewer a b = true → serialNewer b a = false := by
    intro a b h
    simp only [serialNewer, Bool.and_eq_true, decide_eq_true_eq, Bool.and_eq_false_iff, decide_eq_false_iff_not, BitVec.toNat_sub] at *
    have := a.isLt; have := b.isLt
    omega
  have hn : newestOf l = some a := by
    cases hf : newestOf l with
    | none =>
      simp only [newestOf, List.find?_eq_none] at hf
      exfalso; apply hf a ha
      rw [List.all_eq_true]; intro b hb
      rcases h b hb with rfl | hb
      · simp [serialNewer]
      · rw [as _ _ hb]; rfl
    | some x =>
      simp only [newestOf] at hf
      have hx := List.mem_of_find?_eq_some hf
      have hp := List.find?_some hf
      rcases h x hx with rfl | hb
      · rfl
      · have := List.all_eq_true.1 hp a ha; rw [hb] at this; cases this
  have : l.isEmpty = false := by cases l <;> simp_all
  simp [newest32, this, hn]

end Sys2Proof.Machine
end

