-- ==== Sys2Proof/Laws/Slots.lean ====
section
/-! SUPPORT. The evaluations at the own slot: the agreement of GATHERING, the claim and its end in RECOVERING, the scan of
HOMING, and the write requests they leave waiting. -/

set_option linter.unusedSimpArgs false

namespace Sys2Proof.Machine

/-- OWN_SLOT_START once its slot has begun (R57). -/
theorem exec_ownSlotStart (dt : Time) (s : State) (h : s.running = true) (hl : s.link.state = .synced ∨ s.link.state = .alone)
    (ht : s.link.cycleStart + (s.own.val : Rat) * ((s.cfg.cyclePeriod * 1000000 : Nat) / 8) ≤ ((s.now + dt : Nat) : Rat)) :
    exec (.ownSlotStart dt) s = .next (ownSlot (advance dt s)) := by
  have h1 : (advance dt s).linkTimed = true := linkTimed_on _ h hl
  have h2 : (advance dt s).reached ((advance dt s).slotStart (advance dt s).own.val) = true := decide_eq_true ht
  simp only [exec, execOwnSlotStart, h1, h2]; rfl

/-- The stations of the arm. -/
theorem mem_arm (s : State) (j : Station) : j ∈ s.arm ↔ j.val < s.cfg.armSize := by
  have : ∀ k : Station, k ∈ stations := by decide
  simp [State.arm, this]

/-- A classification leaves the own claim. -/
theorem reclassify_own (s : State) : (reclassify s).coord.ownClaim = s.coord.ownClaim := by
  simp only [reclassify, raiseDrift]
  (repeat' split) <;> simp_all [raiseFault_coord, dispositionClass_ne]

/-- The claim built is LIVE while journal-active is true, and JOURNAL else; the phase is left (R80, R112). -/
theorem buildClaim_own (s : State) : (buildClaim s).coord.ownClaim = some (if s.coord.journalActive = true then liveClaim else s.journalClaim) ∧
    (buildClaim s).coord.phase = s.coord.phase := by
  have sn : ∀ x : State, (startNotes x).coord.ownClaim = x.coord.ownClaim ∧ (startNotes x).coord.phase = x.coord.phase := by
    intro x; simp only [startNotes]; (repeat' split) <;> simp
  simp only [buildClaim]
  constructor
  · (repeat' split) <;> simp_all [reclassify_own, sn]
  · (repeat' split) <;> simp_all [sn]

/-- Every record of the arm the station has shows its own digests or has moved on, with its own committed generation
(R74, R76, R77). -/
def State.showAgreement (s : State) : Prop :=
  ∀ (j : Station) (x : StatusRecord), j.val < s.cfg.armSize → s.armRecord j = some x → x.committed = s.cal.generation
    ∧ (x.movedOn = true ∨ ∃ d g a b, x.block = .gather d g a b ∧ s.plan.digest = some d ∧ s.port.configDigest = some g)

/-- An evaluation over such records finds no fault but that of R78 (R76, R77, R78). -/
theorem gatherFault_of (s : State) (h : s.showAgreement) (hown : s.own.val < s.cfg.armSize) :
     s.gatherFault = if s.coord.verdictTested then none
      else s.coord.verdict.map fun i => (.planInvalid, (i : Int)) := by
  have am : ∀ x ∈ s.armRecords, x.1.val < s.cfg.armSize ∧ s.armRecord x.1 = some x.2 := by
    intro x hx
    simp only [State.armRecords, List.mem_filterMap, Option.map_eq_some_iff] at hx
    obtain ⟨j, hj, r, hr, rfl⟩ := hx
    exact ⟨(mem_arm s j).1 hj, hr⟩
  have d : s.armRecords.findSome? s.digestFault = none := by
    rw [List.findSome?_eq_none_iff]
    intro x hx
    obtain ⟨h1, h2⟩ := am x hx
    rcases (h x.1 x.2 h1 h2).2 with hm | ⟨pd, g, a, b, e1, e2, e3⟩
    · simp only [State.digestFault]
      split
      · rename_i e; simp [StatusRecord.movedOn, e] at hm
      · rfl
    · simp [State.digestFault, e1, e2, e3]
  have hi : highestCommitted s.armRecords = s.cal.generation.toNat := by
    have fold : ∀ (l : List (Station × StatusRecord)) (a : Nat), (∀ x ∈ l, x.2.committed = s.cal.generation) →
        l.foldl (fun a x => max a x.2.committed.toNat) a = if l = [] then a else max a s.cal.generation.toNat := by
      intro l
      induction l with
      | nil => intros; rfl
      | cons y l ih =>
        intro a hl
        rw [List.foldl_cons, ih _ (fun x hx => hl x (List.mem_cons_of_mem _ hx)), hl y List.mem_cons_self]
        simp only [reduceCtorEq, if_false]
        split <;> omega
    have ne : s.armRecords ≠ [] := by
      have : (s.own, s.packRecord) ∈ s.armRecords := by
        simp only [State.armRecords, List.mem_filterMap, Option.map_eq_some_iff]
        exact ⟨s.own, (mem_arm s _).2 hown, s.packRecord, by simp [State.armRecord], rfl⟩
      intro hh; rw [hh] at this; cases this
    rw [highestCommitted, fold _ _ (fun x hx => (h x.1 x.2 (am x hx).1 (am x hx).2).1), if_neg ne]; omega
  have u : (s.armRecords.find? fun x => x.2.unresolvable (highestCommitted s.armRecords)) = none := by
    rw [List.find?_eq_none]
    intro x hx
    rw [hi]
    simp only [StatusRecord.unresolvable, (h x.1 x.2 (am x hx).1 (am x hx).2).1]
    simp
  simp only [State.gatherFault, d, u]

/-- Over such records the agreement condition is that every entry of the arm is ACTIVE (R74). -/
theorem agreement_of (s : State) (h : s.showAgreement) :
     (s.agreement = true ↔ ∀ j : Station, j.val < s.cfg.armSize → s.armRecord j ≠ none) := by
  have am : ∀ x ∈ s.armRecords, x.1.val < s.cfg.armSize ∧ s.armRecord x.1 = some x.2 := by
    intro x hx
    simp only [State.armRecords, List.mem_filterMap, Option.map_eq_some_iff] at hx
    obtain ⟨j, hj, r, hr, rfl⟩ := hx
    exact ⟨(mem_arm s j).1 hj, hr⟩
  simp only [State.agreement, List.all_eq_true, mem_arm]
  constructor
  · intro hh j hj he
    have := hh j hj
    rw [he] at this; cases this
  · intro hh j hj
    cases he : s.armRecord j with
    | none => exact absurd he (hh j hj)
    | some r =>
      obtain ⟨h1, h2⟩ := h j r hj he
      simp only [Bool.and_eq_true, List.all_eq_true, decide_eq_true_eq]
      refine ⟨?_, fun x hx => by rw [(h x.1 x.2 (am x hx).1 (am x hx).2).1, h1]⟩
      rcases h2 with hm | ⟨pd, g, a, b, e1, e2, e3⟩
      · simp only [State.agreesOn]
        split
        · rename_i e; simp [StatusRecord.movedOn, e] at hm
        · exact hm
      · simp [State.agreesOn, e1, e2, e3]

/-- The agreed run by the arm's records. -/
theorem agreedRun_spec (s : State) (view : Station → StatusRecord) (hv : ∀ j : Station, j.val < s.cfg.armSize → s.armRecord j = some (view j)) :
    (∀ j : Station, j.val < s.cfg.armSize → (view j).movedOn = true →
       (∀ k : Station, k.val < j.val → (view k).movedOn = false) → s.agreedRun = (view j).run) ∧
    ((∀ j : Station, j.val < s.cfg.armSize → (view j).movedOn = false) → ∀ j : Station, j.val < s.cfg.armSize →
        (∀ k : Station, k.val < s.cfg.armSize → (view k).run = (view j).run ∨ serialNewer (view j).run (view k).run = true) →
        s.agreedRun = if (view j).run + 1 = 0 then 1 else (view j).run + 1) := by
  have ar : s.armRecords = s.arm.map fun j => (j, view j) := by
    simp only [State.armRecords]
    have : ∀ l : List Station, (∀ j ∈ l, j.val < s.cfg.armSize) → l.filterMap (fun j => (s.armRecord j).map fun r => (j, r)) = l.map fun j => (j, view j) := by
      intro l hl
      induction l with
      | nil => rfl
      | cons a l ih =>
        rw [List.filterMap_cons, hv a (hl a List.mem_cons_self), List.map_cons, ih (fun j hj => hl j (List.mem_cons_of_mem _ hj))]
        rfl
    exact this _ (fun j hj => (mem_arm s j).1 hj)
  constructor
  · intro j hj hm hlow
    have : (s.armRecords.find? fun x => x.2.movedOn) = some (j, view j) := by
      rw [ar, List.find?_map]
      have : s.arm.find? ((fun x : Station × StatusRecord => x.2.movedOn) ∘ fun j => (j, view j)) = some j := by
        simp only [State.arm]
        rw [List.find?_filter, List.find?_eq_some_iff_append]
        refine ⟨by simp [hm, hj], stations.take j.val, stations.drop (j.val + 1), ?_, ?_⟩
        · have : ∀ j : Station, stations = stations.take j.val ++ j :: stations.drop (j.val + 1) := by decide
          exact this j
        · intro k hk
          have : k.val < j.val := by
            have : ∀ (j k : Station), k ∈ stations.take j.val → k.val < j.val := by decide
            exact this j k hk
          simp [hlow k this]
      rw [this]; rfl
    simp only [State.agreedRun, this]
  · intro hm j hj hn
    have : (s.armRecords.find? fun x => x.2.movedOn) = none := by
      rw [List.find?_eq_none, ar]
      intro x hx
      obtain ⟨k, hk, rfl⟩ := List.mem_map.1 hx
      simp [hm k ((mem_arm s k).1 hk)]
    have nw : newest16 (s.armRecords.map fun x => x.2.run) = some (view j).run := by
      apply newest16_of
      · rw [ar, List.map_map]; exact List.mem_map.2 ⟨j, (mem_arm s j).2 hj, rfl⟩
      · intro b hb
        rw [ar, List.map_map] at hb
        obtain ⟨k, hk, rfl⟩ := List.mem_map.1 hb
        exact hn k ((mem_arm s k).1 hk)
    simp only [State.agreedRun, this, nw, Option.getD_some]

/-- A request that is pending or in flight stays so when another is posted (R91). -/
theorem busy_posted (k : WriteKind) (r : WriteRequest) (s : State) (h : s.store.busyWith k = true) :
    (postWrite r s).store.busyWith k = true := by
  have add : (addPending r s).store.busyWith k = true := by
    simp only [Store.busyWith, Bool.or_eq_true] at h ⊢
    rcases h with h | h
    · by_cases e : r.kind.place = k.place
      · left; simp [Store.isPending, addPending, e]
      · left; simp only [Store.isPending, addPending, State.setStore_store, vput_get, if_neg e] at h ⊢; exact h
    · right; exact h
  simp only [postWrite]
  split
  · exact h
  · split
    · rename_i hn
      simp only [Bool.and_eq_true, Option.isNone_iff_eq_none] at hn
      have := (nextPending_none s.store).1 hn.2 k
      simp [Store.busyWith, Store.inFlight, this, hn.1] at h
    · exact add

/-- The removal of another kind's pending request leaves a request pending or in flight (R91). -/
theorem busy_dropped (k j : WriteKind) (s : State) (hj : j ≠ k) (h : s.store.busyWith k = true) :
    (dropPending j s).store.busyWith k = true := by
  simp only [Store.busyWith, Bool.or_eq_true] at h ⊢
  rcases h with h | h
  · left
    have e : j.place ≠ k.place := fun hh => hj (WriteKind.place_inj hh)
    simp only [Store.isPending, dropPending, State.setStore_store, vput_get, if_neg e] at h ⊢; exact h
  · right; exact h

/-- What keeps the port and the pending set keeps a request pending or in flight. -/
theorem busy_of {k : WriteKind} {a b : Store} (h : a.busyWith k = true) (hp : b.port = a.port) (hq : b.pending = a.pending) :
    b.busyWith k = true := by
  simpa only [Store.busyWith, Store.isPending, Store.inFlight, hp, hq] using h

/-- The test of an entry leaves a request pending or in flight, ROUTINE apart (R102, R170). -/
theorem entryTest_busy (k : WriteKind) (s : State) (k1 : k ≠ .routine) (h : s.store.busyWith k = true) :
    (entryTest s).store.busyWith k = true := by
  simp only [entryTest]
  split
  · split
    · simp only [orderlyLatch]
      split
      · apply busy_posted
        refine busy_of (busy_dropped k .routine s (Ne.symm k1) h) ?_ ?_ <;> simp [noteLatch, dropPending]
      · exact busy_of h (by simp) (by simp)
    · exact busy_of h (by simp) (by simp)
  · exact h

/-- A fault of a class other than ABORT leaves a request pending or in flight, ROUTINE and LOCK_CLEAR apart
(R102, R107). -/
theorem raiseFault_busy (k : WriteKind) (code : FaultCode) (cls : FaultClass) (step : Option Nat) (d : Int) (s : State) (hc : cls ≠ .abort)
    (k1 : k ≠ .routine) (k2 : k ≠ .lockClear)
    (h : s.store.busyWith k = true) : (raiseFault code cls step d s).store.busyWith k = true := by
  have keep : ∀ t : State, t.store.busyWith k = true → (holdReaches t).store.busyWith k = true := by
    intro t ht; exact busy_of ht (by simp [holdReaches]) (by simp [holdReaches])
  apply raiseFault_cases (fun t => t.store.busyWith k = true) _ _ _ _ _ hc h
  · intro t ht; simpa using ht
  · intro l t ht
    refine busy_of ht ?_ ?_ <;>
    · simp only [newHold, setCause, setLevel, changeSeq]; (repeat' split) <;> simp
  · intro l t ht; simpa using ht
  · intro t ht
    simp only [beginEntry]
    exact entryTest_busy k _ k1 (keep _ (by simpa using ht))
  · intro t ht
    simp only [enterLockout, if_true, postLockRecord]
    apply busy_posted
    refine busy_of (busy_dropped k .lockClear _ (Ne.symm k2) (keep (writeOrder (.stop .hold) ((setComplete false t).setHold
      { (setComplete false t).hold with deadline := none })) (by simpa using ht))) ?_ ?_ <;> simp [dropPending]

/-- A hand-off leaves a request pending or in flight, ROUTINE apart (R70, R102). -/
theorem handOff_busy (k : WriteKind) (s : State) (h : s.store.busyWith k = true) (k1 : k ≠ .routine) : (handOff s).store.busyWith k = true := by
  have a : ∀ x : State, x.store.busyWith k = true → (proposalSuccess x).store.busyWith k = true := by
    intro x hx; exact busy_of hx (by simp) (by simp)
  have b : ∀ x : State, x.store.busyWith k = true → (flipTest x).store.busyWith k = true := by
    intro x hx; simp only [flipTest]; split
    · exact busy_posted _ _ _ hx
    · exact hx
  have c : ∀ x : State, x.store.busyWith k = true → (stageTest x).store.busyWith k = true := by
    intro x hx; simp only [stageTest]; split
    · exact hx
    · split
      · exact busy_posted _ _ _ hx
      · exact hx
  simp only [handOff]
  apply a; apply b; apply c
  exact busy_of (entryTest_busy k _ k1 h) (by simp) (by simp)

/-- What follows the evaluation of an own slot leaves a request pending or in flight, ROUTINE apart (R57). -/
theorem ownSlot_busy (k : WriteKind) (s : State) (h : (slotEvaluation s).store.busyWith k = true) (k1 : k ≠ .routine) : (ownSlot s).store.busyWith k = true := by
  have sp : (slotPacked s.claimKept (slotEvaluation s)).store.busyWith k = true := by
    simp only [slotPacked, packAndRefresh]
    apply handOff_busy _ _ _ k1
    refine busy_of h ?_ ?_ <;>
    · simp only [notePacking, refreshOwn, noteClaimSent]; (repeat' split) <;> simp
  rw [ownSlot_parts]; split <;> exact sp

/-- Building the claim leaves a request pending or in flight, ROUTINE and LOCK_CLEAR apart (R112). -/
theorem buildClaim_busy (k : WriteKind) (s : State) (h : s.store.busyWith k = true) (k1 : k ≠ .routine) (k2 : k ≠ .lockClear) : (buildClaim s).store.busyWith k = true := by
  have rc : ∀ x : State, x.store.busyWith k = true → (reclassify x).store.busyWith k = true := by
    intro x hx
    simp only [reclassify, raiseDrift]
    split
    · exact hx
    · split
      · exact raiseFault_busy _ _ _ _ _ _ (dispositionClass_ne _) k1 k2 hx
      · exact hx
  simp only [buildClaim]
  (repeat' split) <;> first | (apply rc; exact busy_of h (by simp) (by simp)) | exact busy_of h (by simp) (by simp)

/-- What the initial-state claim leaves, by the class the station holds (R21, R125). -/
theorem initialStateClaim_spec (s : State) :
    (initialStateClaim s).engine.parked = false ∧
    (s.coord.confidence = .kept →
      (initialStateClaim s).engine.refState = .referenced ∧ (initialStateClaim s).standby = s.standby) ∧
    (s.coord.confidence = .doubtful →
      (initialStateClaim s).engine.refState = .unreferenced ∧ (initialStateClaim s).standby = s.standby) ∧
    (s.coord.confidence = .live →
      (initialStateClaim s).engine.refState = s.engine.refState ∧ (initialStateClaim s).standby = s.standby) ∧
    (∀ p, s.coord.confidence = .journalled → s.coord.tailParts = some p → s.sensing.settling = false →
      (initialStateClaim s).engine.refState = .provisional ∧
      (initialStateClaim s).standby = { s.standby with
        counter := p.position + BitVec.ofInt 40 (-(s.cal.trim - p.trim.toInt)), continuity := true, error := .none }) := by
  have pk : ∀ z : State, z.engine.parked = false → parkedCheck z = z := by
    intro z hz; simp only [parkedCheck, hz, Bool.false_and]; rfl
  simp only [initialStateClaim, State.setEngine_coord]
  cases hc : s.coord.confidence with
  | none => simp
  | kept => simp
  | doubtful => simp
  | live => simp
  | journalled =>
    cases hp : s.coord.tailParts with
    | none => simp
    | some q =>
      cases hs : s.sensing.settling with
      | true => simp [setClaimNow, hs]
      | false =>
        simp only [setClaimNow, State.setEngine_sensing, hs, Bool.false_eq_true, if_false, applySet, moveCounter]
        rw [pk _ (by simp)]
        refine ⟨by simp, by simp, by simp, by simp, ?_⟩
        intro p _ hq _
        injection hq with hq; subst hq
        refine ⟨by simp, ?_⟩
        simp only [State.setEngine_standby, State.setSensing_standby, State.setStandby_standby]
        congr 1
        rw [shift_claim]
        simp only [State.loadValue, BitVec.ofInt_toInt]; rfl

/-- The end finding does nothing while an own step is unresolved (R152). -/
theorem endFinding_none (x : State) (i : Nat) (r : StepRecord) (h : x.plan.steps[i]? = some r) (hi : r.index = i) (ho : r.owner = x.own)
    (hs : ∀ st, x.plan.status i = some st → st.resolved = false) : endFinding x = x := by
  have : x.plan.steps.all x.stepResolved = false := by
    rw [List.all_eq_false]
    refine ⟨r, List.mem_of_getElem? h, ?_⟩
    simp only [State.stepResolved, ho, if_true, hi]
    split
    · rename_i st hst; simp [hs st hst]
    · simp
  simp only [endFinding, this, Bool.false_and]; rfl

/-- The scan passes over steps that are not own PENDING ones (R137). -/
theorem scan_past (s : State) (l l' : List StepRecord) (hl : ∀ x ∈ l, x.owner = s.own → s.plan.status x.index ≠ some .pending) :
    scanFrom s (l ++ l') = scanFrom s l' := by
  induction l with
  | nil => rfl
  | cons a l ih =>
    have := hl a List.mem_cons_self
    have hf : (decide (a.owner = s.own) && decide (s.plan.status a.index = some .pending) && s.eligible a) = false := by
      by_cases hao : a.owner = s.own
      · simp [this hao]
      · simp [hao]
    simp only [List.cons_append, scanFrom, hf]
    exact ih (fun x hx => hl x (List.mem_cons_of_mem _ hx))

/-- The scan claims the first own PENDING step when it is eligible and neither skipped nor a WAIT_ALL (R137, R138). -/
theorem scan_first (s : State) (i : Nat) (r : StepRecord) (hi : r.index = i) (ho : r.owner = s.own) (hp : s.plan.status i = some .pending)
    (he : s.eligible r = true) (hd : s.dealWith r = some .claiming) (l l' : List StepRecord)
    (hl : ∀ x ∈ l, x.owner = s.own → s.plan.status x.index ≠ some .pending) : scanFrom s (l ++ r :: l') = claimStep i s := by
  rw [scan_past s l _ hl]
  simp only [scanFrom, ho, hi, hp, he, hd, decide_true, Bool.and_self, if_true]

end Sys2Proof.Machine
end

