-- ==== Sys2Proof/Laws/Homing.lean ====
section
/-! SUPPORT. The evaluation of HOMING: its stages, what a scan reaches, and that a resolved step stays resolved. -/

set_option linter.unusedSimpArgs false

namespace Sys2Proof.Machine

/-- The evaluation of HOMING at level NONE in a state that sends (R136). -/
theorem slotEvaluation_homing (u : State) (hp : u.coord.phase = .homing) (ho : u.planOpen = true) :
    slotEvaluation u = planStage endFinding (planStage grantAndScan (yieldTest u)) := by
  simp only [slotEvaluation, hp, planEvaluation]
  rw [show planStage yieldTest u = yieldTest u from by simp only [planStage, ho, if_true]]

/-- A stage that does nothing leaves the state. -/
theorem planStage_id (f : State → State) (x : State) (h : f x = x) : planStage f x = x := by
  simp only [planStage, h]; split <;> rfl

/-- With a step RUNNING the rest of the evaluation does nothing (R136, R152). -/
theorem running_waits (x : State) (i : Nat) (r : StepRecord) (hc : x.plan.claim = some i) (h : x.plan.steps[i]? = some r) (hi : r.index = i)
    (ho : r.owner = x.own) (hs : x.plan.status i = some .running) : planStage endFinding (planStage grantAndScan x) = x := by
  have cs : x.claimedStep = some r := by simp only [State.claimedStep, hc]; exact h
  have g : grantAndScan x = x := by
    simp only [grantAndScan, cs, hi, hs]; rfl
  rw [planStage_id _ _ g]
  apply planStage_id
  apply endFinding_none x i r h hi ho
  intro st hst
  rw [hs] at hst; injection hst with hst; rw [← hst]; rfl

/-- A step is DONE or SKIPPED in a state. -/
def State.isResolved (s : State) (i : Nat) (st : StepStatus) : Prop := s.plan.status i = some st ∧ st.resolved = true

/-- A report ended by a hold leaves a resolved step (R145). -/
theorem planHeld_resolved (o : Option Nat) (i : Nat) (st : StepStatus) (s : State) (h : s.isResolved i st) :
    (planHeld o s).isResolved i st := by
  obtain ⟨h, hr⟩ := h
  refine ⟨?_, hr⟩
  simp only [planHeld]
  split
  · exact h
  · rename_i j
    split
    · rename_i hj
      have ne : j ≠ i := by
        intro e; subst e; rw [hj] at h; injection h with h; subst h; cases hr
      have key : ∀ f, ((s.plan.table.modify j f)[i]?).map (·.status) = some st := by
        intro f; rw [List.getElem?_modify_ne _ _ ne]; exact h
      split <;> exact key _
    · exact h

/-- A hold at the engine leaves a resolved step (R39, R46, R145). -/
theorem engineHold_resolved (i : Nat) (st : StepStatus) (s : State) (h : s.isResolved i st) : (engineHold s).isResolved i st := by
  have of : ∀ t : State, t.plan.table = s.plan.table → t.isResolved i st := by
    intro t ht; refine ⟨?_, h.2⟩
    rw [Plan.status, ht]; exact h.1
  simp only [engineHold]
  split
  · exact h
  · exact planHeld_resolved _ _ _ _ (of _ rfl)
  · split
    · exact h
    · split
      · split
        · exact planHeld_resolved _ _ _ _ (of _ (seekFinish_frame _ _).1)
        · exact of _ rfl
      · exact h
      · exact of _ rfl
  · split
    · exact h
    · split
      · apply of
        simp only [surveyReturn]
        split <;> simp [surveyFinish, (operationEnded_frame _).1]
      · exact of _ rfl

/-- The steps of HOLD leave a resolved step (R149). -/
theorem holdReaches_resolved (i : Nat) (st : StepStatus) (s : State) (h : s.isResolved i st) : (holdReaches s).isResolved i st := by
  have e := engineHold_resolved i st s h
  simp only [holdReaches]
  generalize engineHold s = u at e
  have p : (planHold u).isResolved i st := by
    obtain ⟨e1, e2⟩ := e
    refine ⟨?_, e2⟩
    simp only [planHold]
    split
    · exact e1
    · simp only [Plan.status, State.setPlan_plan, List.getElem?_map] at e1 ⊢
      cases hx : u.plan.table[i]? with
      | none => rw [hx] at e1; cases e1
      | some x =>
        rw [hx] at e1
        simp only [Option.map_some, Option.some.injEq] at e1 ⊢
        simp only [StepState.unclaim]
        split
        · rename_i hc; rw [e1] at hc; subst hc; cases e2
        · exact e1
  have of : ∀ t : State, t.plan.table = (planHold u).plan.table → t.isResolved i st := by
    intro t ht; refine ⟨?_, p.2⟩
    rw [Plan.status, ht]; exact p.1
  apply of
  have nd : ∀ x : State, (noteDropMotion x).plan.table = x.plan.table := by
    intro x; simp only [noteDropMotion]; split <;> rfl
  rw [show ∀ (d : Int) (x : State), (withdrawProposal d x).plan = x.plan from fun d x => by simp, nd]
  simp

/-- The plan abandoned leaves a resolved step (R150). -/
theorem setPhase_halted_resolved (i : Nat) (st : StepStatus) (s : State) (h : s.isResolved i st) : (setPhase .halted s).isResolved i st := by
  by_cases hp : s.coord.phase = .halted
  · simp only [setPhase, if_pos hp]; exact h
  · rw [setPhase_parts _ _ hp, if_pos rfl]
    have pb : (s.phaseBegun .halted).plan = s.plan := by
      simp only [State.phaseBegun]; split <;> simp
    obtain ⟨e1, e2⟩ := h
    refine ⟨?_, e2⟩
    show (((s.phaseBegun .halted).plan.table.map StepState.abandon)[i]?).map (·.status) = _
    rw [pb, List.getElem?_map]
    simp only [Plan.status] at e1
    cases hx : s.plan.table[i]? with
    | none => rw [hx] at e1; cases e1
    | some x =>
      rw [hx] at e1
      simp only [Option.map_some, Option.some.injEq] at e1 ⊢
      simp only [StepState.abandon]
      split
      · rename_i hc; rw [e1] at hc; rcases hc with hc | hc <;> subst hc <;> cases e2
      · exact e1

/-- A fault leaves a resolved step, whatever its class (R153, R160). -/
theorem raiseFault_resolved (code : FaultCode) (cls : FaultClass) (step : Option Nat) (d : Int) (i : Nat) (st : StepStatus) (s : State)
    (h : s.isResolved i st) : (raiseFault code cls step d s).isResolved i st := by
  have of : ∀ t u : State, t.plan = u.plan → u.isResolved i st → t.isResolved i st := by
    intro t u ht hu; refine ⟨?_, hu.2⟩
    rw [ht]; exact hu.1
  have et : ∀ t : State, (entryTest t).plan = t.plan := fun t => by simp
  have pl : ∀ t : State, (postLockRecord t).plan = t.plan := fun t => by simp
  have b : ∀ t : State, t.isResolved i st → (beginEntry t).isResolved i st := by
    intro t ht
    simp only [beginEntry]
    refine of _ _ (et _) (holdReaches_resolved _ _ _ ?_)
    exact of _ t (by simp) ht
  have l : ∀ t : State, t.isResolved i st → (enterLockout true t).isResolved i st := by
    intro t ht
    simp only [enterLockout, if_true]
    refine of _ _ (pl _) (holdReaches_resolved _ _ _ ?_)
    exact of _ t (by simp) ht
  have n : ∀ t : State, t.isResolved i st → (noteFault code cls step d t).isResolved i st := fun t ht => of _ t (by simp) ht
  have w : ∀ (l : HoldLevel) (t : State), t.isResolved i st → (newHold l code.byte t).isResolved i st := fun l t ht => of _ t (by simp [newHold]) ht
  have v : ∀ (l : HoldLevel) (t : State), t.isResolved i st → (setLevel l t).isResolved i st := fun l t ht => of _ t (by simp) ht
  have hh : ∀ t : State, t.isResolved i st → (haltPhase t).isResolved i st := by
    intro t ht; simp only [haltPhase]
    split <;> first | exact setPhase_halted_resolved i st t ht | exact ht
  cases cls <;> simp only [raiseFault, reduceCtorEq, if_false, if_true] <;> first | exact n _ h | skip
  · cases hl : s.hold.level <;> simp only []
    · exact b _ (n _ (w _ _ h))
    · by_cases hc : s.hold.complete = true
      · rw [if_pos hc]; exact b _ (n _ (w _ _ h))
      · rw [if_neg hc]; exact b _ (n _ (v _ _ h))
    · by_cases hc : s.hold.complete = true
      · rw [if_pos hc]; exact b _ (n _ (w _ _ h))
      · rw [if_neg hc]; exact l _ (n _ (v _ _ h))
    · exact n _ h
  · apply hh
    cases hl : s.hold.level <;> simp only []
    · exact b _ (n _ (w _ _ h))
    · by_cases hc : s.hold.complete = true
      · rw [if_pos hc]; exact b _ (n _ (w _ _ h))
      · rw [if_neg hc]; exact b _ (n _ (v _ _ h))
    · by_cases hc : s.hold.complete = true
      · rw [if_pos hc]; exact b _ (n _ (w _ _ h))
      · rw [if_neg hc]; exact l _ (n _ (v _ _ h))
    · exact n _ h

/-- The end finding leaves a resolved step (R152). -/
theorem endFinding_resolved (i : Nat) (st : StepStatus) (s : State) (hp : s.coord.phase = .homing) (h : s.isResolved i st) :
    (endFinding s).isResolved i st := by
  simp only [endFinding]
  split
  · split
    · refine ⟨?_, h.2⟩
      rw [show ∀ x : State, (stageTest x).plan = x.plan from fun x => by simp]
      rw [setPhase_parts .ready s (by rw [hp]; simp)]
      simp only [reduceCtorEq, if_false]
      have pb : (s.phaseBegun .ready).plan = s.plan := by
        simp only [State.phaseBegun]; split <;> simp
      show (s.phaseBegun .ready).plan.status i = _
      rw [pb]; exact h.1
    · exact raiseFault_resolved _ _ _ _ _ _ _ h
  · exact h

/-- The scan reaches the plan table and the claim alone, and of the table the steps it looks at (R137, R138). -/
theorem scanFrom_reach (l : List StepRecord) (s : State) : ∃ p : Plan, scanFrom s l = s.setPlan p ∧ p.steps = s.plan.steps ∧
    ∀ i, (∀ x ∈ l, x.index ≠ i) → p.table[i]? = s.plan.table[i]? := by
  induction l generalizing s with
  | nil => exact ⟨s.plan, rfl, rfl, fun _ _ => rfl⟩
  | cons a l ih =>
    have rest : ∀ t : State, (∃ p : Plan, t = s.setPlan p ∧ p.steps = s.plan.steps ∧ ∀ i, a.index ≠ i → p.table[i]? = s.plan.table[i]?) →
        ∃ p : Plan, scanFrom t l = s.setPlan p ∧ p.steps = s.plan.steps ∧ ∀ i, (∀ x ∈ a :: l, x.index ≠ i) → p.table[i]? = s.plan.table[i]? := by
      rintro t ⟨p, rfl, h2, h3⟩
      obtain ⟨p', e1, e2, e3⟩ := ih (s.setPlan p)
      refine ⟨p', by rw [e1]; rfl, e2.trans h2, ?_⟩
      intro i hi
      rw [e3 i fun x hx => hi x (List.mem_cons_of_mem _ hx)]
      exact h3 i (hi a List.mem_cons_self)
    have same : ∃ p : Plan, s = s.setPlan p ∧ p.steps = s.plan.steps ∧ ∀ i, a.index ≠ i → p.table[i]? = s.plan.table[i]? := ⟨s.plan, rfl, rfl, fun _ _ => rfl⟩
    simp only [scanFrom]
    split
    · split
      · refine ⟨_, rfl, rfl, ?_⟩
        intro i hi
        exact List.getElem?_modify_ne _ _ (hi a List.mem_cons_self)
      · exact rest _ ⟨_, rfl, rfl, fun i hi => List.getElem?_modify_ne _ _ hi⟩
      · exact rest _ same
    · exact rest _ same

end Sys2Proof.Machine
end

