-- ==== Sys2Proof/Laws/Acceptance.lean ====
section
/-! SUPPORT. What an accepted record does: the parts of an acceptance, the parts that leave the state, and what the
adoption of a hold, its settling and the tail of an acceptance leave. -/

set_option linter.unusedSimpArgs false

namespace Sys2Proof.Machine

/-- The entry of a station takes an accepted record (R62, R67). -/
def takeEntry (j : Station) (r : StatusRecord) (s : State) : State :=
  (s.setPeers (vput s.peers j ⟨.active, 0, some r⟩)).setLink
    { s.link with acceptedInCycle := true, heard := j :: s.link.heard }

/-- The calibration part of an accepted record with the hand-off (R70, R191, R194, R197). -/
def settleTail (r : StatusRecord) (s : State) : State := handOff (rollForwardOn r (stageTest (sightingUpdate s)))

/-- An acceptance by its parts (log entry 27). -/
theorem acceptRecord_parts (j : Station) (r : StatusRecord) (s : State) : acceptRecord j r s =
    settleTail r (claimFromPeer j r (takeRestarted j r (takeRestart r (takeRetained j r (takeLockClear r (takeResume r
      (entryTest (takeSequence j r (takeEntry j r s))))))))) := rfl

/-- A frame the station hears is accepted, its link block aside (R55, R62). -/
theorem exec_hears {dt ago : Time} {bytes : List Byte} {s : State} {r : StatusRecord} (h : s.hears dt ago bytes r) :
    ∃ l : Link, exec (.frameReceived dt ago bytes) s = .next (acceptRecord r.station r { s.later dt with link := l }) ∧
      l.station = s.link.station ∧ l.cycle = some r.cycle := by
  obtain ⟨hrun, hp, hne, ha, h⟩ := h
  have h' : (advance dt s).running = true := hrun
  have go : exec (.frameReceived dt ago bytes) s = .next (examineFrame r (((s.now + dt : Nat) : Rat) - ago) (advance dt s)) := by
    simp only [exec, execFrameReceived, h', receiveFrame, hp, if_true]
    rw [if_neg (by exact hne)]; rfl
  rw [go]
  have att : (∃ (n : Int) (slot off : Rat), slot = (s.cfg.cyclePeriod * 1000000 : Nat) / 8 ∧ 0 < slot ∧
      ((s.now + dt : Nat) : Rat) - ago = s.link.cycleStart + 4000 + ((r.station.val : Int) + 8 * n : Int) * slot + off ∧
      - slot / 2 < off ∧ off < slot / 2 ∧ -25000 ≤ off ∧ off ≤ 25000) → s.link.cycle = some r.cycle →
      ∃ l : Link, attributeFrame r.station r (((s.now + dt : Nat) : Rat) - ago) (advance dt s) =
        acceptRecord r.station r { s.later dt with link := l } ∧ l.station = s.link.station ∧ l.cycle = some r.cycle := by
    rintro ⟨n, slot, off, hsl, hpos, hst, b1, b2, b3, b4⟩ hc
    have sl : (advance dt s).slotLength = slot := by rw [hsl]; rfl
    obtain ⟨at1, at2⟩ := attributed_near (advance dt s) r.station n (((s.now + dt : Nat) : Rat) - ago) off (by rw [sl]; exact hpos) (by rw [sl]; exact hst) (by rw [sl]; exact b1) (by rw [sl]; exact b2)
    simp only [attributeFrame, at1, at2]
    rw [if_neg (by simp), if_neg (by exact not_le.2 ha), if_neg (by simpa using hc), if_neg (by push Not; exact ⟨b3, b4⟩)]
    split
    · exact ⟨_, rfl, rfl, hc⟩
    · exact ⟨(advance dt s).link, rfl, rfl, hc⟩
  have adopt : s.link.state = .alone → 
      ∃ l : Link, adoptFrame r.station r (((s.now + dt : Nat) : Rat) - ago) (advance dt s) = acceptRecord r.station r { s.later dt with link := l } ∧ l.station = s.link.station ∧ l.cycle = some r.cycle := by
    intro hst
    have e : (advance dt s).link.state ≠ .listening := by rw [show (advance dt s).link.state = .alone from hst]; simp
    simp only [adoptFrame, if_neg e]
    exact ⟨_, rfl, rfl, rfl⟩
  rcases h with ⟨hst, hl⟩ | ⟨hst, hc, hx⟩
  · obtain ⟨l, a1, a2, a3⟩ := adopt hst
    refine ⟨l, ?_, a2, a3⟩
    rw [← a1]
    simp only [examineFrame]
    rw [show (advance dt s).link.state = .alone from hst]
    dsimp only
    rw [if_pos ⟨ha, hl⟩]
  · obtain ⟨l, a1, a2, a3⟩ := att hx hc
    rcases hst with hst | hst
    · simp only [examineFrame]
      rw [show (advance dt s).link.state = .synced from hst]
      exact ⟨l, by rw [a1], a2, a3⟩
    · simp only [examineFrame]
      rw [show (advance dt s).link.state = .alone from hst]
      dsimp only
      split
      · obtain ⟨l, a1, a2, a3⟩ := adopt hst
        exact ⟨l, by rw [← a1], a2, a3⟩
      · exact ⟨l, by rw [a1], a2, a3⟩

/-- What the tail of an acceptance leaves. -/
theorem settleTail_keeps (r : StatusRecord) (s : State) : (settleTail r s).engine = s.engine ∧ (settleTail r s).plan = s.plan ∧
    (settleTail r s).gate = s.gate ∧ (settleTail r s).coord = s.coord ∧ (settleTail r s).standby = s.standby ∧
    (settleTail r s).sensing = s.sensing ∧ (settleTail r s).mem = s.mem ∧ (settleTail r s).peers = s.peers ∧
    (settleTail r s).port.config = s.port.config ∧ (settleTail r s).link.station = s.link.station ∧
    (settleTail r s).cal.committed = s.cal.committed ∧ (settleTail r s).power = s.power := by
  refine ⟨?_, ?_, ?_, ?_, ?_, ?_, ?_, ?_, ?_, ?_, ?_, ?_⟩ <;> simp [settleTail]

/-- The hold after the tail of an acceptance: the entry test and the resume flag alone (R70, R170, R174). -/
theorem settleTail_hold (r : StatusRecord) (s : State) : ∃ f q, (settleTail r s).hold =
      { (entryTest s).hold with resume := f, resumeFor := q } ∧ (s.hold.resume = false → f = false) ∧
      (s.hold.resume = false → q = s.hold.resumeFor) := by
  have ps : ∀ x : State, (proposalSuccess x).hold = x.hold := by
    intro x; simp only [proposalSuccess, endProposal]; (repeat' split) <;> simp
  have et : ∀ x : State, x.hold = s.hold → x.settled = s.settled → x.peerRecords = s.peerRecords →
      (entryTest x).hold = (entryTest s).hold := by
    intro x h1 h2 h3
    have e : x.entrySettled = s.entrySettled := by simp only [State.entrySettled, h1, h2, h3]
    have o : ∀ y : State, (orderlyLatch y).hold = y.hold := by intro y; simp
    simp only [entryTest, h1, e]
    split
    · simp only [State.setHold_hold, setComplete_hold, h1]
      split <;> simp
    · exact h1
  generalize hx : rollForwardOn r (stageTest (sightingUpdate s)) = x
  have x1 : x.hold = s.hold ∧ x.settled = s.settled ∧ x.peerRecords = s.peerRecords := by
    rw [← hx]
    refine ⟨by simp, ?_, ?_⟩
    · simp [State.settled, State.still, State.braked]
    · simp [State.peerRecords, State.heardRecord, State.own]; rfl
  have e := et x x1.1 x1.2.1 x1.2.2
  have rf : ∃ f q, (resumeFlagClear (entryTest x)).hold = { (entryTest x).hold with resume := f, resumeFor := q } ∧
      ((entryTest x).hold.resume = false → f = false) ∧ ((entryTest x).hold.resume = false → q = (entryTest x).hold.resumeFor) := by
    simp only [resumeFlagClear]
    split
    · rename_i h; simp at h
      exact ⟨false, 0, rfl, fun _ => rfl, fun k => by simp [h.1] at k⟩
    · exact ⟨_, _, rfl, id, fun _ => rfl⟩
  obtain ⟨f, q, r1, r2, r3⟩ := rf
  have rs : (entryTest x).hold.resume = s.hold.resume ∧ (entryTest x).hold.resumeFor = s.hold.resumeFor := by
    rw [← x1.1]; rcases entryTest_hold x with k | k <;> rw [k] <;> exact ⟨rfl, rfl⟩
  refine ⟨f, q, ?_, fun k => r2 (by rw [rs.1]; exact k), fun k => by rw [r3 (by rw [rs.1]; exact k), rs.2]⟩
  rw [settleTail, hx, handOff, ps]
  simp only [flipTest_keeps, stageTest_keeps, sightingUpdate_keeps] 
  rw [← e, ← r1]

/-- A request pending or in flight stays so through the tail of an acceptance, ROUTINE apart (R91). -/
theorem settleTail_busy (k : WriteKind) (r : StatusRecord) (s : State) (h : s.store.busyWith k = true) (k1 : k ≠ .routine) :
    (settleTail r s).store.busyWith k = true := by
  rw [settleTail]
  apply handOff_busy _ _ _ k1
  have c : ∀ x : State, x.store.busyWith k = true → (stageTest x).store.busyWith k = true := by
    intro x hx; simp only [stageTest]; split
    · exact hx
    · split
      · exact busy_posted _ _ _ hx
      · exact hx
  have d : ∀ x : State, x.store.busyWith k = true → (rollForwardOn r x).store.busyWith k = true := by
    intro x hx; simp only [rollForwardOn]; split
    · exact busy_posted _ _ _ hx
    · exact hx
  apply d; apply c
  exact busy_of h (by simp) (by simp)

/-! ### Parts that leave the state -/

theorem takeResume_id (r : StatusRecord) (s : State) (h : r.resume = false) : takeResume r s = s := by
  simp [takeResume, h]

theorem takeLockClear_id (r : StatusRecord) (s : State)
    (h : r.lockClear = true → s.hold.level ≠ .lockout ∨ s.coord.phase = .isolated) : takeLockClear r s = s := by
  simp only [takeLockClear]
  rw [if_neg]
  simp only [Bool.and_eq_true, decide_eq_true_eq]
  rintro ⟨⟨a, b⟩, c⟩
  rcases h a with h | h
  · exact h b
  · exact c h

theorem takeRetained_id (j : Station) (r : StatusRecord) (s : State)
    (h : (s.coord.phase = .gathering ∨ s.coord.phase = .recovering) → s.hold.level ≠ .lockout →
      ∀ pd cd c, r.block ≠ .gather pd cd 1 c) :
    takeRetained j r s = s := by
  simp only [takeRetained, StatusRecord.retained]
  split
  · rfl
  · rename_i c hc
    rw [if_neg]
    simp only [Bool.and_eq_true, Bool.or_eq_true, decide_eq_true_eq]
    rintro ⟨hp, hl⟩
    (repeat' split at hc) <;> try cases hc
    rename_i pd cd f hf hb
    exact h hp hl pd cd c (by rw [hb, hf])

theorem takeRestart_id (r : StatusRecord) (s : State)
    (h : r.restart = true → s.coord.phase = .halted → s.mayRestart = false) : takeRestart r s = s := by
  simp only [takeRestart]
  rw [if_neg]
  simp only [Bool.and_eq_true, decide_eq_true_eq]
  rintro ⟨⟨a, b⟩, c⟩
  rw [h a b] at c; cases c

theorem takeRestarted_id (j : Station) (r : StatusRecord) (s : State)
    (h : (s.coord.phase = .homing ∨ s.coord.phase = .ready ∨ s.coord.phase = .halted) →
      (r.phase = .isolated ∨ r.phase = .gathering) → r.restart = false → j ∈ s.coord.restartedReported) :
    takeRestarted j r s = s := by
  simp only [takeRestarted]
  rw [if_neg]
  simp only [Bool.and_eq_true, Bool.or_eq_true, decide_eq_true_eq, ArmPhase.working, Bool.not_eq_true', List.contains_eq_mem,
    decide_eq_false_iff_not]
  rintro ⟨⟨⟨a, b⟩, c⟩, d⟩
  exact d (h (by rcases a with (a | a) | a <;> simp [a]) b c)

/-- A record that is no news to a station's sequence and level changes the newest known sequence alone (R159). -/
theorem takeSequence_idle (j : Station) (r : StatusRecord) (s : State) (h : r.sequenceIdle s) :
    takeSequence j r s = s.setHold (s.hold.see r.holdSeq) := by
  obtain ⟨h1, h2, h3⟩ := h
  simp only [takeSequence]
  split
  · rename_i hn; rw [if_pos (h1 hn)]
  · split
    · rename_i hn hq
      have hq : r.holdSeq = s.hold.seq := by rw [hq]; simp
      have hr : raiseToPeer r (s.setHold (s.hold.see r.holdSeq)) = s.setHold (s.hold.see r.holdSeq) := by
        simp only [raiseToPeer]
        rw [if_neg]
        simp only [Bool.and_eq_true, decide_eq_true_eq, HoldLevel.entering, Bool.or_eq_true, State.setHold_hold,
          Hold.see_keeps]
        rintro ⟨a, b⟩
        exact absurd (h2 hq a) (not_le.2 b)
      rw [hr]
      simp only [settleOrigin]
      rw [if_neg]
      simp only [Bool.and_eq_true, decide_eq_true_eq, State.setHold_hold, Hold.see_keeps]
      rintro ⟨⟨a, b⟩, c⟩
      exact absurd (h3 hq a c) (not_le.2 b)
    · rfl

/-- A claim set that cannot raise DRIFT changes the Coordinator alone, and of it the claims and the classification
(R117, R118, R124). -/
theorem claimFromPeer_reach (j : Station) (r : StatusRecord) (s : State)
    (h : s.coord.phase = .recovering → s.standby.excursion ≤ s.cfg.driftThreshold) :
    ∃ c : Coord, claimFromPeer j r s = s.setCoord c ∧ c.phase = s.coord.phase ∧ (s.coord.phase ≠ .recovering → c = s.coord) := by
  by_cases hp : s.coord.phase = .recovering
  · have put : ∀ e, ∃ c : Coord, putClaim j e s = s.setCoord c ∧ c.phase = s.coord.phase := by
      intro e
      simp only [putClaim]
      split
      · exact ⟨s.coord, rfl, rfl⟩
      · split
        · generalize hu : (s.setCoord _) = u
          have u1 : ∃ c : Coord, u = s.setCoord c ∧ c.phase = s.coord.phase := ⟨_, hu.symm, rfl⟩
          obtain ⟨c, u1, u2⟩ := u1
          simp only [reclassify]
          split
          · exact ⟨c, u1, u2⟩
          · rw [if_neg]
            · rw [u1]; exact ⟨_, rfl, u2⟩
            · simp only [Bool.and_eq_true, decide_eq_true_eq]
              rintro ⟨_, hlt⟩
              rw [u1] at hlt
              exact absurd (h hp) (not_le.2 hlt)
        · exact ⟨_, rfl, rfl⟩
    have : ∃ c : Coord, claimFromPeer j r s = s.setCoord c ∧ c.phase = s.coord.phase := by
      simp only [claimFromPeer, hp, if_true]
      split
      · exact ⟨s.coord, rfl, hp⟩
      · obtain ⟨c, a, b⟩ := put (.held _); exact ⟨c, a, b.trans hp⟩
      · split
        · obtain ⟨c, a, b⟩ := put .movedOn; exact ⟨c, a, b.trans hp⟩
        · exact ⟨s.coord, rfl, hp⟩
    obtain ⟨c, a, b⟩ := this
    exact ⟨c, a, b, fun k => absurd hp k⟩
  · exact ⟨s.coord, by simp only [claimFromPeer, if_neg hp]; rfl, rfl, fun _ => rfl⟩

/-- What the tail of an acceptance leaves of the hold state, item by item. -/
theorem settleTail_final (r : StatusRecord) (x : State) : (settleTail r x).hold.level = x.hold.level ∧
    (settleTail r x).hold.seq = x.hold.seq ∧ (settleTail r x).hold.cause = x.hold.cause ∧
    (settleTail r x).hold.origin = x.hold.origin ∧ (settleTail r x).hold.newest = x.hold.newest ∧
    (settleTail r x).hold.faults = x.hold.faults ∧ (settleTail r x).hold.lockClear = x.hold.lockClear ∧
    (settleTail r x).hold.lockClearLeft = x.hold.lockClearLeft ∧
    (x.hold.resume = false → (settleTail r x).hold.resume = false) ∧
    ((settleTail r x).hold.complete = x.hold.complete ∧ (settleTail r x).hold.deadline = x.hold.deadline ∨
      (settleTail r x).hold.complete = true ∧ (settleTail r x).hold.deadline = none) ∧
    (settleTail r x).hold.complete = (entryTest x).hold.complete ∧ (settleTail r x).hold.deadline = (entryTest x).hold.deadline := by
  obtain ⟨f, q, h, h1, _⟩ := settleTail_hold r x
  rw [h]
  rcases entryTest_hold x with e | e <;> rw [e] <;>
    exact ⟨rfl, rfl, rfl, rfl, rfl, rfl, rfl, rfl, h1, by simp, rfl, rfl⟩

/-- The parts between the sequence and the tail do nothing for a record that brings nothing else, the claim set aside. -/
theorem accept_rest (j : Station) (r : StatusRecord) (y : State) (h1 : r.resume = false)
    (h2 : r.lockClear = true → y.hold.level ≠ .lockout ∨ y.coord.phase = .isolated) (h3 : r.restart = false)
    (h4 : (y.coord.phase = .gathering ∨ y.coord.phase = .recovering) → ∀ pd cd c, r.block ≠ .gather pd cd 1 c)
    (h5 : (y.coord.phase = .homing ∨ y.coord.phase = .ready ∨ y.coord.phase = .halted) →
      r.phase ≠ .isolated ∧ r.phase ≠ .gathering)
    (h6 : y.coord.phase = .recovering → y.standby.excursion ≤ y.cfg.driftThreshold) :
    ∃ c : Coord, claimFromPeer j r (takeRestarted j r (takeRestart r (takeRetained j r (takeLockClear r (takeResume r y))))) =
      y.setCoord c ∧ c.phase = y.coord.phase ∧ (y.coord.phase ≠ .recovering → c = y.coord) := by
  rw [takeResume_id r y h1, takeLockClear_id r y h2, takeRetained_id j r y (fun a _ => h4 a),
    takeRestart_id r y (fun a => by rw [h3] at a; cases a),
    takeRestarted_id j r y (fun a b => by rcases b with b | b; exacts [absurd b (h5 a).1, absurd b (h5 a).2])]
  exact claimFromPeer_reach j r y h6

/-- With no proposal of its own a station ends none (R198). -/
theorem withdrawProposal_id (d : Int) (s : State) (h : s.cal.proposal = none) : withdrawProposal d s = s := by
  simp only [withdrawProposal, h]

@[simp] theorem engineHold_proposal (s : State) : (engineHold s).cal.proposal = s.cal.proposal := by
  simp only [engineHold, seekReturnHeld, seekFinish, surveyReturn, surveyFinish]; (repeat' split) <;> simp

/-- Holding records nothing at a station with no proposal of its own. -/
theorem holdReaches_faults (s : State) (h : s.cal.proposal = none) : (holdReaches s).hold.faults = s.hold.faults := by
  simp only [holdReaches]
  rw [withdrawProposal_id _ _ (by simp [h])]
  simp

/-- The peers' records after a record has been taken: the sender's is the record, the others stay (R67). -/
theorem takeEntry_records (j : Station) (r : StatusRecord) (s : State) (hj : j ≠ s.own) (y : Station × StatusRecord) :
    y ∈ (takeEntry j r s).peerRecords ↔ y = (j, r) ∨ (y ∈ s.peerRecords ∧ y.1 ≠ j) := by
  have hm : ∀ k : Station, k ∈ stations := by decide
  have ow : (takeEntry j r s).own = s.own := rfl
  have hr : ∀ k, (takeEntry j r s).heardRecord k = if j = k then some r else s.heardRecord k := by
    intro k
    simp only [State.heardRecord, takeEntry, State.setLink_peers, State.setPeers_peers, vput_get]
    split <;> rfl
  simp only [State.peerRecords, List.mem_filterMap, hr, ow]
  constructor
  · rintro ⟨k, _, hk⟩
    by_cases ho : k = s.own
    · simp [ho] at hk
    · by_cases e : j = k
      · subst e
        simp [ho] at hk; exact .inl hk.symm
      · rw [if_neg ho, if_neg e] at hk
        refine .inr ⟨⟨k, hm k, by rw [if_neg ho]; exact hk⟩, ?_⟩
        obtain ⟨q, _, hq⟩ := Option.map_eq_some_iff.1 hk
        rw [← hq]; exact Ne.symm e
  · rintro (rfl | ⟨⟨k, _, hk⟩, hy⟩)
    · exact ⟨j, hm j, by simp [hj]⟩
    · refine ⟨k, hm k, ?_⟩
      by_cases ho : k = s.own
      · simp [ho] at hk
      · rw [if_neg ho] at hk ⊢
        have : j ≠ k := by
          obtain ⟨q, _, hq⟩ := Option.map_eq_some_iff.1 hk
          rw [← hq] at hy; exact Ne.symm hy
        rw [if_neg this]; exact hk

/-! ### The adoption of a hold (R162) -/

/-- The entry to LOCKOUT leaves the hold state but for the entry and the fault list. -/
theorem enterLockout_hold (post : Bool) (s : State) : ∃ l, (enterLockout post s).hold =
    { s.hold with complete := false, deadline := none, faults := l } := by
  have key : ∀ u : State, u.hold = { s.hold with complete := false, deadline := none } → ∃ l, (holdReaches u).hold =
      { s.hold with complete := false, deadline := none, faults := l } := by
    intro u hu
    obtain ⟨l, hl⟩ := holdReaches_hold u
    exact ⟨l, by rw [hl, hu]⟩
  obtain ⟨l, hl⟩ := key (writeOrder (.stop .hold) ((setComplete false s).setHold { (setComplete false s).hold with deadline := none }))
    (by simp)
  refine ⟨l, ?_⟩
  simp only [enterLockout]
  split
  · rw [show ∀ x : State, (postLockRecord x).hold = x.hold from fun x => by simp]; exact hl
  · exact hl

/-- The gate is CLOSED at DROP and LOCKOUT (R168). -/
theorem gateUpdate_dropped (s : State) (h : s.hold.level.dropped = true) : (gateUpdate s).gate = .closed := by
  simp [gateUpdate, nextGate, h]

/-- A changed sequence clears the resume flag (R158, R174). -/
theorem changeSeq_resume (q : BitVec 16) (s : State) (h : s.hold.seq ≠ q) : (changeSeq q s).hold.resume = false := by
  simp only [changeSeq, if_neg h, Hold.see]
  split <;> simp

/-- A fault recorded leaves the hold state but for the fault list. -/
theorem recordFault_hold (code : Byte) (cls : FaultClass) (o : Station) (step : Option Nat) (d : BitVec 32) (s : State) :
    (recordFault code cls o step d s).hold = { s.hold with faults := appendFault s.hold.faults (s.recordOf code cls o step d) } := by
  rw [← recordFault_faults]; simp only [recordFault]; split <;> simp

/-- The adopted level is a level (R162). -/
theorem higher_ne_none (a b : HoldLevel) (h : b ≠ .none) : a.higher b ≠ .none := by
  cases a <;> cases b <;> first | (exact absurd rfl h) | decide

/-- The adoption's first part: sequence, cause, origin, level and fault record, no resume flag (R162). -/
theorem adoptionBegun (j : Station) (r : StatusRecord) (s : State) (hq : s.hold.seq ≠ r.holdSeq) :
    ∀ b : State, b = recordFault r.cause r.adoptedClass r.origin none (BitVec.ofNat 32 j.val)
      (setCause r.cause r.origin (setLevel (s.hold.level.higher r.level) (changeSeq r.holdSeq s))) →
    b.hold.seq = r.holdSeq ∧ b.hold.cause = r.cause ∧ b.hold.origin = r.origin ∧ b.hold.resume = false ∧
    b.hold.level = s.hold.level.higher r.level ∧ b.coord = s.coord ∧
    ∃ f, recentFault 1 f b.hold.faults ∧ f.code = r.cause ∧ f.cls = r.adoptedClass ∧ f.origin = r.origin ∧ f.step = none ∧
      f.detail = BitVec.ofNat 32 j.val := by
  rintro b rfl
  have cs := changeSeq_resume _ _ hq
  rw [recordFault_hold]
  refine ⟨by simp, by simp, by simp, by simpa using cs, by simp, by simp, ?_⟩
  · dsimp only
    exact ⟨_, recentFault_append_self _ _, rfl, rfl, rfl, rfl, rfl⟩

/-- What the adoption of a hold leaves (R85, R107, R161, R162). -/
theorem adoptHold_spec (j : Station) (r : StatusRecord) (s : State) (hq : s.hold.seq ≠ r.holdSeq) (hl : r.level ≠ .none) :
    (adoptHold j r s).hold.seq = r.holdSeq ∧ (adoptHold j r s).hold.cause = r.cause ∧
    (adoptHold j r s).hold.origin = r.origin ∧ (adoptHold j r s).hold.resume = false ∧
    (adoptHold j r s).hold.level = s.hold.level.higher r.level ∧
    (s.hold.level ≠ .lockout → (adoptHold j r s).engine.order = .stop .hold) ∧
    ((adoptHold j r s).hold.level.dropped = true → s.hold.level ≠ .lockout → (adoptHold j r s).gate = .closed) ∧
    (s.hold.level ≠ .lockout → r.level = .lockout → (adoptHold j r s).store.busyWith .lockRecord = true) ∧
    (s.hold.level = .lockout → r.level = .lockout → (adoptHold j r s).hold.faults = s.hold.faults ∧
      (adoptHold j r s).coord = s.coord) ∧
    ((s.hold.level ≠ .lockout ∨ r.level ≠ .lockout) →
      (∃ f ∈ (adoptHold j r s).hold.faults, f.code = r.cause ∧ f.cls = r.adoptedClass ∧ f.origin = r.origin ∧ f.step = none ∧
        f.detail = BitVec.ofNat 32 j.val) ∧
      (r.adoptedClass = .abort → s.coord.phase ≠ .isolated → (adoptHold j r s).coord.phase = .halted) ∧
      ((r.adoptedClass ≠ .abort ∨ s.coord.phase = .isolated) → (adoptHold j r s).coord = s.coord)) := by
  obtain ⟨a, ha⟩ : ∃ a, a = setCause r.cause r.origin (setLevel (s.hold.level.higher r.level) (changeSeq r.holdSeq s)) := ⟨_, rfl⟩
  obtain ⟨b, hb⟩ : ∃ b, b = recordFault r.cause r.adoptedClass r.origin none (BitVec.ofNat 32 j.val) a := ⟨_, rfl⟩
  obtain ⟨b1, b2, b3, b4, b5, b6, f, f0, ff⟩ := adoptionBegun j r s hq b (by rw [hb, ha])
  obtain ⟨c, hc⟩ : ∃ c, c = adoptionEntry s.hold.level b := ⟨_, rfl⟩
  have eq : adoptHold j r s = if s.hold.level = .lockout ∧ r.level = .lockout then a
      else if r.adoptedClass = .abort then haltPhase c else c := by
    rw [hc, hb, ha]; rfl
  by_cases hh : s.hold.level = .lockout ∧ r.level = .lockout
  · rw [eq, if_pos hh]
    have af : a.hold.faults = s.hold.faults ∧ a.coord = s.coord := by
      rw [ha]; simp
    have ar : a.hold.resume = false := by
      rw [ha]; simpa using changeSeq_resume _ _ hq
    refine ⟨by rw [ha]; simp, by rw [ha]; simp, by rw [ha]; simp, ar, by rw [ha]; simp, fun k => absurd hh.1 k,
      fun _ k => absurd hh.1 k, fun k => absurd hh.1 k, fun _ _ => af, ?_⟩
    rintro (k | k)
    · exact absurd hh.1 k
    · exact absurd hh.2 k
  · rw [eq, if_neg hh]
    have cs : c.hold.seq = r.holdSeq ∧ c.hold.cause = r.cause ∧ c.hold.origin = r.origin ∧ c.hold.resume = false ∧
        c.hold.level = s.hold.level.higher r.level ∧ c.coord = s.coord ∧ recentFault 2 f c.hold.faults ∧
        (s.hold.level ≠ .lockout → c.engine.order = .stop .hold) ∧
        (c.hold.level.dropped = true → s.hold.level ≠ .lockout → c.gate = .closed) ∧
        (s.hold.level ≠ .lockout → r.level = .lockout → c.store.busyWith .lockRecord = true) := by
      have key : ∀ l, b.hold.level = l → l ≠ .none → c.hold.seq = r.holdSeq ∧ c.hold.cause = r.cause ∧
          c.hold.origin = r.origin ∧ c.hold.resume = false ∧ c.hold.level = l ∧ c.coord = s.coord ∧
          recentFault 2 f c.hold.faults ∧
          (s.hold.level ≠ .lockout → c.engine.order = .stop .hold) ∧
          (c.hold.level.dropped = true → s.hold.level ≠ .lockout → c.gate = .closed) ∧
          (s.hold.level ≠ .lockout → l = .lockout → c.store.busyWith .lockRecord = true) := by
        intro l hbl hln
        cases l with
        | none => exact absurd rfl hln
        | stop =>
          have e : c = beginEntry b := by rw [hc]; simp only [adoptionEntry, hbl]
          obtain ⟨e1, e2, e3, e4, e5, e6⟩ := beginEntry_spec b
          rw [e]
          refine ⟨by simp [b1], by rw [e1, b2], by rw [e2, b3], e3, by simp [hbl], by simp [b6],
            beginEntry_recent b (by omega) f0, fun _ => e6, ?_, fun _ k => by cases k⟩
          intro k; rw [show (beginEntry b).hold.level = .stop from by simp [hbl]] at k; cases k
        | drop =>
          have e : c = beginEntry b := by rw [hc]; simp only [adoptionEntry, hbl]
          obtain ⟨e1, e2, e3, e4, e5, e6⟩ := beginEntry_spec b
          rw [e]
          exact ⟨by simp [b1], by rw [e1, b2], by rw [e2, b3], e3, by simp [hbl], by simp [b6],
            beginEntry_recent b (by omega) f0, fun _ => e6, fun _ _ => (beginEntry_drop b hbl).2.1, fun _ k => by cases k⟩
        | lockout =>
          by_cases ho : s.hold.level = .lockout
          · have e : c = b := by rw [hc]; simp only [adoptionEntry, hbl, if_pos ho]
            rw [e]
            exact ⟨b1, b2, b3, b4, hbl, b6, recentFault_mono f0 (by omega), fun k => absurd ho k, fun _ k => absurd ho k, fun k => absurd ho k⟩
          · have e : c = enterLockout true b := by rw [hc]; simp only [adoptionEntry, hbl, if_neg ho]
            obtain ⟨e1, e2, e3, e4, e5, e6, e7, e8, e9⟩ := enterLockout_spec b hbl
            obtain ⟨l, el⟩ := enterLockout_hold true b
            rw [e]
            exact ⟨by rw [e3, b1], by rw [e4, b2], by rw [e5, b3], by rw [el]; exact b4, e1, by simp [b6],
              enterLockout_recent true b (by omega) f0, fun _ => e8, fun _ _ => e2, fun _ _ => e9⟩
      have k := key _ b5 (higher_ne_none _ _ hl)
      obtain ⟨k1, k2, k3, k4, k5, k6, k7, k8, k9, k10⟩ := k
      refine ⟨k1, k2, k3, k4, k5, k6, k7, k8, k9, ?_⟩
      intro h1 h2
      refine k10 h1 ?_
      rw [h2]; revert h1; cases s.hold.level <;> simp [HoldLevel.higher, HoldLevel.rank]
    obtain ⟨c1, c2, c3, c4, c5, c6, c7, c8, c9, c10⟩ := cs
    by_cases hab : r.adoptedClass = .abort
    · rw [if_pos hab]
      by_cases hp : s.coord.phase = .isolated ∨ s.coord.phase = .halted
      · have e : haltPhase c = c := by
          simp only [haltPhase, c6]; rcases hp with hp | hp <;> rw [hp]
        rw [e]
        refine ⟨c1, c2, c3, c4, c5, c8, c9, c10, fun x y => absurd ⟨x, y⟩ hh, fun _ => ⟨⟨f, recentFault_mem c7, ff⟩, ?_, fun _ => c6⟩⟩
        intro _ hn; rw [c6]; exact hp.resolve_left hn
      · have e : haltPhase c = setPhase .halted c := by
          have := not_or.1 hp
          simp only [haltPhase, c6]
          cases hh : s.coord.phase <;> simp_all
        have cp : c.coord.phase ≠ .halted := by rw [c6]; exact (not_or.1 hp).2
        obtain ⟨l, el⟩ := setPhase_hold .halted c
        have fr := haltPhase_recent c (by omega) c7
        rw [e] at fr ⊢
        refine ⟨by rw [el]; exact c1, by rw [el]; exact c2, by rw [el]; exact c3, by rw [el]; exact c4, by rw [el]; exact c5,
          ?_, ?_, ?_, fun x y => absurd ⟨x, y⟩ hh, fun _ => ⟨⟨f, recentFault_mem fr, ff⟩, fun _ _ => (setPhase_halted c cp).1, ?_⟩⟩
        · intro k; simpa using c8 k
        · intro k k2
          rw [el] at k
          rw [setPhase_parts _ _ cp, if_pos rfl]
          have pb : ((planAbandon (c.phaseBegun .halted))).hold.level = c.hold.level := by
            simp only [State.phaseBegun]; split <;> simp
          exact gateUpdate_dropped _ (by rw [pb]; exact k)
        · intro k k2
          exact busy_of (c10 k k2) (by simp) (by simp)
        · rintro (k | k)
          · exact absurd hab k
          · exact absurd (Or.inl k) hp
    · rw [if_neg hab]
      exact ⟨c1, c2, c3, c4, c5, c8, c9, c10, fun x y => absurd ⟨x, y⟩ hh, fun _ => ⟨⟨f, recentFault_mem c7, ff⟩, fun k => absurd k hab, fun _ => c6⟩⟩

/-! ### A record of equal sequence (R163) -/

/-- Cause and origin settled: the lower origin's where both show a level (R163). -/
theorem settleOrigin_spec (r : StatusRecord) (s : State) : ∃ c o, settleOrigin r s = s.setHold { s.hold with cause := c, origin := o } ∧
    ((r.level ≠ .none ∧ s.hold.level ≠ .none ∧ r.origin.val < s.hold.origin.val) → c = r.cause ∧ o = r.origin) ∧
    ((r.level = .none ∨ s.hold.level = .none ∨ s.hold.origin.val ≤ r.origin.val) → c = s.hold.cause ∧ o = s.hold.origin) := by
  simp only [settleOrigin]
  by_cases h : r.level ≠ .none ∧ s.hold.level ≠ .none ∧ r.origin.val < s.hold.origin.val
  · rw [if_pos (by simp [h])]
    refine ⟨r.cause, r.origin, rfl, fun _ => ⟨rfl, rfl⟩, ?_⟩
    rintro (k | k | k)
    · exact absurd k h.1
    · exact absurd k h.2.1
    · exact absurd h.2.2 (not_lt.2 k)
  · rw [if_neg]
    · exact ⟨s.hold.cause, s.hold.origin, rfl, fun k => absurd k h, fun _ => ⟨rfl, rfl⟩⟩
    · simp only [Bool.and_eq_true, decide_eq_true_eq]
      rintro ⟨⟨a, b⟩, c⟩
      exact h ⟨a, c, b⟩

/-- A STOP or DROP raised to the higher level of a record of equal sequence, its origin settled (R107, R161, R163). -/
theorem raiseSettle_spec (r : StatusRecord) (s : State) (hl : s.hold.level = .stop ∨ s.hold.level = .drop)
    (hr : s.hold.level.rank < r.level.rank) :
    (settleOrigin r (raiseToPeer r s)).hold.level = r.level ∧ (settleOrigin r (raiseToPeer r s)).hold.seq = s.hold.seq ∧
    (r.origin.val < s.hold.origin.val → (settleOrigin r (raiseToPeer r s)).hold.cause = r.cause ∧
      (settleOrigin r (raiseToPeer r s)).hold.origin = r.origin) ∧
    (s.hold.origin.val ≤ r.origin.val → (settleOrigin r (raiseToPeer r s)).hold.cause = s.hold.cause ∧
      (settleOrigin r (raiseToPeer r s)).hold.origin = s.hold.origin) ∧
    (settleOrigin r (raiseToPeer r s)).engine.order = .stop .hold ∧ (settleOrigin r (raiseToPeer r s)).gate = .closed ∧
    (r.level = .lockout → (settleOrigin r (raiseToPeer r s)).store.busyWith .lockRecord = true ∧
      (settleOrigin r (raiseToPeer r s)).hold.deadline = none ∧ (settleOrigin r (raiseToPeer r s)).hold.complete = false) ∧
    (r.level = .drop → (settleOrigin r (raiseToPeer r s)).hold.deadline =
      if (settleOrigin r (raiseToPeer r s)).hold.complete = true then none else some (s.now + s.cfg.dropLimit * 1000000)) ∧
    (s.cal.proposal = none → (settleOrigin r (raiseToPeer r s)).hold.faults = s.hold.faults) ∧
    (settleOrigin r (raiseToPeer r s)).coord = s.coord := by
  have rp : raiseToPeer r s = enterLevel (setLevel r.level s) := by
    simp only [raiseToPeer]
    rw [if_pos]
    simp only [Bool.and_eq_true, decide_eq_true_eq, HoldLevel.entering, Bool.or_eq_true]
    exact ⟨hl, hr⟩
  have lv : r.level = .drop ∨ r.level = .lockout := by
    revert hr; rcases hl with h | h <;> rw [h] <;> cases r.level <;> simp [HoldLevel.rank]
  rw [rp]
  have y : ∀ y : State, y = enterLevel (setLevel r.level s) → y.hold.level = r.level ∧ y.hold.seq = s.hold.seq ∧
      y.hold.cause = s.hold.cause ∧ y.hold.origin = s.hold.origin ∧ y.engine.order = .stop .hold ∧ y.gate = .closed ∧
      (r.level = .lockout → y.store.busyWith .lockRecord = true ∧ y.hold.deadline = none ∧ y.hold.complete = false) ∧
      (r.level = .drop → y.hold.deadline = if y.hold.complete = true then none else some (s.now + s.cfg.dropLimit * 1000000)) ∧
      (s.cal.proposal = none → y.hold.faults = s.hold.faults) ∧ y.coord = s.coord := by
    rintro y rfl
    have fr : ∀ (o : MotionOrder) (h : Hold) (z : State), z.cal.proposal = none → h.faults = s.hold.faults →
        (holdReaches (writeOrder o (z.setHold h))).hold.faults = s.hold.faults := by
      intro o h z hz hf
      rw [holdReaches_faults _ (by simp [hz])]; simp [hf]
    rcases lv with h | h
    · have e : enterLevel (setLevel r.level s) = beginEntry (setLevel r.level s) := by simp only [enterLevel, setLevel_hold, h]
      rw [e]
      obtain ⟨a1, a2, a3, a4⟩ := beginEntry_drop (setLevel r.level s) (by simp [h])
      obtain ⟨b1, b2, b3, b4, b5, b6⟩ := beginEntry_spec (setLevel r.level s)
      refine ⟨by rw [a1, h], by rw [a3]; simp, by rw [b1]; simp, by rw [b2]; simp, b6, a2, fun k => (by rw [h] at k; cases k), ?_, ?_, by simp⟩
      · intro _
        have c1 : (setLevel r.level s).cfg = s.cfg := by unfold State.cfg; rw [show (setLevel r.level s).port.config = s.port.config from by simp]
        rw [a4, c1, show (setLevel r.level s).now = s.now from by simp]
      · intro hp
        simp only [beginEntry]
        rw [show ∀ x : State, (entryTest x).hold.faults = x.hold.faults from fun x => by simp]
        exact fr _ _ _ (by simp [hp]) (by simp)
    · have e : enterLevel (setLevel r.level s) = enterLockout true (setLevel r.level s) := by simp only [enterLevel, setLevel_hold, h]
      rw [e]
      obtain ⟨a1, a2, a3, a4, a5, a6, a7, a8, a9⟩ := enterLockout_spec (setLevel r.level s) (by simp [h])
      refine ⟨by rw [a1, h], by rw [a3]; simp, by rw [a4]; simp, by rw [a5]; simp, a8, a2, fun _ => ⟨a9, a6, a7⟩, fun k => (by rw [h] at k; cases k), ?_, by simp⟩
      intro hp
      simp only [enterLockout, if_true]
      rw [show ∀ x : State, (postLockRecord x).hold.faults = x.hold.faults from fun x => by simp]
      exact fr _ _ _ (by simp [hp]) (by simp)
  generalize enterLevel (setLevel r.level s) = z at y
  obtain ⟨y1, y2, y3, y4, y5, y6, y7, y8, y9, y10⟩ := y z rfl
  obtain ⟨c, o, e, e1, e2⟩ := settleOrigin_spec r z
  have rn : r.level ≠ .none := by rcases lv with h | h <;> rw [h] <;> simp
  rw [e]
  refine ⟨y1, y2, fun k => e1 ⟨rn, by rw [y1]; exact rn, by rw [y4]; exact k⟩, ?_, y5, y6, y7, y8, y9, y10⟩
  intro k
  obtain ⟨f1, f2⟩ := e2 (.inr (.inr (by rw [y4]; exact k)))
  exact ⟨f1.trans y3, f2.trans y4⟩

/-! ### A station without a proposal of its own (R198) -/

/-- With no proposal of its own a station ends none (R198). -/
@[simp] theorem withdrawProposal_none (d : Int) (s : State) (h : s.cal.proposal = none) : (withdrawProposal d s).cal.proposal = none := by
  rw [withdrawProposal_id d s h]; exact h

@[simp] theorem noteDropMotion_proposal (s : State) : (noteDropMotion s).cal.proposal = s.cal.proposal := by
  simp only [noteDropMotion]; split <;> simp

@[simp] theorem planHold_proposal (s : State) : (planHold s).cal.proposal = s.cal.proposal := by
  simp only [planHold]; (repeat' split) <;> simp

@[simp] theorem holdReaches_none (s : State) (h : s.cal.proposal = none) : (holdReaches s).cal.proposal = none := by
  apply withdrawProposal_none; simp [h]

@[simp] theorem beginEntry_none (s : State) (h : s.cal.proposal = none) : (beginEntry s).cal.proposal = none := by
  simp only [beginEntry, entryTest_proposal]; apply holdReaches_none; simp [h]

@[simp] theorem enterLockout_none (b : Bool) (s : State) (h : s.cal.proposal = none) : (enterLockout b s).cal.proposal = none := by
  simp only [enterLockout]; split
  · rw [postLockRecord_proposal]; apply holdReaches_none; simp [h]
  · apply holdReaches_none; simp [h]

@[simp] theorem setPhase_none (p : ArmPhase) (s : State) (h : s.cal.proposal = none) : (setPhase p s).cal.proposal = none := by
  simp only [setPhase]
  (repeat' split) <;> simp (maxDischargeDepth := 9) [h, planAbandon, planReset]

@[simp] theorem haltPhase_none (s : State) (h : s.cal.proposal = none) : (haltPhase s).cal.proposal = none := by
  simp only [haltPhase]; split <;> first | exact setPhase_none _ _ h | exact h

@[simp] theorem raiseFault_none (code : FaultCode) (cls : FaultClass) (step : Option Nat) (d : Int) (s : State) (h : s.cal.proposal = none) :
    (raiseFault code cls step d s).cal.proposal = none := by
  cases cls <;> simp only [raiseFault, newHold, reduceCtorEq, if_true, if_false] <;> (repeat' split) <;> simp (maxDischargeDepth := 9) [h]

@[simp] theorem adoptHold_none (j : Station) (r : StatusRecord) (s : State) (h : s.cal.proposal = none) : (adoptHold j r s).cal.proposal = none := by
  simp only [adoptHold, adoptionEntry]
  (repeat' split) <;> simp (maxDischargeDepth := 9) [h]

@[simp] theorem takeSequence_none (j : Station) (r : StatusRecord) (s : State) (h : s.cal.proposal = none) : (takeSequence j r s).cal.proposal = none := by
  simp only [takeSequence, settleOrigin, raiseToPeer, enterLevel]
  (repeat' split) <;> simp (maxDischargeDepth := 9) [h]

@[simp] theorem stageTest_proposal (s : State) : (stageTest s).cal.proposal = s.cal.proposal := by
  simp only [stageTest]; (repeat' split) <;> simp

@[simp] theorem useDropMotion_proposal (s : State) : (useDropMotion s).cal.proposal = s.cal.proposal := by
  simp only [useDropMotion]; (repeat' split) <;> simp

@[simp] theorem takeResume_none (r : StatusRecord) (s : State) (h : s.cal.proposal = none) : (takeResume r s).cal.proposal = none := by
  simp only [takeResume, resumeHold, levelToNone]
  (repeat' split) <;> simp (maxDischargeDepth := 9) [h, planReset]

@[simp] theorem postLockClear_proposal (s : State) : (postLockClear s).cal.proposal = s.cal.proposal := by
  simp [postLockClear, dropPending]

@[simp] theorem takeLockClear_none (r : StatusRecord) (s : State) (h : s.cal.proposal = none) : (takeLockClear r s).cal.proposal = none := by
  simp only [takeLockClear, clearLockout, levelToNone]
  (repeat' split) <;> simp (maxDischargeDepth := 9) [h]

@[simp] theorem takeRetained_none (j : Station) (r : StatusRecord) (s : State) (h : s.cal.proposal = none) : (takeRetained j r s).cal.proposal = none := by
  simp only [takeRetained]
  (repeat' split) <;> simp (maxDischargeDepth := 9) [h]

@[simp] theorem takeRestart_none (r : StatusRecord) (s : State) (h : s.cal.proposal = none) : (takeRestart r s).cal.proposal = none := by
  simp only [takeRestart, restartStation, levelToNone]
  (repeat' split) <;> simp (maxDischargeDepth := 9) [h]

@[simp] theorem takeRestarted_none (j : Station) (r : StatusRecord) (s : State) (h : s.cal.proposal = none) : (takeRestarted j r s).cal.proposal = none := by
  simp only [takeRestarted, raiseAbort]
  (repeat' split) <;> simp (maxDischargeDepth := 9) [h]

@[simp] theorem claimFromPeer_none (j : Station) (r : StatusRecord) (s : State) (h : s.cal.proposal = none) : (claimFromPeer j r s).cal.proposal = none := by
  have k : ∀ e, (putClaim j e s).cal.proposal = none := by
    intro e; simp only [putClaim, reclassify, raiseDrift]
    (repeat' split) <;> simp (maxDischargeDepth := 9) [h]
  simp only [claimFromPeer]
  (repeat' split) <;> first | exact h | exact k _

/-- A posted write leaves the requests of the other kinds as they are, pending or in flight (R91). -/
theorem postWrite_others (q : WriteRequest) (k : WriteKind) (s : State) (h : k ≠ q.kind) : (postWrite q s).store.busyWith k = s.store.busyWith k := by
  simp only [postWrite]
  split
  · rfl
  · split
    · rename_i hn
      simp only [Bool.and_eq_true, Option.isNone_iff_eq_none] at hn
      have np := (nextPending_none s.store).1 hn.2 k
      have e : s.store.busyWith k = false := by
        simp [Store.busyWith, Store.inFlight, np, hn.1]
      have gs : (grant q s).store = { s.store with port := some { request := q, target := s.targetOf q, beat := 0, isCut := false } } := by
        simp only [grant]; split <;> rfl
      rw [e, gs]
      have np' : s.store.isPending k = false := np
      simp only [Store.isPending] at np'
      simp [Store.busyWith, Store.isPending, Store.inFlight, np', Ne.symm h]
    · have : q.kind.place ≠ k.place := fun hh => h (WriteKind.place_inj hh).symm
      simp [Store.busyWith, Store.isPending, Store.inFlight, addPending, this]

/-- A dropped request leaves the requests of the other kinds as they are (R91). -/
theorem dropPending_others (j k : WriteKind) (s : State) (h : k ≠ j) : (dropPending j s).store.busyWith k = s.store.busyWith k := by
  have : j.place ≠ k.place := fun hh => h (WriteKind.place_inj hh).symm
  simp [Store.busyWith, Store.isPending, Store.inFlight, dropPending, this]

/-- What keeps the port and the pending set keeps what is pending or in flight. -/
theorem busy_eq {k : WriteKind} {a b : Store} (hp : b.port = a.port) (hq : b.pending = a.pending) : b.busyWith k = a.busyWith k := by
  simp only [Store.busyWith, Store.isPending, Store.inFlight, hp, hq]

/-- An entry test reaches the ORDERLY and ROUTINE requests alone (R102). -/
theorem entryTest_others (k : WriteKind) (s : State) (h1 : k ≠ .routine) (h2 : k ≠ .orderly) :
    (entryTest s).store.busyWith k = s.store.busyWith k := by
  simp only [entryTest]
  split
  · split
    · simp only [orderlyLatch]
      split
      · rw [postWrite_others _ _ _ (by simpa [WriteRequest.kind] using h2)]
        refine Eq.trans (busy_eq ?_ ?_) (dropPending_others .routine k s h1) <;> simp [noteLatch, dropPending]
      · exact busy_eq (by simp) (by simp)
    · exact busy_eq (by simp) (by simp)
  · rfl


/-- An entry test reaches no calibration state (R102, R170). -/
@[simp] theorem entryTest_cal (s : State) : (entryTest s).cal = s.cal := by
  have g : ∀ (q : WriteRequest) (x : State), q.kind ≠ .calStage → (postWrite q x).cal = x.cal := by
    intro q x hq
    simp only [postWrite, grant, addPending]
    (repeat' split) <;> first | rfl | (exact absurd rfl hq)
  simp only [entryTest, orderlyLatch]
  (repeat' split)
  · rw [g _ _ (by simp [WriteRequest.kind])]; simp [noteLatch, dropPending]
  all_goals simp

/-! ### The calibration part of an acceptance (R191, R193, R194, R197) -/

/-- The peers' records follow from the peer table and the own station. -/
theorem peerRecords_congr {x y : State} (hp : y.peers = x.peers) (hl : y.link.station = x.link.station) : y.peerRecords = x.peerRecords := by
  simp only [State.peerRecords, State.own, State.heardRecord, hp, hl]
  rfl

/-- The sighting in progress follows from the committed generation, the own proposal and the peers' records (R191). -/
theorem sightingNow_congr {x y : State} (hc : y.cal.committed = x.cal.committed)
    (hq : y.cal.proposal.map (·.generation) = x.cal.proposal.map (·.generation))
    (hp : y.peers = x.peers) (hl : y.link.station = x.link.station) : y.sightingNow = x.sightingNow := by
  have : ∀ g, y.proposed g = x.proposed g := by
    intro g
    simp only [State.proposed, peerRecords_congr hp hl]
    congr 1
    revert hq
    cases y.cal.proposal <;> cases x.cal.proposal <;> simp (config := {contextual := true})
  have n : y.cal.nextGeneration = x.cal.nextGeneration := by
    have g : y.cal.generation = x.cal.generation := by simp only [Cal.generation, hc]
    simp only [Cal.nextGeneration, g]
  simp only [State.sightingNow, n, this]

/-- A proposal of G + 1 that is shown is in sight (R191). -/
theorem sightingNow_shown {s : State} (hg : s.cal.generation ≠ 0xFFFF)
    (hp : s.proposed (s.cal.generation + 1) = true) : s.sightingNow = some (s.cal.generation + 1) := by
  simp only [State.sightingNow, Cal.nextGeneration, if_neg hg, hp, if_true]

/-- With no proposal of G + 1, own or shown, none is in sight (R191). -/
theorem sightingNow_absent {s : State} (hn : s.cal.proposal = none)
    (hp : ∀ y ∈ s.peerRecords, y.2.proposal ≠ s.cal.generation + 1) : s.sightingNow = none := by
  simp only [State.sightingNow, Cal.nextGeneration]
  split
  · rfl
  · rename_i g hg
    split at hg
    · cases hg
    · injection hg with hg; subst hg
      rw [if_neg]
      simp only [State.proposed, hn, Bool.false_or, List.any_eq_true, decide_eq_true_eq]
      rintro ⟨y, hy, hk⟩
      exact hp y hy hk

/-- After the test of R191 the sighting is the one in sight. -/
theorem sightingUpdate_sighting (s : State) : (sightingUpdate s).cal.sighting = s.sightingNow := by
  simp only [sightingUpdate]; split
  · rename_i h; exact h
  · rfl

/-- A sighting that stands is left (R191). -/
theorem sightingUpdate_id {s : State} (h : s.cal.sighting = s.sightingNow) : sightingUpdate s = s := by
  simp only [sightingUpdate, if_pos h]

/-- The test of R191 leaves the own proposal. -/
@[simp] theorem sightingUpdate_proposal (s : State) : (sightingUpdate s).cal.proposal = s.cal.proposal := by
  simp only [sightingUpdate]; split <;> simp

/-- A posted write leaves the sighting and the failed flip, and one other than CAL_STAGE all calibration state (R91, R192). -/
theorem postWrite_sightings (q : WriteRequest) (s : State) : (postWrite q s).cal.sighting = s.cal.sighting ∧
    (postWrite q s).cal.stagedInSighting = s.cal.stagedInSighting ∧ (postWrite q s).cal.flipFailed = s.cal.flipFailed ∧
    (q.kind ≠ .calStage → (postWrite q s).cal = s.cal) := by
  simp only [postWrite, grant, addPending]
  (repeat' split) <;> refine ⟨rfl, rfl, rfl, fun h => ?_⟩ <;> first | rfl | exact absurd rfl h

/-- Staging leaves the sighting and the failed flip (R191, R193). -/
theorem stageTest_sightings (s : State) : (stageTest s).cal.sighting = s.cal.sighting ∧ (stageTest s).cal.flipFailed = s.cal.flipFailed ∧
    (s.cal.stagedInSighting = true → (stageTest s).cal.stagedInSighting = true) := by
  simp only [stageTest]
  (repeat' split)
  · exact ⟨rfl, rfl, id⟩
  · obtain ⟨a, b, c, _⟩ := postWrite_sightings (.calStage (s.stageRecord _)) (s.setCal { s.cal with stagedInSighting := true })
    exact ⟨a, c, fun _ => b⟩
  · exact ⟨rfl, rfl, id⟩

/-- A flip posted reaches the calibration state at the own proposal's flip-posted alone (R194). -/
theorem postFlip_cal (s : State) : (postFlip s).cal = { s.cal with proposal := s.cal.proposal.map fun p => { p with flipPosted := true } } := by
  simp only [postFlip]
  exact (postWrite_sightings .calFlip _).2.2.2 (by simp [WriteRequest.kind])

/-- A flip posted is pending or in flight (R91). -/
theorem postFlip_busy (s : State) : (postFlip s).store.busyWith .calFlip = true := by
  simp only [postFlip]; exact (postWrite_posted .calFlip _ (by simp [WriteRequest.kind])).1

/-- A flip posted leaves the requests of the other kinds (R91). -/
theorem postFlip_others (k : WriteKind) (s : State) (h : k ≠ .calFlip) : (postFlip s).store.busyWith k = s.store.busyWith k := by
  simp only [postFlip]; rw [postWrite_others _ _ _ (by simpa [WriteRequest.kind] using h)]; rfl

/-- A flip test posts the flip or does nothing (R194). -/
theorem flipTest_or (s : State) : flipTest s = s ∨ flipTest s = postFlip s ∧ s.flipReady = true := by
  simp only [flipTest]; split
  · rename_i h; right; exact ⟨rfl, by simp only [Bool.and_eq_true] at h; exact h.1.1⟩
  · exact .inl rfl

/-- A roll-forward posts the flip or does nothing (R197). -/
theorem rollForwardOn_or (r : StatusRecord) (s : State) : rollForwardOn r s = s ∨ rollForwardOn r s = postFlip s ∧ s.flipReady = true := by
  simp only [rollForwardOn]; split
  · rename_i h; right; exact ⟨rfl, by simp only [Bool.and_eq_true] at h; exact h.1⟩
  · exact .inl rfl

/-- A success ends the own proposal, or nothing changes; the sighting follows (R191, R198). -/
theorem proposalSuccess_or (s : State) : proposalSuccess s = s ∨ proposalSuccess s = sightingUpdate (s.setCal { s.cal with proposal := none }) := by
  simp only [proposalSuccess, endProposal]; (repeat' split) <;> simp

/-- The state the tail hands to its last step, the success of a proposal. -/
def tailFlipped (r : StatusRecord) (x : State) : State :=
  flipTest (stageTest (sightingUpdate (resumeFlagClear (entryTest (rollForwardOn r (stageTest (sightingUpdate x)))))))

/-- The tail of an acceptance ends with the success of a proposal (R198). -/
theorem settleTail_success (r : StatusRecord) (x : State) : settleTail r x = proposalSuccess (tailFlipped r x) := rfl

/-- The resume flag reaches no calibration state (R174). -/
theorem resumeFlagClear_cal (s : State) : (resumeFlagClear s).cal = s.cal := by simp

/-- What a tail leaves for the sighting: the committed record, the peers and the own proposal's generation. -/
theorem tailFlipped_keeps (r : StatusRecord) (x : State) : (tailFlipped r x).cal.committed = x.cal.committed ∧
    (tailFlipped r x).peers = x.peers ∧ (tailFlipped r x).link.station = x.link.station ∧
    (tailFlipped r x).cal.proposal.map (·.generation) = x.cal.proposal.map (·.generation) := by
  refine ⟨by simp [tailFlipped], by simp [tailFlipped], by simp [tailFlipped], ?_⟩
  have pf : ∀ y : State, (postFlip y).cal.proposal.map (·.generation) = y.cal.proposal.map (·.generation) := by
    intro y; rw [postFlip_cal]; cases y.cal.proposal <;> rfl
  have ft : ∀ y : State, (flipTest y).cal.proposal.map (·.generation) = y.cal.proposal.map (·.generation) := by
    intro y; rcases flipTest_or y with h | h
    · rw [h]
    · rw [h.1, pf]
  have rf : ∀ y : State, (rollForwardOn r y).cal.proposal.map (·.generation) = y.cal.proposal.map (·.generation) := by
    intro y; rcases rollForwardOn_or r y with h | h
    · rw [h]
    · rw [h.1, pf]
  rw [tailFlipped, ft, stageTest_proposal, sightingUpdate_proposal, resumeFlagClear_cal, entryTest_cal, rf, stageTest_proposal,
    sightingUpdate_proposal]

/-- The sighting before the last step of a tail is the one in sight as the tail began (R191). -/
theorem tailFlipped_sighting (r : StatusRecord) (x : State) : (tailFlipped r x).cal.sighting = x.sightingNow := by
  obtain ⟨y, hy⟩ : ∃ y, y = resumeFlagClear (entryTest (rollForwardOn r (stageTest (sightingUpdate x)))) := ⟨_, rfl⟩
  have a : (flipTest (stageTest (sightingUpdate y))).cal.sighting = y.sightingNow := by
    have : ∀ z : State, (flipTest z).cal.sighting = z.cal.sighting := by
      intro z; rcases flipTest_or z with h | h
      · rw [h]
      · rw [h.1, postFlip_cal]
    rw [this, (stageTest_sightings _).1, sightingUpdate_sighting]
  rw [tailFlipped, ← hy, a, hy]
  apply sightingNow_congr <;> try simp
  rcases rollForwardOn_or r (stageTest (sightingUpdate x)) with h | h
  · rw [h]; simp
  · rw [h.1, postFlip_cal]; simp only [stageTest_proposal, sightingUpdate_proposal]; cases x.cal.proposal <;> rfl

/-- A generation that a peer's record shows is sighted after an acceptance; with no proposal of G + 1 there is no
sighting (R191). -/
theorem settleTail_sighting (r : StatusRecord) (x : State) :
    (x.cal.generation ≠ 0xFFFF → (∃ y ∈ x.peerRecords, y.2.proposal = x.cal.generation + 1) →
      (settleTail r x).cal.sighting = some (x.cal.generation + 1)) ∧
    (x.cal.proposal = none → (∀ y ∈ x.peerRecords, y.2.proposal ≠ x.cal.generation + 1) →
      (settleTail r x).cal.sighting = none) := by
  obtain ⟨k1, k2, k3, k4⟩ := tailFlipped_keeps r x
  have sg := tailFlipped_sighting r x
  constructor
  · intro hg ⟨y, hy, hk⟩
    have ex : x.sightingNow = some (x.cal.generation + 1) := sightingNow_shown hg (by
      simp only [State.proposed, Bool.or_eq_true, List.any_eq_true, decide_eq_true_eq]; exact .inr ⟨y, hy, hk⟩)
    rw [settleTail_success]
    rcases proposalSuccess_or (tailFlipped r x) with h | h
    · rw [h, sg, ex]
    · rw [h, sightingUpdate_sighting]
      have g : ((tailFlipped r x).setCal { (tailFlipped r x).cal with proposal := none }).cal.generation = x.cal.generation := by
        simp only [Cal.generation, State.setCal_cal, k1]
      rw [sightingNow_shown (by rw [g]; exact hg) (by
        rw [g]
        simp only [State.proposed, Bool.or_eq_true, List.any_eq_true, decide_eq_true_eq]
        refine .inr ⟨y, ?_, hk⟩
        rw [peerRecords_congr (x := x) (by exact k2) (by exact k3)]; exact hy), g]
  · intro hn hp
    rw [settleTail_success]
    have : (tailFlipped r x).cal.proposal = none := by
      rw [hn] at k4; simpa using k4
    have : proposalSuccess (tailFlipped r x) = tailFlipped r x := by simp only [proposalSuccess, this]
    rw [this, sg, sightingNow_absent hn hp]

/-- A station that has staged in the sighting stages no more (R191, R193). -/
theorem stageTest_staged {s : State} (h : s.cal.stagedInSighting = true) : stageTest s = s := by
  simp only [stageTest]; split
  · rfl
  · rw [if_neg]; simp [h]

/-- Staging leaves the requests of the other kinds (R91, R193). -/
theorem stageTest_others (k : WriteKind) (s : State) (h : k ≠ .calStage) : (stageTest s).store.busyWith k = s.store.busyWith k := by
  simp only [stageTest]
  (repeat' split)
  · rfl
  · rw [postWrite_others _ _ _ (by simpa [WriteRequest.kind] using h)]; rfl
  · rfl

/-- The resume flag leaves every request (R174). -/
theorem resumeFlagClear_busy (k : WriteKind) (s : State) : (resumeFlagClear s).store.busyWith k = s.store.busyWith k := busy_eq (by simp) (by simp)

/-- The test of R191 leaves every request. -/
theorem sightingUpdate_busy (k : WriteKind) (s : State) : (sightingUpdate s).store.busyWith k = s.store.busyWith k := busy_eq (by simp) (by simp)

/-- The success of a proposal leaves every request (R198). -/
theorem proposalSuccess_busy (k : WriteKind) (s : State) : (proposalSuccess s).store.busyWith k = s.store.busyWith k := busy_eq (by simp) (by simp)

/-- A peer's record that shows a generation makes it proposed (R191). -/
theorem proposed_of_peer {s : State} {g : BitVec 16} (h : ∃ y ∈ s.peerRecords, y.2.proposal = g) : s.proposed g = true := by
  obtain ⟨y, hy, hk⟩ := h
  simp only [State.proposed, Bool.or_eq_true, List.any_eq_true, decide_eq_true_eq]; exact .inr ⟨y, hy, hk⟩

/-- The tail of an acceptance stages in READY at NONE, once in a sighting that a peer's record shows (R191, R193). -/
theorem settleTail_stages (r : StatusRecord) (x : State) (hg : x.cal.generation ≠ 0xFFFF)
    (hp : ∃ y ∈ x.peerRecords, y.2.proposal = x.cal.generation + 1) (h1 : x.coord.phase = .ready) (h2 : x.hold.level = .none)
    (h3 : x.engine.refState ≠ .surveying) (h4 : x.sensing.pfail.level = false) :
    (settleTail r x).cal.stagedInSighting = true ∧
    ((x.cal.sighting ≠ some (x.cal.generation + 1) ∨ x.cal.stagedInSighting = false) → (settleTail r x).store.busyWith .calStage = true) ∧
    (x.cal.sighting = some (x.cal.generation + 1) → x.cal.stagedInSighting = true →
      (settleTail r x).store.busyWith .calStage = x.store.busyWith .calStage) := by
  have now : ∀ z : State, z.cal.committed = x.cal.committed → z.peers = x.peers → z.link.station = x.link.station →
      z.sightingNow = some (x.cal.generation + 1) := by
    intro z a b c
    have g : z.cal.generation = x.cal.generation := by simp only [Cal.generation, a]
    rw [sightingNow_shown (by rw [g]; exact hg) (proposed_of_peer (by rw [g, peerRecords_congr b c]; exact hp)), g]
  -- the steps that keep a staged sighting and the CAL_STAGE request
  have keep : ∀ z : State, z.cal.committed = x.cal.committed → z.peers = x.peers → z.link.station = x.link.station →
      z.cal.sighting = some (x.cal.generation + 1) → z.cal.stagedInSighting = true →
      (proposalSuccess (flipTest (stageTest (sightingUpdate (resumeFlagClear (entryTest (rollForwardOn r z))))))).cal.stagedInSighting = true ∧
      (proposalSuccess (flipTest (stageTest (sightingUpdate (resumeFlagClear (entryTest (rollForwardOn r z))))))).store.busyWith .calStage = z.store.busyWith .calStage := by
    intro z a b c d f
    obtain ⟨u, hu⟩ : ∃ u, u = resumeFlagClear (entryTest (rollForwardOn r z)) := ⟨_, rfl⟩
    have ur : (rollForwardOn r z).cal.sighting = z.cal.sighting ∧ (rollForwardOn r z).cal.stagedInSighting = z.cal.stagedInSighting ∧
        (rollForwardOn r z).store.busyWith .calStage = z.store.busyWith .calStage := by
      rcases rollForwardOn_or r z with h | h
      · rw [h]; exact ⟨rfl, rfl, rfl⟩
      · rw [h.1, postFlip_cal, postFlip_others _ _ (by simp)]; exact ⟨rfl, rfl, rfl⟩
    have uc : u.cal = (rollForwardOn r z).cal := by rw [hu, resumeFlagClear_cal, entryTest_cal]
    have us : u.store.busyWith .calStage = z.store.busyWith .calStage := by
      rw [hu, resumeFlagClear_busy, entryTest_others _ _ (by simp) (by simp), ur.2.2]
    have ui : sightingUpdate u = u := by
      apply sightingUpdate_id
      rw [uc, ur.1, d, now u (by rw [uc]; simp [a]) (by rw [hu]; simp [b]) (by rw [hu]; simp [c])]
    rw [← hu, ui, stageTest_staged (by rw [uc, ur.2.1, f])]
    obtain ⟨v, hv⟩ : ∃ v, v = flipTest u := ⟨_, rfl⟩
    have vf : v.cal.sighting = z.cal.sighting ∧ v.cal.stagedInSighting = true ∧ v.store.busyWith .calStage = z.store.busyWith .calStage := by
      rw [hv]
      rcases flipTest_or u with h | h
      · rw [h, uc, ur.1, ur.2.1]; exact ⟨rfl, f, us⟩
      · rw [h.1, postFlip_cal, postFlip_others _ _ (by simp), uc]; exact ⟨ur.1, by rw [← f, ← ur.2.1], us⟩
    rw [← hv, proposalSuccess_busy]
    refine ⟨?_, vf.2.2⟩
    rcases proposalSuccess_or v with h | h
    · rw [h]; exact vf.2.1
    · rw [h, sightingUpdate_id]
      · exact vf.2.1
      · show v.cal.sighting = _
        rw [vf.1, d, now]
        · show v.cal.committed = _; rw [hv]; simp [uc, a]
        · show v.peers = _; rw [hv, hu]; simp [b]
        · show v.link.station = _; rw [hv, hu]; simp [c]
  have e1 := sightingUpdate_sighting x
  rw [now x rfl rfl rfl] at e1
  have fin : ∀ z : State, z = stageTest (sightingUpdate x) → z.cal.committed = x.cal.committed ∧ z.peers = x.peers ∧ z.link.station = x.link.station ∧
      z.cal.sighting = some (x.cal.generation + 1) := by
    intro z hz; rw [hz, (stageTest_sightings _).1, e1]; simp
  obtain ⟨q1, q2, q3, q4⟩ := fin _ rfl
  have st : settleTail r x = proposalSuccess (flipTest (stageTest (sightingUpdate (resumeFlagClear (entryTest (rollForwardOn r (stageTest (sightingUpdate x)))))))) := rfl
  rw [st]
  by_cases hs : (sightingUpdate x).cal.stagedInSighting = true
  · have hx : x.cal.sighting = some (x.cal.generation + 1) ∧ x.cal.stagedInSighting = true := by
      simp only [sightingUpdate] at hs
      split at hs
      · rename_i h; exact ⟨by rw [h, now x rfl rfl rfl], hs⟩
      · cases hs
    obtain ⟨k1, k2⟩ := keep _ q1 q2 q3 q4 (by rw [stageTest_staged hs]; exact hs)
    refine ⟨k1, fun h => ?_, fun _ _ => ?_⟩
    · rcases h with h | h
      · exact absurd hx.1 h
      · rw [hx.2] at h; cases h
    · rw [k2, stageTest_staged hs, sightingUpdate_busy]
  · have hp : stageTest (sightingUpdate x) = postWrite (.calStage ((sightingUpdate x).stageRecord (x.cal.generation + 1)))
        ((sightingUpdate x).setCal { (sightingUpdate x).cal with stagedInSighting := true }) := by
      simp only [stageTest, e1]
      rw [if_pos]
      simp [Bool.eq_false_iff.2 hs, h1, h2, h3, h4]
    obtain ⟨k1, k2⟩ := keep _ q1 q2 q3 q4 (by rw [hp, (postWrite_sightings _ _).2.1]; rfl)
    have b : (stageTest (sightingUpdate x)).store.busyWith .calStage = true := by
      rw [hp]
      exact (postWrite_posted (.calStage ((sightingUpdate x).stageRecord (x.cal.generation + 1))) _ (fun _ => by simpa using h4)).1
    refine ⟨k1, fun _ => by rw [k2, b], fun a c => ?_⟩
    exact absurd (by rw [sightingUpdate_id (by rw [a, now x rfl rfl rfl])]; exact c) hs

/-- What R194 and R197 ask alike is read from the staged record, the failed flip, the requests and the phase. -/
theorem flipReady_of {x z : State} (h : x.flipReady = true) (h1 : z.cal.staged = x.cal.staged) (h2 : z.cal.flipFailed = x.cal.flipFailed)
    (h3 : z.store.calBusy = x.store.calBusy) (h4 : z.coord.phase = x.coord.phase) : z.flipReady = true := by
  simpa only [State.flipReady, h1, h2, h3, h4] using h

/-- A flip that the roll-forward has posted stays through the hand-off (R70, R197). -/
theorem settleTail_flipped (r : StatusRecord) (x : State) (h : (rollForwardOn r (stageTest (sightingUpdate x))).store.busyWith .calFlip = true) :
    (settleTail r x).store.busyWith .calFlip = true := handOff_busy _ _ h (by simp)

/-- The tail of an acceptance posts the flip where R194 asks for it. -/
theorem settleTail_flips (r : StatusRecord) (x : State) (g : BitVec 16) (h1 : x.cal.sighting = some g) (h2 : x.sightingNow = some g)
    (h3 : x.cal.stagedInSighting = true) (h4 : x.flipReady = true) (h5 : x.cal.sealedInSighting = true)
    (h6 : ∀ k : Station, k.val < x.cfg.armSize → k ≠ x.own →
      ∃ y, x.heardRecord k = some y ∧ (y.staged = x.cal.stagedGeneration ∨ y.committed = x.cal.stagedGeneration)) :
    (settleTail r x).store.busyWith .calFlip = true ∧ (∀ p, (settleTail r x).cal.proposal = some p → p.flipPosted = true) := by
  have s1 : stageTest (sightingUpdate x) = x := by rw [sightingUpdate_id (by rw [h1, h2]), stageTest_staged h3]
  have pp : ∀ z : State, ∀ p, (postFlip z).cal.proposal = some p → p.flipPosted = true := by
    intro z p; rw [postFlip_cal]
    show Option.map _ z.cal.proposal = some p → _
    cases z.cal.proposal
    · simp
    · simp only [Option.map_some, Option.some.injEq]; rintro rfl; rfl
  have ps : ∀ z : State, (∀ p, z.cal.proposal = some p → p.flipPosted = true) → ∀ p, (proposalSuccess z).cal.proposal = some p → p.flipPosted = true := by
    intro z hz p
    rcases proposalSuccess_or z with h | h
    · rw [h]; exact hz p
    · rw [h, sightingUpdate_proposal]; simp
  have fl : ∀ z : State, (∀ p, z.cal.proposal = some p → p.flipPosted = true) → ∀ p, (flipTest z).cal.proposal = some p → p.flipPosted = true := by
    intro z hz p
    rcases flipTest_or z with h | h
    · rw [h]; exact hz p
    · rw [h.1]; exact pp z p
  have st : settleTail r x = proposalSuccess (flipTest (stageTest (sightingUpdate (resumeFlagClear (entryTest (rollForwardOn r x)))))) := by
    show proposalSuccess (flipTest (stageTest (sightingUpdate (resumeFlagClear (entryTest (rollForwardOn r (stageTest (sightingUpdate x)))))))) = _
    rw [s1]
  rcases rollForwardOn_or r x with h | h
  · rw [st, h]
    obtain ⟨u, hu⟩ : ∃ u, u = resumeFlagClear (entryTest x) := ⟨_, rfl⟩
    have uc : u.cal = x.cal := by rw [hu, resumeFlagClear_cal, entryTest_cal]
    have ub : ∀ k : WriteKind, k ≠ .routine → k ≠ .orderly → u.store.busyWith k = x.store.busyWith k := by
      intro k a b; rw [hu, resumeFlagClear_busy, entryTest_others _ _ a b]
    have up : u.peers = x.peers ∧ u.link.station = x.link.station ∧ u.coord = x.coord ∧ u.port.config = x.port.config := by rw [hu]; simp
    have ui : sightingUpdate u = u := by
      apply sightingUpdate_id
      rw [uc, h1, sightingNow_congr (x := x) (by rw [uc]) (by rw [uc]) up.1 up.2.1, h2]
    rw [← hu, ui, stageTest_staged (by rw [uc]; exact h3)]
    have fr : u.flipReady = true := flipReady_of h4 (by rw [uc]) (by rw [uc])
      (by simp only [Store.calBusy]; rw [ub _ (by simp) (by simp), ub _ (by simp) (by simp), ub _ (by simp) (by simp)]) (by rw [up.2.2.1])
    have ft : flipTest u = postFlip u := by
      simp only [flipTest]; rw [if_pos]
      simp only [fr, uc, h5, Bool.true_and, Bool.and_true, List.all_eq_true, Bool.or_eq_true, decide_eq_true_eq]
      intro k hk
      have hk' := (mem_arm u k).1 hk
      by_cases ko : k = u.own
      · exact .inl ko
      · right
        obtain ⟨y, hy, hz⟩ := h6 k (by simpa only [State.cfg, up.2.2.2] using hk') (by simpa only [State.own, up.2.1] using ko)
        have : u.heardRecord k = some y := by rw [← hy]; simp only [State.heardRecord, up.1]
        rw [this]; simpa using hz
    rw [ft]
    exact ⟨by rw [proposalSuccess_busy]; exact postFlip_busy u, ps _ (pp u)⟩
  · refine ⟨settleTail_flipped r x (by rw [s1, h.1]; exact postFlip_busy x), ?_⟩
    rw [st, h.1]
    apply ps; apply fl
    intro p
    rw [stageTest_proposal, sightingUpdate_proposal, resumeFlagClear_cal, entryTest_cal]
    exact pp x p

/-- The tail of an acceptance rolls forward where R197 asks for it. -/
theorem settleTail_rolls (r : StatusRecord) (x : State) (h1 : x.flipReady = true) (h2 : r.committed = x.cal.stagedGeneration)
    (h3 : x.coord.phase = .ready → x.hold.level = .none → x.sightingNow = none) :
    (settleTail r x).store.busyWith .calFlip = true := by
  apply settleTail_flipped
  have su : (sightingUpdate x).cal.staged = x.cal.staged ∧ (sightingUpdate x).cal.flipFailed = x.cal.flipFailed := by
    simp only [sightingUpdate]; split <;> exact ⟨rfl, rfl⟩
  have st : stageTest (sightingUpdate x) = sightingUpdate x := by
    simp only [stageTest, sightingUpdate_sighting]
    split
    · rfl
    · rename_i g hg
      rw [if_neg]
      simp only [Bool.and_eq_true, decide_eq_true_eq, sightingUpdate_keeps]
      rintro ⟨⟨⟨⟨_, a⟩, b⟩, _⟩, _⟩
      rw [h3 a b] at hg; cases hg
  have fr : (sightingUpdate x).flipReady = true := flipReady_of h1 su.1 su.2 (by simp) (by simp)
  rw [st]
  have : rollForwardOn r (sightingUpdate x) = postFlip (sightingUpdate x) := by
    simp only [rollForwardOn]; rw [if_pos]
    simp only [fr, Bool.true_and, decide_eq_true_eq, Cal.stagedGeneration, su.1]
    exact h2
  rw [this]; exact postFlip_busy _

/-- With a failed flip, and in ISOLATED, the tail of an acceptance posts no flip (R194, R197). -/
theorem settleTail_flipless (r : StatusRecord) (x : State) (h : x.cal.flipFailed = true ∨ x.coord.phase = .isolated) :
    (settleTail r x).store.busyWith .calFlip = x.store.busyWith .calFlip := by
  have no : ∀ z : State, (z.cal.flipFailed = true ∨ z.coord.phase = .isolated) → rollForwardOn r z = z ∧ flipTest z = z := by
    intro z hz
    have : z.flipReady ≠ true := by
      simp only [State.flipReady, ne_eq, Bool.and_eq_true, Bool.not_eq_true', decide_eq_true_eq]
      rintro ⟨⟨⟨_, a⟩, _⟩, b⟩
      rcases hz with k | k
      · rw [k] at a; cases a
      · exact b k
    constructor
    · rcases rollForwardOn_or r z with k | k
      · exact k
      · exact absurd k.2 this
    · rcases flipTest_or z with k | k
      · exact k
      · exact absurd k.2 this
  have sf : ∀ z : State, (sightingUpdate z).cal.flipFailed = z.cal.flipFailed := by intro z; simp only [sightingUpdate]; split <;> rfl
  have n1 := no (stageTest (sightingUpdate x)) (by rw [(stageTest_sightings _).2.1, sf]; simpa using h)
  have st : settleTail r x = proposalSuccess (flipTest (stageTest (sightingUpdate (resumeFlagClear (entryTest (stageTest (sightingUpdate x))))))) := by
    show proposalSuccess (flipTest (stageTest (sightingUpdate (resumeFlagClear (entryTest (rollForwardOn r (stageTest (sightingUpdate x)))))))) = _
    rw [n1.1]
  rw [st, proposalSuccess_busy, (no _ (by
    rw [(stageTest_sightings _).2.1, sf, resumeFlagClear_cal, entryTest_cal, (stageTest_sightings _).2.1, sf]; simpa using h)).2,
    stageTest_others _ _ (by simp), sightingUpdate_busy, resumeFlagClear_busy, entryTest_others _ _ (by simp) (by simp),
    stageTest_others _ _ (by simp), sightingUpdate_busy]

end Sys2Proof.Machine
end

