-- ==== Sys2Proof/Laws/Bounded.lean ====
section
/-! SUPPORT. Every operation keeps the bounds of the fault list, the captures and the plan steps, and the steps at their
indexes (R10, R128, R130, R157). -/

set_option linter.unusedTactic false
set_option linter.unnecessarySeqFocus false
set_option linter.unusedSimpArgs false
set_option linter.unreachableTactic false
set_option linter.unusedVariables false

namespace Sys2Proof.Machine

@[simp] theorem setPower_bounded (s : State) (x : Power) : (s.setPower x).listsBounded = s.listsBounded := propext ⟨id, id⟩
@[simp] theorem setStandby_bounded (s : State) (x : Standby) : (s.setStandby x).listsBounded = s.listsBounded := propext ⟨id, id⟩
@[simp] theorem setDecoder_bounded (s : State) (x : Decoder) : (s.setDecoder x).listsBounded = s.listsBounded := propext ⟨id, id⟩
@[simp] theorem setSensing_bounded (s : State) (x : Sensing) (h0 : x.captures = s.sensing.captures) :
    (s.setSensing x).listsBounded = s.listsBounded := by simp [State.listsBounded, h0]
@[simp] theorem setEngine_bounded (s : State) (x : Engine) : (s.setEngine x).listsBounded = s.listsBounded := propext ⟨id, id⟩
@[simp] theorem setLink_bounded (s : State) (x : Link) : (s.setLink x).listsBounded = s.listsBounded := propext ⟨id, id⟩
@[simp] theorem setPeers_bounded (s : State) (x : Vector PeerEntry 8) : (s.setPeers x).listsBounded = s.listsBounded := propext ⟨id, id⟩
@[simp] theorem setCoord_bounded (s : State) (x : Coord) : (s.setCoord x).listsBounded = s.listsBounded := propext ⟨id, id⟩
@[simp] theorem setPlan_bounded (s : State) (x : Plan) (h0 : x.steps = s.plan.steps) :
    (s.setPlan x).listsBounded = s.listsBounded := by simp [State.listsBounded, h0]
@[simp] theorem setHold_bounded (s : State) (x : Hold) (h0 : x.faults = s.hold.faults) :
    (s.setHold x).listsBounded = s.listsBounded := by simp [State.listsBounded, h0]
@[simp] theorem setGate_bounded (s : State) (x : GateState) : (s.setGate x).listsBounded = s.listsBounded := propext ⟨id, id⟩
@[simp] theorem setCal_bounded (s : State) (x : Cal) : (s.setCal x).listsBounded = s.listsBounded := propext ⟨id, id⟩
@[simp] theorem setStore_bounded (s : State) (x : Store) : (s.setStore x).listsBounded = s.listsBounded := propext ⟨id, id⟩
@[simp] theorem setMem_bounded (s : State) (x : Memory) : (s.setMem x).listsBounded = s.listsBounded := propext ⟨id, id⟩
@[simp] theorem setPort_bounded (s : State) (x : Port) : (s.setPort x).listsBounded = s.listsBounded := propext ⟨id, id⟩

@[simp] theorem advance_bounded (dt : Time) (s : State) : (advance dt s).listsBounded = s.listsBounded := by simp [State.listsBounded]

@[simp] theorem bumpFree_bounded (s : State) : (bumpFree s).listsBounded = s.listsBounded := by simp [State.listsBounded]

@[simp] theorem addCause_bounded (c : Cause) (s : State) : (addCause c s).listsBounded = s.listsBounded := by simp [State.listsBounded]

@[simp] theorem writeOrder_bounded (o : MotionOrder) (s : State) : (writeOrder o s).listsBounded = s.listsBounded := by simp [State.listsBounded]

@[simp] theorem engineWrite_bounded (o : MotionOrder) (s : State) : (engineWrite o s).listsBounded = s.listsBounded := by simp [State.listsBounded]

@[simp] theorem clearHoldOrder_bounded (s : State) : (clearHoldOrder s).listsBounded = s.listsBounded := by simp [State.listsBounded]

@[simp] theorem recordFault_bounded (code : Byte) (cls : FaultClass) (origin : Station) (step : Option Nat)
    (detail : BitVec 32) (s : State) (h : s.listsBounded) :
    (recordFault code cls origin step detail s).listsBounded := by
  refine ⟨?_, by simpa using h.2.1, by simpa using h.2.2⟩
  rw [recordFault_faults]
  exact appendFault_length _ _ h.1

@[simp] theorem noteFault_bounded (code : FaultCode) (cls : FaultClass) (step : Option Nat) (detail : Int) (s : State) (h : s.listsBounded) : (noteFault code cls step detail s).listsBounded := by
  simp only [noteFault]; (repeat' split) <;> simp (maxDischargeDepth := 9) [h]

@[simp] theorem gateUpdate_bounded (s : State) : (gateUpdate s).listsBounded = s.listsBounded := by simp [State.listsBounded]

@[simp] theorem parkedCheck_bounded (s : State) : (parkedCheck s).listsBounded = s.listsBounded := by simp [State.listsBounded]

@[simp] theorem moveCounter_bounded (d : Int) (s : State) (h : s.listsBounded) : (moveCounter d s).listsBounded := by
  refine ⟨by simpa using h.1, ?_, by simpa using h.2.2⟩
  simpa [moveCounter, Sensing.moved] using h.2.1

@[simp] theorem applySet_bounded (v : Int) (p : Position) (s : State) (h : s.listsBounded) : (applySet v p s).listsBounded := by
  simp [applySet, h]

theorem setClaimNow_bounded (v : Int) (s t : State) (e : setClaimNow v s = some t) (h : s.listsBounded) : t.listsBounded := by
  simp only [setClaimNow] at e
  split at e
  · cases e
  · cases e; simp [h]

theorem setClaimNewest_bounded (v : Int) (s t : State) (e : setClaimNewest v s = some t) (h : s.listsBounded) :
    t.listsBounded := by
  simp only [setClaimNewest] at e
  split at e
  · cases e
  · split at e <;> cases e
    simp [h]

theorem shiftClaim_bounded (d : Int) (s t : State) (e : shiftClaim d s = some t) (h : s.listsBounded) : t.listsBounded := by
  simp only [shiftClaim] at e
  split at e
  · cases e
  · cases e; simp [h]

@[simp] theorem setNewestMark_bounded (m : Option Int) (s : State) (h : s.listsBounded) : (setNewestMark m s).listsBounded := by
  simp only [setNewestMark]
  split
  · exact h
  · rename_i c hc
    refine ⟨h.1, ?_, h.2.2⟩
    have := h.2.1
    cases hl : s.sensing.captures with
    | nil => simp
    | cons a l => rw [hl] at this; simpa using this

@[simp] theorem grant_bounded (r : WriteRequest) (s : State) : (grant r s).listsBounded = s.listsBounded := by simp [State.listsBounded]

@[simp] theorem addPending_bounded (r : WriteRequest) (s : State) : (addPending r s).listsBounded = s.listsBounded := by simp [State.listsBounded]

@[simp] theorem dropPending_bounded (k : WriteKind) (s : State) : (dropPending k s).listsBounded = s.listsBounded := by simp [State.listsBounded]

@[simp] theorem grantNext_bounded (s : State) : (grantNext s).listsBounded = s.listsBounded := by simp [State.listsBounded]

@[simp] theorem postWrite_bounded (r : WriteRequest) (s : State) : (postWrite r s).listsBounded = s.listsBounded := by simp [State.listsBounded]

@[simp] theorem postLockRecord_bounded (s : State) : (postLockRecord s).listsBounded = s.listsBounded := by simp [State.listsBounded]

@[simp] theorem postLockClear_bounded (s : State) : (postLockClear s).listsBounded = s.listsBounded := by simp [State.listsBounded]

@[simp] theorem noteLatch_bounded (f : JournalFrame) (s : State) : (noteLatch f s).listsBounded = s.listsBounded := by simp [State.listsBounded]

@[simp] theorem markLatch_bounded (s : State) : (markLatch s).listsBounded = s.listsBounded := by simp [State.listsBounded]

@[simp] theorem finalLatch_bounded (s : State) : (finalLatch s).listsBounded = s.listsBounded := by simp [State.listsBounded]

@[simp] theorem orderlyLatch_bounded (s : State) : (orderlyLatch s).listsBounded = s.listsBounded := by simp [State.listsBounded]

@[simp] theorem planDone_bounded (step : Option Nat) (s : State) : (planDone step s).listsBounded = s.listsBounded := by simp [State.listsBounded]

@[simp] theorem planHeld_bounded (step : Option Nat) (s : State) : (planHeld step s).listsBounded = s.listsBounded := by simp [State.listsBounded]

@[simp] theorem planHold_bounded (s : State) : (planHold s).listsBounded = s.listsBounded := by simp [State.listsBounded]

@[simp] theorem planAbandon_bounded (s : State) : (planAbandon s).listsBounded = s.listsBounded := by simp [State.listsBounded]

@[simp] theorem planReset_bounded (s : State) : (planReset s).listsBounded = s.listsBounded := by simp [State.listsBounded]

@[simp] theorem demote_bounded (s : State) : (demote s).listsBounded = s.listsBounded := by simp [State.listsBounded]

@[simp] theorem operationEnded_bounded (s : State) : (operationEnded s).listsBounded = s.listsBounded := by simp [State.listsBounded]

@[simp] theorem useDropMotion_bounded (s : State) : (useDropMotion s).listsBounded = s.listsBounded := by simp [State.listsBounded]

@[simp] theorem noteDropMotion_bounded (s : State) : (noteDropMotion s).listsBounded = s.listsBounded := by simp [State.listsBounded]

@[simp] theorem seekFinish_bounded (c : SeekContext) (s : State) : (seekFinish c s).listsBounded = s.listsBounded := by simp [State.listsBounded]

@[simp] theorem seekReturnHeld_bounded (c : SeekContext) (s : State) : (seekReturnHeld c s).listsBounded = s.listsBounded := by simp [State.listsBounded]

@[simp] theorem surveyFinish_bounded (c : SurveyContext) (o : SurveyOutcome) (filled : Bool) (s : State) : (surveyFinish c o filled s).listsBounded = s.listsBounded := by simp [State.listsBounded]

@[simp] theorem surveyReturn_bounded (c : SurveyContext) (e : SurveyEnd) (s : State) (h : s.listsBounded) : (surveyReturn c e s).listsBounded := by
  simp only [surveyReturn]; (repeat' split) <;> simp (maxDischargeDepth := 9) [h]

@[simp] theorem engineHold_bounded (s : State) (h : s.listsBounded) : (engineHold s).listsBounded := by
  simp only [engineHold]; (repeat' split) <;> simp (maxDischargeDepth := 9) [h]

@[simp] theorem sightingUpdate_bounded (s : State) : (sightingUpdate s).listsBounded = s.listsBounded := by simp [State.listsBounded]

@[simp] theorem endProposal_bounded (detail : Option Int) (s : State) (h : s.listsBounded) : (endProposal detail s).listsBounded := by
  simp only [endProposal]; (repeat' split) <;> simp (maxDischargeDepth := 9) [h]

@[simp] theorem withdrawProposal_bounded (detail : Int) (s : State) (h : s.listsBounded) : (withdrawProposal detail s).listsBounded := by
  simp only [withdrawProposal]; (repeat' split) <;> simp (maxDischargeDepth := 9) [h]

@[simp] theorem stageTest_bounded (s : State) : (stageTest s).listsBounded = s.listsBounded := by simp [State.listsBounded]

@[simp] theorem postFlip_bounded (s : State) : (postFlip s).listsBounded = s.listsBounded := by simp [State.listsBounded]

@[simp] theorem flipTest_bounded (s : State) : (flipTest s).listsBounded = s.listsBounded := by simp [State.listsBounded]

@[simp] theorem rollForwardOn_bounded (r : StatusRecord) (s : State) : (rollForwardOn r s).listsBounded = s.listsBounded := by simp [State.listsBounded]

@[simp] theorem rollForwardTable_bounded (s : State) : (rollForwardTable s).listsBounded = s.listsBounded := by simp [State.listsBounded]

@[simp] theorem proposalSuccess_bounded (s : State) (h : s.listsBounded) : (proposalSuccess s).listsBounded := by
  simp only [proposalSuccess]; (repeat' split) <;> simp (maxDischargeDepth := 9) [h]

@[simp] theorem changeSeq_bounded (q : BitVec 16) (s : State) : (changeSeq q s).listsBounded = s.listsBounded := by simp [State.listsBounded]

@[simp] theorem setLevel_bounded (l : HoldLevel) (s : State) : (setLevel l s).listsBounded = s.listsBounded := by simp [State.listsBounded]

@[simp] theorem setComplete_bounded (b : Bool) (s : State) : (setComplete b s).listsBounded = s.listsBounded := by simp [State.listsBounded]

@[simp] theorem setCause_bounded (cause : Byte) (origin : Station) (s : State) : (setCause cause origin s).listsBounded = s.listsBounded := by simp [State.listsBounded]

@[simp] theorem newHold_bounded (l : HoldLevel) (cause : Byte) (s : State) : (newHold l cause s).listsBounded = s.listsBounded := by simp [State.listsBounded]

@[simp] theorem entryTest_bounded (s : State) : (entryTest s).listsBounded = s.listsBounded := by simp [State.listsBounded]

@[simp] theorem holdReaches_bounded (s : State) (h : s.listsBounded) : (holdReaches s).listsBounded := by
  simp only [holdReaches]; (repeat' split) <;> simp (maxDischargeDepth := 9) [h]

@[simp] theorem beginEntry_bounded (s : State) (h : s.listsBounded) : (beginEntry s).listsBounded := by
  simp only [beginEntry]; (repeat' split) <;> simp (maxDischargeDepth := 9) [h]

@[simp] theorem enterLockout_bounded (post : Bool) (s : State) (h : s.listsBounded) : (enterLockout post s).listsBounded := by
  simp only [enterLockout]; (repeat' split) <;> simp (maxDischargeDepth := 9) [h]

@[simp] theorem enterLevel_bounded (s : State) (h : s.listsBounded) : (enterLevel s).listsBounded := by
  simp only [enterLevel]; (repeat' split) <;> simp (maxDischargeDepth := 9) [h]

@[simp] theorem setPhase_bounded (p : ArmPhase) (s : State) (h : s.listsBounded) : (setPhase p s).listsBounded := by
  simp only [setPhase]; (repeat' split) <;> simp (maxDischargeDepth := 9) [h]

@[simp] theorem haltPhase_bounded (s : State) (h : s.listsBounded) : (haltPhase s).listsBounded := by
  simp only [haltPhase]; (repeat' split) <;> simp (maxDischargeDepth := 9) [h]

@[simp] theorem raiseFault_bounded (code : FaultCode) (cls : FaultClass) (step : Option Nat) (detail : Int) (s : State) (h : s.listsBounded) : (raiseFault code cls step detail s).listsBounded := by
  simp only [raiseFault]; (repeat' split) <;> simp (maxDischargeDepth := 9) [h]

@[simp] theorem raiseHold_bounded (code : FaultCode) (detail : Int) (s : State) (h : s.listsBounded) : (raiseHold code detail s).listsBounded := by
  simp only [raiseHold]; (repeat' split) <;> simp (maxDischargeDepth := 9) [h]

@[simp] theorem raiseAbort_bounded (code : FaultCode) (detail : Int) (s : State) (h : s.listsBounded) : (raiseAbort code detail s).listsBounded := by
  simp only [raiseAbort]; (repeat' split) <;> simp (maxDischargeDepth := 9) [h]

@[simp] theorem raiseSpurious_bounded (sector : Nat) (s : State) (h : s.listsBounded) : (raiseSpurious sector s).listsBounded := by
  simp only [raiseSpurious]; (repeat' split) <;> simp (maxDischargeDepth := 9) [h]

@[simp] theorem levelToNone_bounded (s : State) : (levelToNone s).listsBounded = s.listsBounded := by simp [State.listsBounded]

@[simp] theorem resumeHold_bounded (s : State) (h : s.listsBounded) : (resumeHold s).listsBounded := by
  simp only [resumeHold]; (repeat' split) <;> simp (maxDischargeDepth := 9) [h]

@[simp] theorem clearLockout_bounded (s : State) (h : s.listsBounded) : (clearLockout s).listsBounded := by
  simp only [clearLockout]; (repeat' split) <;> simp (maxDischargeDepth := 9) [h]

@[simp] theorem restartStation_bounded (s : State) (h : s.listsBounded) : (restartStation s).listsBounded := by
  simp only [restartStation]; (repeat' split) <;> simp (maxDischargeDepth := 9) [h]

@[simp] theorem stopMotion_bounded (s : State) : (stopMotion s).listsBounded = s.listsBounded := by simp [State.listsBounded]

@[simp] theorem engineLost_bounded (s : State) : (engineLost s).listsBounded = s.listsBounded := by simp [State.listsBounded]

@[simp] theorem engineOrder_bounded (o : MotionOrder) (s : State) (h : s.listsBounded) : (engineOrder o s).listsBounded := by
  simp only [engineOrder]; (repeat' split) <;> simp (maxDischargeDepth := 9) [h]

@[simp] theorem limitArrival_bounded (d : Int) (s : State) (h : s.listsBounded) : (limitArrival d s).listsBounded := by
  simp only [limitArrival]; (repeat' split) <;> simp (maxDischargeDepth := 9) [h]

@[simp] theorem startSeek_bounded (k : SeekKind) (d : StepDir) (speed : SpeedClass) (limit : Nat) (step : Option Nat) (s : State) (h : s.listsBounded) : (startSeek k d speed limit step s).listsBounded := by
  simp only [startSeek]; (repeat' split) <;> simp (maxDischargeDepth := 9) [h]

@[simp] theorem planRetry_bounded (step : Option Nat) (code : FaultCode) (detail : Int) (s : State) (h : s.listsBounded) : (planRetry step code detail s).listsBounded := by
  simp only [planRetry]; (repeat' split) <;> simp (maxDischargeDepth := 9) [h]

@[simp] theorem seekReturn_bounded (c : SeekContext) (e : SeekEnd) (s : State) (h : s.listsBounded) : (seekReturn c e s).listsBounded := by
  simp only [seekReturn]; (repeat' split) <;> simp (maxDischargeDepth := 9) [h]

@[simp] theorem endSeek_bounded (c : SeekContext) (e : SeekEnd) (detail : Int) (s : State) (h : s.listsBounded) : (endSeek c e detail s).listsBounded := by
  simp only [endSeek]; (repeat' split) <;> simp (maxDischargeDepth := 9) [h]

@[simp] theorem capturedComplete_bounded (c : SeekContext) (s : State) : (capturedComplete c s).listsBounded = s.listsBounded := by simp [State.listsBounded]

@[simp] theorem enterCaptured_bounded (c : SeekContext) (s : State) : (enterCaptured c s).listsBounded = s.listsBounded := by simp [State.listsBounded]

@[simp] theorem seekClaim_bounded (c : SeekContext) (v : Int) (s : State) (h : s.listsBounded) :
    (seekClaim c v s).listsBounded := by
  simp only [seekClaim]
  cases hx : setClaimNewest v s with
  | none => simp [h]
  | some x =>
    have := setClaimNewest_bounded v s x hx h
    (repeat' split) <;> simp_all

@[simp] theorem mismatchResolve_bounded (s : State) : (mismatchResolve s).listsBounded = s.listsBounded := by simp [State.listsBounded]

@[simp] theorem witnessMismatch_bounded (c : SeekContext) (deviation : Int) (s : State) (h : s.listsBounded) : (witnessMismatch c deviation s).listsBounded := by
  simp only [witnessMismatch]; (repeat' split) <;> simp (maxDischargeDepth := 9) [h]

@[simp] theorem seekIgnores_bounded (c : SeekContext) (x : Capture) (s : State) (h : s.listsBounded) : (seekIgnores c x s).listsBounded := by
  simp only [seekIgnores]; (repeat' split) <;> simp (maxDischargeDepth := 9) [h]

@[simp] theorem seekCapture_bounded (c : SeekContext) (x : Capture) (s : State) (h : s.listsBounded) : (seekCapture c x s).listsBounded := by
  simp only [seekCapture]; (repeat' split) <;> simp (maxDischargeDepth := 9) [h]

@[simp] theorem markCheck_bounded (x : Capture) (s : State) (h : s.listsBounded) : (markCheck x s).listsBounded := by
  simp only [markCheck]; (repeat' split) <;> simp (maxDischargeDepth := 9) [h]

@[simp] theorem surveyEnterCapture_bounded (c : SurveyContext) (phase : Nat) (s : State) (h : s.listsBounded) : (surveyEnterCapture c phase s).listsBounded := by
  simp only [surveyEnterCapture]; (repeat' split) <;> simp (maxDischargeDepth := 9) [h]

@[simp] theorem surveyEnterGoto_bounded (c : SurveyContext) (phase : Nat) (s : State) (h : s.listsBounded) : (surveyEnterGoto c phase s).listsBounded := by
  simp only [surveyEnterGoto]; (repeat' split) <;> simp (maxDischargeDepth := 9) [h]

@[simp] theorem surveyEnterApproach_bounded (c : SurveyContext) (phase : Nat) (s : State) (h : s.listsBounded) : (surveyEnterApproach c phase s).listsBounded := by
  simp only [surveyEnterApproach]; (repeat' split) <;> simp (maxDischargeDepth := 9) [h]

@[simp] theorem surveyFail_bounded (c : SurveyContext) (phase : Nat) (s : State) (h : s.listsBounded) : (surveyFail c phase s).listsBounded := by
  simp only [surveyFail]; (repeat' split) <;> simp (maxDischargeDepth := 9) [h]

@[simp] theorem raiseBacklash_bounded (b : Int) (s : State) (h : s.listsBounded) : (raiseBacklash b s).listsBounded := by
  simp only [raiseBacklash]; (repeat' split) <;> simp (maxDischargeDepth := 9) [h]

@[simp] theorem raiseRatio_bounded (d : Int) (s : State) (h : s.listsBounded) : (raiseRatio d s).listsBounded := by
  simp only [raiseRatio]; (repeat' split) <;> simp (maxDischargeDepth := 9) [h]

@[simp] theorem surveyComplete_bounded (c : SurveyContext) (s : State) (h : s.listsBounded) : (surveyComplete c s).listsBounded := by
  simp only [surveyComplete]; (repeat' split) <;> simp (maxDischargeDepth := 9) [h]

@[simp] theorem surveyStandstill_bounded (c : SurveyContext) (s : State) (h : s.listsBounded) : (surveyStandstill c s).listsBounded := by
  simp only [surveyStandstill]; (repeat' split) <;> simp (maxDischargeDepth := 9) [h]

@[simp] theorem surveyTake_bounded (c : SurveyContext) (x : Capture) (s : State) (h : s.listsBounded) : (surveyTake c x s).listsBounded := by
  simp only [surveyTake]; (repeat' split) <;> simp (maxDischargeDepth := 9) [h]

@[simp] theorem surveyCapture_bounded (c : SurveyContext) (x : Capture) (s : State) (h : s.listsBounded) : (surveyCapture c x s).listsBounded := by
  simp only [surveyCapture]; (repeat' split) <;> simp (maxDischargeDepth := 9) [h]

@[simp] theorem offerCapture_bounded (x : Capture) (s : State) (h : s.listsBounded) : (offerCapture x s).listsBounded := by
  simp only [offerCapture]; (repeat' split) <;> simp (maxDischargeDepth := 9) [h]

@[simp] theorem startPark_bounded (step : Option Nat) (s : State) (h : s.listsBounded) : (startPark step s).listsBounded := by
  simp only [startPark]; (repeat' split) <;> simp (maxDischargeDepth := 9) [h]

@[simp] theorem parkStandstill_bounded (p : ParkOperation) (s : State) (h : s.listsBounded) : (parkStandstill p s).listsBounded := by
  simp only [parkStandstill]; (repeat' split) <;> simp (maxDischargeDepth := 9) [h]

@[simp] theorem parkWithdrawn_bounded (p : ParkOperation) (s : State) : (parkWithdrawn p s).listsBounded = s.listsBounded := by simp [State.listsBounded]

@[simp] theorem withdrawPark_bounded (p : ParkOperation) (s : State) : (withdrawPark p s).listsBounded = s.listsBounded := by simp [State.listsBounded]

@[simp] theorem engineStandstill_bounded (s : State) (h : s.listsBounded) : (engineStandstill s).listsBounded := by
  simp only [engineStandstill]; (repeat' split) <;> simp (maxDischargeDepth := 9) [h]

@[simp] theorem engineLeavesStill_bounded (s : State) : (engineLeavesStill s).listsBounded = s.listsBounded := by simp [State.listsBounded]

@[simp] theorem engineTravel_bounded (s : State) (h : s.listsBounded) : (engineTravel s).listsBounded := by
  simp only [engineTravel]; (repeat' split) <;> simp (maxDischargeDepth := 9) [h]

@[simp] theorem homeEdge_bounded (arrival : Bool) (s : State) (h : s.listsBounded) : (homeEdge arrival s).listsBounded := by
  simp only [homeEdge]; (repeat' split) <;> simp (maxDischargeDepth := 9) [h]

@[simp] theorem raiseDrift_bounded (s : State) (h : s.listsBounded) : (raiseDrift s).listsBounded := by
  simp only [raiseDrift]; (repeat' split) <;> simp (maxDischargeDepth := 9) [h]

@[simp] theorem reclassify_bounded (s : State) (h : s.listsBounded) : (reclassify s).listsBounded := by
  simp only [reclassify]; (repeat' split) <;> simp (maxDischargeDepth := 9) [h]

@[simp] theorem putClaim_bounded (j : Station) (e : ClaimEntry) (s : State) (h : s.listsBounded) : (putClaim j e s).listsBounded := by
  simp only [putClaim]; (repeat' split) <;> simp (maxDischargeDepth := 9) [h]

@[simp] theorem ownClaimFollows_bounded (s : State) (h : s.listsBounded) : (ownClaimFollows s).listsBounded := by
  simp only [ownClaimFollows]; (repeat' split) <;> simp (maxDischargeDepth := 9) [h]

@[simp] theorem loseContinuity_bounded (cause : StandbyError) (s : State) (h : s.listsBounded) : (loseContinuity cause s).listsBounded := by
  simp only [loseContinuity]; (repeat' split) <;> simp (maxDischargeDepth := 9) [h]

@[simp] theorem claimFromPeer_bounded (j : Station) (r : StatusRecord) (s : State) (h : s.listsBounded) : (claimFromPeer j r s).listsBounded := by
  simp only [claimFromPeer]; (repeat' split) <;> simp (maxDischargeDepth := 9) [h]

@[simp] theorem startNotes_bounded (s : State) (h : s.listsBounded) : (startNotes s).listsBounded := by
  simp only [startNotes]; (repeat' split) <;> simp (maxDischargeDepth := 9) [h]

@[simp] theorem buildClaim_bounded (s : State) (h : s.listsBounded) : (buildClaim s).listsBounded := by
  simp only [buildClaim]; (repeat' split) <;> simp (maxDischargeDepth := 9) [h]

@[simp] theorem initialStateClaim_bounded (s : State) (h : s.listsBounded) : (initialStateClaim s).listsBounded := by
  simp only [initialStateClaim]
  split
  · simp [h]
  · split
    · split
      · rename_i x hx; simpa using setClaimNow_bounded _ _ x hx (by simp [h])
      · simp [h]
    · simp [h]
  · simp [h]
  · simp [h]
  · simp [h]

@[simp] theorem claimStep_bounded (i : Nat) (s : State) : (claimStep i s).listsBounded = s.listsBounded := by simp [State.listsBounded]

@[simp] theorem scanFrom_bounded (l : List StepRecord) (s : State) (h : s.listsBounded) : (scanFrom s l).listsBounded := by
  induction l generalizing s with
  | nil => simpa [scanFrom] using h
  | cons r rest ih =>
    simp only [scanFrom]
    split
    · split
      · simp [h]
      · exact ih _ ⟨h.1, h.2.1, h.2.2⟩
      · exact ih s h
    · exact ih s h

@[simp] theorem planScan_bounded (s : State) : (planScan s).listsBounded = s.listsBounded := by simp [State.listsBounded]

@[simp] theorem withdrawClaim_bounded (i : Nat) (st : StepStatus) (s : State) : (withdrawClaim i st s).listsBounded = s.listsBounded := by simp [State.listsBounded]

@[simp] theorem startOperation_bounded (r : StepRecord) (s : State) (h : s.listsBounded) : (startOperation r s).listsBounded := by
  simp only [startOperation]; (repeat' split) <;> simp (maxDischargeDepth := 9) [h]

@[simp] theorem grantStep_bounded (r : StepRecord) (s : State) (h : s.listsBounded) : (grantStep r s).listsBounded := by
  simp only [grantStep]; (repeat' split) <;> simp (maxDischargeDepth := 9) [h]

@[simp] theorem grantTest_bounded (r : StepRecord) (s : State) (h : s.listsBounded) : (grantTest r s).listsBounded := by
  simp only [grantTest, planStage]; (repeat' split) <;> simp (maxDischargeDepth := 9) [h]

@[simp] theorem grantAndScan_bounded (s : State) (h : s.listsBounded) : (grantAndScan s).listsBounded := by
  simp only [grantAndScan]; (repeat' split) <;> simp (maxDischargeDepth := 9) [h]

@[simp] theorem noteYield_bounded (i : Nat) (s : State) (h : s.listsBounded) : (noteYield i s).listsBounded := by
  simp only [noteYield]; (repeat' split) <;> simp (maxDischargeDepth := 9) [h]

@[simp] theorem yieldTest_bounded (s : State) (h : s.listsBounded) : (yieldTest s).listsBounded := by
  simp only [yieldTest]; (repeat' split) <;> simp (maxDischargeDepth := 9) [h]

@[simp] theorem endFinding_bounded (s : State) (h : s.listsBounded) : (endFinding s).listsBounded := by
  simp only [endFinding]; (repeat' split) <;> simp (maxDischargeDepth := 9) [h]

@[simp] theorem planEvaluation_bounded (s : State) (h : s.listsBounded) : (planEvaluation s).listsBounded := by
  simp only [planEvaluation, planStage]; (repeat' split) <;> simp (maxDischargeDepth := 9) [h]

@[simp] theorem refreshOwn_bounded (s : State) : (refreshOwn s).listsBounded = s.listsBounded := by simp [State.listsBounded]

@[simp] theorem notePacking_bounded (s : State) : (notePacking s).listsBounded = s.listsBounded := by simp [State.listsBounded]

@[simp] theorem noteClaimSent_bounded (kept : Bool) (s : State) : (noteClaimSent kept s).listsBounded = s.listsBounded := by simp [State.listsBounded]

@[simp] theorem resumeFlagClear_bounded (s : State) : (resumeFlagClear s).listsBounded = s.listsBounded := by simp [State.listsBounded]

@[simp] theorem handOff_bounded (s : State) (h : s.listsBounded) : (handOff s).listsBounded := by
  simp only [handOff]; (repeat' split) <;> simp (maxDischargeDepth := 9) [h]

@[simp] theorem adoptionEntry_bounded (old : HoldLevel) (s : State) (h : s.listsBounded) : (adoptionEntry old s).listsBounded := by
  simp only [adoptionEntry]; (repeat' split) <;> simp (maxDischargeDepth := 9) [h]

@[simp] theorem adoptHold_bounded (j : Station) (r : StatusRecord) (s : State) (h : s.listsBounded) : (adoptHold j r s).listsBounded := by
  simp only [adoptHold]; (repeat' split) <;> simp (maxDischargeDepth := 9) [h]

@[simp] theorem raiseToPeer_bounded (r : StatusRecord) (s : State) (h : s.listsBounded) : (raiseToPeer r s).listsBounded := by
  simp only [raiseToPeer]; (repeat' split) <;> simp (maxDischargeDepth := 9) [h]

@[simp] theorem settleOrigin_bounded (r : StatusRecord) (s : State) : (settleOrigin r s).listsBounded = s.listsBounded := by simp [State.listsBounded]

@[simp] theorem takeSequence_bounded (j : Station) (r : StatusRecord) (s : State) (h : s.listsBounded) : (takeSequence j r s).listsBounded := by
  simp only [takeSequence]; (repeat' split) <;> simp (maxDischargeDepth := 9) [h]

@[simp] theorem takeResume_bounded (r : StatusRecord) (s : State) (h : s.listsBounded) : (takeResume r s).listsBounded := by
  simp only [takeResume]; (repeat' split) <;> simp (maxDischargeDepth := 9) [h]

@[simp] theorem takeLockClear_bounded (r : StatusRecord) (s : State) (h : s.listsBounded) : (takeLockClear r s).listsBounded := by
  simp only [takeLockClear]; (repeat' split) <;> simp (maxDischargeDepth := 9) [h]

@[simp] theorem takeRetained_bounded (j : Station) (r : StatusRecord) (s : State) (h : s.listsBounded) : (takeRetained j r s).listsBounded := by
  simp only [takeRetained]; (repeat' split) <;> simp (maxDischargeDepth := 9) [h]

@[simp] theorem takeRestart_bounded (r : StatusRecord) (s : State) (h : s.listsBounded) : (takeRestart r s).listsBounded := by
  simp only [takeRestart]; (repeat' split) <;> simp (maxDischargeDepth := 9) [h]

@[simp] theorem takeRestarted_bounded (j : Station) (r : StatusRecord) (s : State) (h : s.listsBounded) : (takeRestarted j r s).listsBounded := by
  simp only [takeRestarted]; (repeat' split) <;> simp (maxDischargeDepth := 9) [h]

@[simp] theorem acceptRecord_bounded (j : Station) (r : StatusRecord) (s : State) (h : s.listsBounded) : (acceptRecord j r s).listsBounded := by
  simp only [acceptRecord]; (repeat' split) <;> simp (maxDischargeDepth := 9) [h]

@[simp] theorem raisePeerLost_bounded (j : Station) (e : PeerEntry) (s : State) (h : s.listsBounded) : (raisePeerLost j e s).listsBounded := by
  simp only [raisePeerLost]; (repeat' split) <;> simp (maxDischargeDepth := 9) [h]

@[simp] theorem peerLost_bounded (j : Station) (e : PeerEntry) (s : State) (h : s.listsBounded) : (peerLost j e s).listsBounded := by
  simp only [peerLost]; (repeat' split) <;> simp (maxDischargeDepth := 9) [h]

@[simp] theorem agePeer_bounded (j : Station) (s : State) (h : s.listsBounded) : (agePeer j s).listsBounded := by
  simp only [agePeer]; (repeat' split) <;> simp (maxDischargeDepth := 9) [h]

theorem ageFold_bounded (l : List Station) (s : State) (h : s.listsBounded) :
    (l.foldl (fun s j => if j = s.own then s else agePeer j s) s).listsBounded := by
  induction l generalizing s with
  | nil => exact h
  | cons j l ih =>
    refine ih _ ?_
    show (if j = s.own then s else agePeer j s).listsBounded
    split <;> simp [h]

@[simp] theorem ageAll_bounded (s : State) (h : s.listsBounded) : (ageAll s).listsBounded := ageFold_bounded stations s h

@[simp] theorem enterListening_bounded (s : State) : (enterListening s).listsBounded = s.listsBounded := by simp [State.listsBounded]

@[simp] theorem raiseLinkAlone_bounded (detail : Int) (s : State) (h : s.listsBounded) : (raiseLinkAlone detail s).listsBounded := by
  simp only [raiseLinkAlone]; (repeat' split) <;> simp (maxDischargeDepth := 9) [h]

@[simp] theorem adoptFrame_bounded (j : Station) (r : StatusRecord) (start : Rat) (s : State) (h : s.listsBounded) : (adoptFrame j r start s).listsBounded := by
  simp only [adoptFrame]; (repeat' split) <;> simp (maxDischargeDepth := 9) [h]

@[simp] theorem reportStranger_bounded (j : Station) (s : State) (h : s.listsBounded) : (reportStranger j s).listsBounded := by
  simp only [reportStranger]; (repeat' split) <;> simp (maxDischargeDepth := 9) [h]

@[simp] theorem attributeFrame_bounded (j : Station) (r : StatusRecord) (start : Rat) (s : State) (h : s.listsBounded) : (attributeFrame j r start s).listsBounded := by
  simp only [attributeFrame]; (repeat' split) <;> simp (maxDischargeDepth := 9) [h]

@[simp] theorem examineFrame_bounded (r : StatusRecord) (start : Rat) (s : State) (h : s.listsBounded) : (examineFrame r start s).listsBounded := by
  simp only [examineFrame]; (repeat' split) <;> simp (maxDischargeDepth := 9) [h]

@[simp] theorem cycleEnd_bounded (s : State) (h : s.listsBounded) : (cycleEnd s).listsBounded := by
  simp only [cycleEnd]; (repeat' split) <;> simp (maxDischargeDepth := 9) [h]

@[simp] theorem startCycle_bounded (s : State) : (startCycle s).listsBounded = s.listsBounded := by simp [State.listsBounded]

@[simp] theorem completeGathering_bounded (s : State) (h : s.listsBounded) : (completeGathering s).listsBounded := by
  simp only [completeGathering]; (repeat' split) <;> simp (maxDischargeDepth := 9) [h]

@[simp] theorem countAgreement_bounded (ok : Bool) (s : State) : (countAgreement ok s).listsBounded = s.listsBounded := by simp [State.listsBounded]

@[simp] theorem gatheringEvaluation_bounded (s : State) (h : s.listsBounded) : (gatheringEvaluation s).listsBounded := by
  simp only [gatheringEvaluation]; (repeat' split) <;> simp (maxDischargeDepth := 9) [h]

@[simp] theorem completeRecovery_bounded (s : State) (h : s.listsBounded) : (completeRecovery s).listsBounded := by
  simp only [completeRecovery]; (repeat' split) <;> simp (maxDischargeDepth := 9) [h]

@[simp] theorem recoveryEvaluation_bounded (s : State) (h : s.listsBounded) : (recoveryEvaluation s).listsBounded := by
  simp only [recoveryEvaluation]; (repeat' split) <;> simp (maxDischargeDepth := 9) [h]

@[simp] theorem slotEvaluation_bounded (s : State) (h : s.listsBounded) : (slotEvaluation s).listsBounded := by
  simp only [slotEvaluation]; (repeat' split) <;> simp (maxDischargeDepth := 9) [h]

@[simp] theorem packAndRefresh_bounded (s : State) (h : s.listsBounded) : (packAndRefresh s).listsBounded := by
  simp only [packAndRefresh]; (repeat' split) <;> simp (maxDischargeDepth := 9) [h]

@[simp] theorem ownSlot_bounded (s : State) (h : s.listsBounded) : (ownSlot s).listsBounded := by
  simp only [ownSlot]; (repeat' split) <;> simp (maxDischargeDepth := 9) [h]

@[simp] theorem chooseCal_bounded (s : State) : (chooseCal s).listsBounded = s.listsBounded := by simp [State.listsBounded]

@[simp] theorem takeValues_bounded (s : State) : (takeValues s).listsBounded = s.listsBounded := by simp [State.listsBounded]

@[simp] theorem flipShift_bounded (s : State) (h : s.listsBounded) : (flipShift s).listsBounded := by
  simp only [flipShift]
  split
  · rename_i x hx; simpa using shiftClaim_bounded _ _ x hx h
  · simp [h]

@[simp] theorem rechooseCal_bounded (s : State) (h : s.listsBounded) : (rechooseCal s).listsBounded := by
  simp only [rechooseCal]; (repeat' split) <;> simp (maxDischargeDepth := 9) [h]

@[simp] theorem calWriteTests_bounded (s : State) : (calWriteTests s).listsBounded = s.listsBounded := by simp [State.listsBounded]

@[simp] theorem idlePort_bounded (s : State) : (idlePort s).listsBounded = s.listsBounded := by simp [State.listsBounded]

@[simp] theorem advancePointer_bounded (s : State) : (advancePointer s).listsBounded = s.listsBounded := by simp [State.listsBounded]

@[simp] theorem takeTail_bounded (slot : Fin 96) (f : JournalFrame) (s : State) : (takeTail slot f s).listsBounded = s.listsBounded := by simp [State.listsBounded]

@[simp] theorem clearFinalOut_bounded (s : State) : (clearFinalOut s).listsBounded = s.listsBounded := by simp [State.listsBounded]

@[simp] theorem orderlySealed_bounded (seq : BitVec 16) (s : State) : (orderlySealed seq s).listsBounded = s.listsBounded := by simp [State.listsBounded]

@[simp] theorem stageSealed_bounded (s : State) (h : s.listsBounded) : (stageSealed s).listsBounded := by
  simp only [stageSealed]; (repeat' split) <;> simp (maxDischargeDepth := 9) [h]

@[simp] theorem surveyAtFlip_bounded (s : State) (h : s.listsBounded) : (surveyAtFlip s).listsBounded := by
  simp only [surveyAtFlip]; (repeat' split) <;> simp (maxDischargeDepth := 9) [h]

@[simp] theorem flipDone_bounded (s : State) (h : s.listsBounded) : (flipDone s).listsBounded := by
  simp only [flipDone]; (repeat' split) <;> simp (maxDischargeDepth := 9) [h]

@[simp] theorem writeCompleted_bounded (f : InFlight) (s : State) (h : s.listsBounded) : (writeCompleted f s).listsBounded := by
  simp only [writeCompleted]; (repeat' split) <;> simp (maxDischargeDepth := 9) [h]

@[simp] theorem writeCut_bounded (f : InFlight) (s : State) (h : s.listsBounded) : (writeCut f s).listsBounded := by
  simp only [writeCut]; (repeat' split) <;> simp (maxDischargeDepth := 9) [h]

@[simp] theorem raiseWriteFailed_bounded (f : InFlight) (s : State) (h : s.listsBounded) : (raiseWriteFailed f s).listsBounded := by
  simp only [raiseWriteFailed]; (repeat' split) <;> simp (maxDischargeDepth := 9) [h]

@[simp] theorem failedEffect_bounded (f : InFlight) (s : State) (h : s.listsBounded) : (failedEffect f s).listsBounded := by
  simp only [failedEffect, failedEffect.endProposalOnFailedFlip]; (repeat' split) <;> simp (maxDischargeDepth := 9) [h]

@[simp] theorem lockRetry_bounded (f : InFlight) (s : State) : (lockRetry f s).listsBounded = s.listsBounded := by simp [State.listsBounded]

@[simp] theorem failedTests_bounded (f : InFlight) (s : State) : (failedTests f s).listsBounded = s.listsBounded := by simp [State.listsBounded]

@[simp] theorem writeFailed_bounded (f : InFlight) (s : State) (h : s.listsBounded) : (writeFailed f s).listsBounded := by
  simp only [writeFailed]; (repeat' split) <;> simp (maxDischargeDepth := 9) [h]

@[simp] theorem endBeat_bounded (f : InFlight) (readback : List Byte) (s : State) (h : s.listsBounded) : (endBeat f readback s).listsBounded := by
  simp only [endBeat]; (repeat' split) <;> simp (maxDischargeDepth := 9) [h]

@[simp] theorem arrivalCut_bounded (s : State) : (arrivalCut s).listsBounded = s.listsBounded := by simp [State.listsBounded]

@[simp] theorem pfailArrival_bounded (s : State) : (pfailArrival s).listsBounded = s.listsBounded := by simp [State.listsBounded]

@[simp] theorem pfailWithdrawal_bounded (s : State) (h : s.listsBounded) : (pfailWithdrawal s).listsBounded := by
  simp only [pfailWithdrawal]; (repeat' split) <;> simp (maxDischargeDepth := 9) [h]

@[simp] theorem scanJournal_bounded (s : State) : (scanJournal s).listsBounded = s.listsBounded := by simp [State.listsBounded]

@[simp] theorem scanLockout_bounded (s : State) (h : s.listsBounded) : (scanLockout s).listsBounded := by
  simp only [scanLockout]; (repeat' split) <;> simp (maxDischargeDepth := 9) [h]

@[simp] theorem endScan_bounded (s : State) (h : s.listsBounded) : (endScan s).listsBounded := by
  simp only [endScan]; (repeat' split) <;> simp (maxDischargeDepth := 9) [h]

@[simp] theorem stillArrival_bounded (s : State) (h : s.listsBounded) : (stillArrival s).listsBounded := by
  simp only [stillArrival]; (repeat' split) <;> simp (maxDischargeDepth := 9) [h]

@[simp] theorem switchChanged_bounded (i : SwitchInput) (active : Bool) (s : State) (h : s.listsBounded) : (switchChanged i active s).listsBounded := by
  simp only [switchChanged]; (repeat' split) <;> simp (maxDischargeDepth := 9) [h]

@[simp] theorem switchSample_bounded (i : SwitchInput) (raw : Bool) (s : State) (h : s.listsBounded) : (switchSample i raw s).listsBounded := by
  simp only [switchSample]; (repeat' split) <;> simp (maxDischargeDepth := 9) [h]

@[simp] theorem pfailSample_bounded (raw : Bool) (s : State) (h : s.listsBounded) : (pfailSample raw s).listsBounded := by
  simp only [pfailSample]; (repeat' split) <;> simp (maxDischargeDepth := 9) [h]

@[simp] theorem countTransition_bounded (positive : Bool) (s : State) : (countTransition positive s).listsBounded = s.listsBounded := by simp [State.listsBounded]

@[simp] theorem dropCaptures_bounded (s : State) (h : s.listsBounded) : (dropCaptures s).listsBounded :=
  ⟨h.1, by simp [dropCaptures], h.2.2⟩

@[simp] theorem mainQuadError_bounded (s : State) (h : s.listsBounded) : (mainQuadError s).listsBounded := by
  simp only [mainQuadError]; (repeat' split) <;> simp (maxDischargeDepth := 9) [h]

@[simp] theorem resolveSpurious_bounded (e : PendingEdge) (s : State) (h : s.listsBounded) : (resolveSpurious e s).listsBounded := by
  simp only [resolveSpurious]; (repeat' split) <;> simp (maxDischargeDepth := 9) [h]

@[simp] theorem edgeDistance_bounded (s : State) (h : s.listsBounded) : (edgeDistance s).listsBounded := by
  simp only [edgeDistance]; (repeat' split) <;> simp (maxDischargeDepth := 9) [h]

@[simp] theorem mainTransition_bounded (positive : Bool) (s : State) (h : s.listsBounded) : (mainTransition positive s).listsBounded := by
  simp only [mainTransition]; (repeat' split) <;> simp (maxDischargeDepth := 9) [h]

@[simp] theorem mainSample_bounded (a b : Bool) (s : State) (h : s.listsBounded) : (mainSample a b s).listsBounded := by
  simp only [mainSample]; (repeat' split) <;> simp (maxDischargeDepth := 9) [h]

@[simp] theorem noteExcursion_bounded (s : State) : (noteExcursion s).listsBounded = s.listsBounded := by simp [State.listsBounded]

@[simp] theorem standbyTransition_bounded (positive : Bool) (s : State) (h : s.listsBounded) : (standbyTransition positive s).listsBounded := by
  simp only [standbyTransition]; (repeat' split) <;> simp (maxDischargeDepth := 9) [h]

@[simp] theorem standbyRead_bounded (a b : Bool) (s : State) (h : s.listsBounded) : (standbyRead a b s).listsBounded := by
  simp only [standbyRead]; (repeat' split) <;> simp (maxDischargeDepth := 9) [h]

@[simp] theorem pushCapture_bounded (c : Capture) (s : State) (h : s.listsBounded) : (pushCapture c s).listsBounded := by
  simp only [pushCapture]
  refine offerCapture_bounded _ _ ⟨h.1, ?_, h.2.2⟩
  have := h.2.1
  simp; omega

@[simp] theorem useLastChange_bounded (s : State) : (useLastChange s).listsBounded = s.listsBounded := by simp [State.listsBounded]

@[simp] theorem qualify_bounded (l : LastChange) (d : Direction) (value : Position) (cycle : Option (BitVec 32)) (s : State) (h : s.listsBounded) : (qualify l d value cycle s).listsBounded := by
  simp only [qualify]; (repeat' split) <;> simp (maxDischargeDepth := 9) [h]

@[simp] theorem acceptStep_bounded (l : LastChange) (d : Direction) (s : State) (h : s.listsBounded) : (acceptStep l d s).listsBounded := by
  simp only [acceptStep]; (repeat' split) <;> simp (maxDischargeDepth := 9) [h]

@[simp] theorem acceptJump_bounded (step : Option Nat) (old new : Nat) (s : State) (h : s.listsBounded) : (acceptJump step old new s).listsBounded := by
  simp only [acceptJump]; (repeat' split) <;> simp (maxDischargeDepth := 9) [h]

@[simp] theorem acceptSector_bounded (n : Nat) (s : State) (h : s.listsBounded) : (acceptSector n s).listsBounded := by
  simp only [acceptSector]; (repeat' split) <;> simp (maxDischargeDepth := 9) [h]

@[simp] theorem sectorSample_bounded (lines : BitVec 5) (s : State) (h : s.listsBounded) : (sectorSample lines s).listsBounded := by
  simp only [sectorSample]; (repeat' split) <;> simp (maxDischargeDepth := 9) [h]

@[simp] theorem displaceEdge_bounded (s : State) (h : s.listsBounded) : (displaceEdge s).listsBounded := by
  simp only [displaceEdge]; (repeat' split) <;> simp (maxDischargeDepth := 9) [h]

@[simp] theorem latchEdge_bounded (sector : Nat) (s : State) (h : s.listsBounded) : (latchEdge sector s).listsBounded := by
  simp only [latchEdge]; (repeat' split) <;> simp (maxDischargeDepth := 9) [h]

@[simp] theorem motionCheck_bounded (s : State) : (motionCheck s).listsBounded = s.listsBounded := by simp [State.listsBounded]

@[simp] theorem endSettling_bounded (s : State) (h : s.listsBounded) : (endSettling s).listsBounded := by
  simp only [endSettling]; (repeat' split) <;> simp (maxDischargeDepth := 9) [h]

@[simp] theorem stopBeat_bounded (s : State) : (stopBeat s).listsBounded = s.listsBounded := by simp [State.listsBounded]

@[simp] theorem resetMainDomain_bounded (kind : StartKind) (alive : Bool) (straps : Station) (s : State) :
    (resetMainDomain kind alive straps s).listsBounded := by
  refine ⟨?_, ?_, ?_⟩ <;> simp [resetMainDomain, Hold.initial, Sensing.initial, Plan.initial]

@[simp] theorem loseMainSupply_bounded (s : State) : (loseMainSupply s).listsBounded = s.listsBounded := by simp [State.listsBounded]

@[simp] theorem loseStandby_bounded (s : State) : (loseStandby s).listsBounded = s.listsBounded := by simp [State.listsBounded]

@[simp] theorem raiseMainSupply_bounded (alive : Bool) (straps : Station) (s : State) (h : s.listsBounded) : (raiseMainSupply alive straps s).listsBounded := by
  simp only [raiseMainSupply]; (repeat' split) <;> simp (maxDischargeDepth := 9) [h]

@[simp] theorem coldStart_bounded (straps : Station) (s : State) (h : s.listsBounded) : (coldStart straps s).listsBounded := by
  simp only [coldStart]; (repeat' split) <;> simp (maxDischargeDepth := 9) [h]

@[simp] theorem assertReset_bounded (s : State) (h : s.listsBounded) : (assertReset s).listsBounded := by
  simp only [assertReset]; (repeat' split) <;> simp (maxDischargeDepth := 9) [h]

@[simp] theorem releaseReset_bounded (straps : Station) (s : State) (h : s.listsBounded) : (releaseReset straps s).listsBounded := by
  simp only [releaseReset]; (repeat' split) <;> simp (maxDischargeDepth := 9) [h]

@[simp] theorem seekStall_bounded (s : State) (h : s.listsBounded) : (seekStall s).listsBounded := by
  simp only [seekStall]; (repeat' split) <;> simp (maxDischargeDepth := 9) [h]

@[simp] theorem parkStall_bounded (s : State) (h : s.listsBounded) : (parkStall s).listsBounded := by
  simp only [parkStall]; (repeat' split) <;> simp (maxDischargeDepth := 9) [h]

@[simp] theorem surveyStall_bounded (s : State) (h : s.listsBounded) : (surveyStall s).listsBounded := by
  simp only [surveyStall]; (repeat' split) <;> simp (maxDischargeDepth := 9) [h]

@[simp] theorem escalateEntry_bounded (s : State) (h : s.listsBounded) : (escalateEntry s).listsBounded := by
  simp only [escalateEntry]; (repeat' split) <;> simp (maxDischargeDepth := 9) [h]

@[simp] theorem abandonFrame_bounded (s : State) (h : s.listsBounded) : (abandonFrame s).listsBounded := by
  simp only [abandonFrame]; (repeat' split) <;> simp (maxDischargeDepth := 9) [h]

@[simp] theorem receiveFrame_bounded (ago : Time) (bytes : List Byte) (s : State) (h : s.listsBounded) : (receiveFrame ago bytes s).listsBounded := by
  simp only [receiveFrame]; (repeat' split) <;> simp (maxDischargeDepth := 9) [h]

@[simp] theorem slotEnd_bounded (k : Station) (s : State) (h : s.listsBounded) : (slotEnd k s).listsBounded := by
  simp only [slotEnd]; (repeat' split) <;> simp (maxDischargeDepth := 9) [h]

@[simp] theorem listenPeriod_bounded (s : State) (h : s.listsBounded) : (listenPeriod s).listsBounded := by
  simp only [listenPeriod]; (repeat' split) <;> simp (maxDischargeDepth := 9) [h]

@[simp] theorem timeItself_bounded (s : State) (h : s.listsBounded) : (timeItself s).listsBounded := by
  simp only [timeItself]; (repeat' split) <;> simp (maxDischargeDepth := 9) [h]

@[simp] theorem openRequest_bounded (keepsKey : Bool) (s : State) : (openRequest keepsKey s).listsBounded = s.listsBounded := by simp [State.listsBounded]

@[simp] theorem decideConfigure_bounded (p : List Byte) (s : State) : (decideConfigure p s).state.listsBounded = s.listsBounded := by simp [State.listsBounded]

@[simp] theorem decidePlanClear_bounded (s : State) (h : s.listsBounded) : (decidePlanClear s).state.listsBounded := by
  simp only [decidePlanClear]
  split
  · simpa [Reply.refuse] using h
  · exact ⟨h.1, h.2.1, by simp [Reply.ok]⟩

/-- A step record has the index it was sent with (R206). -/
theorem parseStep_index (p : List Byte) (r : StepRecord) (h : parseStep p = some r) : r.index = rd p 0 1 := by
  simp only [parseStep] at h
  (repeat' split at h) <;> first | (injection h with h; rw [← h]) | cases h

@[simp] theorem decidePlanStep_bounded (p : List Byte) (s : State) (h : s.listsBounded) :
    (decidePlanStep p s).state.listsBounded := by
  simp only [decidePlanStep]
  (repeat' split) <;> (try simpa [Reply.refuse] using h)
  rename_i hn _ r hr _
  refine ⟨h.1, h.2.1, by simp [Reply.ok]; omega, ?_⟩
  intro k x hx
  rcases Nat.lt_trichotomy k s.plan.steps.length with hk | hk | hk
  · exact h.2.2.2 k x (by simpa [Reply.ok, List.getElem?_append_left hk] using hx)
  · subst hk
    have hx : r = x := by simpa [Reply.ok] using hx
    rw [← hx, parseStep_index p r hr]
    exact not_not.1 hn
  · have : (s.plan.steps ++ [r])[k]? = some x := hx
    rw [List.getElem?_eq_none (by simp; omega)] at this
    cases this

@[simp] theorem decidePlanSeal_bounded (s : State) : (decidePlanSeal s).state.listsBounded = s.listsBounded := by simp [State.listsBounded]

@[simp] theorem joinArm_bounded (s : State) (h : s.listsBounded) : (joinArm s).listsBounded := by
  simp only [joinArm]; (repeat' split) <;> simp (maxDischargeDepth := 9) [h]

@[simp] theorem decideJoin_bounded (s : State) (h : s.listsBounded) : (decideJoin s).state.listsBounded := by
  simp only [decideJoin]; (repeat' split) <;> simp (maxDischargeDepth := 9) [h, Reply.refuse, Reply.ok]

@[simp] theorem decideStatus_bounded (s : State) : (decideStatus s).state.listsBounded = s.listsBounded := by simp [State.listsBounded]

@[simp] theorem decidePeers_bounded (s : State) : (decidePeers s).state.listsBounded = s.listsBounded := by simp [State.listsBounded]

@[simp] theorem decidePosition_bounded (s : State) : (decidePosition s).state.listsBounded = s.listsBounded := by simp [State.listsBounded]

@[simp] theorem decideOrder_bounded (s : State) : (decideOrder s).state.listsBounded = s.listsBounded := by simp [State.listsBounded]

@[simp] theorem decideFaults_bounded (s : State) : (decideFaults s).state.listsBounded = s.listsBounded := by simp [State.listsBounded]

@[simp] theorem decideCalRead_bounded (s : State) : (decideCalRead s).state.listsBounded = s.listsBounded := by simp [State.listsBounded]

@[simp] theorem decideJournalRead_bounded (p : List Byte) (s : State) : (decideJournalRead p s).state.listsBounded = s.listsBounded := by simp [State.listsBounded]

@[simp] theorem decideFaultClear_bounded (s : State) (h : s.listsBounded) : (decideFaultClear s).state.listsBounded :=
  ⟨by simp [decideFaultClear, Reply.ok], h.2.1, h.2.2⟩

@[simp] theorem abandonSeek_bounded (c : SeekContext) (s : State) (h : s.listsBounded) : (abandonSeek c s).listsBounded := by
  simp only [abandonSeek]; (repeat' split) <;> simp (maxDischargeDepth := 9) [h]

@[simp] theorem abandonSurvey_bounded (c : SurveyContext) (s : State) (h : s.listsBounded) : (abandonSurvey c s).listsBounded := by
  simp only [abandonSurvey]; (repeat' split) <;> simp (maxDischargeDepth := 9) [h]

@[simp] theorem decideAbandon_bounded (s : State) (h : s.listsBounded) : (decideAbandon s).state.listsBounded := by
  simp only [decideAbandon]; (repeat' split) <;> simp (maxDischargeDepth := 9) [h, Reply.refuse, Reply.ok]

@[simp] theorem startSurvey_bounded (k : SurveyKind) (m : Int) (s : State) (h : s.listsBounded) : (startSurvey k m s).listsBounded := by
  simp only [startSurvey]; (repeat' split) <;> simp (maxDischargeDepth := 9) [h]

@[simp] theorem decideSurvey_bounded (p : List Byte) (s : State) (h : s.listsBounded) : (decideSurvey p s).state.listsBounded := by
  simp only [decideSurvey]; (repeat' split) <;> simp (maxDischargeDepth := 9) [h, Reply.refuse, Reply.ok]

@[simp] theorem decideTrim_bounded (p : List Byte) (s : State) : (decideTrim p s).state.listsBounded = s.listsBounded := by simp [State.listsBounded]

@[simp] theorem propose_bounded (g : BitVec 16) (s : State) : (propose g s).listsBounded = s.listsBounded := by simp [State.listsBounded]

@[simp] theorem decideCalCommit_bounded (s : State) : (decideCalCommit s).state.listsBounded = s.listsBounded := by simp [State.listsBounded]

@[simp] theorem decideResume_bounded (s : State) (h : s.listsBounded) : (decideResume s).state.listsBounded := by
  simp only [decideResume]; (repeat' split) <;> simp (maxDischargeDepth := 9) [h, Reply.refuse, Reply.ok]

@[simp] theorem decideRestart_bounded (s : State) (h : s.listsBounded) : (decideRestart s).state.listsBounded := by
  simp only [decideRestart]; (repeat' split) <;> simp (maxDischargeDepth := 9) [h, Reply.refuse, Reply.ok]

@[simp] theorem setKeyCount_bounded (n : Nat) (s : State) : (setKeyCount n s).listsBounded = s.listsBounded := by simp [State.listsBounded]

@[simp] theorem decideLockoutClear_bounded (s : State) (h : s.listsBounded) : (decideLockoutClear s).state.listsBounded := by
  simp only [decideLockoutClear]; (repeat' split) <;> simp (maxDischargeDepth := 9) [h, Reply.refuse, Reply.ok]

@[simp] theorem decideShutdown_bounded (s : State) (h : s.listsBounded) : (decideShutdown s).state.listsBounded := by
  simp only [decideShutdown]; (repeat' split) <;> simp (maxDischargeDepth := 9) [h, Reply.refuse, Reply.ok]

@[simp] theorem decideReset_bounded (s : State) : (decideReset s).state.listsBounded = s.listsBounded := by simp [State.listsBounded]

@[simp] theorem receiveCode_bounded (code : Byte) (s : State) : (receiveCode code s).listsBounded = s.listsBounded := by simp [State.listsBounded]

end Sys2Proof.Machine
end

