-- ==== Sys2Proof/Laws/Bytes.lean ====
section
/-! SUPPORT. Multi-byte fields read back from the bytes they were sent as. -/

namespace Sys2Proof.Machine

/-- Two bytes spell the 16-bit field they came from. -/
@[simp] theorem beNat_be16 (x : BitVec 16) : beNat (be16 x) = x.toNat := by
  simp only [beNat, be16, List.foldl_cons, List.foldl_nil, BitVec.extractLsb'_toNat, Nat.shiftRight_eq_div_pow]
  have := x.isLt
  omega

/-- Four bytes spell the 32-bit field they came from. -/
@[simp] theorem beNat_be32 (x : BitVec 32) : beNat (be32 x) = x.toNat := by
  simp only [beNat, be32, List.foldl_cons, List.foldl_nil, BitVec.extractLsb'_toNat, Nat.shiftRight_eq_div_pow]
  have := x.isLt
  omega

/-- Five bytes spell the 40-bit field they came from. -/
@[simp] theorem beNat_be40 (x : BitVec 40) : beNat (be40 x) = x.toNat := by
  simp only [beNat, be40, List.foldl_cons, List.foldl_nil, BitVec.extractLsb'_toNat, Nat.shiftRight_eq_div_pow]
  have := x.isLt
  omega

/-- One byte spells itself. -/
@[simp] theorem beNat_single (b : Byte) : beNat [b] = b.toNat := by simp [beNat]

@[simp] theorem be16_length (x : BitVec 16) : (be16 x).length = 2 := rfl
@[simp] theorem be32_length (x : BitVec 32) : (be32 x).length = 4 := rfl
@[simp] theorem be40_length (x : BitVec 40) : (be40 x).length = 5 := rfl

/-- A field read at its place between the bytes before and after it. -/
theorem rd_middle (pre mid post : List Byte) (off n : Nat) (ho : pre.length = off) (hn : mid.length = n) :
    rd (pre ++ mid ++ post) off n = beNat mid := by
  subst ho hn
  simp [rd, List.append_assoc]

/-- A byte read at its place. -/
theorem byteAt_middle (pre post : List Byte) (b : Byte) (off : Nat) (ho : pre.length = off) :
    byteAt (pre ++ b :: post) off = b := by
  subst ho
  simp [byteAt]

end Sys2Proof.Machine
end

