-- ==== Sys2Proof/Laws/Canonical.lean ====
section
/-! SUPPORT. Every operation keeps the retained store in canonical form. -/

set_option linter.unusedTactic false
set_option linter.unnecessarySeqFocus false
set_option linter.unusedSimpArgs false
set_option linter.unreachableTactic false
set_option linter.unusedVariables false

namespace Sys2Proof.Machine

@[simp] theorem setPower_canonical (s : State) (x : Power) : (s.setPower x).memoryCanonical = s.memoryCanonical := propext ⟨id, id⟩
@[simp] theorem setStandby_canonical (s : State) (x : Standby) : (s.setStandby x).memoryCanonical = s.memoryCanonical := propext ⟨id, id⟩
@[simp] theorem setDecoder_canonical (s : State) (x : Decoder) : (s.setDecoder x).memoryCanonical = s.memoryCanonical := propext ⟨id, id⟩
@[simp] theorem setSensing_canonical (s : State) (x : Sensing) : (s.setSensing x).memoryCanonical = s.memoryCanonical := propext ⟨id, id⟩
@[simp] theorem setEngine_canonical (s : State) (x : Engine) : (s.setEngine x).memoryCanonical = s.memoryCanonical := propext ⟨id, id⟩
@[simp] theorem setLink_canonical (s : State) (x : Link) : (s.setLink x).memoryCanonical = s.memoryCanonical := propext ⟨id, id⟩
@[simp] theorem setPeers_canonical (s : State) (x : Vector PeerEntry 8) : (s.setPeers x).memoryCanonical = s.memoryCanonical := propext ⟨id, id⟩
@[simp] theorem setCoord_canonical (s : State) (x : Coord) : (s.setCoord x).memoryCanonical = s.memoryCanonical := propext ⟨id, id⟩
@[simp] theorem setPlan_canonical (s : State) (x : Plan) : (s.setPlan x).memoryCanonical = s.memoryCanonical := propext ⟨id, id⟩
@[simp] theorem setHold_canonical (s : State) (x : Hold) : (s.setHold x).memoryCanonical = s.memoryCanonical := propext ⟨id, id⟩
@[simp] theorem setGate_canonical (s : State) (x : GateState) : (s.setGate x).memoryCanonical = s.memoryCanonical := propext ⟨id, id⟩
@[simp] theorem setCal_canonical (s : State) (x : Cal) : (s.setCal x).memoryCanonical = s.memoryCanonical := propext ⟨id, id⟩
@[simp] theorem setStore_canonical (s : State) (x : Store) : (s.setStore x).memoryCanonical = s.memoryCanonical := propext ⟨id, id⟩
@[simp] theorem setPort_canonical (s : State) (x : Port) : (s.setPort x).memoryCanonical = s.memoryCanonical := propext ⟨id, id⟩

@[simp] theorem advance_canonical (dt : Time) (s : State) : (advance dt s).memoryCanonical = s.memoryCanonical := by simp [State.memoryCanonical]

@[simp] theorem bumpFree_canonical (s : State) : (bumpFree s).memoryCanonical = s.memoryCanonical := by simp [State.memoryCanonical]

@[simp] theorem addCause_canonical (c : Cause) (s : State) : (addCause c s).memoryCanonical = s.memoryCanonical := by simp [State.memoryCanonical]

@[simp] theorem writeOrder_canonical (o : MotionOrder) (s : State) : (writeOrder o s).memoryCanonical = s.memoryCanonical := by simp [State.memoryCanonical]

@[simp] theorem engineWrite_canonical (o : MotionOrder) (s : State) : (engineWrite o s).memoryCanonical = s.memoryCanonical := by simp [State.memoryCanonical]

@[simp] theorem clearHoldOrder_canonical (s : State) : (clearHoldOrder s).memoryCanonical = s.memoryCanonical := by simp [State.memoryCanonical]

@[simp] theorem recordFault_canonical (code : Byte) (cls : FaultClass) (origin : Station) (step : Option Nat) (detail : BitVec 32) (s : State) : (recordFault code cls origin step detail s).memoryCanonical = s.memoryCanonical := by simp [State.memoryCanonical]

@[simp] theorem noteFault_canonical (code : FaultCode) (cls : FaultClass) (step : Option Nat) (detail : Int) (s : State) : (noteFault code cls step detail s).memoryCanonical = s.memoryCanonical := by simp [State.memoryCanonical]

@[simp] theorem gateUpdate_canonical (s : State) : (gateUpdate s).memoryCanonical = s.memoryCanonical := by simp [State.memoryCanonical]

@[simp] theorem parkedCheck_canonical (s : State) : (parkedCheck s).memoryCanonical = s.memoryCanonical := by simp [State.memoryCanonical]

@[simp] theorem moveCounter_canonical (d : Int) (s : State) : (moveCounter d s).memoryCanonical = s.memoryCanonical := by simp [State.memoryCanonical]

@[simp] theorem applySet_canonical (v : Int) (r : Position) (s : State) : (applySet v r s).memoryCanonical = s.memoryCanonical := by simp [State.memoryCanonical]

@[simp] theorem setNewestMark_canonical (m : Option Int) (s : State) : (setNewestMark m s).memoryCanonical = s.memoryCanonical := by simp [State.memoryCanonical]

@[simp] theorem grant_canonical (r : WriteRequest) (s : State) : (grant r s).memoryCanonical = s.memoryCanonical := by simp [State.memoryCanonical]

@[simp] theorem addPending_canonical (r : WriteRequest) (s : State) : (addPending r s).memoryCanonical = s.memoryCanonical := by simp [State.memoryCanonical]

@[simp] theorem dropPending_canonical (k : WriteKind) (s : State) : (dropPending k s).memoryCanonical = s.memoryCanonical := by simp [State.memoryCanonical]

@[simp] theorem grantNext_canonical (s : State) : (grantNext s).memoryCanonical = s.memoryCanonical := by simp [State.memoryCanonical]

@[simp] theorem postWrite_canonical (r : WriteRequest) (s : State) : (postWrite r s).memoryCanonical = s.memoryCanonical := by simp [State.memoryCanonical]

@[simp] theorem postLockRecord_canonical (s : State) : (postLockRecord s).memoryCanonical = s.memoryCanonical := by simp [State.memoryCanonical]

@[simp] theorem postLockClear_canonical (s : State) : (postLockClear s).memoryCanonical = s.memoryCanonical := by simp [State.memoryCanonical]

@[simp] theorem noteLatch_canonical (f : JournalFrame) (s : State) : (noteLatch f s).memoryCanonical = s.memoryCanonical := by simp [State.memoryCanonical]

@[simp] theorem markLatch_canonical (s : State) : (markLatch s).memoryCanonical = s.memoryCanonical := by simp [State.memoryCanonical]

@[simp] theorem finalLatch_canonical (s : State) : (finalLatch s).memoryCanonical = s.memoryCanonical := by simp [State.memoryCanonical]

@[simp] theorem orderlyLatch_canonical (s : State) : (orderlyLatch s).memoryCanonical = s.memoryCanonical := by simp [State.memoryCanonical]

@[simp] theorem planDone_canonical (step : Option Nat) (s : State) : (planDone step s).memoryCanonical = s.memoryCanonical := by simp [State.memoryCanonical]

@[simp] theorem planHeld_canonical (step : Option Nat) (s : State) : (planHeld step s).memoryCanonical = s.memoryCanonical := by simp [State.memoryCanonical]

@[simp] theorem planHold_canonical (s : State) : (planHold s).memoryCanonical = s.memoryCanonical := by simp [State.memoryCanonical]

@[simp] theorem planAbandon_canonical (s : State) : (planAbandon s).memoryCanonical = s.memoryCanonical := by simp [State.memoryCanonical]

@[simp] theorem planReset_canonical (s : State) : (planReset s).memoryCanonical = s.memoryCanonical := by simp [State.memoryCanonical]

@[simp] theorem demote_canonical (s : State) : (demote s).memoryCanonical = s.memoryCanonical := by simp [State.memoryCanonical]

@[simp] theorem operationEnded_canonical (s : State) : (operationEnded s).memoryCanonical = s.memoryCanonical := by simp [State.memoryCanonical]

@[simp] theorem useDropMotion_canonical (s : State) : (useDropMotion s).memoryCanonical = s.memoryCanonical := by simp [State.memoryCanonical]

@[simp] theorem noteDropMotion_canonical (s : State) : (noteDropMotion s).memoryCanonical = s.memoryCanonical := by simp [State.memoryCanonical]

@[simp] theorem seekFinish_canonical (c : SeekContext) (s : State) : (seekFinish c s).memoryCanonical = s.memoryCanonical := by simp [State.memoryCanonical]

@[simp] theorem seekReturnHeld_canonical (c : SeekContext) (s : State) : (seekReturnHeld c s).memoryCanonical = s.memoryCanonical := by simp [State.memoryCanonical]

@[simp] theorem surveyFinish_canonical (c : SurveyContext) (o : SurveyOutcome) (filled : Bool) (s : State) : (surveyFinish c o filled s).memoryCanonical = s.memoryCanonical := by simp [State.memoryCanonical]

@[simp] theorem surveyReturn_canonical (c : SurveyContext) (e : SurveyEnd) (s : State) : (surveyReturn c e s).memoryCanonical = s.memoryCanonical := by simp [State.memoryCanonical]

@[simp] theorem engineHold_canonical (s : State) : (engineHold s).memoryCanonical = s.memoryCanonical := by simp [State.memoryCanonical]

@[simp] theorem sightingUpdate_canonical (s : State) : (sightingUpdate s).memoryCanonical = s.memoryCanonical := by simp [State.memoryCanonical]

@[simp] theorem endProposal_canonical (detail : Option Int) (s : State) : (endProposal detail s).memoryCanonical = s.memoryCanonical := by simp [State.memoryCanonical]

@[simp] theorem withdrawProposal_canonical (detail : Int) (s : State) : (withdrawProposal detail s).memoryCanonical = s.memoryCanonical := by simp [State.memoryCanonical]

@[simp] theorem stageTest_canonical (s : State) : (stageTest s).memoryCanonical = s.memoryCanonical := by simp [State.memoryCanonical]

@[simp] theorem postFlip_canonical (s : State) : (postFlip s).memoryCanonical = s.memoryCanonical := by simp [State.memoryCanonical]

@[simp] theorem flipTest_canonical (s : State) : (flipTest s).memoryCanonical = s.memoryCanonical := by simp [State.memoryCanonical]

@[simp] theorem rollForwardOn_canonical (r : StatusRecord) (s : State) : (rollForwardOn r s).memoryCanonical = s.memoryCanonical := by simp [State.memoryCanonical]

@[simp] theorem rollForwardTable_canonical (s : State) : (rollForwardTable s).memoryCanonical = s.memoryCanonical := by simp [State.memoryCanonical]

@[simp] theorem proposalSuccess_canonical (s : State) : (proposalSuccess s).memoryCanonical = s.memoryCanonical := by simp [State.memoryCanonical]

@[simp] theorem changeSeq_canonical (q : BitVec 16) (s : State) : (changeSeq q s).memoryCanonical = s.memoryCanonical := by simp [State.memoryCanonical]

@[simp] theorem setLevel_canonical (l : HoldLevel) (s : State) : (setLevel l s).memoryCanonical = s.memoryCanonical := by simp [State.memoryCanonical]

@[simp] theorem setComplete_canonical (b : Bool) (s : State) : (setComplete b s).memoryCanonical = s.memoryCanonical := by simp [State.memoryCanonical]

@[simp] theorem setCause_canonical (cause : Byte) (origin : Station) (s : State) : (setCause cause origin s).memoryCanonical = s.memoryCanonical := by simp [State.memoryCanonical]

@[simp] theorem newHold_canonical (l : HoldLevel) (cause : Byte) (s : State) : (newHold l cause s).memoryCanonical = s.memoryCanonical := by simp [State.memoryCanonical]

@[simp] theorem entryTest_canonical (s : State) : (entryTest s).memoryCanonical = s.memoryCanonical := by simp [State.memoryCanonical]

@[simp] theorem holdReaches_canonical (s : State) : (holdReaches s).memoryCanonical = s.memoryCanonical := by simp [State.memoryCanonical]

@[simp] theorem beginEntry_canonical (s : State) : (beginEntry s).memoryCanonical = s.memoryCanonical := by simp [State.memoryCanonical]

@[simp] theorem enterLockout_canonical (post : Bool) (s : State) : (enterLockout post s).memoryCanonical = s.memoryCanonical := by simp [State.memoryCanonical]

@[simp] theorem enterLevel_canonical (s : State) : (enterLevel s).memoryCanonical = s.memoryCanonical := by simp [State.memoryCanonical]

@[simp] theorem setPhase_canonical (p : ArmPhase) (s : State) : (setPhase p s).memoryCanonical = s.memoryCanonical := by simp [State.memoryCanonical]

@[simp] theorem haltPhase_canonical (s : State) : (haltPhase s).memoryCanonical = s.memoryCanonical := by simp [State.memoryCanonical]

@[simp] theorem raiseFault_canonical (code : FaultCode) (cls : FaultClass) (step : Option Nat) (detail : Int) (s : State) : (raiseFault code cls step detail s).memoryCanonical = s.memoryCanonical := by simp [State.memoryCanonical]

@[simp] theorem raiseHold_canonical (code : FaultCode) (detail : Int) (s : State) : (raiseHold code detail s).memoryCanonical = s.memoryCanonical := by simp [State.memoryCanonical]

@[simp] theorem raiseAbort_canonical (code : FaultCode) (detail : Int) (s : State) : (raiseAbort code detail s).memoryCanonical = s.memoryCanonical := by simp [State.memoryCanonical]

@[simp] theorem raiseSpurious_canonical (sector : Nat) (s : State) : (raiseSpurious sector s).memoryCanonical = s.memoryCanonical := by simp [State.memoryCanonical]

@[simp] theorem levelToNone_canonical (s : State) : (levelToNone s).memoryCanonical = s.memoryCanonical := by simp [State.memoryCanonical]

@[simp] theorem resumeHold_canonical (s : State) : (resumeHold s).memoryCanonical = s.memoryCanonical := by simp [State.memoryCanonical]

@[simp] theorem clearLockout_canonical (s : State) : (clearLockout s).memoryCanonical = s.memoryCanonical := by simp [State.memoryCanonical]

@[simp] theorem restartStation_canonical (s : State) : (restartStation s).memoryCanonical = s.memoryCanonical := by simp [State.memoryCanonical]

@[simp] theorem stopMotion_canonical (s : State) : (stopMotion s).memoryCanonical = s.memoryCanonical := by simp [State.memoryCanonical]

@[simp] theorem engineLost_canonical (s : State) : (engineLost s).memoryCanonical = s.memoryCanonical := by simp [State.memoryCanonical]

@[simp] theorem engineOrder_canonical (o : MotionOrder) (s : State) : (engineOrder o s).memoryCanonical = s.memoryCanonical := by simp [State.memoryCanonical]

@[simp] theorem limitArrival_canonical (d : Int) (s : State) : (limitArrival d s).memoryCanonical = s.memoryCanonical := by simp [State.memoryCanonical]

@[simp] theorem startSeek_canonical (k : SeekKind) (d : StepDir) (speed : SpeedClass) (limit : Nat) (step : Option Nat) (s : State) : (startSeek k d speed limit step s).memoryCanonical = s.memoryCanonical := by simp [State.memoryCanonical]

@[simp] theorem planRetry_canonical (step : Option Nat) (code : FaultCode) (detail : Int) (s : State) : (planRetry step code detail s).memoryCanonical = s.memoryCanonical := by simp [State.memoryCanonical]

@[simp] theorem seekReturn_canonical (c : SeekContext) (e : SeekEnd) (s : State) : (seekReturn c e s).memoryCanonical = s.memoryCanonical := by simp [State.memoryCanonical]

@[simp] theorem endSeek_canonical (c : SeekContext) (e : SeekEnd) (detail : Int) (s : State) : (endSeek c e detail s).memoryCanonical = s.memoryCanonical := by simp [State.memoryCanonical]

@[simp] theorem capturedComplete_canonical (c : SeekContext) (s : State) : (capturedComplete c s).memoryCanonical = s.memoryCanonical := by simp [State.memoryCanonical]

@[simp] theorem enterCaptured_canonical (c : SeekContext) (s : State) : (enterCaptured c s).memoryCanonical = s.memoryCanonical := by simp [State.memoryCanonical]

@[simp] theorem seekClaim_canonical (c : SeekContext) (v : Int) (s : State) : (seekClaim c v s).memoryCanonical = s.memoryCanonical := by simp [State.memoryCanonical]

@[simp] theorem mismatchResolve_canonical (s : State) : (mismatchResolve s).memoryCanonical = s.memoryCanonical := by simp [State.memoryCanonical]

@[simp] theorem witnessMismatch_canonical (c : SeekContext) (deviation : Int) (s : State) : (witnessMismatch c deviation s).memoryCanonical = s.memoryCanonical := by simp [State.memoryCanonical]

@[simp] theorem seekIgnores_canonical (c : SeekContext) (x : Capture) (s : State) : (seekIgnores c x s).memoryCanonical = s.memoryCanonical := by simp [State.memoryCanonical]

@[simp] theorem seekCapture_canonical (c : SeekContext) (x : Capture) (s : State) : (seekCapture c x s).memoryCanonical = s.memoryCanonical := by simp [State.memoryCanonical]

@[simp] theorem markCheck_canonical (x : Capture) (s : State) : (markCheck x s).memoryCanonical = s.memoryCanonical := by simp [State.memoryCanonical]

@[simp] theorem surveyEnterCapture_canonical (c : SurveyContext) (phase : Nat) (s : State) : (surveyEnterCapture c phase s).memoryCanonical = s.memoryCanonical := by simp [State.memoryCanonical]

@[simp] theorem surveyEnterGoto_canonical (c : SurveyContext) (phase : Nat) (s : State) : (surveyEnterGoto c phase s).memoryCanonical = s.memoryCanonical := by simp [State.memoryCanonical]

@[simp] theorem surveyEnterApproach_canonical (c : SurveyContext) (phase : Nat) (s : State) : (surveyEnterApproach c phase s).memoryCanonical = s.memoryCanonical := by simp [State.memoryCanonical]

@[simp] theorem surveyFail_canonical (c : SurveyContext) (phase : Nat) (s : State) : (surveyFail c phase s).memoryCanonical = s.memoryCanonical := by simp [State.memoryCanonical]

@[simp] theorem raiseBacklash_canonical (b : Int) (s : State) : (raiseBacklash b s).memoryCanonical = s.memoryCanonical := by simp [State.memoryCanonical]

@[simp] theorem raiseRatio_canonical (d : Int) (s : State) : (raiseRatio d s).memoryCanonical = s.memoryCanonical := by simp [State.memoryCanonical]

@[simp] theorem surveyComplete_canonical (c : SurveyContext) (s : State) : (surveyComplete c s).memoryCanonical = s.memoryCanonical := by simp [State.memoryCanonical]

@[simp] theorem surveyStandstill_canonical (c : SurveyContext) (s : State) : (surveyStandstill c s).memoryCanonical = s.memoryCanonical := by simp [State.memoryCanonical]

@[simp] theorem surveyTake_canonical (c : SurveyContext) (x : Capture) (s : State) : (surveyTake c x s).memoryCanonical = s.memoryCanonical := by simp [State.memoryCanonical]

@[simp] theorem surveyCapture_canonical (c : SurveyContext) (x : Capture) (s : State) : (surveyCapture c x s).memoryCanonical = s.memoryCanonical := by simp [State.memoryCanonical]

@[simp] theorem offerCapture_canonical (x : Capture) (s : State) : (offerCapture x s).memoryCanonical = s.memoryCanonical := by simp [State.memoryCanonical]

@[simp] theorem startPark_canonical (step : Option Nat) (s : State) : (startPark step s).memoryCanonical = s.memoryCanonical := by simp [State.memoryCanonical]

@[simp] theorem parkStandstill_canonical (p : ParkOperation) (s : State) : (parkStandstill p s).memoryCanonical = s.memoryCanonical := by simp [State.memoryCanonical]

@[simp] theorem parkWithdrawn_canonical (p : ParkOperation) (s : State) : (parkWithdrawn p s).memoryCanonical = s.memoryCanonical := by simp [State.memoryCanonical]

@[simp] theorem withdrawPark_canonical (p : ParkOperation) (s : State) : (withdrawPark p s).memoryCanonical = s.memoryCanonical := by simp [State.memoryCanonical]

@[simp] theorem engineStandstill_canonical (s : State) : (engineStandstill s).memoryCanonical = s.memoryCanonical := by simp [State.memoryCanonical]

@[simp] theorem engineLeavesStill_canonical (s : State) : (engineLeavesStill s).memoryCanonical = s.memoryCanonical := by simp [State.memoryCanonical]

@[simp] theorem engineTravel_canonical (s : State) : (engineTravel s).memoryCanonical = s.memoryCanonical := by simp [State.memoryCanonical]

@[simp] theorem homeEdge_canonical (arrival : Bool) (s : State) : (homeEdge arrival s).memoryCanonical = s.memoryCanonical := by simp [State.memoryCanonical]

@[simp] theorem raiseDrift_canonical (s : State) : (raiseDrift s).memoryCanonical = s.memoryCanonical := by simp [State.memoryCanonical]

@[simp] theorem reclassify_canonical (s : State) : (reclassify s).memoryCanonical = s.memoryCanonical := by simp [State.memoryCanonical]

@[simp] theorem putClaim_canonical (j : Station) (e : ClaimEntry) (s : State) : (putClaim j e s).memoryCanonical = s.memoryCanonical := by simp [State.memoryCanonical]

@[simp] theorem ownClaimFollows_canonical (s : State) : (ownClaimFollows s).memoryCanonical = s.memoryCanonical := by simp [State.memoryCanonical]

@[simp] theorem loseContinuity_canonical (cause : StandbyError) (s : State) : (loseContinuity cause s).memoryCanonical = s.memoryCanonical := by simp [State.memoryCanonical]

@[simp] theorem claimFromPeer_canonical (j : Station) (r : StatusRecord) (s : State) : (claimFromPeer j r s).memoryCanonical = s.memoryCanonical := by simp [State.memoryCanonical]

@[simp] theorem startNotes_canonical (s : State) : (startNotes s).memoryCanonical = s.memoryCanonical := by simp [State.memoryCanonical]

@[simp] theorem buildClaim_canonical (s : State) : (buildClaim s).memoryCanonical = s.memoryCanonical := by simp [State.memoryCanonical]

@[simp] theorem initialStateClaim_canonical (s : State) : (initialStateClaim s).memoryCanonical = s.memoryCanonical := by simp [State.memoryCanonical]

@[simp] theorem claimStep_canonical (i : Nat) (s : State) : (claimStep i s).memoryCanonical = s.memoryCanonical := by simp [State.memoryCanonical]

@[simp] theorem planScan_canonical (s : State) : (planScan s).memoryCanonical = s.memoryCanonical := by simp [State.memoryCanonical]

@[simp] theorem withdrawClaim_canonical (i : Nat) (st : StepStatus) (s : State) : (withdrawClaim i st s).memoryCanonical = s.memoryCanonical := by simp [State.memoryCanonical]

@[simp] theorem startOperation_canonical (r : StepRecord) (s : State) : (startOperation r s).memoryCanonical = s.memoryCanonical := by simp [State.memoryCanonical]

@[simp] theorem grantStep_canonical (r : StepRecord) (s : State) : (grantStep r s).memoryCanonical = s.memoryCanonical := by simp [State.memoryCanonical]

@[simp] theorem grantTest_canonical (r : StepRecord) (s : State) : (grantTest r s).memoryCanonical = s.memoryCanonical := by simp [State.memoryCanonical]

@[simp] theorem grantAndScan_canonical (s : State) : (grantAndScan s).memoryCanonical = s.memoryCanonical := by simp [State.memoryCanonical]

@[simp] theorem noteYield_canonical (i : Nat) (s : State) : (noteYield i s).memoryCanonical = s.memoryCanonical := by simp [State.memoryCanonical]

@[simp] theorem yieldTest_canonical (s : State) : (yieldTest s).memoryCanonical = s.memoryCanonical := by simp [State.memoryCanonical]

@[simp] theorem endFinding_canonical (s : State) : (endFinding s).memoryCanonical = s.memoryCanonical := by simp [State.memoryCanonical]

@[simp] theorem planEvaluation_canonical (s : State) : (planEvaluation s).memoryCanonical = s.memoryCanonical := by simp [State.memoryCanonical]

@[simp] theorem refreshOwn_canonical (s : State) : (refreshOwn s).memoryCanonical = s.memoryCanonical := by simp [State.memoryCanonical]

@[simp] theorem notePacking_canonical (s : State) : (notePacking s).memoryCanonical = s.memoryCanonical := by simp [State.memoryCanonical]

@[simp] theorem noteClaimSent_canonical (kept : Bool) (s : State) : (noteClaimSent kept s).memoryCanonical = s.memoryCanonical := by simp [State.memoryCanonical]

@[simp] theorem resumeFlagClear_canonical (s : State) : (resumeFlagClear s).memoryCanonical = s.memoryCanonical := by simp [State.memoryCanonical]

@[simp] theorem handOff_canonical (s : State) : (handOff s).memoryCanonical = s.memoryCanonical := by simp [State.memoryCanonical]

@[simp] theorem adoptionEntry_canonical (old : HoldLevel) (s : State) : (adoptionEntry old s).memoryCanonical = s.memoryCanonical := by simp [State.memoryCanonical]

@[simp] theorem adoptHold_canonical (j : Station) (r : StatusRecord) (s : State) : (adoptHold j r s).memoryCanonical = s.memoryCanonical := by simp [State.memoryCanonical]

@[simp] theorem raiseToPeer_canonical (r : StatusRecord) (s : State) : (raiseToPeer r s).memoryCanonical = s.memoryCanonical := by simp [State.memoryCanonical]

@[simp] theorem settleOrigin_canonical (r : StatusRecord) (s : State) : (settleOrigin r s).memoryCanonical = s.memoryCanonical := by simp [State.memoryCanonical]

@[simp] theorem takeSequence_canonical (j : Station) (r : StatusRecord) (s : State) : (takeSequence j r s).memoryCanonical = s.memoryCanonical := by simp [State.memoryCanonical]

@[simp] theorem takeResume_canonical (r : StatusRecord) (s : State) : (takeResume r s).memoryCanonical = s.memoryCanonical := by simp [State.memoryCanonical]

@[simp] theorem takeLockClear_canonical (r : StatusRecord) (s : State) : (takeLockClear r s).memoryCanonical = s.memoryCanonical := by simp [State.memoryCanonical]

@[simp] theorem takeRetained_canonical (j : Station) (r : StatusRecord) (s : State) : (takeRetained j r s).memoryCanonical = s.memoryCanonical := by simp [State.memoryCanonical]

@[simp] theorem takeRestart_canonical (r : StatusRecord) (s : State) : (takeRestart r s).memoryCanonical = s.memoryCanonical := by simp [State.memoryCanonical]

@[simp] theorem takeRestarted_canonical (j : Station) (r : StatusRecord) (s : State) : (takeRestarted j r s).memoryCanonical = s.memoryCanonical := by simp [State.memoryCanonical]

@[simp] theorem acceptRecord_canonical (j : Station) (r : StatusRecord) (s : State) : (acceptRecord j r s).memoryCanonical = s.memoryCanonical := by simp [State.memoryCanonical]

@[simp] theorem raisePeerLost_canonical (j : Station) (e : PeerEntry) (s : State) : (raisePeerLost j e s).memoryCanonical = s.memoryCanonical := by simp [State.memoryCanonical]

@[simp] theorem peerLost_canonical (j : Station) (e : PeerEntry) (s : State) : (peerLost j e s).memoryCanonical = s.memoryCanonical := by simp [State.memoryCanonical]

@[simp] theorem agePeer_canonical (j : Station) (s : State) : (agePeer j s).memoryCanonical = s.memoryCanonical := by simp [State.memoryCanonical]

@[simp] theorem ageAll_canonical (s : State) : (ageAll s).memoryCanonical = s.memoryCanonical := by
  simp [State.memoryCanonical]

@[simp] theorem enterListening_canonical (s : State) : (enterListening s).memoryCanonical = s.memoryCanonical := by simp [State.memoryCanonical]

@[simp] theorem raiseLinkAlone_canonical (detail : Int) (s : State) : (raiseLinkAlone detail s).memoryCanonical = s.memoryCanonical := by simp [State.memoryCanonical]

@[simp] theorem adoptFrame_canonical (j : Station) (r : StatusRecord) (start : Rat) (s : State) : (adoptFrame j r start s).memoryCanonical = s.memoryCanonical := by simp [State.memoryCanonical]

@[simp] theorem reportStranger_canonical (j : Station) (s : State) : (reportStranger j s).memoryCanonical = s.memoryCanonical := by simp [State.memoryCanonical]

@[simp] theorem attributeFrame_canonical (j : Station) (r : StatusRecord) (start : Rat) (s : State) : (attributeFrame j r start s).memoryCanonical = s.memoryCanonical := by simp [State.memoryCanonical]

@[simp] theorem examineFrame_canonical (r : StatusRecord) (start : Rat) (s : State) : (examineFrame r start s).memoryCanonical = s.memoryCanonical := by simp [State.memoryCanonical]

@[simp] theorem cycleEnd_canonical (s : State) : (cycleEnd s).memoryCanonical = s.memoryCanonical := by simp [State.memoryCanonical]

@[simp] theorem startCycle_canonical (s : State) : (startCycle s).memoryCanonical = s.memoryCanonical := by simp [State.memoryCanonical]

@[simp] theorem completeGathering_canonical (s : State) : (completeGathering s).memoryCanonical = s.memoryCanonical := by simp [State.memoryCanonical]

@[simp] theorem countAgreement_canonical (ok : Bool) (s : State) : (countAgreement ok s).memoryCanonical = s.memoryCanonical := by simp [State.memoryCanonical]

@[simp] theorem gatheringEvaluation_canonical (s : State) : (gatheringEvaluation s).memoryCanonical = s.memoryCanonical := by simp [State.memoryCanonical]

@[simp] theorem completeRecovery_canonical (s : State) : (completeRecovery s).memoryCanonical = s.memoryCanonical := by simp [State.memoryCanonical]

@[simp] theorem recoveryEvaluation_canonical (s : State) : (recoveryEvaluation s).memoryCanonical = s.memoryCanonical := by simp [State.memoryCanonical]

@[simp] theorem slotEvaluation_canonical (s : State) : (slotEvaluation s).memoryCanonical = s.memoryCanonical := by simp [State.memoryCanonical]

@[simp] theorem packAndRefresh_canonical (s : State) : (packAndRefresh s).memoryCanonical = s.memoryCanonical := by simp [State.memoryCanonical]

@[simp] theorem ownSlot_canonical (s : State) : (ownSlot s).memoryCanonical = s.memoryCanonical := by simp [State.memoryCanonical]

@[simp] theorem chooseCal_canonical (s : State) : (chooseCal s).memoryCanonical = s.memoryCanonical := by simp [State.memoryCanonical]

@[simp] theorem takeValues_canonical (s : State) : (takeValues s).memoryCanonical = s.memoryCanonical := by simp [State.memoryCanonical]

@[simp] theorem flipShift_canonical (s : State) : (flipShift s).memoryCanonical = s.memoryCanonical := by simp [State.memoryCanonical]

@[simp] theorem rechooseCal_canonical (s : State) : (rechooseCal s).memoryCanonical = s.memoryCanonical := by simp [State.memoryCanonical]

@[simp] theorem calWriteTests_canonical (s : State) : (calWriteTests s).memoryCanonical = s.memoryCanonical := by simp [State.memoryCanonical]

@[simp] theorem idlePort_canonical (s : State) : (idlePort s).memoryCanonical = s.memoryCanonical := by simp [State.memoryCanonical]

@[simp] theorem advancePointer_canonical (s : State) : (advancePointer s).memoryCanonical = s.memoryCanonical := by simp [State.memoryCanonical]

@[simp] theorem takeTail_canonical (slot : Fin 96) (f : JournalFrame) (s : State) : (takeTail slot f s).memoryCanonical = s.memoryCanonical := by simp [State.memoryCanonical]

@[simp] theorem clearFinalOut_canonical (s : State) : (clearFinalOut s).memoryCanonical = s.memoryCanonical := by simp [State.memoryCanonical]

@[simp] theorem orderlySealed_canonical (seq : BitVec 16) (s : State) : (orderlySealed seq s).memoryCanonical = s.memoryCanonical := by simp [State.memoryCanonical]

@[simp] theorem stageSealed_canonical (s : State) : (stageSealed s).memoryCanonical = s.memoryCanonical := by simp [State.memoryCanonical]

@[simp] theorem surveyAtFlip_canonical (s : State) : (surveyAtFlip s).memoryCanonical = s.memoryCanonical := by simp [State.memoryCanonical]

@[simp] theorem flipDone_canonical (s : State) : (flipDone s).memoryCanonical = s.memoryCanonical := by simp [State.memoryCanonical]

@[simp] theorem writeCompleted_canonical (f : InFlight) (s : State) : (writeCompleted f s).memoryCanonical = s.memoryCanonical := by simp [State.memoryCanonical]

@[simp] theorem writeCut_canonical (f : InFlight) (s : State) : (writeCut f s).memoryCanonical = s.memoryCanonical := by simp [State.memoryCanonical]

@[simp] theorem raiseWriteFailed_canonical (f : InFlight) (s : State) : (raiseWriteFailed f s).memoryCanonical = s.memoryCanonical := by simp [State.memoryCanonical]

@[simp] theorem failedEffect_canonical (f : InFlight) (s : State) : (failedEffect f s).memoryCanonical = s.memoryCanonical := by simp [State.memoryCanonical]

@[simp] theorem lockRetry_canonical (f : InFlight) (s : State) : (lockRetry f s).memoryCanonical = s.memoryCanonical := by simp [State.memoryCanonical]

@[simp] theorem failedTests_canonical (f : InFlight) (s : State) : (failedTests f s).memoryCanonical = s.memoryCanonical := by simp [State.memoryCanonical]

@[simp] theorem writeFailed_canonical (f : InFlight) (s : State) : (writeFailed f s).memoryCanonical = s.memoryCanonical := by simp [State.memoryCanonical]

theorem setBeat_canonical (a : Nat) (bs : List Byte) (s : State) (h : s.memoryCanonical) :
    (s.setMem (Memory.writeBytes s.mem a bs)).memoryCanonical := Memory.wf_writeBytes bs s.mem a h

@[simp] theorem endBeat_canonical (f : InFlight) (readback : List Byte) (s : State) (h : s.memoryCanonical) :
    (endBeat f readback s).memoryCanonical := by
  have := setBeat_canonical f.address readback s h
  simp only [endBeat]; (repeat' split) <;> simp [this]

@[simp] theorem arrivalCut_canonical (s : State) : (arrivalCut s).memoryCanonical = s.memoryCanonical := by simp [State.memoryCanonical]

@[simp] theorem pfailArrival_canonical (s : State) : (pfailArrival s).memoryCanonical = s.memoryCanonical := by simp [State.memoryCanonical]

@[simp] theorem pfailWithdrawal_canonical (s : State) : (pfailWithdrawal s).memoryCanonical = s.memoryCanonical := by simp [State.memoryCanonical]

@[simp] theorem scanJournal_canonical (s : State) : (scanJournal s).memoryCanonical = s.memoryCanonical := by simp [State.memoryCanonical]

@[simp] theorem scanLockout_canonical (s : State) : (scanLockout s).memoryCanonical = s.memoryCanonical := by simp [State.memoryCanonical]

@[simp] theorem endScan_canonical (s : State) : (endScan s).memoryCanonical = s.memoryCanonical := by simp [State.memoryCanonical]

@[simp] theorem stillArrival_canonical (s : State) : (stillArrival s).memoryCanonical = s.memoryCanonical := by simp [State.memoryCanonical]

@[simp] theorem switchChanged_canonical (i : SwitchInput) (active : Bool) (s : State) : (switchChanged i active s).memoryCanonical = s.memoryCanonical := by simp [State.memoryCanonical]

@[simp] theorem switchSample_canonical (i : SwitchInput) (raw : Bool) (s : State) : (switchSample i raw s).memoryCanonical = s.memoryCanonical := by simp [State.memoryCanonical]

@[simp] theorem pfailSample_canonical (raw : Bool) (s : State) : (pfailSample raw s).memoryCanonical = s.memoryCanonical := by simp [State.memoryCanonical]

@[simp] theorem countTransition_canonical (positive : Bool) (s : State) : (countTransition positive s).memoryCanonical = s.memoryCanonical := by simp [State.memoryCanonical]

@[simp] theorem dropCaptures_canonical (s : State) : (dropCaptures s).memoryCanonical = s.memoryCanonical := by simp [State.memoryCanonical]

@[simp] theorem mainQuadError_canonical (s : State) : (mainQuadError s).memoryCanonical = s.memoryCanonical := by simp [State.memoryCanonical]

@[simp] theorem resolveSpurious_canonical (e : PendingEdge) (s : State) : (resolveSpurious e s).memoryCanonical = s.memoryCanonical := by simp [State.memoryCanonical]

@[simp] theorem edgeDistance_canonical (s : State) : (edgeDistance s).memoryCanonical = s.memoryCanonical := by simp [State.memoryCanonical]

@[simp] theorem mainTransition_canonical (positive : Bool) (s : State) : (mainTransition positive s).memoryCanonical = s.memoryCanonical := by simp [State.memoryCanonical]

@[simp] theorem mainSample_canonical (a b : Bool) (s : State) : (mainSample a b s).memoryCanonical = s.memoryCanonical := by simp [State.memoryCanonical]

@[simp] theorem noteExcursion_canonical (s : State) : (noteExcursion s).memoryCanonical = s.memoryCanonical := by simp [State.memoryCanonical]

@[simp] theorem standbyTransition_canonical (positive : Bool) (s : State) : (standbyTransition positive s).memoryCanonical = s.memoryCanonical := by simp [State.memoryCanonical]

@[simp] theorem standbyRead_canonical (a b : Bool) (s : State) : (standbyRead a b s).memoryCanonical = s.memoryCanonical := by simp [State.memoryCanonical]

@[simp] theorem pushCapture_canonical (c : Capture) (s : State) : (pushCapture c s).memoryCanonical = s.memoryCanonical := by simp [State.memoryCanonical]

@[simp] theorem useLastChange_canonical (s : State) : (useLastChange s).memoryCanonical = s.memoryCanonical := by simp [State.memoryCanonical]

@[simp] theorem qualify_canonical (l : LastChange) (d : Direction) (value : Position) (cycle : Option (BitVec 32)) (s : State) : (qualify l d value cycle s).memoryCanonical = s.memoryCanonical := by simp [State.memoryCanonical]

@[simp] theorem acceptStep_canonical (l : LastChange) (d : Direction) (s : State) : (acceptStep l d s).memoryCanonical = s.memoryCanonical := by simp [State.memoryCanonical]

@[simp] theorem acceptJump_canonical (step : Option Nat) (old new : Nat) (s : State) : (acceptJump step old new s).memoryCanonical = s.memoryCanonical := by simp [State.memoryCanonical]

@[simp] theorem acceptSector_canonical (n : Nat) (s : State) : (acceptSector n s).memoryCanonical = s.memoryCanonical := by simp [State.memoryCanonical]

@[simp] theorem sectorSample_canonical (lines : BitVec 5) (s : State) : (sectorSample lines s).memoryCanonical = s.memoryCanonical := by simp [State.memoryCanonical]

@[simp] theorem displaceEdge_canonical (s : State) : (displaceEdge s).memoryCanonical = s.memoryCanonical := by simp [State.memoryCanonical]

@[simp] theorem latchEdge_canonical (sector : Nat) (s : State) : (latchEdge sector s).memoryCanonical = s.memoryCanonical := by simp [State.memoryCanonical]

@[simp] theorem motionCheck_canonical (s : State) : (motionCheck s).memoryCanonical = s.memoryCanonical := by simp [State.memoryCanonical]

@[simp] theorem endSettling_canonical (s : State) : (endSettling s).memoryCanonical = s.memoryCanonical := by simp [State.memoryCanonical]

@[simp] theorem stopBeat_canonical (s : State) (h : s.memoryCanonical) : (stopBeat s).memoryCanonical := by
  simp only [stopBeat]
  split
  · exact h
  · simpa using setBeat_canonical _ _ s h

@[simp] theorem resetMainDomain_canonical (kind : StartKind) (alive : Bool) (straps : Station) (s : State) : (resetMainDomain kind alive straps s).memoryCanonical = s.memoryCanonical := by simp [State.memoryCanonical]

@[simp] theorem loseMainSupply_canonical (s : State) (h : s.memoryCanonical) : (loseMainSupply s).memoryCanonical := by
  simp only [loseMainSupply]; (repeat' split) <;> simp (maxDischargeDepth := 9) [h]

@[simp] theorem loseStandby_canonical (s : State) : (loseStandby s).memoryCanonical = s.memoryCanonical := by simp [State.memoryCanonical]

@[simp] theorem raiseMainSupply_canonical (alive : Bool) (straps : Station) (s : State) : (raiseMainSupply alive straps s).memoryCanonical = s.memoryCanonical := by simp [State.memoryCanonical]

@[simp] theorem coldStart_canonical (straps : Station) (s : State) : (coldStart straps s).memoryCanonical = s.memoryCanonical := by simp [State.memoryCanonical]

@[simp] theorem assertReset_canonical (s : State) : (assertReset s).memoryCanonical = s.memoryCanonical := by simp [State.memoryCanonical]

@[simp] theorem releaseReset_canonical (straps : Station) (s : State) : (releaseReset straps s).memoryCanonical = s.memoryCanonical := by simp [State.memoryCanonical]

@[simp] theorem seekStall_canonical (s : State) : (seekStall s).memoryCanonical = s.memoryCanonical := by simp [State.memoryCanonical]

@[simp] theorem parkStall_canonical (s : State) : (parkStall s).memoryCanonical = s.memoryCanonical := by simp [State.memoryCanonical]

@[simp] theorem surveyStall_canonical (s : State) : (surveyStall s).memoryCanonical = s.memoryCanonical := by simp [State.memoryCanonical]

@[simp] theorem escalateEntry_canonical (s : State) : (escalateEntry s).memoryCanonical = s.memoryCanonical := by simp [State.memoryCanonical]

@[simp] theorem abandonFrame_canonical (s : State) : (abandonFrame s).memoryCanonical = s.memoryCanonical := by simp [State.memoryCanonical]

@[simp] theorem receiveFrame_canonical (ago : Time) (bytes : List Byte) (s : State) : (receiveFrame ago bytes s).memoryCanonical = s.memoryCanonical := by simp [State.memoryCanonical]

@[simp] theorem slotEnd_canonical (k : Station) (s : State) : (slotEnd k s).memoryCanonical = s.memoryCanonical := by simp [State.memoryCanonical]

@[simp] theorem listenPeriod_canonical (s : State) : (listenPeriod s).memoryCanonical = s.memoryCanonical := by simp [State.memoryCanonical]

@[simp] theorem timeItself_canonical (s : State) : (timeItself s).memoryCanonical = s.memoryCanonical := by simp [State.memoryCanonical]

@[simp] theorem openRequest_canonical (keepsKey : Bool) (s : State) : (openRequest keepsKey s).memoryCanonical = s.memoryCanonical := by simp [State.memoryCanonical]

@[simp] theorem decideConfigure_canonical (p : List Byte) (s : State) : (decideConfigure p s).state.memoryCanonical = s.memoryCanonical := by simp [State.memoryCanonical]

@[simp] theorem decidePlanClear_canonical (s : State) : (decidePlanClear s).state.memoryCanonical = s.memoryCanonical := by simp [State.memoryCanonical]

@[simp] theorem decidePlanStep_canonical (p : List Byte) (s : State) : (decidePlanStep p s).state.memoryCanonical = s.memoryCanonical := by simp [State.memoryCanonical]

@[simp] theorem decidePlanSeal_canonical (s : State) : (decidePlanSeal s).state.memoryCanonical = s.memoryCanonical := by simp [State.memoryCanonical]

@[simp] theorem joinArm_canonical (s : State) : (joinArm s).memoryCanonical = s.memoryCanonical := by simp [State.memoryCanonical]

@[simp] theorem decideJoin_canonical (s : State) : (decideJoin s).state.memoryCanonical = s.memoryCanonical := by simp [State.memoryCanonical]

@[simp] theorem decideStatus_canonical (s : State) : (decideStatus s).state.memoryCanonical = s.memoryCanonical := by simp [State.memoryCanonical]

@[simp] theorem decidePeers_canonical (s : State) : (decidePeers s).state.memoryCanonical = s.memoryCanonical := by simp [State.memoryCanonical]

@[simp] theorem decidePosition_canonical (s : State) : (decidePosition s).state.memoryCanonical = s.memoryCanonical := by simp [State.memoryCanonical]

@[simp] theorem decideOrder_canonical (s : State) : (decideOrder s).state.memoryCanonical = s.memoryCanonical := by simp [State.memoryCanonical]

@[simp] theorem decideFaults_canonical (s : State) : (decideFaults s).state.memoryCanonical = s.memoryCanonical := by simp [State.memoryCanonical]

@[simp] theorem decideCalRead_canonical (s : State) : (decideCalRead s).state.memoryCanonical = s.memoryCanonical := by simp [State.memoryCanonical]

@[simp] theorem decideJournalRead_canonical (p : List Byte) (s : State) : (decideJournalRead p s).state.memoryCanonical = s.memoryCanonical := by simp [State.memoryCanonical]

@[simp] theorem decideFaultClear_canonical (s : State) : (decideFaultClear s).state.memoryCanonical = s.memoryCanonical := by simp [State.memoryCanonical]

@[simp] theorem abandonSeek_canonical (c : SeekContext) (s : State) : (abandonSeek c s).memoryCanonical = s.memoryCanonical := by simp [State.memoryCanonical]

@[simp] theorem abandonSurvey_canonical (c : SurveyContext) (s : State) : (abandonSurvey c s).memoryCanonical = s.memoryCanonical := by simp [State.memoryCanonical]

@[simp] theorem decideAbandon_canonical (s : State) : (decideAbandon s).state.memoryCanonical = s.memoryCanonical := by simp [State.memoryCanonical]

@[simp] theorem startSurvey_canonical (k : SurveyKind) (m : Int) (s : State) : (startSurvey k m s).memoryCanonical = s.memoryCanonical := by simp [State.memoryCanonical]

@[simp] theorem decideSurvey_canonical (p : List Byte) (s : State) : (decideSurvey p s).state.memoryCanonical = s.memoryCanonical := by simp [State.memoryCanonical]

@[simp] theorem decideTrim_canonical (p : List Byte) (s : State) : (decideTrim p s).state.memoryCanonical = s.memoryCanonical := by simp [State.memoryCanonical]

@[simp] theorem propose_canonical (g : BitVec 16) (s : State) : (propose g s).memoryCanonical = s.memoryCanonical := by simp [State.memoryCanonical]

@[simp] theorem decideCalCommit_canonical (s : State) : (decideCalCommit s).state.memoryCanonical = s.memoryCanonical := by simp [State.memoryCanonical]

@[simp] theorem decideResume_canonical (s : State) : (decideResume s).state.memoryCanonical = s.memoryCanonical := by simp [State.memoryCanonical]

@[simp] theorem decideRestart_canonical (s : State) : (decideRestart s).state.memoryCanonical = s.memoryCanonical := by simp [State.memoryCanonical]

@[simp] theorem setKeyCount_canonical (n : Nat) (s : State) : (setKeyCount n s).memoryCanonical = s.memoryCanonical := by simp [State.memoryCanonical]

@[simp] theorem decideLockoutClear_canonical (s : State) : (decideLockoutClear s).state.memoryCanonical = s.memoryCanonical := by simp [State.memoryCanonical]

@[simp] theorem decideShutdown_canonical (s : State) : (decideShutdown s).state.memoryCanonical = s.memoryCanonical := by simp [State.memoryCanonical]

@[simp] theorem decideReset_canonical (s : State) : (decideReset s).state.memoryCanonical = s.memoryCanonical := by simp [State.memoryCanonical]

@[simp] theorem receiveCode_canonical (code : Byte) (s : State) : (receiveCode code s).memoryCanonical = s.memoryCanonical := by simp [State.memoryCanonical]

end Sys2Proof.Machine
end

