-- ==== Sys2Proof/Laws/GateSafe.lean ====
section
/-! SUPPORT. What every operation leaves of the gate: `State.gateSafe` is kept (R161, R165 to R170). -/

set_option linter.unusedTactic false
set_option linter.unnecessarySeqFocus false
set_option linter.unusedSimpArgs false
set_option linter.unreachableTactic false
set_option linter.unusedVariables false

namespace Sys2Proof.Machine

@[simp] theorem setPower_safe (s : State) (x : Power) : (s.setPower x).gateSafe = s.gateSafe := propext ⟨id, id⟩
@[simp] theorem setStandby_safe (s : State) (x : Standby) : (s.setStandby x).gateSafe = s.gateSafe := propext ⟨id, id⟩
@[simp] theorem setDecoder_safe (s : State) (x : Decoder) : (s.setDecoder x).gateSafe = s.gateSafe := propext ⟨id, id⟩
@[simp] theorem setSensing_safe (s : State) (x : Sensing) : (s.setSensing x).gateSafe = s.gateSafe := propext ⟨id, id⟩
@[simp] theorem setEngine_safe (s : State) (x : Engine) : (s.setEngine x).gateSafe = s.gateSafe := propext ⟨id, id⟩
@[simp] theorem setLink_safe (s : State) (x : Link) : (s.setLink x).gateSafe = s.gateSafe := propext ⟨id, id⟩
@[simp] theorem setPeers_safe (s : State) (x : Vector PeerEntry 8) : (s.setPeers x).gateSafe = s.gateSafe := propext ⟨id, id⟩
@[simp] theorem setCoord_safe (s : State) (x : Coord) (h0 : x.phase = s.coord.phase) :
    (s.setCoord x).gateSafe = s.gateSafe := by simp [State.gateSafe, h0]
@[simp] theorem setPlan_safe (s : State) (x : Plan) : (s.setPlan x).gateSafe = s.gateSafe := propext ⟨id, id⟩
@[simp] theorem setHold_safe (s : State) (x : Hold) (h0 : x.level = s.hold.level) (h1 : x.complete = s.hold.complete) :
    (s.setHold x).gateSafe = s.gateSafe := by simp [State.gateSafe, h0, h1]
@[simp] theorem setCal_safe (s : State) (x : Cal) : (s.setCal x).gateSafe = s.gateSafe := propext ⟨id, id⟩
@[simp] theorem setStore_safe (s : State) (x : Store) : (s.setStore x).gateSafe = s.gateSafe := propext ⟨id, id⟩
@[simp] theorem setMem_safe (s : State) (x : Memory) : (s.setMem x).gateSafe = s.gateSafe := propext ⟨id, id⟩
@[simp] theorem setPort_safe (s : State) (x : Port) : (s.setPort x).gateSafe = s.gateSafe := propext ⟨id, id⟩

@[simp] theorem advance_safe (dt : Time) (s : State) : (advance dt s).gateSafe = s.gateSafe := by simp [State.gateSafe]

@[simp] theorem bumpFree_safe (s : State) : (bumpFree s).gateSafe = s.gateSafe := by simp [State.gateSafe]

@[simp] theorem addCause_safe (c : Cause) (s : State) : (addCause c s).gateSafe = s.gateSafe := by simp [State.gateSafe]

@[simp] theorem writeOrder_safe (o : MotionOrder) (s : State) : (writeOrder o s).gateSafe = s.gateSafe := by simp [State.gateSafe]

@[simp] theorem engineWrite_safe (o : MotionOrder) (s : State) : (engineWrite o s).gateSafe = s.gateSafe := by simp [State.gateSafe]

@[simp] theorem clearHoldOrder_safe (s : State) : (clearHoldOrder s).gateSafe = s.gateSafe := by simp [State.gateSafe]

@[simp] theorem recordFault_safe (code : Byte) (cls : FaultClass) (origin : Station) (step : Option Nat) (detail : BitVec 32) (s : State) : (recordFault code cls origin step detail s).gateSafe = s.gateSafe := by simp [State.gateSafe]

@[simp] theorem noteFault_safe (code : FaultCode) (cls : FaultClass) (step : Option Nat) (detail : Int) (s : State) : (noteFault code cls step detail s).gateSafe = s.gateSafe := by simp [State.gateSafe]

theorem permitted_needs (s : State) (h : s.permitted = true) :
    s.hold.level = .none ∧ (s.coord.phase = .homing ∨ s.coord.phase = .ready) := by
  simp only [State.permitted, Bool.and_eq_true, decide_eq_true_eq, Bool.or_eq_true] at h
  exact ⟨h.1.2, h.2⟩

/-- The clause of `State.gateSafe` about a complete entry, which the gate's own update rests on. -/
theorem gateUpdate_safe (s : State) (h : s.hold.complete = true → s.hold.level.entering = true ∧ s.gate = .closed) :
    (gateUpdate s).gateSafe := by
  simp only [State.gateSafe, gateUpdate, State.setGate, nextGate]
  refine ⟨fun k => by rw [if_pos k], fun k => ?_, fun k => ?_⟩
  · obtain ⟨a, b⟩ := h k
    refine ⟨a, ?_⟩
    rw [b]
    split
    · rfl
    · rw [if_neg]
      intro c
      rw [(permitted_needs s c).1] at a; simp [HoldLevel.entering] at a
  · by_cases h1 : s.hold.level.dropped = true
    · rw [if_pos h1] at k; cases k
    · rw [if_neg h1] at k
      by_cases h2 : s.permitted = true
      · exact permitted_needs s h2
      · rw [if_neg h2] at k
        cases hg : s.gate <;> rw [hg] at k <;> simp only at k
        · cases k
        all_goals (repeat' split at k) <;> cases k

@[simp] theorem gateUpdate_kept (s : State) (h : s.gateSafe) : (gateUpdate s).gateSafe := gateUpdate_safe s h.2.1

@[simp] theorem parkedCheck_safe (s : State) : (parkedCheck s).gateSafe = s.gateSafe := by simp [State.gateSafe]

@[simp] theorem moveCounter_safe (d : Int) (s : State) : (moveCounter d s).gateSafe = s.gateSafe := by simp [State.gateSafe]

@[simp] theorem applySet_safe (v : Int) (r : Position) (s : State) : (applySet v r s).gateSafe = s.gateSafe := by simp [State.gateSafe]

@[simp] theorem setNewestMark_safe (m : Option Int) (s : State) : (setNewestMark m s).gateSafe = s.gateSafe := by simp [State.gateSafe]

@[simp] theorem grant_safe (r : WriteRequest) (s : State) : (grant r s).gateSafe = s.gateSafe := by simp [State.gateSafe]

@[simp] theorem addPending_safe (r : WriteRequest) (s : State) : (addPending r s).gateSafe = s.gateSafe := by simp [State.gateSafe]

@[simp] theorem dropPending_safe (k : WriteKind) (s : State) : (dropPending k s).gateSafe = s.gateSafe := by simp [State.gateSafe]

@[simp] theorem grantNext_safe (s : State) : (grantNext s).gateSafe = s.gateSafe := by simp [State.gateSafe]

@[simp] theorem postWrite_safe (r : WriteRequest) (s : State) : (postWrite r s).gateSafe = s.gateSafe := by simp [State.gateSafe]

@[simp] theorem postLockRecord_safe (s : State) : (postLockRecord s).gateSafe = s.gateSafe := by simp [State.gateSafe]

@[simp] theorem postLockClear_safe (s : State) : (postLockClear s).gateSafe = s.gateSafe := by simp [State.gateSafe]

@[simp] theorem noteLatch_safe (f : JournalFrame) (s : State) : (noteLatch f s).gateSafe = s.gateSafe := by simp [State.gateSafe]

@[simp] theorem markLatch_safe (s : State) : (markLatch s).gateSafe = s.gateSafe := by simp [State.gateSafe]

@[simp] theorem finalLatch_safe (s : State) : (finalLatch s).gateSafe = s.gateSafe := by simp [State.gateSafe]

@[simp] theorem orderlyLatch_safe (s : State) : (orderlyLatch s).gateSafe = s.gateSafe := by simp [State.gateSafe]

@[simp] theorem planDone_safe (step : Option Nat) (s : State) (h : s.gateSafe) : (planDone step s).gateSafe := by
  simp only [planDone]; (repeat' split) <;> simp (maxDischargeDepth := 9) [h]

@[simp] theorem planHeld_safe (step : Option Nat) (s : State) (h : s.gateSafe) : (planHeld step s).gateSafe := by
  simp only [planHeld]; (repeat' split) <;> simp (maxDischargeDepth := 9) [h]

@[simp] theorem planHold_safe (s : State) : (planHold s).gateSafe = s.gateSafe := by simp [State.gateSafe]

@[simp] theorem planAbandon_safe (s : State) : (planAbandon s).gateSafe = s.gateSafe := by simp [State.gateSafe]

@[simp] theorem planReset_safe (s : State) : (planReset s).gateSafe = s.gateSafe := by simp [State.gateSafe]

@[simp] theorem demote_safe (s : State) : (demote s).gateSafe = s.gateSafe := by simp [State.gateSafe]

@[simp] theorem operationEnded_safe (s : State) : (operationEnded s).gateSafe = s.gateSafe := by simp [State.gateSafe]

@[simp] theorem useDropMotion_safe (s : State) : (useDropMotion s).gateSafe = s.gateSafe := by simp [State.gateSafe]

@[simp] theorem noteDropMotion_safe (s : State) : (noteDropMotion s).gateSafe = s.gateSafe := by simp [State.gateSafe]

@[simp] theorem seekFinish_safe (c : SeekContext) (s : State) : (seekFinish c s).gateSafe = s.gateSafe := by simp [State.gateSafe]

@[simp] theorem seekReturnHeld_safe (c : SeekContext) (s : State) (h : s.gateSafe) : (seekReturnHeld c s).gateSafe := by
  simp only [seekReturnHeld]; (repeat' split) <;> simp (maxDischargeDepth := 9) [h]

@[simp] theorem surveyFinish_safe (c : SurveyContext) (o : SurveyOutcome) (filled : Bool) (s : State) (h : s.gateSafe) : (surveyFinish c o filled s).gateSafe := by
  simp only [surveyFinish]; (repeat' split) <;> simp (maxDischargeDepth := 9) [h]

@[simp] theorem surveyReturn_safe (c : SurveyContext) (e : SurveyEnd) (s : State) (h : s.gateSafe) : (surveyReturn c e s).gateSafe := by
  simp only [surveyReturn]; (repeat' split) <;> simp (maxDischargeDepth := 9) [h]

@[simp] theorem engineHold_safe (s : State) (h : s.gateSafe) : (engineHold s).gateSafe := by
  simp only [engineHold]; (repeat' split) <;> simp (maxDischargeDepth := 9) [h]

@[simp] theorem sightingUpdate_safe (s : State) : (sightingUpdate s).gateSafe = s.gateSafe := by simp [State.gateSafe]

@[simp] theorem endProposal_safe (detail : Option Int) (s : State) : (endProposal detail s).gateSafe = s.gateSafe := by simp [State.gateSafe]

@[simp] theorem withdrawProposal_safe (detail : Int) (s : State) : (withdrawProposal detail s).gateSafe = s.gateSafe := by simp [State.gateSafe]

@[simp] theorem stageTest_safe (s : State) : (stageTest s).gateSafe = s.gateSafe := by simp [State.gateSafe]

@[simp] theorem postFlip_safe (s : State) : (postFlip s).gateSafe = s.gateSafe := by simp [State.gateSafe]

@[simp] theorem flipTest_safe (s : State) : (flipTest s).gateSafe = s.gateSafe := by simp [State.gateSafe]

@[simp] theorem rollForwardOn_safe (r : StatusRecord) (s : State) : (rollForwardOn r s).gateSafe = s.gateSafe := by simp [State.gateSafe]

@[simp] theorem rollForwardTable_safe (s : State) : (rollForwardTable s).gateSafe = s.gateSafe := by simp [State.gateSafe]

@[simp] theorem proposalSuccess_safe (s : State) : (proposalSuccess s).gateSafe = s.gateSafe := by simp [State.gateSafe]

@[simp] theorem changeSeq_safe (q : BitVec 16) (s : State) : (changeSeq q s).gateSafe = s.gateSafe := by simp [State.gateSafe]

@[simp] theorem setCause_safe (cause : Byte) (origin : Station) (s : State) : (setCause cause origin s).gateSafe = s.gateSafe := by simp [State.gateSafe]

/-- At a level whose entry is under way the end of the entry needs the gate CLOSED (R170). -/
@[simp] theorem entryTest_safe (s : State) (h : s.gateSafe) : (entryTest s).gateSafe := by
  simp only [entryTest]
  split
  · rename_i h1
    simp only [Bool.and_eq_true, State.entrySettled, State.settled, decide_eq_true_eq, Bool.not_eq_true'] at h1
    have key : ∀ x : State, x.gate = s.gate → x.hold.level = s.hold.level → x.coord.phase = s.coord.phase → x.gateSafe := by
      intro x a b c
      refine ⟨fun _ => by rw [a]; exact h1.2.1.2, fun _ => ⟨by rw [b]; exact h1.1.1, by rw [a]; exact h1.2.1.2⟩, fun k => ?_⟩
      rw [a, h1.2.1.2] at k; cases k
    split <;> exact key _ (by simp) (by simp) (by simp)
  · exact h

/-- A hold of a level but NONE whose entry is not complete leaves the gate as it may stand (R167, R168). -/
theorem holdReaches_safe (s : State) (h : s.hold.complete = false) : (holdReaches s).gateSafe := by
  simp only [holdReaches, withdrawProposal_safe, noteDropMotion_safe]
  exact gateUpdate_safe _ (by simp [h])

@[simp] theorem holdReaches_kept (s : State) (h : s.gateSafe) : (holdReaches s).gateSafe := by
  simp only [holdReaches]; simp [h]

/-- An entry begins in a state the gate may stand in (R161). -/
@[simp] theorem beginEntry_safe (s : State) : (beginEntry s).gateSafe := by
  simp only [beginEntry]
  refine entryTest_safe _ (holdReaches_safe _ ?_)
  simp only [setComplete]
  split <;> simp_all

@[simp] theorem enterLockout_safe (post : Bool) (s : State) : (enterLockout post s).gateSafe := by
  have : ∀ x : State, x.hold.complete = false → (if post = true then postLockRecord (holdReaches x) else holdReaches x).gateSafe := by
    intro x hx
    split
    · rw [postLockRecord_safe]; exact holdReaches_safe _ hx
    · exact holdReaches_safe _ hx
  simp only [enterLockout]
  refine this _ ?_
  simp only [setComplete]
  split <;> simp_all

/-- Whatever level but NONE has been taken, its entry leaves the gate as it may stand (R161). -/
@[simp] theorem enterLevel_safe (s : State) (h : s.hold.level ≠ .none) : (enterLevel s).gateSafe := by
  simp only [enterLevel]
  split
  · contradiction
  · simp
  · simp
  · simp

/-- A change of phase ends in the gate's update (R72, R84). -/
theorem setPhase_safe' (p : ArmPhase) (s : State) (h : s.hold.complete = true → s.hold.level.entering = true ∧ s.gate = .closed)
    (hp : s.coord.phase ≠ p) : (setPhase p s).gateSafe := by
  simp only [setPhase]
  rw [if_neg hp]
  refine gateUpdate_safe _ ?_
  intro k
  have : ∀ x : State, x.hold.complete = s.hold.complete → x.hold.level = s.hold.level → x.gate = s.gate → x.hold.complete = true →
     x.hold.level.entering = true ∧ x.gate = .closed := by
    intro x a b c d; rw [b, c]; exact h (by rw [← a]; exact d)
  refine this _ ?_ ?_ ?_ k <;> ((repeat' split) <;> simp)

@[simp] theorem setPhase_safe (p : ArmPhase) (s : State) (h : s.gateSafe) : (setPhase p s).gateSafe := by
  by_cases hp : s.coord.phase = p
  · simpa only [setPhase, if_pos hp] using h
  · exact setPhase_safe' p s h.2.1 hp

@[simp] theorem haltPhase_safe (s : State) (h : s.gateSafe) : (haltPhase s).gateSafe := by
  simp only [haltPhase]; (repeat' split) <;> simp (maxDischargeDepth := 9) [h]

@[simp] theorem raiseFault_safe (code : FaultCode) (cls : FaultClass) (step : Option Nat) (detail : Int) (s : State) (h : s.gateSafe) :
    (raiseFault code cls step detail s).gateSafe := by
  have h2 : ∀ x : State, x.gateSafe → (if cls = .abort then haltPhase x else x).gateSafe := by
    intro x hx; split <;> simp [hx]
  simp only [raiseFault]
  split
  · simp [h]
  · simp [h]
  · simp [h]
  · refine h2 _ ?_; (repeat' split) <;> simp [h]
  · refine h2 _ ?_; (repeat' split) <;> simp [h]

@[simp] theorem raiseHold_safe (code : FaultCode) (detail : Int) (s : State) (h : s.gateSafe) : (raiseHold code detail s).gateSafe := by
  simp only [raiseHold]; (repeat' split) <;> simp (maxDischargeDepth := 9) [h]

@[simp] theorem raiseAbort_safe (code : FaultCode) (detail : Int) (s : State) (h : s.gateSafe) : (raiseAbort code detail s).gateSafe := by
  simp only [raiseAbort]; (repeat' split) <;> simp (maxDischargeDepth := 9) [h]

@[simp] theorem raiseSpurious_safe (sector : Nat) (s : State) (h : s.gateSafe) : (raiseSpurious sector s).gateSafe := by
  simp only [raiseSpurious]; (repeat' split) <;> simp (maxDischargeDepth := 9) [h]

@[simp] theorem levelToNone_safe (s : State) (h : s.gateSafe) : (levelToNone s).gateSafe := by
  simp only [levelToNone, clearHoldOrder_safe, setStore_safe]
  have key : ∀ x : State, x.hold.level = .none → x.hold.complete = false → x.gate = s.gate → x.coord.phase = s.coord.phase → x.gateSafe := by
    intro x a b c d
    refine ⟨by rw [a]; simp [HoldLevel.dropped], by rw [b]; simp, ?_⟩
    rw [a, c, d]; intro k; exact ⟨rfl, (h.2.2 k).2⟩
  refine key _ ?_ ?_ ?_ ?_ <;> (simp only [setComplete, setLevel]; (repeat' split) <;> simp_all)

@[simp] theorem resumeHold_safe (s : State) (h : s.gateSafe) : (resumeHold s).gateSafe := by
  simp only [resumeHold]; (repeat' split) <;> simp (maxDischargeDepth := 9) [h]

@[simp] theorem clearLockout_safe (s : State) (h : s.gateSafe) : (clearLockout s).gateSafe := by
  simp only [clearLockout]; (repeat' split) <;> simp (maxDischargeDepth := 9) [h]

@[simp] theorem restartStation_safe (s : State) (h : s.gateSafe) : (restartStation s).gateSafe := by
  simp only [restartStation]; (repeat' split) <;> simp (maxDischargeDepth := 9) [h]

@[simp] theorem stopMotion_safe (s : State) : (stopMotion s).gateSafe = s.gateSafe := by simp [State.gateSafe]

@[simp] theorem engineLost_safe (s : State) (h : s.gateSafe) : (engineLost s).gateSafe := by
  simp only [engineLost]; (repeat' split) <;> simp (maxDischargeDepth := 9) [h]

@[simp] theorem engineOrder_safe (o : MotionOrder) (s : State) (h : s.gateSafe) : (engineOrder o s).gateSafe := by
  simp only [engineOrder]; (repeat' split) <;> simp (maxDischargeDepth := 9) [h]

@[simp] theorem limitArrival_safe (d : Int) (s : State) (h : s.gateSafe) : (limitArrival d s).gateSafe := by
  simp only [limitArrival]; (repeat' split) <;> simp (maxDischargeDepth := 9) [h]

@[simp] theorem startSeek_safe (k : SeekKind) (d : StepDir) (speed : SpeedClass) (limit : Nat) (step : Option Nat) (s : State) (h : s.gateSafe) : (startSeek k d speed limit step s).gateSafe := by
  simp only [startSeek]; (repeat' split) <;> simp (maxDischargeDepth := 9) [h]

@[simp] theorem planRetry_safe (step : Option Nat) (code : FaultCode) (detail : Int) (s : State) (h : s.gateSafe) : (planRetry step code detail s).gateSafe := by
  simp only [planRetry]; (repeat' split) <;> simp (maxDischargeDepth := 9) [h]

@[simp] theorem seekReturn_safe (c : SeekContext) (e : SeekEnd) (s : State) (h : s.gateSafe) : (seekReturn c e s).gateSafe := by
  simp only [seekReturn]; (repeat' split) <;> simp (maxDischargeDepth := 9) [h]

@[simp] theorem endSeek_safe (c : SeekContext) (e : SeekEnd) (detail : Int) (s : State) (h : s.gateSafe) : (endSeek c e detail s).gateSafe := by
  simp only [endSeek]; (repeat' split) <;> simp (maxDischargeDepth := 9) [h]

@[simp] theorem capturedComplete_safe (c : SeekContext) (s : State) (h : s.gateSafe) : (capturedComplete c s).gateSafe := by
  simp only [capturedComplete]; (repeat' split) <;> simp (maxDischargeDepth := 9) [h]

@[simp] theorem enterCaptured_safe (c : SeekContext) (s : State) (h : s.gateSafe) : (enterCaptured c s).gateSafe := by
  simp only [enterCaptured]; (repeat' split) <;> simp (maxDischargeDepth := 9) [h]

@[simp] theorem seekClaim_safe (c : SeekContext) (v : Int) (s : State) (h : s.gateSafe) : (seekClaim c v s).gateSafe := by
  simp only [seekClaim]
  cases hx : setClaimNewest v s with
  | none => simp [h]
  | some x =>
    have k := setClaimNewest_keeps v s x hx
    have : x.gateSafe = s.gateSafe := by simp [State.gateSafe, k]
    simp [this, h]

@[simp] theorem mismatchResolve_safe (s : State) (h : s.gateSafe) : (mismatchResolve s).gateSafe := by
  simp only [mismatchResolve]; (repeat' split) <;> simp (maxDischargeDepth := 9) [h]

@[simp] theorem witnessMismatch_safe (c : SeekContext) (deviation : Int) (s : State) (h : s.gateSafe) : (witnessMismatch c deviation s).gateSafe := by
  simp only [witnessMismatch]; (repeat' split) <;> simp (maxDischargeDepth := 9) [h]

@[simp] theorem seekIgnores_safe (c : SeekContext) (x : Capture) (s : State) : (seekIgnores c x s).gateSafe = s.gateSafe := by simp [State.gateSafe]

@[simp] theorem seekCapture_safe (c : SeekContext) (x : Capture) (s : State) (h : s.gateSafe) : (seekCapture c x s).gateSafe := by
  simp only [seekCapture]; (repeat' split) <;> simp (maxDischargeDepth := 9) [h]

@[simp] theorem markCheck_safe (x : Capture) (s : State) (h : s.gateSafe) : (markCheck x s).gateSafe := by
  simp only [markCheck]; (repeat' split) <;> simp (maxDischargeDepth := 9) [h]

@[simp] theorem surveyEnterCapture_safe (c : SurveyContext) (phase : Nat) (s : State) (h : s.gateSafe) : (surveyEnterCapture c phase s).gateSafe := by
  simp only [surveyEnterCapture]; (repeat' split) <;> simp (maxDischargeDepth := 9) [h]

@[simp] theorem surveyEnterGoto_safe (c : SurveyContext) (phase : Nat) (s : State) (h : s.gateSafe) : (surveyEnterGoto c phase s).gateSafe := by
  simp only [surveyEnterGoto]; (repeat' split) <;> simp (maxDischargeDepth := 9) [h]

@[simp] theorem surveyEnterApproach_safe (c : SurveyContext) (phase : Nat) (s : State) (h : s.gateSafe) : (surveyEnterApproach c phase s).gateSafe := by
  simp only [surveyEnterApproach]; (repeat' split) <;> simp (maxDischargeDepth := 9) [h]

@[simp] theorem surveyFail_safe (c : SurveyContext) (phase : Nat) (s : State) (h : s.gateSafe) : (surveyFail c phase s).gateSafe := by
  simp only [surveyFail]; (repeat' split) <;> simp (maxDischargeDepth := 9) [h]

@[simp] theorem raiseBacklash_safe (b : Int) (s : State) (h : s.gateSafe) : (raiseBacklash b s).gateSafe := by
  simp only [raiseBacklash]; (repeat' split) <;> simp (maxDischargeDepth := 9) [h]

@[simp] theorem raiseRatio_safe (d : Int) (s : State) (h : s.gateSafe) : (raiseRatio d s).gateSafe := by
  simp only [raiseRatio]; (repeat' split) <;> simp (maxDischargeDepth := 9) [h]

@[simp] theorem surveyComplete_safe (c : SurveyContext) (s : State) (h : s.gateSafe) : (surveyComplete c s).gateSafe := by
  simp only [surveyComplete]; (repeat' split) <;> simp (maxDischargeDepth := 9) [h]

@[simp] theorem surveyStandstill_safe (c : SurveyContext) (s : State) (h : s.gateSafe) : (surveyStandstill c s).gateSafe := by
  simp only [surveyStandstill]; (repeat' split) <;> simp (maxDischargeDepth := 9) [h]

@[simp] theorem surveyTake_safe (c : SurveyContext) (x : Capture) (s : State) (h : s.gateSafe) : (surveyTake c x s).gateSafe := by
  simp only [surveyTake]; (repeat' split) <;> simp (maxDischargeDepth := 9) [h]

@[simp] theorem surveyCapture_safe (c : SurveyContext) (x : Capture) (s : State) (h : s.gateSafe) : (surveyCapture c x s).gateSafe := by
  simp only [surveyCapture]; (repeat' split) <;> simp (maxDischargeDepth := 9) [h]

@[simp] theorem offerCapture_safe (x : Capture) (s : State) (h : s.gateSafe) : (offerCapture x s).gateSafe := by
  simp only [offerCapture]; (repeat' split) <;> simp (maxDischargeDepth := 9) [h]

@[simp] theorem startPark_safe (step : Option Nat) (s : State) (h : s.gateSafe) : (startPark step s).gateSafe := by
  simp only [startPark]; (repeat' split) <;> simp (maxDischargeDepth := 9) [h]

@[simp] theorem parkStandstill_safe (p : ParkOperation) (s : State) (h : s.gateSafe) : (parkStandstill p s).gateSafe := by
  simp only [parkStandstill]; (repeat' split) <;> simp (maxDischargeDepth := 9) [h]

@[simp] theorem parkWithdrawn_safe (p : ParkOperation) (s : State) (h : s.gateSafe) : (parkWithdrawn p s).gateSafe := by
  simp only [parkWithdrawn]; (repeat' split) <;> simp (maxDischargeDepth := 9) [h]

@[simp] theorem withdrawPark_safe (p : ParkOperation) (s : State) (h : s.gateSafe) : (withdrawPark p s).gateSafe := by
  simp only [withdrawPark]; (repeat' split) <;> simp (maxDischargeDepth := 9) [h]

@[simp] theorem engineStandstill_safe (s : State) (h : s.gateSafe) : (engineStandstill s).gateSafe := by
  simp only [engineStandstill]; (repeat' split) <;> simp (maxDischargeDepth := 9) [h]

@[simp] theorem engineLeavesStill_safe (s : State) : (engineLeavesStill s).gateSafe = s.gateSafe := by simp [State.gateSafe]

@[simp] theorem engineTravel_safe (s : State) (h : s.gateSafe) : (engineTravel s).gateSafe := by
  simp only [engineTravel]; (repeat' split) <;> simp (maxDischargeDepth := 9) [h]

@[simp] theorem homeEdge_safe (arrival : Bool) (s : State) (h : s.gateSafe) : (homeEdge arrival s).gateSafe := by
  simp only [homeEdge]; (repeat' split) <;> simp (maxDischargeDepth := 9) [h]

@[simp] theorem raiseDrift_safe (s : State) (h : s.gateSafe) : (raiseDrift s).gateSafe := by
  simp only [raiseDrift]; (repeat' split) <;> simp (maxDischargeDepth := 9) [h]

@[simp] theorem reclassify_safe (s : State) (h : s.gateSafe) : (reclassify s).gateSafe := by
  simp only [reclassify]; (repeat' split) <;> simp (maxDischargeDepth := 9) [h]

@[simp] theorem putClaim_safe (j : Station) (e : ClaimEntry) (s : State) (h : s.gateSafe) : (putClaim j e s).gateSafe := by
  simp only [putClaim]; (repeat' split) <;> simp (maxDischargeDepth := 9) [h]

@[simp] theorem ownClaimFollows_safe (s : State) (h : s.gateSafe) : (ownClaimFollows s).gateSafe := by
  simp only [ownClaimFollows]; (repeat' split) <;> simp (maxDischargeDepth := 9) [h]

@[simp] theorem loseContinuity_safe (cause : StandbyError) (s : State) (h : s.gateSafe) : (loseContinuity cause s).gateSafe := by
  simp only [loseContinuity]; (repeat' split) <;> simp (maxDischargeDepth := 9) [h]

@[simp] theorem claimFromPeer_safe (j : Station) (r : StatusRecord) (s : State) (h : s.gateSafe) : (claimFromPeer j r s).gateSafe := by
  simp only [claimFromPeer]; (repeat' split) <;> simp (maxDischargeDepth := 9) [h]

@[simp] theorem startNotes_safe (s : State) : (startNotes s).gateSafe = s.gateSafe := by simp [State.gateSafe]

@[simp] theorem buildClaim_safe (s : State) (h : s.gateSafe) : (buildClaim s).gateSafe := by
  simp only [buildClaim]; (repeat' split) <;> simp (maxDischargeDepth := 9) [h]

@[simp] theorem initialStateClaim_safe (s : State) : (initialStateClaim s).gateSafe = s.gateSafe := by simp [State.gateSafe]

@[simp] theorem claimStep_safe (i : Nat) (s : State) : (claimStep i s).gateSafe = s.gateSafe := by simp [State.gateSafe]

@[simp] theorem scanFrom_safe (l : List StepRecord) (s : State) (h : s.gateSafe) : (scanFrom s l).gateSafe := by
  induction l generalizing s with
  | nil => simpa [scanFrom] using h
  | cons r rest ih => simp only [scanFrom]; (repeat' split) <;> simp [ih, h]

@[simp] theorem planScan_safe (s : State) : (planScan s).gateSafe = s.gateSafe := by simp [State.gateSafe]

@[simp] theorem withdrawClaim_safe (i : Nat) (st : StepStatus) (s : State) : (withdrawClaim i st s).gateSafe = s.gateSafe := by simp [State.gateSafe]

@[simp] theorem startOperation_safe (r : StepRecord) (s : State) (h : s.gateSafe) : (startOperation r s).gateSafe := by
  simp only [startOperation]; (repeat' split) <;> simp (maxDischargeDepth := 9) [h]

@[simp] theorem grantStep_safe (r : StepRecord) (s : State) (h : s.gateSafe) : (grantStep r s).gateSafe := by
  simp only [grantStep]; (repeat' split) <;> simp (maxDischargeDepth := 9) [h]

@[simp] theorem grantTest_safe (r : StepRecord) (s : State) (h : s.gateSafe) : (grantTest r s).gateSafe := by
  simp only [grantTest, planStage]; (repeat' split) <;> simp (maxDischargeDepth := 9) [h]

@[simp] theorem grantAndScan_safe (s : State) (h : s.gateSafe) : (grantAndScan s).gateSafe := by
  simp only [grantAndScan]; (repeat' split) <;> simp (maxDischargeDepth := 9) [h]

@[simp] theorem noteYield_safe (i : Nat) (s : State) : (noteYield i s).gateSafe = s.gateSafe := by simp [State.gateSafe]

@[simp] theorem yieldTest_safe (s : State) (h : s.gateSafe) : (yieldTest s).gateSafe := by
  simp only [yieldTest]; (repeat' split) <;> simp (maxDischargeDepth := 9) [h]

@[simp] theorem endFinding_safe (s : State) (h : s.gateSafe) : (endFinding s).gateSafe := by
  simp only [endFinding]; (repeat' split) <;> simp (maxDischargeDepth := 9) [h]

@[simp] theorem planEvaluation_safe (s : State) (h : s.gateSafe) : (planEvaluation s).gateSafe := by
  simp only [planEvaluation, planStage]; (repeat' split) <;> simp (maxDischargeDepth := 9) [h]

@[simp] theorem refreshOwn_safe (s : State) : (refreshOwn s).gateSafe = s.gateSafe := by simp [State.gateSafe]

@[simp] theorem notePacking_safe (s : State) : (notePacking s).gateSafe = s.gateSafe := by simp [State.gateSafe]

@[simp] theorem noteClaimSent_safe (kept : Bool) (s : State) : (noteClaimSent kept s).gateSafe = s.gateSafe := by simp [State.gateSafe]

@[simp] theorem resumeFlagClear_safe (s : State) : (resumeFlagClear s).gateSafe = s.gateSafe := by simp [State.gateSafe]

@[simp] theorem handOff_safe (s : State) (h : s.gateSafe) : (handOff s).gateSafe := by
  simp only [handOff]; (repeat' split) <;> simp (maxDischargeDepth := 9) [h]

@[simp] theorem adoptHold_safe (j : Station) (r : StatusRecord) (s : State) (h : s.gateSafe) (hr : r.level ≠ .none) :
    (adoptHold j r s).gateSafe := by
  have l1 : s.hold.level.higher r.level ≠ .none := by
    simp only [HoldLevel.higher]
    split
    · exact hr
    · rename_i k; intro e; rw [e] at k; revert k hr; cases r.level <;> simp [HoldLevel.rank]
  have hu : ∀ x : State, (setCause r.cause r.origin (setLevel (s.hold.level.higher r.level) (changeSeq r.holdSeq s))) = x →
      x.hold.level = s.hold.level.higher r.level ∧ x.hold.complete = s.hold.complete ∧ x.gate = s.gate ∧ x.coord = s.coord := by
    rintro x rfl
    have e : ∀ l y, (setLevel l y).hold.level = l ∧ (setLevel l y).hold.complete = y.hold.complete ∧ (setLevel l y).gate = y.gate ∧
        (setLevel l y).coord = y.coord := by
      intro l y; refine ⟨?_, by simp, by simp, by simp⟩
      simp only [setLevel]; split
      · assumption
      · simp
    simp only [setCause, State.setHold_hold, State.setHold_gate, State.setHold_coord]
    rw [(e _ _).1, (e _ _).2.1, (e _ _).2.2.1, (e _ _).2.2.2]
    simp
  have lk : s.hold.level = .lockout → ∀ x : State, x.hold.level = s.hold.level.higher r.level → x.hold.complete = s.hold.complete →
      x.gate = s.gate → x.coord.phase = s.coord.phase → x.gateSafe := by
    intro e x a b c d
    have e2 : s.hold.level.higher r.level = .lockout := by rw [e]; cases r.level <;> rfl
    rw [e2] at a
    rw [← e] at a
    obtain ⟨h1, h2, h3⟩ := h
    refine ⟨by rw [a, c]; exact h1, by rw [a, b, c]; exact h2, by rw [a, c, d]; exact h3⟩
  simp only [adoptHold]
  generalize hx : setCause r.cause r.origin _ = x
  obtain ⟨x1, x2, x3, x4⟩ := hu x hx
  split
  · rename_i k
    exact lk k.1 x x1 x2 x3 (by rw [x4])
  · have ae : ∀ y : State, y.hold.level = s.hold.level.higher r.level → y.hold.complete = s.hold.complete →
      y.gate = s.gate → y.coord.phase = s.coord.phase → (adoptionEntry s.hold.level y).gateSafe := by
      intro y a b c d
      simp only [adoptionEntry]
      split
      · rename_i k; rw [a] at k; exact absurd k l1
      · simp
      · simp
      · split
        · rename_i k; exact lk k y a b c d
        · simp
    have := ae (recordFault r.cause r.adoptedClass r.origin none (BitVec.ofNat 32 j.val) x) (by simp [x1]) (by simp [x2]) (by simp [x3]) (by simp [x4])
    split <;> simp [this]

@[simp] theorem raiseToPeer_safe (r : StatusRecord) (s : State) (h : s.gateSafe) : (raiseToPeer r s).gateSafe := by
  simp only [raiseToPeer]
  split
  · rename_i k
    simp only [Bool.and_eq_true, decide_eq_true_eq] at k
    refine enterLevel_safe _ ?_
    have : r.level ≠ .none := by intro e; have := k.2; rw [e] at this; simp [HoldLevel.rank] at this
    simp only [setLevel]
    split
    · rename_i e; rw [e]; exact this
    · simpa using this
  · exact h

@[simp] theorem settleOrigin_safe (r : StatusRecord) (s : State) : (settleOrigin r s).gateSafe = s.gateSafe := by simp [State.gateSafe]

@[simp] theorem takeSequence_safe (j : Station) (r : StatusRecord) (s : State) (h : s.gateSafe) :
    (takeSequence j r s).gateSafe := by
  simp only [takeSequence]
  split
  · split
    · simp [h]
    · rename_i k; exact adoptHold_safe j r _ (by simp [h]) k
  · split <;> simp [h]

@[simp] theorem takeResume_safe (r : StatusRecord) (s : State) (h : s.gateSafe) : (takeResume r s).gateSafe := by
  simp only [takeResume]; (repeat' split) <;> simp (maxDischargeDepth := 9) [h]

@[simp] theorem takeLockClear_safe (r : StatusRecord) (s : State) (h : s.gateSafe) : (takeLockClear r s).gateSafe := by
  simp only [takeLockClear]; (repeat' split) <;> simp (maxDischargeDepth := 9) [h]

@[simp] theorem takeRetained_safe (j : Station) (r : StatusRecord) (s : State) (h : s.gateSafe) : (takeRetained j r s).gateSafe := by
  simp only [takeRetained]; (repeat' split) <;> simp (maxDischargeDepth := 9) [h]

@[simp] theorem takeRestart_safe (r : StatusRecord) (s : State) (h : s.gateSafe) : (takeRestart r s).gateSafe := by
  simp only [takeRestart]; (repeat' split) <;> simp (maxDischargeDepth := 9) [h]

@[simp] theorem takeRestarted_safe (j : Station) (r : StatusRecord) (s : State) (h : s.gateSafe) : (takeRestarted j r s).gateSafe := by
  simp only [takeRestarted]; (repeat' split) <;> simp (maxDischargeDepth := 9) [h]

@[simp] theorem acceptRecord_safe (j : Station) (r : StatusRecord) (s : State) (h : s.gateSafe) : (acceptRecord j r s).gateSafe := by
  simp only [acceptRecord]; (repeat' split) <;> simp (maxDischargeDepth := 9) [h]

@[simp] theorem raisePeerLost_safe (j : Station) (e : PeerEntry) (s : State) (h : s.gateSafe) : (raisePeerLost j e s).gateSafe := by
  simp only [raisePeerLost]; (repeat' split) <;> simp (maxDischargeDepth := 9) [h]

@[simp] theorem peerLost_safe (j : Station) (e : PeerEntry) (s : State) (h : s.gateSafe) : (peerLost j e s).gateSafe := by
  simp only [peerLost]; (repeat' split) <;> simp (maxDischargeDepth := 9) [h]

@[simp] theorem agePeer_safe (j : Station) (s : State) (h : s.gateSafe) : (agePeer j s).gateSafe := by
  simp only [agePeer]; (repeat' split) <;> simp (maxDischargeDepth := 9) [h]

theorem ageFold_safe (l : List Station) (s : State) (h : s.gateSafe) :
    (l.foldl (fun s j => if j = s.own then s else agePeer j s) s).gateSafe := by
  induction l generalizing s with
  | nil => exact h
  | cons j l ih =>
    refine ih _ ?_
    show (if j = s.own then s else agePeer j s).gateSafe
    split <;> simp [h]

@[simp] theorem ageAll_safe (s : State) (h : s.gateSafe) : (ageAll s).gateSafe := ageFold_safe stations s h

@[simp] theorem enterListening_safe (s : State) : (enterListening s).gateSafe = s.gateSafe := by simp [State.gateSafe]

@[simp] theorem raiseLinkAlone_safe (detail : Int) (s : State) (h : s.gateSafe) : (raiseLinkAlone detail s).gateSafe := by
  simp only [raiseLinkAlone]; (repeat' split) <;> simp (maxDischargeDepth := 9) [h]

@[simp] theorem adoptFrame_safe (j : Station) (r : StatusRecord) (start : Rat) (s : State) (h : s.gateSafe) : (adoptFrame j r start s).gateSafe := by
  simp only [adoptFrame]; (repeat' split) <;> simp (maxDischargeDepth := 9) [h]

@[simp] theorem reportStranger_safe (j : Station) (s : State) (h : s.gateSafe) : (reportStranger j s).gateSafe := by
  simp only [reportStranger]; (repeat' split) <;> simp (maxDischargeDepth := 9) [h]

@[simp] theorem attributeFrame_safe (j : Station) (r : StatusRecord) (start : Rat) (s : State) (h : s.gateSafe) : (attributeFrame j r start s).gateSafe := by
  simp only [attributeFrame]; (repeat' split) <;> simp (maxDischargeDepth := 9) [h]

@[simp] theorem examineFrame_safe (r : StatusRecord) (start : Rat) (s : State) (h : s.gateSafe) : (examineFrame r start s).gateSafe := by
  simp only [examineFrame]; (repeat' split) <;> simp (maxDischargeDepth := 9) [h]

@[simp] theorem cycleEnd_safe (s : State) (h : s.gateSafe) : (cycleEnd s).gateSafe := by
  simp only [cycleEnd]; (repeat' split) <;> simp (maxDischargeDepth := 9) [h]

@[simp] theorem startCycle_safe (s : State) : (startCycle s).gateSafe = s.gateSafe := by simp [State.gateSafe]

@[simp] theorem completeGathering_safe (s : State) (h : s.gateSafe) : (completeGathering s).gateSafe := by
  simp only [completeGathering]; (repeat' split) <;> simp (maxDischargeDepth := 9) [h]

@[simp] theorem countAgreement_safe (ok : Bool) (s : State) : (countAgreement ok s).gateSafe = s.gateSafe := by simp [State.gateSafe]

@[simp] theorem gatheringEvaluation_safe (s : State) (h : s.gateSafe) : (gatheringEvaluation s).gateSafe := by
  simp only [gatheringEvaluation]; (repeat' split) <;> simp (maxDischargeDepth := 9) [h]

@[simp] theorem completeRecovery_safe (s : State) (h : s.gateSafe) : (completeRecovery s).gateSafe := by
  simp only [completeRecovery]; (repeat' split) <;> simp (maxDischargeDepth := 9) [h]

@[simp] theorem recoveryEvaluation_safe (s : State) (h : s.gateSafe) : (recoveryEvaluation s).gateSafe := by
  simp only [recoveryEvaluation]; (repeat' split) <;> simp (maxDischargeDepth := 9) [h]

@[simp] theorem slotEvaluation_safe (s : State) (h : s.gateSafe) : (slotEvaluation s).gateSafe := by
  simp only [slotEvaluation]; (repeat' split) <;> simp (maxDischargeDepth := 9) [h]

@[simp] theorem packAndRefresh_safe (s : State) (h : s.gateSafe) : (packAndRefresh s).gateSafe := by
  simp only [packAndRefresh]; (repeat' split) <;> simp (maxDischargeDepth := 9) [h]

@[simp] theorem ownSlot_safe (s : State) (h : s.gateSafe) : (ownSlot s).gateSafe := by
  simp only [ownSlot]; (repeat' split) <;> simp (maxDischargeDepth := 9) [h]

@[simp] theorem chooseCal_safe (s : State) : (chooseCal s).gateSafe = s.gateSafe := by simp [State.gateSafe]

@[simp] theorem takeValues_safe (s : State) : (takeValues s).gateSafe = s.gateSafe := by simp [State.gateSafe]

@[simp] theorem flipShift_safe (s : State) : (flipShift s).gateSafe = s.gateSafe := by simp [State.gateSafe]

@[simp] theorem rechooseCal_safe (s : State) : (rechooseCal s).gateSafe = s.gateSafe := by simp [State.gateSafe]

@[simp] theorem calWriteTests_safe (s : State) : (calWriteTests s).gateSafe = s.gateSafe := by simp [State.gateSafe]

@[simp] theorem idlePort_safe (s : State) : (idlePort s).gateSafe = s.gateSafe := by simp [State.gateSafe]

@[simp] theorem advancePointer_safe (s : State) : (advancePointer s).gateSafe = s.gateSafe := by simp [State.gateSafe]

@[simp] theorem takeTail_safe (slot : Fin 96) (f : JournalFrame) (s : State) : (takeTail slot f s).gateSafe = s.gateSafe := by simp [State.gateSafe]

@[simp] theorem clearFinalOut_safe (s : State) : (clearFinalOut s).gateSafe = s.gateSafe := by simp [State.gateSafe]

@[simp] theorem orderlySealed_safe (seq : BitVec 16) (s : State) : (orderlySealed seq s).gateSafe = s.gateSafe := by simp [State.gateSafe]

@[simp] theorem stageSealed_safe (s : State) : (stageSealed s).gateSafe = s.gateSafe := by simp [State.gateSafe]

@[simp] theorem surveyAtFlip_safe (s : State) (h : s.gateSafe) : (surveyAtFlip s).gateSafe := by
  simp only [surveyAtFlip]; (repeat' split) <;> simp (maxDischargeDepth := 9) [h]

@[simp] theorem flipDone_safe (s : State) (h : s.gateSafe) : (flipDone s).gateSafe := by
  simp only [flipDone]; (repeat' split) <;> simp (maxDischargeDepth := 9) [h]

@[simp] theorem writeCompleted_safe (f : InFlight) (s : State) (h : s.gateSafe) : (writeCompleted f s).gateSafe := by
  simp only [writeCompleted]; (repeat' split) <;> simp (maxDischargeDepth := 9) [h]

@[simp] theorem writeCut_safe (f : InFlight) (s : State) : (writeCut f s).gateSafe = s.gateSafe := by simp [State.gateSafe]

@[simp] theorem raiseWriteFailed_safe (f : InFlight) (s : State) (h : s.gateSafe) : (raiseWriteFailed f s).gateSafe := by
  simp only [raiseWriteFailed]; (repeat' split) <;> simp (maxDischargeDepth := 9) [h]

@[simp] theorem failedEffect_safe (f : InFlight) (s : State) : (failedEffect f s).gateSafe = s.gateSafe := by simp [State.gateSafe]

@[simp] theorem lockRetry_safe (f : InFlight) (s : State) : (lockRetry f s).gateSafe = s.gateSafe := by simp [State.gateSafe]

@[simp] theorem failedTests_safe (f : InFlight) (s : State) : (failedTests f s).gateSafe = s.gateSafe := by simp [State.gateSafe]

@[simp] theorem writeFailed_safe (f : InFlight) (s : State) (h : s.gateSafe) : (writeFailed f s).gateSafe := by
  simp only [writeFailed]; (repeat' split) <;> simp (maxDischargeDepth := 9) [h]

@[simp] theorem endBeat_safe (f : InFlight) (readback : List Byte) (s : State) (h : s.gateSafe) : (endBeat f readback s).gateSafe := by
  simp only [endBeat]; (repeat' split) <;> simp (maxDischargeDepth := 9) [h]

@[simp] theorem arrivalCut_safe (s : State) : (arrivalCut s).gateSafe = s.gateSafe := by simp [State.gateSafe]

@[simp] theorem pfailArrival_safe (s : State) : (pfailArrival s).gateSafe = s.gateSafe := by simp [State.gateSafe]

@[simp] theorem pfailWithdrawal_safe (s : State) (h : s.gateSafe) : (pfailWithdrawal s).gateSafe := by
  simp only [pfailWithdrawal]; (repeat' split) <;> simp (maxDischargeDepth := 9) [h]

@[simp] theorem scanJournal_safe (s : State) : (scanJournal s).gateSafe = s.gateSafe := by simp [State.gateSafe]

@[simp] theorem scanLockout_safe (s : State) (h : s.gateSafe) : (scanLockout s).gateSafe := by
  simp only [scanLockout]; (repeat' split) <;> simp (maxDischargeDepth := 9) [h]

@[simp] theorem endScan_safe (s : State) (h : s.gateSafe) : (endScan s).gateSafe := by
  simp only [endScan]; (repeat' split) <;> simp (maxDischargeDepth := 9) [h]

@[simp] theorem stillArrival_safe (s : State) (h : s.gateSafe) : (stillArrival s).gateSafe := by
  simp only [stillArrival]; (repeat' split) <;> simp (maxDischargeDepth := 9) [h]

@[simp] theorem switchChanged_safe (i : SwitchInput) (active : Bool) (s : State) (h : s.gateSafe) : (switchChanged i active s).gateSafe := by
  simp only [switchChanged]; (repeat' split) <;> simp (maxDischargeDepth := 9) [h]

@[simp] theorem switchSample_safe (i : SwitchInput) (raw : Bool) (s : State) (h : s.gateSafe) : (switchSample i raw s).gateSafe := by
  simp only [switchSample]; (repeat' split) <;> simp (maxDischargeDepth := 9) [h]

@[simp] theorem pfailSample_safe (raw : Bool) (s : State) (h : s.gateSafe) : (pfailSample raw s).gateSafe := by
  simp only [pfailSample]; (repeat' split) <;> simp (maxDischargeDepth := 9) [h]

@[simp] theorem countTransition_safe (positive : Bool) (s : State) : (countTransition positive s).gateSafe = s.gateSafe := by simp [State.gateSafe]

@[simp] theorem dropCaptures_safe (s : State) : (dropCaptures s).gateSafe = s.gateSafe := by simp [State.gateSafe]

@[simp] theorem mainQuadError_safe (s : State) (h : s.gateSafe) : (mainQuadError s).gateSafe := by
  simp only [mainQuadError]; (repeat' split) <;> simp (maxDischargeDepth := 9) [h]

@[simp] theorem resolveSpurious_safe (e : PendingEdge) (s : State) (h : s.gateSafe) : (resolveSpurious e s).gateSafe := by
  simp only [resolveSpurious]; (repeat' split) <;> simp (maxDischargeDepth := 9) [h]

@[simp] theorem edgeDistance_safe (s : State) (h : s.gateSafe) : (edgeDistance s).gateSafe := by
  simp only [edgeDistance]; (repeat' split) <;> simp (maxDischargeDepth := 9) [h]

@[simp] theorem mainTransition_safe (positive : Bool) (s : State) (h : s.gateSafe) : (mainTransition positive s).gateSafe := by
  simp only [mainTransition]; (repeat' split) <;> simp (maxDischargeDepth := 9) [h]

@[simp] theorem mainSample_safe (a b : Bool) (s : State) (h : s.gateSafe) : (mainSample a b s).gateSafe := by
  simp only [mainSample]; (repeat' split) <;> simp (maxDischargeDepth := 9) [h]

@[simp] theorem noteExcursion_safe (s : State) : (noteExcursion s).gateSafe = s.gateSafe := by simp [State.gateSafe]

@[simp] theorem standbyTransition_safe (positive : Bool) (s : State) (h : s.gateSafe) : (standbyTransition positive s).gateSafe := by
  simp only [standbyTransition]; (repeat' split) <;> simp (maxDischargeDepth := 9) [h]

@[simp] theorem standbyRead_safe (a b : Bool) (s : State) (h : s.gateSafe) : (standbyRead a b s).gateSafe := by
  simp only [standbyRead]; (repeat' split) <;> simp (maxDischargeDepth := 9) [h]

@[simp] theorem pushCapture_safe (c : Capture) (s : State) (h : s.gateSafe) : (pushCapture c s).gateSafe := by
  simp only [pushCapture]; (repeat' split) <;> simp (maxDischargeDepth := 9) [h]

@[simp] theorem useLastChange_safe (s : State) : (useLastChange s).gateSafe = s.gateSafe := by simp [State.gateSafe]

@[simp] theorem qualify_safe (l : LastChange) (d : Direction) (value : Position) (cycle : Option (BitVec 32)) (s : State) (h : s.gateSafe) : (qualify l d value cycle s).gateSafe := by
  simp only [qualify]; (repeat' split) <;> simp (maxDischargeDepth := 9) [h]

@[simp] theorem acceptStep_safe (l : LastChange) (d : Direction) (s : State) (h : s.gateSafe) : (acceptStep l d s).gateSafe := by
  simp only [acceptStep]; (repeat' split) <;> simp (maxDischargeDepth := 9) [h]

@[simp] theorem acceptJump_safe (step : Option Nat) (old new : Nat) (s : State) (h : s.gateSafe) : (acceptJump step old new s).gateSafe := by
  simp only [acceptJump]; (repeat' split) <;> simp (maxDischargeDepth := 9) [h]

@[simp] theorem acceptSector_safe (n : Nat) (s : State) (h : s.gateSafe) : (acceptSector n s).gateSafe := by
  simp only [acceptSector]; (repeat' split) <;> simp (maxDischargeDepth := 9) [h]

@[simp] theorem sectorSample_safe (lines : BitVec 5) (s : State) (h : s.gateSafe) : (sectorSample lines s).gateSafe := by
  simp only [sectorSample]; (repeat' split) <;> simp (maxDischargeDepth := 9) [h]

@[simp] theorem displaceEdge_safe (s : State) (h : s.gateSafe) : (displaceEdge s).gateSafe := by
  simp only [displaceEdge]; (repeat' split) <;> simp (maxDischargeDepth := 9) [h]

@[simp] theorem latchEdge_safe (sector : Nat) (s : State) (h : s.gateSafe) : (latchEdge sector s).gateSafe := by
  simp only [latchEdge]; (repeat' split) <;> simp (maxDischargeDepth := 9) [h]

@[simp] theorem motionCheck_safe (s : State) : (motionCheck s).gateSafe = s.gateSafe := by simp [State.gateSafe]

@[simp] theorem endSettling_safe (s : State) : (endSettling s).gateSafe = s.gateSafe := by simp [State.gateSafe]

@[simp] theorem stopBeat_safe (s : State) : (stopBeat s).gateSafe = s.gateSafe := by simp [State.gateSafe]

@[simp] theorem resetMainDomain_safe (kind : StartKind) (alive : Bool) (straps : Station) (s : State) :
    (resetMainDomain kind alive straps s).gateSafe := by
  refine ⟨fun _ => rfl, ?_, ?_⟩ <;> simp [resetMainDomain, Hold.initial]

@[simp] theorem loseMainSupply_safe (s : State) : (loseMainSupply s).gateSafe = s.gateSafe := by simp [State.gateSafe]

@[simp] theorem loseStandby_safe (s : State) : (loseStandby s).gateSafe = s.gateSafe := by simp [State.gateSafe]

@[simp] theorem raiseMainSupply_safe (alive : Bool) (straps : Station) (s : State) (h : s.gateSafe) : (raiseMainSupply alive straps s).gateSafe := by
  simp only [raiseMainSupply]; (repeat' split) <;> simp (maxDischargeDepth := 9) [h]

@[simp] theorem coldStart_safe (straps : Station) (s : State) (h : s.gateSafe) : (coldStart straps s).gateSafe := by
  simp only [coldStart]; (repeat' split) <;> simp (maxDischargeDepth := 9) [h]

@[simp] theorem assertReset_safe (s : State) (h : s.gateSafe) : (assertReset s).gateSafe := by
  simp only [assertReset]; (repeat' split) <;> simp (maxDischargeDepth := 9) [h]

@[simp] theorem releaseReset_safe (straps : Station) (s : State) (h : s.gateSafe) : (releaseReset straps s).gateSafe := by
  simp only [releaseReset]; (repeat' split) <;> simp (maxDischargeDepth := 9) [h]

@[simp] theorem seekStall_safe (s : State) (h : s.gateSafe) : (seekStall s).gateSafe := by
  simp only [seekStall]; (repeat' split) <;> simp (maxDischargeDepth := 9) [h]

@[simp] theorem parkStall_safe (s : State) (h : s.gateSafe) : (parkStall s).gateSafe := by
  simp only [parkStall]; (repeat' split) <;> simp (maxDischargeDepth := 9) [h]

@[simp] theorem surveyStall_safe (s : State) (h : s.gateSafe) : (surveyStall s).gateSafe := by
  simp only [surveyStall]; (repeat' split) <;> simp (maxDischargeDepth := 9) [h]

@[simp] theorem escalateEntry_safe (s : State) (h : s.gateSafe) : (escalateEntry s).gateSafe := by
  simp only [escalateEntry]; (repeat' split) <;> simp (maxDischargeDepth := 9) [h]

@[simp] theorem abandonFrame_safe (s : State) (h : s.gateSafe) : (abandonFrame s).gateSafe := by
  simp only [abandonFrame]; (repeat' split) <;> simp (maxDischargeDepth := 9) [h]

@[simp] theorem receiveFrame_safe (ago : Time) (bytes : List Byte) (s : State) (h : s.gateSafe) : (receiveFrame ago bytes s).gateSafe := by
  simp only [receiveFrame]; (repeat' split) <;> simp (maxDischargeDepth := 9) [h]

@[simp] theorem slotEnd_safe (k : Station) (s : State) (h : s.gateSafe) : (slotEnd k s).gateSafe := by
  simp only [slotEnd]; (repeat' split) <;> simp (maxDischargeDepth := 9) [h]

@[simp] theorem listenPeriod_safe (s : State) (h : s.gateSafe) : (listenPeriod s).gateSafe := by
  simp only [listenPeriod]; (repeat' split) <;> simp (maxDischargeDepth := 9) [h]

@[simp] theorem timeItself_safe (s : State) (h : s.gateSafe) : (timeItself s).gateSafe := by
  simp only [timeItself]; (repeat' split) <;> simp (maxDischargeDepth := 9) [h]

@[simp] theorem openRequest_safe (keepsKey : Bool) (s : State) : (openRequest keepsKey s).gateSafe = s.gateSafe := by simp [State.gateSafe]

@[simp] theorem decideConfigure_safe (p : List Byte) (s : State) : (decideConfigure p s).state.gateSafe = s.gateSafe := by simp [State.gateSafe]

@[simp] theorem decidePlanClear_safe (s : State) : (decidePlanClear s).state.gateSafe = s.gateSafe := by simp [State.gateSafe]

@[simp] theorem decidePlanStep_safe (p : List Byte) (s : State) : (decidePlanStep p s).state.gateSafe = s.gateSafe := by simp [State.gateSafe]

@[simp] theorem decidePlanSeal_safe (s : State) : (decidePlanSeal s).state.gateSafe = s.gateSafe := by simp [State.gateSafe]

@[simp] theorem joinArm_safe (s : State) (h : s.gateSafe) : (joinArm s).gateSafe := by
  simp only [joinArm]; (repeat' split) <;> simp (maxDischargeDepth := 9) [h]

@[simp] theorem decideJoin_safe (s : State) (h : s.gateSafe) : (decideJoin s).state.gateSafe := by
  simp only [decideJoin]; (repeat' split) <;> simp (maxDischargeDepth := 9) [h, Reply.refuse, Reply.ok]

@[simp] theorem decideStatus_safe (s : State) : (decideStatus s).state.gateSafe = s.gateSafe := by simp [State.gateSafe]

@[simp] theorem decidePeers_safe (s : State) : (decidePeers s).state.gateSafe = s.gateSafe := by simp [State.gateSafe]

@[simp] theorem decidePosition_safe (s : State) : (decidePosition s).state.gateSafe = s.gateSafe := by simp [State.gateSafe]

@[simp] theorem decideOrder_safe (s : State) : (decideOrder s).state.gateSafe = s.gateSafe := by simp [State.gateSafe]

@[simp] theorem decideFaults_safe (s : State) : (decideFaults s).state.gateSafe = s.gateSafe := by simp [State.gateSafe]

@[simp] theorem decideCalRead_safe (s : State) : (decideCalRead s).state.gateSafe = s.gateSafe := by simp [State.gateSafe]

@[simp] theorem decideJournalRead_safe (p : List Byte) (s : State) : (decideJournalRead p s).state.gateSafe = s.gateSafe := by simp [State.gateSafe]

@[simp] theorem decideFaultClear_safe (s : State) : (decideFaultClear s).state.gateSafe = s.gateSafe := by simp [State.gateSafe]

@[simp] theorem abandonSeek_safe (c : SeekContext) (s : State) (h : s.gateSafe) : (abandonSeek c s).gateSafe := by
  simp only [abandonSeek]; (repeat' split) <;> simp (maxDischargeDepth := 9) [h]

@[simp] theorem abandonSurvey_safe (c : SurveyContext) (s : State) (h : s.gateSafe) : (abandonSurvey c s).gateSafe := by
  simp only [abandonSurvey]; (repeat' split) <;> simp (maxDischargeDepth := 9) [h]

@[simp] theorem decideAbandon_safe (s : State) (h : s.gateSafe) : (decideAbandon s).state.gateSafe := by
  simp only [decideAbandon]; (repeat' split) <;> simp (maxDischargeDepth := 9) [h, Reply.refuse, Reply.ok]

@[simp] theorem startSurvey_safe (k : SurveyKind) (m : Int) (s : State) (h : s.gateSafe) : (startSurvey k m s).gateSafe := by
  simp only [startSurvey]; (repeat' split) <;> simp (maxDischargeDepth := 9) [h]

@[simp] theorem decideSurvey_safe (p : List Byte) (s : State) (h : s.gateSafe) : (decideSurvey p s).state.gateSafe := by
  simp only [decideSurvey]; (repeat' split) <;> simp (maxDischargeDepth := 9) [h, Reply.refuse, Reply.ok]

@[simp] theorem decideTrim_safe (p : List Byte) (s : State) : (decideTrim p s).state.gateSafe = s.gateSafe := by simp [State.gateSafe]

@[simp] theorem propose_safe (g : BitVec 16) (s : State) : (propose g s).gateSafe = s.gateSafe := by simp [State.gateSafe]

@[simp] theorem decideCalCommit_safe (s : State) : (decideCalCommit s).state.gateSafe = s.gateSafe := by simp [State.gateSafe]

@[simp] theorem decideResume_safe (s : State) (h : s.gateSafe) : (decideResume s).state.gateSafe := by
  simp only [decideResume]; (repeat' split) <;> simp (maxDischargeDepth := 9) [h, Reply.refuse, Reply.ok]

@[simp] theorem decideRestart_safe (s : State) (h : s.gateSafe) : (decideRestart s).state.gateSafe := by
  simp only [decideRestart]; (repeat' split) <;> simp (maxDischargeDepth := 9) [h, Reply.refuse, Reply.ok]

@[simp] theorem setKeyCount_safe (n : Nat) (s : State) : (setKeyCount n s).gateSafe = s.gateSafe := by simp [State.gateSafe]

@[simp] theorem decideLockoutClear_safe (s : State) (h : s.gateSafe) : (decideLockoutClear s).state.gateSafe := by
  simp only [decideLockoutClear]; (repeat' split) <;> simp (maxDischargeDepth := 9) [h, Reply.refuse, Reply.ok]

@[simp] theorem decideShutdown_safe (s : State) (h : s.gateSafe) : (decideShutdown s).state.gateSafe := by
  simp only [decideShutdown]; (repeat' split) <;> simp (maxDischargeDepth := 9) [h, Reply.refuse, Reply.ok]

@[simp] theorem decideReset_safe (s : State) : (decideReset s).state.gateSafe = s.gateSafe := by simp [State.gateSafe]

@[simp] theorem receiveCode_safe (code : Byte) (s : State) : (receiveCode code s).gateSafe = s.gateSafe := by simp [State.gateSafe]

end Sys2Proof.Machine
end

