-- ==== Sys2Proof/Laws/Layouts.lean ====
section
/-! SUPPORT. Status records and stored fields read back as they were written. -/

namespace Sys2Proof.Machine

/-! Fields read where they were written. -/

theorem rd_be16 (x : BitVec 16) (bs : List Byte) (o : Nat) (h : (bs.drop o).take 2 = be16 x) : rd bs o 2 = x.toNat := by rw [rd, h, beNat_be16]
theorem rd_be32 (x : BitVec 32) (bs : List Byte) (o : Nat) (h : (bs.drop o).take 4 = be32 x) : rd bs o 4 = x.toNat := by rw [rd, h, beNat_be32]
theorem rd_be40 (x : BitVec 40) (bs : List Byte) (o : Nat) (h : (bs.drop o).take 5 = be40 x) : rd bs o 5 = x.toNat := by rw [rd, h, beNat_be40]
theorem ofNat_rd_be16 (x : BitVec 16) (bs : List Byte) (o : Nat) (h : (bs.drop o).take 2 = be16 x) : BitVec.ofNat 16 (rd bs o 2) = x := by rw [rd_be16 x bs o h]; simp
theorem ofNat_rd_be32 (x : BitVec 32) (bs : List Byte) (o : Nat) (h : (bs.drop o).take 4 = be32 x) : BitVec.ofNat 32 (rd bs o 4) = x := by rw [rd_be32 x bs o h]; simp
theorem rdPosition_be40 (x : BitVec 40) (bs : List Byte) (o : Nat) (h : (bs.drop o).take 5 = be40 x) : rdPosition bs o = x := by rw [rdPosition, rd_be40 x bs o h]; simp


/-- The 36 bytes of a record, written out (R64). -/
theorem StatusRecord.pack_cells (r : StatusRecord) : r.pack =
    [byteOf (r.station.val + 16 * r.block.code), r.cycle.extractLsb' 24 8, r.cycle.extractLsb' 16 8,
     r.cycle.extractLsb' 8 8, r.cycle.extractLsb' 0 8, r.run.extractLsb' 8 8, r.run.extractLsb' 0 8,
     byteOf (r.phase.code + 16 * r.level.code), r.holdSeq.extractLsb' 8 8, r.holdSeq.extractLsb' 0 8, r.cause,
     byteOf (r.origin.val + flag 3 r.resume + flag 4 r.lockClear + flag 5 r.restart + flag 6 r.closing),
     r.resumeFor.extractLsb' 8 8, r.resumeFor.extractLsb' 0 8,
     byteOf (r.refState.code + flag 3 r.parked + flag 4 r.moving + flag 5 r.brake + flag 6 r.still),
     byteOf (flag 0 r.load + 2 * r.link.code + 16 * r.confidence.code), r.position.extractLsb' 32 8,
     r.position.extractLsb' 24 8, r.position.extractLsb' 16 8, r.position.extractLsb' 8 8,
     r.position.extractLsb' 0 8, r.committed.extractLsb' 8 8, r.committed.extractLsb' 0 8, r.staged.extractLsb' 8 8,
     r.staged.extractLsb' 0 8, r.proposal.extractLsb' 8 8, r.proposal.extractLsb' 0 8,
     byteOf ((match r.claim with | some i => i.toNat + 32 | none => 0) + flag 6 r.running)]
    ++ r.block.pack := by
  rfl

/-- The variant block reads back (R65). -/
theorem VariantBlock.unpack_pack (r : StatusRecord) : VariantBlock.unpack r.block.code r.pack = some r.block := by
  obtain ⟨station, cycle, run, phase, level, holdSeq, cause, origin, resume, lockClear, restart, closing, resumeFor,
    refState, parked, moving, brake, still, load, link, confidence, position, committed, staged, proposal, claim, running,
    block⟩ := r
  have hp := (StatusRecord.pack_cells ⟨station, cycle, run, phase, level, holdSeq, cause, origin, resume, lockClear, restart,
    closing, resumeFor, refState, parked, moving, brake, still, load, link, confidence, position, committed, staged, proposal,
    claim, running, block⟩).symm
  generalize StatusRecord.pack _ = p at hp ⊢
  cases block with
  | gather a b c d =>
    have e1 : byteAt p 34 = c := by rw [← hp]; rfl
    have e2 : byteAt p 35 = d := by rw [← hp]; rfl
    simp only [VariantBlock.code, VariantBlock.unpack]
    rw [ofNat_rd_be32 a p 28 (by rw [← hp]; rfl), ofNat_rd_be16 b p 32 (by rw [← hp]; rfl), e1, e2]
  | recover c =>
    obtain ⟨k, a, b, tk, s, co⟩ := c
    have e : ∀ (k : ClaimKind) (tk : Option JournalKind) (s co : Bool) (x : Byte),
        x = byteOf (tailKindCode tk + flag 2 s + flag 3 co + flag 4 (decide (k = .live))) →
        (if x.getLsbD 4 = true then ClaimKind.live else .journal) = k ∧ JournalKind.ofCode (bits x 0 2) = tk ∧
          x.getLsbD 2 = s ∧ x.getLsbD 3 = co := by
      rintro k tk s co x rfl
      rcases tk with _ | tk
      · cases k <;> cases s <;> cases co <;> decide +kernel
      · cases k <;> cases tk <;> cases s <;> cases co <;> decide +kernel
    obtain ⟨e1, e2, e3, e4⟩ := e k tk s co (byteAt p 34) (by rw [← hp]; rfl)
    simp only [VariantBlock.code, VariantBlock.unpack]
    rw [ofNat_rd_be16 a p 28 (by rw [← hp]; rfl), ofNat_rd_be32 b p 30 (by rw [← hp]; rfl), e1, e2, e3, e4]
  | run a b c d e =>
    have q : ∀ (c d : Bool) (x : Byte), x = byteOf (flag 0 c + flag 1 d) → x.getLsbD 0 = c ∧ x.getLsbD 1 = d := by
      rintro c d x rfl; cases c <;> cases d <;> decide
    obtain ⟨e1, e2⟩ := q c d (byteAt p 33) (by rw [← hp]; rfl)
    have e3 : byteAt p 32 = b := by rw [← hp]; rfl
    simp only [VariantBlock.code, VariantBlock.unpack]
    rw [ofNat_rd_be32 a p 28 (by rw [← hp]; rfl), ofNat_rd_be16 e p 34 (by rw [← hp]; rfl), e1, e2, e3]

/-- A record of a station that sends reads back from its 36 bytes (R64, R65). -/
theorem StatusRecord.unpack_pack (r : StatusRecord) (hl : r.link ≠ .off) : StatusRecord.unpack r.pack = some r := by
  have ub := VariantBlock.unpack_pack r
  obtain ⟨station, cycle, run, phase, level, holdSeq, cause, origin, resume, lockClear, restart, closing, resumeFor, refState, parked, moving, brake, still, load, link, confidence, position, committed, staged, proposal, claim, running, block⟩ := r
  have b0 : ∀ (st : Station) (b : VariantBlock) (x : Byte), x = byteOf (st.val + 16 * b.code) → bits x 4 2 = b.code ∧ stationOf (bits x 0 3) = st := by
    rintro st b x rfl
    have : b.code = 1 ∨ b.code = 2 ∨ b.code = 3 := by cases b <;> simp [VariantBlock.code]
    rcases this with h | h | h <;> rw [h] <;> revert st <;> decide +kernel
  have b7 : ∀ (p : ArmPhase) (l : HoldLevel) (x : Byte), x = byteOf (p.code + 16 * l.code) → ArmPhase.ofCode (bits x 0 3) = some p ∧ HoldLevel.ofCode (bits x 4 2) = some l := by
    rintro p l x rfl; cases p <;> cases l <;> decide +kernel
  have b11 : ∀ (o : Station) (a b c d : Bool) (x : Byte), x = byteOf (o.val + flag 3 a + flag 4 b + flag 5 c + flag 6 d) →
     stationOf (bits x 0 3) = o ∧ x.getLsbD 3 = a ∧ x.getLsbD 4 = b ∧ x.getLsbD 5 = c ∧ x.getLsbD 6 = d := by
    rintro o a b c d x rfl; revert o a b c d; decide +kernel
  have b14 : ∀ (o : RefState) (a b c d : Bool) (x : Byte), x = byteOf (o.code + flag 3 a + flag 4 b + flag 5 c + flag 6 d) →
     RefState.ofCode (bits x 0 3) = some o ∧ x.getLsbD 3 = a ∧ x.getLsbD 4 = b ∧ x.getLsbD 5 = c ∧ x.getLsbD 6 = d := by
    rintro o a b c d x rfl; cases o <;> revert a b c d <;> decide +kernel
  have b15 : ∀ (l : Bool) (k : LinkState) (c : Confidence) (x : Byte), k ≠ .off → x = byteOf (flag 0 l + 2 * k.code + 16 * c.code) →
     x.getLsbD 0 = l ∧ LinkState.ofCode (bits x 1 2) = some k ∧ Confidence.ofCode (bits x 4 3) = some c := by
    rintro l k c x hk rfl; cases l <;> cases k <;> cases c <;> first | exact absurd rfl hk | decide +kernel
  have b27 : ∀ (c : Option (BitVec 5)) (g : Bool) (x : Byte), x = byteOf ((match c with | some i => i.toNat + 32 | none => 0) + flag 6 g) →
     (if x.getLsbD 5 = true then some (BitVec.ofNat 5 (bits x 0 5)) else none) = c ∧ x.getLsbD 6 = g := by
    rintro c g x rfl
    rcases c with _ | i
    · cases g <;> decide
    · cases g <;> revert i <;> decide +kernel
  simp only [StatusRecord.unpack]
  have hp := (StatusRecord.pack_cells ⟨station, cycle, run, phase, level, holdSeq, cause, origin, resume, lockClear, restart,
    closing, resumeFor, refState, parked, moving, brake, still, load, link, confidence, position, committed, staged, proposal,
    claim, running, block⟩).symm
  generalize StatusRecord.pack _ = p at hp ub ⊢
  obtain ⟨q1, q2⟩ := b0 station block (byteAt p 0) (by rw [← hp]; rfl)
  obtain ⟨q3, q4⟩ := b7 phase level (byteAt p 7) (by rw [← hp]; rfl)
  obtain ⟨q5, q6, q7, q8, q9⟩ := b11 origin resume lockClear restart closing (byteAt p 11) (by rw [← hp]; rfl)
  obtain ⟨q10, q11, q12, q13, q14⟩ := b14 refState parked moving brake still (byteAt p 14) (by rw [← hp]; rfl)
  obtain ⟨q15, q16, q17⟩ := b15 load link confidence (byteAt p 15) hl (by rw [← hp]; rfl)
  obtain ⟨q18, q19⟩ := b27 claim running (byteAt p 27) (by rw [← hp]; rfl)
  have c10 : byteAt p 10 = cause := by rw [← hp]; rfl
  rw [q1, q2, q3, q4, q5, q6, q7, q8, q9, q10, q11, q12, q13, q14, q15, q16, q17, q18, q19, c10, ub,
    ofNat_rd_be32 cycle p 1 (by rw [← hp]; rfl), ofNat_rd_be16 run p 5 (by rw [← hp]; rfl), ofNat_rd_be16 holdSeq p 8 (by rw [← hp]; rfl), ofNat_rd_be16 resumeFor p 12 (by rw [← hp]; rfl),
    rdPosition_be40 position p 16 (by rw [← hp]; rfl), ofNat_rd_be16 committed p 21 (by rw [← hp]; rfl), ofNat_rd_be16 staged p 23 (by rw [← hp]; rfl), ofNat_rd_be16 proposal p 25 (by rw [← hp]; rfl)]

/-- A record packs into 36 bytes (R64). -/
theorem StatusRecord.pack_length (r : StatusRecord) : r.pack.length = 36 := by
  obtain ⟨station, cycle, run, phase, level, holdSeq, cause, origin, resume, lockClear, restart, closing, resumeFor, refState, parked, moving, brake, still, load, link, confidence, position, committed, staged, proposal, claim, running, block⟩ := r
  cases block <;> rfl

theorem rd_last16 (bs : List Byte) (o : Nat) (x : BitVec 16) (h : bs.length = o) : rd (bs ++ be16 x) o 2 = x.toNat := by
  subst h; rw [rd]; simp [be16]; exact beNat_be16 x
theorem rd_last32 (bs : List Byte) (o : Nat) (x : BitVec 32) (h : bs.length = o) : rd (bs ++ be32 x) o 4 = x.toNat := by
  subst h; rw [rd]; simp [be32]; exact beNat_be32 x

end Sys2Proof.Machine
end

