-- ==== Sys2Proof/Laws/Standstill.lean ====
section
/-! SUPPORT. What ends at a standstill: the orders of the engine, the reports of plan steps, what follows the engine at an
arrival of DRV_STILL, and the ends of a survey. -/

set_option linter.unusedSimpArgs false

namespace Sys2Proof.Machine

/-- Writing an order leaves which active limit it would meet (R28). -/
theorem limitMet_write (o : MotionOrder) (s : State) : (writeOrder o s).limitMet o = s.limitMet o := by
  simp only [writeOrder]; split <;> rfl

/-- An order by the engine toward no active limit reaches the order record and the attention causes alone (R26, R27, R28). -/
theorem engineOrder_free (o : MotionOrder) (s : State) (h : s.engine.order.reason = some .hold ∨ s.limitMet o = none) :
    ∃ x : Port, engineOrder o s = { s with
      engine := { s.engine with order := if s.engine.order.reason = some .hold then s.engine.order else o }
      port := { s.port with attention := x.attention, reported := x.reported } } := by
  obtain ⟨x, hx, _⟩ := engineWrite_reach o s
  refine ⟨x, ?_⟩
  rw [← hx]
  simp only [engineOrder, engineWrite]
  split
  · rfl
  · rename_i hn
    have hl : (writeOrder o s).limitMet o = none := by
      rcases h with h | h
      · exact absurd h hn
      · rw [← h]
        exact limitMet_write o s
    rw [hl]

/-- An order by the engine toward an active limit raises OVERTRAVEL in the step of the operation in progress (R28, R156). -/
theorem engineOrder_met (o : MotionOrder) (s : State) (d : Int) (h : s.engine.order.reason ≠ some .hold) (hl : s.limitMet o = some d) :
    engineOrder o s = raiseFault .overtravel .hold s.engine.operation.step d (writeOrder o s) := by
  simp only [engineOrder, if_neg h]
  have hl : (writeOrder o s).limitMet o = some d := by
    rw [← hl]; exact limitMet_write o s
  rw [hl]
  simp only [writeOrder_engine]

/-- A fault raised stands in the fault list (R156, R157). -/
theorem raiseFault_hasFault (code : FaultCode) (cls : FaultClass) (step : Option Nat) (d : Int) (s : State) :
    (raiseFault code cls step d s).hasFault code cls step d := by
  obtain ⟨q, hq, q1, q2, q3, q4, q5⟩ := raiseFault_recent code cls step d s
  exact ⟨q, recentFault_mem hq, q1, q2, by rw [q3]; simp [State.own], q4, q5⟩

/-- A write of the order record reaches the record and the attention causes alone (R26). -/
theorem writeOrder_noOrder (o : MotionOrder) (s : State) : ∃ x : Port, writeOrder o s = { s with
      engine := { s.engine with order := o }, port := { s.port with attention := x.attention, reported := x.reported } } := by
  simp only [writeOrder]; split
  · rename_i h; exact ⟨s.port, by rw [← h]⟩
  · exact ⟨(addCause .orderChanged (s.setEngine { s.engine with order := o })).port, rfl⟩

/-- An ended seek leaves the record NONE unless it holds reason HOLD (R39). -/
theorem seekFinish_order (c : SeekContext) (s : State) :
    (seekFinish c s).engine.order = if s.engine.order.reason = some .hold then s.engine.order else .none := by
  simp only [seekFinish, operationEnded_order]
  obtain ⟨x, hx, _⟩ := engineWrite_reach .none (s.setEngine { s.engine with refState := c.entry.state, operation := .none })
  rw [hx]; rfl

/-- An ended seek leaves the claim and the yield (R39). -/
theorem seekFinish_plan (c : SeekContext) (s : State) : (seekFinish c s).plan.claim = s.plan.claim ∧ (seekFinish c s).plan.yieldReturn = s.plan.yieldReturn := by
  simp only [seekFinish]
  rw [(operationEnded_frame _).2.1, (operationEnded_frame _).2.2.2.2.1]; simp

/-- A RETRY report with retries left leaves the engine (R146). -/
theorem planRetry_left (i k : Nat) (code : FaultCode) (d : Int) (s : State) (h : s.plan.table[i]? = some ⟨.running, k, none⟩) (hk : 0 < k) :
    (planRetry (some i) code d s).engine = s.engine := by
  have st : s.plan.status i = some .running := by simp [Plan.status, h]
  have lf : (s.plan.table[i]?.map (·.retries)).getD 0 = k := by simp [h]
  simp only [planRetry, st, if_true, lf, if_pos hk]
  simp

/-- The report "ended by a hold" for a step that is RUNNING (R145, R149). -/
theorem planHeld_spec (i k : Nat) (s : State) (h : s.plan.table[i]? = some ⟨.running, k, none⟩) :
    (planHeld (some i) s).plan.running = false ∧
    (s.plan.yieldReturn = true → s.hold.level = .none → (planHeld (some i) s).plan.table[i]? = some ⟨.claiming, k, none⟩ ∧
      (planHeld (some i) s).plan.claim = s.plan.claim ∧ (planHeld (some i) s).plan.claimSent = none) ∧
    ((s.plan.yieldReturn = false ∨ s.hold.level ≠ .none) → (planHeld (some i) s).plan.table[i]? = some ⟨.pending, k, none⟩ ∧
      (planHeld (some i) s).plan.claim = none) := by
  have st : s.plan.status i = some .running := by simp [Plan.status, h]
  have tb : ∀ x, (s.plan.table.modify i (StepState.become x))[i]? = some ⟨x, k, none⟩ := by
    intro x; rw [List.getElem?_modify_eq, h]; rfl
  simp only [planHeld, st, if_true]
  by_cases q : s.plan.yieldReturn = true ∧ s.hold.level = .none
  · rw [if_pos (by simp [q.1, q.2])]
    refine ⟨rfl, fun _ _ => ⟨tb _, rfl, rfl⟩, fun c => ?_⟩
    rcases c with c | c
    · rw [q.1] at c; cases c
    · exact absurd q.2 c
  · rw [if_neg (by simpa using q)]
    exact ⟨rfl, fun a b => absurd ⟨a, b⟩ q, fun _ => ⟨tb _, rfl⟩⟩

/-- What follows the engine at a standstill: the gate, the entry test and the staging test (log entry 12). -/
theorem stillArrival_spec (u : State) (hs : u.sensing.drvStill.level = true) (x : State) (hx : x = engineStandstill u) :
    (stillArrival u).engine = x.engine ∧ (stillArrival u).plan = x.plan ∧ (stillArrival u).hold.level = x.hold.level ∧
    (stillArrival u).hold.faults = x.hold.faults ∧ (stillArrival u).hold.seq = x.hold.seq ∧
    (stillArrival u).link = x.link ∧ (stillArrival u).cal.result = x.cal.result ∧
    (stillArrival u).cal.pendBacklash = x.cal.pendBacklash ∧ (stillArrival u).cal.pendTrim = x.cal.pendTrim ∧
    (∀ d : Cause, x.port.attention.has d = true → (stillArrival u).port.attention.has d = true) ∧
    (((stillArrival u).hold.level = .drop ∨ (stillArrival u).hold.level = .lockout) → (stillArrival u).gate = .closed) ∧
    ((stillArrival u).permitted = true → (stillArrival u).gate = .opened) ∧
    ((stillArrival u).permitted = false → (u.sensing.brkFb.level = true → (stillArrival u).gate = .closed) ∧
      (u.sensing.brkFb.level = false → (stillArrival u).gate = .closed ∨ (stillArrival u).gate = .awaitBrake)) ∧
    (((stillArrival u).hold.level = .stop ∨ (stillArrival u).hold.level = .drop) → u.sensing.brkFb.level = true →
      (stillArrival u).gate = .closed → (∀ y ∈ x.peerRecords, y.2.settledFor x.hold.seq = true) → (stillArrival u).hold.complete = true) := by
  have xs : x.sensing = u.sensing := by rw [hx]; simp
  have sp : ∀ z : State, (stageTest z).cal.result = z.cal.result ∧ (stageTest z).cal.pendBacklash = z.cal.pendBacklash ∧ (stageTest z).cal.pendTrim = z.cal.pendTrim := by
    intro z; simp only [stageTest, postWrite, grant, addPending]; (repeat' split) <;> exact ⟨rfl, rfl, rfl⟩
  have pe : (stillArrival u).permitted = x.permitted := by
    rw [hx]; simp only [stillArrival, stageTest_permitted]; simp [State.permitted, State.moveRequested]
  have ga : (stillArrival u).gate = nextGate x := by rw [hx]; simp [stillArrival]; rfl
  have lv : (stillArrival u).hold.level = x.hold.level := by rw [hx]; simp [stillArrival]
  have st : x.still = true := by simp [State.still, xs, hs]
  have brb : x.braked = u.sensing.brkFb.level := by simp [State.braked, xs]
  refine ⟨by rw [hx]; simp [stillArrival], by rw [hx]; simp [stillArrival], lv, by rw [hx]; simp [stillArrival], by rw [hx]; simp [stillArrival],
    by rw [hx]; simp [stillArrival], by rw [hx]; simp only [stillArrival, (sp _).1]; simp, by rw [hx]; simp only [stillArrival, (sp _).2.1]; simp,
    by rw [hx]; simp only [stillArrival, (sp _).2.2]; simp, ?_, ?_, ?_, ?_, ?_⟩
  · intro d h; rw [hx] at h; simp only [stillArrival]; simp (maxDischargeDepth := 9) [h]
  · intro h; rw [lv] at h; rw [ga]; simp only [nextGate]
    rw [if_pos (by rcases h with h | h <;> simp [h, HoldLevel.dropped])]
  · intro h; rw [pe] at h; rw [ga]; exact gateUpdate_permitted x h
  · intro h
    rw [pe] at h
    rw [ga]
    simp only [nextGate, h, st, brb, if_true]
    constructor
    · intro hb; simp only [hb, if_true]; (repeat' split) <;> first | rfl | simp_all
    · intro hb; simp only [hb]; (repeat' split) <;> first | exact .inl rfl | exact .inr rfl | simp_all
  · intro hl hb hg hp
    have e1 : ∀ z : State, (stageTest z).hold = z.hold := fun z => by simp
    simp only [stillArrival, e1, ← hx]
    have gs : (gateUpdate x).gate = .closed := by rw [← hg, ga]; rfl
    by_cases c : x.hold.complete = true
    · simp only [entryTest]; rw [if_neg]
      · exact c
      · simp [c]
    · simp only [entryTest]; rw [if_pos]
      · split
        · have : ∀ z : State, (orderlyLatch z).hold = z.hold := fun z => by simp
          rw [this]; simp
        · simp
      · rw [lv] at hl
        have es : (gateUpdate x).entrySettled = true := by
          simp only [State.entrySettled, State.settled, State.still, State.braked, gs, Bool.and_eq_true, decide_eq_true_eq, List.all_eq_true]
          refine ⟨⟨⟨by simp [xs, hs], by simp [xs, hb]⟩, trivial⟩, ?_⟩
          intro y hy
          exact hp y hy
        simp only [Bool.and_eq_true, HoldLevel.entering, Bool.or_eq_true, decide_eq_true_eq, Bool.not_eq_true']
        exact ⟨⟨hl, by simpa using c⟩, es⟩

/-- The sample that brings DRV_STILL to active (R1). -/
theorem exec_stillArrival {dt : Time} {s : State} (h : s.running = true) (h1 : s.sensing.drvStill.level = false)
    (h2 : s.switchLength ≤ s.sensing.drvStill.count + 1) :
    exec (.switchSample dt .drvStill true) s =
      .next (stillArrival { s.later dt with sensing := { s.sensing with drvStill := ⟨true, 0⟩ } }) := by
  have h' : (advance dt s).running = true := h
  have hl : s.switchLength = s.cfg.switchFilter := by
    simp only [State.cfg, State.switchLength]; cases s.port.config <;> rfl
  rw [hl] at h2
  simp only [exec, execSwitchSample, h', if_true, switchSample]
  have hx : (advance dt s).sensing = s.sensing := rfl
  have hc : (advance dt s).cfg = s.cfg := rfl
  have hsm : (advance dt s).samples .drvStill = true := rfl
  rw [if_pos hsm]
  simp only [hx, hc, Sensing.filter, InputFilter.sample, h1, if_neg (show ¬ ((true : Bool) = false) by simp), if_pos h2, if_true]
  rfl

/-! ### Surveys (R185 to R189) -/

/-- What a survey that ends leaves (R46, R189). -/
theorem surveyFinish_spec (c : SurveyContext) (o : SurveyOutcome) (b : Bool) (s : State) :
    (surveyFinish c o b s).engine.operation = .none ∧
    (s.plan.demote = false → (surveyFinish c o b s).engine.refState = .referenced) ∧
    (surveyFinish c o b s).engine.order = (if s.engine.order.reason = some .hold then s.engine.order else .none) ∧
    (surveyFinish c o b s).cal = { s.cal with result := some (c.resultWith o b s.link.cycle) } ∧
    (surveyFinish c o b s).hold = s.hold ∧ (surveyFinish c o b s).link = s.link ∧
    (surveyFinish c o b s).cfg = s.cfg ∧ (surveyFinish c o b s).port.attention.has .surveyDone = true := by
  have oc : ∀ x : State, (operationEnded x).cal = x.cal := by
    intro x; simp only [operationEnded, demote]; (repeat' split) <;> simp
  have w : (engineWrite .none (gateUpdate (s.setEngine { s.engine with refState := .referenced, operation := .none }))).engine.order =
      (if s.engine.order.reason = some .hold then s.engine.order else .none) := by
    obtain ⟨x, hx, _⟩ := engineWrite_reach .none (gateUpdate (s.setEngine { s.engine with refState := .referenced, operation := .none }))
    rw [hx]; simp
  refine ⟨?_, ?_, ?_, ?_, ?_, ?_, ?_, surveyFinish_done _ _ _ _⟩
  · simp [surveyFinish, (operationEnded_frame _).2.2.2.2.2]
  · intro h; simp only [surveyFinish]; rw [(operationEnded_spec _).2 (by simpa using h)]; simp
  · simp only [surveyFinish, operationEnded_order]; rw [← w]; rfl
  · simp only [surveyFinish, oc]; simp
  · simp [surveyFinish]
  · simp [surveyFinish]
  · simp [State.cfg]

/-- A fault raised with no operation in progress leaves the survey result and the pending record (R189). -/
theorem raiseFault_results (code : FaultCode) (cls : FaultClass) (step : Option Nat) (d : Int) (s : State) (hc : cls ≠ .abort)
    (h : s.engine.operation = .none) :
    (raiseFault code cls step d s).cal.result = s.cal.result ∧ (raiseFault code cls step d s).cal.pendBacklash = s.cal.pendBacklash ∧
    (raiseFault code cls step d s).cal.pendTrim = s.cal.pendTrim := by
  have wp : ∀ (x : Int) (t : State), (withdrawProposal x t).cal.result = t.cal.result ∧
      (withdrawProposal x t).cal.pendBacklash = t.cal.pendBacklash ∧ (withdrawProposal x t).cal.pendTrim = t.cal.pendTrim := by
    intro x t; simp only [withdrawProposal, endProposal, sightingUpdate]; (repeat' split) <;> simp
  have nd : ∀ t : State, (noteDropMotion t).cal = t.cal := by intro t; simp only [noteDropMotion]; split <;> rfl
  have ph : ∀ t : State, (planHold t).cal = t.cal := by intro t; simp only [planHold]; split <;> rfl
  have pl : ∀ t : State, (postLockRecord t).cal = t.cal := by
    intro t; simp only [postLockRecord]; rw [(postWrite_sightings _ _).2.2.2 (by simp [WriteRequest.kind])]; simp [dropPending]
  have hold : ∀ t : State, t.engine.operation = .none → (holdReaches t).engine = t.engine ∧
      ((holdReaches t).cal.result = t.cal.result ∧ (holdReaches t).cal.pendBacklash = t.cal.pendBacklash ∧
        (holdReaches t).cal.pendTrim = t.cal.pendTrim) := by
    intro t ht
    have e : engineHold t = t := by simp only [engineHold, ht]
    simp only [holdReaches, e]
    refine ⟨by simp, ?_⟩
    obtain ⟨a, b, c⟩ := wp 2 (noteDropMotion (gateUpdate (planHold t)))
    rw [a, b, c, nd]; simp [ph]
  have key := raiseFault_cases (fun t => t.engine.operation = .none ∧ t.cal.result = s.cal.result ∧
    t.cal.pendBacklash = s.cal.pendBacklash ∧ t.cal.pendTrim = s.cal.pendTrim) code cls step d s hc ⟨h, rfl, rfl, rfl⟩
    (fun t ht => by simpa using ht) (fun l t ht => by simpa [newHold] using ht) (fun l t ht => by simpa using ht)
    (fun t ht => by
      simp only [beginEntry, entryTest_cal, entryTest_keeps]
      obtain ⟨a, b, c, e⟩ := hold (writeOrder (.stop .hold) ((setComplete false t).setHold { (setComplete false t).hold with
        deadline := some ((setComplete false t).now + if t.hold.level = .drop then ms t.cfg.dropLimit else ms t.cfg.holdStopLimit)
        resume := false, resumeFor := 0 })) (by simpa using ht.1)
      rw [a, b, c, e]; simpa using ht)
    (fun t ht => by
      simp only [enterLockout, if_true, pl, postLockRecord_keeps]
      obtain ⟨a, b, c, e⟩ := hold (writeOrder (.stop .hold) ((setComplete false t).setHold { (setComplete false t).hold with deadline := none }))
        (by simpa using ht.1)
      rw [a, b, c, e]; simpa using ht)
  exact key.2

/-- A survey that fails where the drive stands (R186, R189). -/
theorem surveyFail_still (c : SurveyContext) (p : Nat) (s : State) (h : s.still = true) :
    (surveyFail c p s).engine.operation = .none ∧ (s.plan.demote = false → (surveyFail c p s).engine.refState = .referenced) ∧
    (surveyFail c p s).port.attention.has .surveyDone = true ∧
    (surveyFail c p s).engine.order = (if s.engine.order.reason = some .hold then s.engine.order else .none) ∧
    (surveyFail c p s).cal = { s.cal with result := some (({ c with endCause := some .failed, failPhase := p } : SurveyContext).resultWith .failed false s.link.cycle) } ∧
    (surveyFail c p s).hold.level = s.hold.level ∧ (surveyFail c p s).link.station = s.link.station ∧
    (surveyFail c p s).hasFault .surveyFailed .note none (p : Int) := by
  simp only [surveyFail]
  obtain ⟨x, hx, _⟩ := engineWrite_reach (.stop .survey) (s.setEngine { s.engine with operation := .survey { c with endCause := some .failed, failPhase := p } })
  rw [hx]
  obtain ⟨u, hu⟩ : ∃ u : State, u = { s.setEngine { s.engine with operation := .survey { c with endCause := some .failed, failPhase := p } } with
      engine := { (s.setEngine { s.engine with operation := .survey { c with endCause := some .failed, failPhase := p } }).engine with
        order := if (s.setEngine { s.engine with operation := .survey { c with endCause := some .failed, failPhase := p } }).engine.order.reason = some .hold
          then (s.setEngine { s.engine with operation := .survey { c with endCause := some .failed, failPhase := p } }).engine.order else .stop .survey }
      port := { (s.setEngine { s.engine with operation := .survey { c with endCause := some .failed, failPhase := p } }).port with
        attention := x.attention, reported := x.reported } } := ⟨_, rfl⟩
  rw [← hu]
  obtain ⟨u1, u2, u3, u4, u5, u6⟩ : u.engine.order = (if s.engine.order.reason = some .hold then s.engine.order else .stop .survey) ∧
      u.plan = s.plan ∧ u.cal = s.cal ∧ u.hold = s.hold ∧ u.link = s.link ∧ u.still = s.still := by
    rw [hu]; exact ⟨rfl, rfl, rfl, rfl, rfl, rfl⟩
  rw [if_pos (by rw [u6]; exact h)]
  simp only [surveyReturn, if_true]
  obtain ⟨a1, a2, a3, a4, a5, a6, a7, a8⟩ := surveyFinish_spec { c with endCause := some .failed, failPhase := p } SurveyEnd.failed.outcome false u
  refine ⟨by simpa using a1, fun hd => by simpa using a2 (by rw [u2]; exact hd), by simp (maxDischargeDepth := 9) [a8], ?_, ?_, ?_, ?_, ?_⟩
  · rw [show ∀ (z : State), (noteFault .surveyFailed .note none (p : Int) z).engine = z.engine from fun z => by simp, a3, u1]
    by_cases q : s.engine.order.reason = some .hold
    · rw [if_pos q, if_pos q]
    · rw [if_neg q, if_neg q]; rfl
  · rw [show ∀ (z : State), (noteFault .surveyFailed .note none (p : Int) z).cal = z.cal from fun z => by simp, a4, u3, u5]; rfl
  · simp [a5, u4]
  · simp [a6, u5]
  · refine ⟨_, by rw [noteFault_faults]; exact recentFault_mem (recentFault_append_self _ _), rfl, rfl, ?_, rfl, rfl⟩
    show (surveyFinish { c with endCause := some .failed, failPhase := p } SurveyEnd.failed.outcome false u).link.station = _
    simp [State.own]

/-- A capture phase entered: the JOG, or OVERTRAVEL toward an active limit (R28, R186). -/
theorem surveyEnterCapture_spec (c : SurveyContext) (p : Nat) (s : State) (ho : s.engine.order.reason ≠ some .hold) :
    ∀ q o, q = s.surveyPhase c p → o = .jog q.dir (if c.kind = .backlash then s.cfg.creep else s.cfg.slow) .survey →
    (q.dir = .positive → s.sensing.limPos.level = true → (surveyEnterCapture c p s).hasFault .overtravel .hold none 1) ∧
    (q.dir = .negative → s.sensing.limNeg.level = true → (surveyEnterCapture c p s).hasFault .overtravel .hold none (-1)) ∧
    ((q.dir = .positive → s.sensing.limPos.level = false) → (q.dir = .negative → s.sensing.limNeg.level = false) →
      ∃ x : Port, surveyEnterCapture c p s = { s with
        engine := { s.engine with operation := .survey q, order := o }
        port := { s.port with attention := x.attention, reported := x.reported } }) := by
  intro q o hq hor
  have e : surveyEnterCapture c p s = engineOrder o (s.setEngine { s.engine with operation := .survey q }) := by
    simp only [surveyEnterCapture, ← hq]; rw [hor, hq]; rfl
  rw [e]
  refine ⟨?_, ?_, ?_⟩
  · intro hd hl
    rw [engineOrder_met _ _ 1 (by exact ho) (by rw [hor]; simp [State.limitMet, hd, hl])]
    exact raiseFault_hasFault _ _ _ _ _
  · intro hd hl
    rw [engineOrder_met _ _ (-1) (by exact ho) (by rw [hor]; simp [State.limitMet, hd, hl])]
    exact raiseFault_hasFault _ _ _ _ _
  · intro h1 h2
    obtain ⟨x, hx⟩ := engineOrder_free o (s.setEngine { s.engine with operation := .survey q }) (.inr (by
      rw [hor]; simp only [State.limitMet]
      cases hd : q.dir
      · simp [h1 hd]
      · simp [h2 hd]))
    refine ⟨x, ?_⟩
    rw [hx, if_neg (by exact ho)]; rfl

/-- An approach or return phase entered: the GOTO, or OVERTRAVEL toward an active limit (R28, R186). -/
theorem surveyEnterGoto_spec (c : SurveyContext) (p : Nat) (s : State) (ho : s.engine.order.reason ≠ some .hold) :
    ∀ q g, q = s.surveyPhase c p → g = s.surveyTarget q →
    (s.counter < g.toInt → s.sensing.limPos.level = true →
      (surveyEnterGoto c p s) = raiseFault .overtravel .hold none 1 (writeOrder (.goto g s.cfg.slow .survey) (s.setEngine { s.engine with operation := .survey q }))) ∧
    (g.toInt < s.counter → s.sensing.limNeg.level = true →
      (surveyEnterGoto c p s) = raiseFault .overtravel .hold none (-1) (writeOrder (.goto g s.cfg.slow .survey) (s.setEngine { s.engine with operation := .survey q }))) ∧
    ((s.counter < g.toInt → s.sensing.limPos.level = false) → (g.toInt < s.counter → s.sensing.limNeg.level = false) →
      ∃ x : Port, surveyEnterGoto c p s = { s with
        engine := { s.engine with operation := .survey q, order := .goto g s.cfg.slow .survey }
        port := { s.port with attention := x.attention, reported := x.reported } }) := by
  intro q g hq hg
  have e : surveyEnterGoto c p s = engineOrder (.goto g s.cfg.slow .survey) (s.setEngine { s.engine with operation := .survey q }) := by
    simp only [surveyEnterGoto, ← hq]; rw [hg]
  have ct : (s.setEngine { s.engine with operation := .survey q }).counter = s.counter := rfl
  rw [e]
  refine ⟨?_, ?_, ?_⟩
  · intro hd hl
    rw [engineOrder_met _ _ 1 (by exact ho) (by simp [State.limitMet, ct, hd, hl])]; rfl
  · intro hd hl
    rw [engineOrder_met _ _ (-1) (by exact ho) (by simp only [State.limitMet, ct]; rw [if_neg (by omega), if_pos hd]; simp [hl])]; rfl
  · intro h1 h2
    obtain ⟨x, hx⟩ := engineOrder_free (.goto g s.cfg.slow .survey) (s.setEngine { s.engine with operation := .survey q }) (.inr (by
      simp only [State.limitMet, ct]
      by_cases a : s.counter < g.toInt
      · rw [if_pos a]; simp [h1 a]
      · rw [if_neg a]
        by_cases b : g.toInt < s.counter
        · rw [if_pos b]; simp [h2 b]
        · rw [if_neg b]))
    refine ⟨x, ?_⟩
    rw [hx, if_neg (by exact ho)]; rfl

/-- Holding leaves the pending record (R189). -/
theorem raiseFault_pend (code : FaultCode) (cls : FaultClass) (step : Option Nat) (d : Int) (s : State) (hc : cls ≠ .abort) :
    (raiseFault code cls step d s).cal.pendBacklash = s.cal.pendBacklash ∧ (raiseFault code cls step d s).cal.pendTrim = s.cal.pendTrim := by
  have wp : ∀ (x : Int) (t : State), (withdrawProposal x t).cal.pendBacklash = t.cal.pendBacklash ∧ (withdrawProposal x t).cal.pendTrim = t.cal.pendTrim := by
    intro x t; simp only [withdrawProposal, endProposal, sightingUpdate]; (repeat' split) <;> simp
  have nd : ∀ t : State, (noteDropMotion t).cal = t.cal := by intro t; simp only [noteDropMotion]; split <;> rfl
  have ph : ∀ t : State, (planHold t).cal = t.cal := by intro t; simp only [planHold]; split <;> rfl
  have pl : ∀ t : State, (postLockRecord t).cal = t.cal := by
    intro t; simp only [postLockRecord]; rw [(postWrite_sightings _ _).2.2.2 (by simp [WriteRequest.kind])]; simp [dropPending]
  have oc : ∀ x : State, (operationEnded x).cal = x.cal := by
    intro x; simp only [operationEnded, demote]; (repeat' split) <;> simp
  have eh : ∀ t : State, (engineHold t).cal.pendBacklash = t.cal.pendBacklash ∧ (engineHold t).cal.pendTrim = t.cal.pendTrim := by
    intro t; simp only [engineHold, seekReturnHeld, seekFinish, surveyReturn]
    (repeat' split) <;> simp [(surveyFinish_spec _ _ _ _).2.2.2.1, oc]
  have hold : ∀ t : State, (holdReaches t).cal.pendBacklash = t.cal.pendBacklash ∧ (holdReaches t).cal.pendTrim = t.cal.pendTrim := by
    intro t
    simp only [holdReaches]
    obtain ⟨a, b⟩ := wp 2 (noteDropMotion (gateUpdate (planHold (engineHold t))))
    rw [a, b, nd]; simp [ph, eh]
  exact raiseFault_cases (fun t => t.cal.pendBacklash = s.cal.pendBacklash ∧ t.cal.pendTrim = s.cal.pendTrim) code cls step d s hc ⟨rfl, rfl⟩
    (fun t ht => by simpa using ht) (fun l t ht => by simpa [newHold] using ht) (fun l t ht => by simpa using ht)
    (fun t ht => by simp only [beginEntry, entryTest_cal, hold]; simpa using ht)
    (fun t ht => by simp only [enterLockout, if_true, pl, hold]; simpa using ht)

end Sys2Proof.Machine
end

