-- ==== Sys2Proof/Laws/Store.lean ====
section
/-! SUPPORT. The ends of beats and writes, and the start-up scan: what each operation leaves. -/

set_option linter.unusedSimpArgs false
set_option linter.unusedVariables false

namespace Sys2Proof.Machine

/-- The calibration tests at the end of a write record no fault. -/
theorem calWriteTests_recent {n : Nat} {r : FaultRecord} (s : State) (h : recentFault n r s.hold.faults) :
   r ∈ (calWriteTests s).hold.faults := by
  simp only [calWriteTests]
  have : ∀ x : State, (stageTest x).hold.faults = x.hold.faults := by intro x; simp
  have : ∀ x : State, (rollForwardTable x).hold.faults = x.hold.faults := by intro x; simp
  have : ∀ x : State, (flipTest x).hold.faults = x.hold.faults := by intro x; simp
  simp [*]
  exact recentFault_mem h

/-- The end of a beat writes the bytes read back and no other (R90). -/
theorem endBeat_mem (f : InFlight) (rb : List Byte) (s : State) : (endBeat f rb s).mem = Memory.writeBytes s.mem f.address rb := by
  simp only [endBeat]
  (repeat' split) <;> simp

/-- The write pointer moves one slot on, one further past the tail (R94). -/
theorem advancePointer_spec (s : State) : (∀ u, s.store.tail = some u → u.slot = s.store.pointer + 1 → (advancePointer s).store.pointer = s.store.pointer + 2) ∧
   ((∀ u, s.store.tail = some u → u.slot ≠ s.store.pointer + 1) → (advancePointer s).store.pointer = s.store.pointer + 1) := by
  simp only [advancePointer, State.setStore_store, Store.advanced]
  constructor
  · intro u h1 h2; simp only [h1]; split
    · simp only [nextSlot]; rw [add_assoc]; rfl
    · rename_i hh; exact absurd h2 hh
  · intro h; split
    · rename_i u hu; split
      · rename_i hh; exact absurd hh (h u hu)
      · rfl
    · rfl

/-- The pending request first in grant order is granted (R91). -/
theorem grantNext_first (s : State) (k : WriteKind) (r : WriteRequest) (hp : s.store.port = none) (h : s.store.pending.get k.place = some r) (hr : r.kind = k)
   (hk : ∀ k' : WriteKind, k'.place < k.place → s.store.isPending k' = false) :
   (grantNext s).store.port = some ⟨r, s.targetOf r, 0, false⟩ ∧ (grantNext s).store.isPending k = false := by
  have hn : s.store.nextPending = some r := by
    have pk : ∀ p : Fin 8, ∃ k : WriteKind, k.place = p := by
      intro p; fin_cases p
      exacts [⟨.final, rfl⟩, ⟨.orderly, rfl⟩, ⟨.lockRecord, rfl⟩, ⟨.lockClear, rfl⟩, ⟨.calFlip, rfl⟩, ⟨.calStage, rfl⟩, ⟨.calDiscard, rfl⟩, ⟨.routine, rfl⟩]
    have hx : ∀ i : Fin 8, i < k.place → s.store.pending.get i = none := by
      intro i hi; obtain ⟨k', rfl⟩ := pk i
      have := hk k' hi
      simpa [Store.isPending] using this
    simp only [Store.nextPending, List.findSome?_eq_some_iff, id]
    refine ⟨s.store.pending.toList.take k.place, some r, s.store.pending.toList.drop (k.place + 1), ?_, rfl, ?_⟩
    · rw [show some r = s.store.pending.toList[k.place.val]'(by simp) from by rw [← h]; simp [Vector.get_eq_getElem], List.getElem_cons_drop, List.take_append_drop]
    · intro x hx'
      obtain ⟨j, hj, rfl⟩ := List.mem_take_iff_getElem.1 hx'
      have := hx ⟨j, by have := k.place.isLt; omega⟩ (by show j < k.place.val; omega)
      simpa [Vector.get_eq_getElem] using this
  simp only [grantNext, hp, hn]
  have e : ∀ x : State, (grant r x).store = { x.store with port := some ⟨r, x.targetOf r, 0, false⟩ } := by
    intro x; simp only [grant]; split <;> rfl
  rw [e]
  constructor
  · have : (dropPending r.kind s).targetOf r = s.targetOf r := by cases r <;> rfl
    rw [this]
  · subst hr
    simp [Store.isPending, dropPending, vput, Vector.get_eq_getElem]

/-- Serial comparison is asymmetric (R93). -/
theorem serialNewer_asymm (a b : BitVec 32) (h : serialNewer a b = true) : serialNewer b a = false := by
  simp only [serialNewer, Bool.and_eq_true, decide_eq_true_eq, Bool.and_eq_false_iff, decide_eq_false_iff_not, BitVec.toNat_sub] at *
  have := a.isLt; have := b.isLt
  omega
/-- Serial comparison is asymmetric, 16 bits. -/
theorem serialNewer_asymm16 (a b : BitVec 16) (h : serialNewer a b = true) : serialNewer b a = false := by
  simp only [serialNewer, Bool.and_eq_true, decide_eq_true_eq, Bool.and_eq_false_iff, decide_eq_false_iff_not, BitVec.toNat_sub] at *
  have := a.isLt; have := b.isLt
  omega

/-- The tag comparison is asymmetric (R93). -/
theorem tagNewer_asymm (a b : Tag) (h : tagNewer a b = true) : tagNewer b a = false := by
  simp only [tagNewer, Bool.or_eq_true, Bool.and_eq_true, decide_eq_true_eq, Bool.or_eq_false_iff, Bool.and_eq_false_iff, decide_eq_false_iff_not] at *
  rcases h with h | ⟨h1, h2⟩
  · refine ⟨serialNewer_asymm16 _ _ h, ?_⟩
    left; intro e; rw [e] at h; simp [serialNewer] at h
  · refine ⟨?_, ?_⟩
    · rw [h1]; simp [serialNewer]
    · right; exact serialNewer_asymm _ _ h2

/-- What the entry to a retained lockout leaves (R107, R161). -/
theorem enterLockout_retained (s : State) (h : s.hold.level = .lockout) :
    (enterLockout false s).hold.level = .lockout ∧ (enterLockout false s).gate = .closed ∧ (enterLockout false s).hold.seq = s.hold.seq ∧
    (enterLockout false s).hold.cause = s.hold.cause ∧ (enterLockout false s).hold.origin = s.hold.origin ∧
    (enterLockout false s).engine.order = .stop .hold ∧ (enterLockout false s).store = s.store ∧ (enterLockout false s).coord = s.coord
    ∧ (enterLockout false s).cal.committed = s.cal.committed ∧ (enterLockout false s).cal.spare = s.cal.spare
    ∧ (enterLockout false s).cal.trim = s.cal.trim ∧ (enterLockout false s).cal.backlash = s.cal.backlash := by
  simp only [enterLockout, if_false, Bool.false_eq_true]
  generalize hu : writeOrder _ _ = u
  have u1 : u.hold = { s.hold with complete := false, deadline := none } := by
    rw [← hu]; simp
  have u2 : u.engine.order = .stop .hold := by rw [← hu]; simp
  obtain ⟨l, hl⟩ := holdReaches_hold u
  have g : (holdReaches u).gate = .closed := by
    simp only [holdReaches]
    have : ∀ x : State, x.hold.level = .lockout → (gateUpdate x).gate = .closed := by
      intro x hx; simp [gateUpdate, nextGate, hx, HoldLevel.dropped]
    rw [show ∀ (d : Int) (x : State), (withdrawProposal d x).gate = x.gate from fun d x => by simp]
    rw [show ∀ (x : State), (noteDropMotion x).gate = x.gate from fun x => by simp]
    exact this _ (by simp [u1, h])
  have u3 : u.cal = s.cal := by rw [← hu]; simp
  have c : (holdReaches u).cal.committed = u.cal.committed ∧ (holdReaches u).cal.spare = u.cal.spare ∧ (holdReaches u).cal.trim = u.cal.trim ∧ (holdReaches u).cal.backlash = u.cal.backlash := by
    have su : ∀ x, (sightingUpdate x).cal.committed = x.cal.committed ∧ (sightingUpdate x).cal.spare = x.cal.spare ∧ (sightingUpdate x).cal.trim = x.cal.trim ∧ (sightingUpdate x).cal.backlash = x.cal.backlash := by
      intro x; simp only [sightingUpdate]; split <;> simp
    have wp : ∀ d x, (withdrawProposal d x).cal.committed = x.cal.committed ∧ (withdrawProposal d x).cal.spare = x.cal.spare ∧ (withdrawProposal d x).cal.trim = x.cal.trim ∧ (withdrawProposal d x).cal.backlash = x.cal.backlash := by
      intro d x; simp only [withdrawProposal, endProposal]; (repeat' split) <;> simp [su]
    have oe : ∀ x, (operationEnded x).cal = x.cal := by intro x; simp only [operationEnded, demote]; (repeat' split) <;> simp
    have eh : ∀ x, (engineHold x).cal.spare = x.cal.spare ∧ (engineHold x).cal.trim = x.cal.trim ∧ (engineHold x).cal.backlash = x.cal.backlash := by
      intro x; simp only [engineHold, surveyReturn, surveyFinish, seekReturnHeld]
      (repeat' split) <;> simp [oe]
    simp only [holdReaches, wp]
    simp [eh]
  refine ⟨by rw [hl, u1]; exact h, g, by rw [hl, u1], by rw [hl, u1], by rw [hl, u1], ?_, ?_, ?_, ?_, ?_, ?_, ?_⟩
  · rw [holdReaches_order u (by rw [u2]; rfl), u2]
  · simp; rw [← hu]; simp
  · simp; rw [← hu]; simp
  · rw [c.1, u3]
  · rw [c.2.1, u3]
  · rw [c.2.2.1, u3]
  · rw [c.2.2.2, u3]

/-- The lockout part of the scan (R106, R158, R161). -/
theorem scanLockout_spec (s : State) :
   ((lockSealed s.lockBeat = false ∨ (LockRecord.decode s.lockBeat).present = false) →
          (scanLockout s).store.retainedLockout = false ∧ (scanLockout s).hold = s.hold ∧ (scanLockout s).gate = s.gate)
      ∧ (lockSealed s.lockBeat = true → (LockRecord.decode s.lockBeat).present = true →
          (scanLockout s).store.retainedLockout = true ∧ (scanLockout s).hold.level = .lockout ∧ (scanLockout s).hold.cause = (LockRecord.decode s.lockBeat).cause
          ∧ (scanLockout s).hold.origin = (LockRecord.decode s.lockBeat).origin ∧ (scanLockout s).gate = .closed ∧ (scanLockout s).engine.order = .stop .hold
          ∧ (scanLockout s).hold.seq = s.hold.seq)
   ∧ (scanLockout s).store.tail = s.store.tail ∧ (scanLockout s).store.pointer = s.store.pointer ∧ (scanLockout s).store.lastTag = s.store.lastTag
   ∧ (scanLockout s).store.scanDone = s.store.scanDone ∧ (scanLockout s).coord = s.coord
    ∧ (scanLockout s).cal.committed = s.cal.committed ∧ (scanLockout s).cal.spare = s.cal.spare
    ∧ (scanLockout s).cal.trim = s.cal.trim ∧ (scanLockout s).cal.backlash = s.cal.backlash ∧ (scanLockout s).cal.generation = s.cal.generation := by
  have key : (scanLockout s).cal.committed = s.cal.committed → (scanLockout s).cal.generation = s.cal.generation := by
    intro h; simp only [Cal.generation, h]
  by_cases h : lockSealed s.lockBeat = true ∧ (LockRecord.decode s.lockBeat).present = true
  · have e : s.foundLockout = some (LockRecord.decode s.lockBeat) := by simp [State.foundLockout, h]
    have q : ∀ x, scanLockout s = enterLockout false x → x.hold.level = .lockout → x.hold.seq = s.hold.seq → x.hold.cause = (LockRecord.decode s.lockBeat).cause →
       x.hold.origin = (LockRecord.decode s.lockBeat).origin → x.store = { s.store with retainedLockout := true } → x.coord = s.coord → x.cal = s.cal → _ := fun x hx h1 h2 h3 h4 h5 h6 h7 => by
      obtain ⟨a1, a2, a3, a4, a5, a6, a7, a8, a9, a10, a11, a12⟩ := enterLockout_retained x h1
      rw [← hx] at a1 a2 a3 a4 a5 a6 a7 a8 a9 a10 a11 a12
      exact (⟨fun k => by rcases k with k | k <;> simp_all, fun _ _ => ⟨by rw [a7, h5], a1, by rw [a4, h3], by rw [a5, h4], a2, a6, by rw [a3, h2]⟩,
        by rw [a7, h5], by rw [a7, h5], by rw [a7, h5], by rw [a7, h5], by rw [a8, h6], by rw [a9, h7], by rw [a10, h7], by rw [a11, h7], by rw [a12, h7], key (by rw [a9, h7])⟩ :
        ((lockSealed s.lockBeat = false ∨ (LockRecord.decode s.lockBeat).present = false) →
          (scanLockout s).store.retainedLockout = false ∧ (scanLockout s).hold = s.hold ∧ (scanLockout s).gate = s.gate)
      ∧ (lockSealed s.lockBeat = true → (LockRecord.decode s.lockBeat).present = true →
          (scanLockout s).store.retainedLockout = true ∧ (scanLockout s).hold.level = .lockout ∧ (scanLockout s).hold.cause = (LockRecord.decode s.lockBeat).cause
          ∧ (scanLockout s).hold.origin = (LockRecord.decode s.lockBeat).origin ∧ (scanLockout s).gate = .closed ∧ (scanLockout s).engine.order = .stop .hold
          ∧ (scanLockout s).hold.seq = s.hold.seq)
   ∧ (scanLockout s).store.tail = s.store.tail ∧ (scanLockout s).store.pointer = s.store.pointer ∧ (scanLockout s).store.lastTag = s.store.lastTag
   ∧ (scanLockout s).store.scanDone = s.store.scanDone ∧ (scanLockout s).coord = s.coord
    ∧ (scanLockout s).cal.committed = s.cal.committed ∧ (scanLockout s).cal.spare = s.cal.spare
    ∧ (scanLockout s).cal.trim = s.cal.trim ∧ (scanLockout s).cal.backlash = s.cal.backlash ∧ (scanLockout s).cal.generation = s.cal.generation)
    refine q (setCause (LockRecord.decode s.lockBeat).cause (LockRecord.decode s.lockBeat).origin (setLevel .lockout (s.setStore { s.store with retainedLockout := true }))) (by simp only [scanLockout, e]) ?_ ?_ ?_ ?_ ?_ ?_ ?_ <;> (simp only [setCause, setLevel]; (repeat' split) <;> simp_all)
  · have e : s.foundLockout = none := by
      simp only [State.foundLockout]; rw [if_neg (by simpa using h)]
    simp only [scanLockout, e]
    refine ⟨fun _ => ⟨rfl, rfl, rfl⟩, fun a b => absurd ⟨a, b⟩ h, rfl, rfl, rfl, rfl, rfl, rfl, rfl, rfl, rfl, rfl⟩


/-- The tail is the sealed frame newer than every other (R105). -/
theorem chooseTail_newest (s : State) (i : Fin 96) (f : JournalFrame) (h : JournalFrame.decode (s.ringSlot i) = some f)
   (hn : ∀ j g, j ≠ i → JournalFrame.decode (s.ringSlot j) = some g → tagNewer f.tag g.tag = true) :
   chooseTail s.sealedFrames = some ⟨i, f⟩ := by
  have mem : ∀ u, u ∈ s.sealedFrames ↔ JournalFrame.decode (s.ringSlot u.slot) = some u.frame := by
    intro u
    simp only [State.sealedFrames, List.mem_filterMap, ringSlots, List.mem_finRange, true_and, Option.map_eq_some_iff]
    constructor
    · rintro ⟨a, b, hb, rfl⟩; exact hb
    · intro hu; exact ⟨u.slot, u.frame, hu, rfl⟩
  have irr : ∀ t : Tag, tagNewer t t = false := by intro t; simp [tagNewer, serialNewer]
  have all : ∀ t ∈ s.sealedFrames, (s.sealedFrames.all fun u => !tagNewer u.frame.tag t.frame.tag) = true → t = ⟨i, f⟩ := by
    intro t ht ha
    by_contra hne
    have e1 := (mem t).1 ht
    have : t.slot ≠ i := by
      intro e; apply hne; rw [e, h] at e1; obtain ⟨a, b⟩ := t; simp at e e1; rw [e, e1]
    have k := hn t.slot t.frame this e1
    have := List.all_eq_true.1 ha ⟨i, f⟩ ((mem _).2 h)
    simp [k] at this
  have ok : (s.sealedFrames.all fun u => !tagNewer u.frame.tag f.tag) = true := by
    rw [List.all_eq_true]
    intro u hu
    by_cases e : u.slot = i
    · have e1 := (mem u).1 hu
      rw [e, h] at e1; cases e1; rw [irr]; rfl
    · rw [tagNewer_asymm _ _ (hn u.slot u.frame e ((mem u).1 hu))]; rfl
  simp only [chooseTail, lastWhere]
  generalize hl : List.filter _ _ = l
  have hm : (⟨i, f⟩ : Tail) ∈ l := by rw [← hl]; exact List.mem_filter.2 ⟨(mem _).2 h, ok⟩
  cases hg : l.getLast? with
  | none => rw [List.getLast?_eq_none_iff] at hg; rw [hg] at hm; simp at hm
  | some t =>
    have := List.mem_of_getLast? hg
    rw [← hl] at this
    obtain ⟨a, b⟩ := List.mem_filter.1 this
    simp only; rw [all t a b]

/-- No sealed frame, no tail (R105). -/
theorem scanJournal_none (s : State) (h : ∀ i, JournalFrame.decode (s.ringSlot i) = none) : chooseTail s.sealedFrames = none := by
  have : s.sealedFrames = [] := by
    simp only [State.sealedFrames, List.filterMap_eq_nil_iff]
    intro a _; simp [h a]
  rw [this]; rfl

/-- Of the store: a request no later than a kind in grant order waits at an idle port, or is granted and at its first beat
(R91). -/
def Store.due (k : WriteKind) (st : Store) : Prop :=
  (∀ p r, p ≤ k.place → st.pending.get p = some r → r.kind.place = p) ∧
  ((st.port = none ∧ ∃ p r, p ≤ k.place ∧ st.pending.get p = some r) ∨
    ∃ g, st.port = some g ∧ g.beat = 0 ∧ g.isCut = false ∧ g.request.kind.place ≤ k.place)

/-- What keeps the port and the pending set keeps what is due. -/
theorem Store.due_of {k : WriteKind} {a b : Store} (h : a.due k) (hp : b.port = a.port) (hq : b.pending = a.pending) :
    b.due k := by
  simpa only [Store.due, hp, hq] using h

theorem grant_store (r : WriteRequest) (s : State) :
    (grant r s).store = { s.store with port := some ⟨r, s.targetOf r, 0, false⟩ } := by
  simp only [grant]; split <;> rfl

/-- Nothing is pending exactly when every place is empty. -/
theorem nextPending_eq_none (st : Store) : st.nextPending = none ↔ ∀ p, st.pending.get p = none := by
  rw [nextPending_none]
  refine ⟨fun h p => ?_, fun h k => by simp [Store.isPending, h]⟩
  have pk : ∀ p : Fin 8, ∃ k : WriteKind, k.place = p := by
    intro p; fin_cases p
    exacts [⟨.final, rfl⟩, ⟨.orderly, rfl⟩, ⟨.lockRecord, rfl⟩, ⟨.lockClear, rfl⟩, ⟨.calFlip, rfl⟩, ⟨.calStage, rfl⟩, ⟨.calDiscard, rfl⟩, ⟨.routine, rfl⟩]
  obtain ⟨k, rfl⟩ := pk p
  simpa [Store.isPending] using h k

/-- A request posted in place of one no earlier in grant order, or beside it, keeps what is due (R91, R102, R108). -/
theorem due_replaced {k : WriteKind} (j : WriteKind) (r : WriteRequest) (s : State) (h : s.store.due k)
    (hr : r.kind ≠ .calStage) (hj : r.kind.place ≤ j.place) (t : State)
    (hp : t.store.port = s.store.port) (hq : t.store.pending = vput s.store.pending j.place none) :
    (postWrite r t).store.due k := by
  obtain ⟨h1, h2⟩ := h
  have w : ∀ p x, p ≤ k.place → t.store.pending.get p = some x → x.kind.place = p := by
    intro p x hk hx
    rw [hq, vput_get] at hx
    split at hx
    · cases hx
    · exact h1 p x hk hx
  have wa : ∀ p x, p ≤ k.place → (vput t.store.pending r.kind.place (some r)).get p = some x → x.kind.place = p := by
    intro p x hk hx
    rw [vput_get] at hx
    split at hx
    · rename_i e; injection hx with hx; rw [← hx]; exact e
    · exact w p x hk hx
  simp only [postWrite, decide_eq_false hr, Bool.false_and, Bool.false_eq_true, if_false]
  rcases h2 with ⟨h2, p, x, hx1, hx2⟩ | ⟨g, h2, g1, g2, g3⟩
  · split
    · rename_i hn
      simp only [Bool.and_eq_true, Option.isNone_iff_eq_none] at hn
      have hall := (nextPending_eq_none _).1 hn.2
      rw [grant_store]
      refine ⟨w, Or.inr ⟨_, rfl, rfl, rfl, ?_⟩⟩
      have : j.place = p := by
        have := hall p
        rw [hq, vput_get] at this
        split at this
        · assumption
        · rw [hx2] at this; cases this
      show r.kind.place ≤ _
      exact le_trans hj (this ▸ hx1)
    · refine ⟨wa, Or.inl ⟨by show t.store.port = none; rw [hp]; exact h2, ?_⟩⟩
      by_cases hc : r.kind.place ≤ k.place
      · exact ⟨_, r, hc, by simp [addPending]⟩
      · refine ⟨p, x, hx1, ?_⟩
        have n1 : r.kind.place ≠ p := fun e => hc (e ▸ hx1)
        have n2 : j.place ≠ p := fun e => hc (le_trans hj (e ▸ hx1))
        simp only [addPending, State.setStore_store, vput_get, if_neg n1, hq, if_neg n2]; exact hx2
  · have : t.store.port.isNone = false := by rw [hp, h2]; rfl
    rw [this]
    exact ⟨wa, Or.inr ⟨g, by show t.store.port = _; rw [hp]; exact h2, g1, g2, g3⟩⟩

/-- A request posted keeps what is due (R91). -/
theorem due_posted {k : WriteKind} (r : WriteRequest) (s : State) (h : s.store.due k) : (postWrite r s).store.due k := by
  obtain ⟨h1, h2⟩ := h
  have wa : ∀ p x, p ≤ k.place → (vput s.store.pending r.kind.place (some r)).get p = some x → x.kind.place = p := by
    intro p x hk hx
    rw [vput_get] at hx
    split at hx
    · rename_i e; injection hx with hx; rw [← hx]; exact e
    · exact h1 p x hk hx
  simp only [postWrite]
  split
  · exact ⟨h1, h2⟩
  · rcases h2 with ⟨h2, p, x, hx1, hx2⟩ | ⟨g, h2, g1, g2, g3⟩
    · rw [if_neg]
      · refine ⟨wa, Or.inl ⟨h2, p, (if r.kind.place = p then r else x), hx1, ?_⟩⟩
        simp only [addPending, State.setStore_store, vput_get]
        split
        · rfl
        · exact hx2
      · simp only [Bool.and_eq_true, Option.isNone_iff_eq_none, not_and]
        intro _ hn
        rw [(nextPending_eq_none _).1 hn p] at hx2; cases hx2
    · rw [if_neg (by simp [h2])]
      exact ⟨wa, Or.inr ⟨g, h2, g1, g2, g3⟩⟩

/-- What is due stays due through the tests at the end of a calibration write. -/
theorem calWriteTests_due {k : WriteKind} (s : State) (h : s.store.due k) : (calWriteTests s).store.due k := by
  have pf : ∀ x : State, x.store.due k → (postFlip x).store.due k := fun x hx => due_posted _ _ hx
  have a : ∀ x : State, x.store.due k → (flipTest x).store.due k := by
    intro x hx; simp only [flipTest]; split
    · exact pf _ hx
    · exact hx
  have b : ∀ x : State, x.store.due k → (rollForwardTable x).store.due k := by
    intro x hx; simp only [rollForwardTable]; split
    · exact pf _ hx
    · exact hx
  have c : ∀ x : State, x.store.due k → (stageTest x).store.due k := by
    intro x hx; simp only [stageTest]; split
    · exact hx
    · split
      · exact due_posted _ _ hx
      · exact hx
  exact c _ (b _ (a _ h))

/-- What is due stays due through a HOLD-class fault: it posts ORDERLY over ROUTINE and LOCK_RECORD over LOCK_CLEAR
alone (R102, R107). -/
theorem raiseFault_due {k : WriteKind} (code : FaultCode) (step : Option Nat) (d : Int) (s : State) (h : s.store.due k) :
    (raiseFault code .hold step d s).store.due k := by
  have et : ∀ t : State, t.store.due k → (entryTest t).store.due k := by
    intro t ht
    simp only [entryTest]
    split
    · split
      · simp only [orderlyLatch]
        split
        · refine due_replaced .routine _ t ht (by simp [WriteRequest.kind]) (by simp [WriteRequest.kind, WriteKind.place]) _ ?_ ?_
          · simp [noteLatch, dropPending]
          · simp [noteLatch, dropPending]
        · exact Store.due_of ht (by simp) (by simp)
      · exact Store.due_of ht (by simp) (by simp)
    · exact ht
  have keep : ∀ t : State, t.store.due k → (holdReaches t).store.due k := by
    intro t ht; exact Store.due_of ht (by simp [holdReaches]) (by simp [holdReaches])
  apply raiseFault_cases (fun t => t.store.due k) _ _ _ _ _ (by simp) h
  · intro t ht; simpa using ht
  · intro l t ht
    refine Store.due_of ht ?_ ?_ <;>
    · simp only [newHold, setCause, setLevel, changeSeq]; (repeat' split) <;> simp
  · intro l t ht; simpa using ht
  · intro t ht
    simp only [beginEntry]
    apply et; apply keep
    simpa using ht
  · intro t ht
    simp only [enterLockout, if_true, postLockRecord]
    refine due_replaced .lockClear _ (holdReaches (writeOrder (.stop .hold) ((setComplete false t).setHold
      { (setComplete false t).hold with deadline := none }))) (keep _ (by simpa using ht)) (by simp [WriteRequest.kind])
      (by simp [WriteRequest.kind, WriteKind.place]) _ ?_ ?_
    · simp [dropPending]
    · simp [dropPending]

/-- What is due is granted (R91). -/
theorem grantNext_due {k : WriteKind} (s : State) (h : s.store.due k) :
    ∃ g, (grantNext s).store.port = some g ∧ g.beat = 0 ∧ g.isCut = false ∧ g.request.kind.place ≤ k.place := by
  obtain ⟨h1, ⟨hp, p, r, hk, hr⟩ | ⟨g, hg, g'⟩⟩ := h
  · cases hn : s.store.nextPending with
    | none => rw [(nextPending_eq_none _).1 hn p] at hr; cases hr
    | some q =>
      simp only [grantNext, hp, hn, grant_store]
      refine ⟨_, rfl, rfl, rfl, ?_⟩
      simp only [Store.nextPending, List.findSome?_eq_some_iff, id] at hn
      obtain ⟨l, a, l', e, hq, hl⟩ := hn
      subst hq
      have hlen : l.length ≤ p.val := by
        by_contra hc
        have hc : p.val < l.length := by omega
        have : s.store.pending.toList[p.val]'(by simp) = l[p.val] := by
          simp only [e]; rw [List.getElem_append_left hc]
        have n := hl _ (List.getElem_mem hc)
        rw [← this] at n
        rw [show s.store.pending.toList[p.val]'(by simp) = s.store.pending.get p from by simp [Vector.get_eq_getElem], hr] at n
        cases n
      have hb : l.length < 8 := lt_of_le_of_lt hlen p.isLt
      have hg : s.store.pending.get ⟨l.length, hb⟩ = some q := by
        have : s.store.pending.toList[l.length]'(by simpa using hb) = some q := by simp [e]
        rw [← this]; simp [Vector.get_eq_getElem]
      have le : (⟨l.length, hb⟩ : Fin 8) ≤ k.place := le_trans (b := p) hlen hk
      show q.kind.place ≤ _
      rw [h1 _ q le hg]; exact le
  · simp only [grantNext, hg]; exact ⟨g, rfl, g'⟩

/-- What is due stays due through the end of a write that failed, completed or was cut. -/
theorem writeEnd_due {k : WriteKind} (f : InFlight) (s : State) (h : s.store.due k) :
    (writeFailed f s).store.due k ∧ (writeCompleted f s).store.due k ∧ (writeCut f s).store.due k := by
  have ch : (rechooseCal s).store.due k := Store.due_of h (by simp) (by simp)
  refine ⟨?_, ?_, ?_⟩
  · have fe : (failedEffect f s).store.due k := by
      simp only [failedEffect, failedEffect.endProposalOnFailedFlip]
      (repeat' split) <;> first
        | exact h
        | exact ch
        | exact Store.due_of h (by simp [clearFinalOut, advancePointer, endProposal]) (by simp [clearFinalOut, advancePointer, endProposal])
    have lr : ∀ x : State, x.store.due k → (lockRetry f x).store.due k := by
      intro x hx
      simp only [lockRetry]
      (repeat' split) <;> first
        | exact hx
        | exact due_posted _ _ (Store.due_of hx rfl rfl)
    have := lr _ (raiseFault_due .storeWriteFailed none (((f.request.kind.num * 256 + (f.beat.val + 1) : Nat)) : Int) _ fe)
    simp only [writeFailed, failedTests]
    (repeat' split) <;> first
      | exact this
      | exact calWriteTests_due _ this
  · simp only [writeCompleted]
    split
    · exact Store.due_of h (by simp [clearFinalOut, advancePointer, takeTail]) (by simp [clearFinalOut, advancePointer, takeTail])
    · refine Store.due_of h ?_ ?_ <;> simp only [orderlySealed] <;> split <;> simp [advancePointer, takeTail]
    · exact Store.due_of h (by simp [advancePointer, takeTail]) (by simp [advancePointer, takeTail])
    · exact Store.due_of h (by simp) (by simp)
    · exact Store.due_of h (by simp) (by simp)
    · exact calWriteTests_due _ (Store.due_of h (by simp) (by simp))
    · exact calWriteTests_due _ (Store.due_of h (by simp) (by simp))
    · exact calWriteTests_due _ ch
  · simp only [writeCut]
    split
    · exact calWriteTests_due _ ch
    · exact Store.due_of h (by simp [advancePointer]) (by simp [advancePointer])
    · exact Store.due_of h (by simp [advancePointer]) (by simp [advancePointer])
    · exact Store.due_of h (by simp [advancePointer]) (by simp [advancePointer])
    · exact h

/-- At the end of a write the pending request first in grant order is granted, or one before it that the end posted
(R91). -/
theorem endBeat_grants (f : InFlight) (rb : List Byte) (s : State) (k : WriteKind) (r : WriteRequest)
    (he : rb ≠ f.beatBytes ∨ f.beat.val + 1 = f.request.kind.beats ∨ f.isCut = true)
    (h : s.store.pending.get k.place = some r) (hr : r.kind = k)
    (hk : ∀ k' : WriteKind, k'.place < k.place → s.store.isPending k' = false) :
    ∃ g, (endBeat f rb s).store.port = some g ∧ g.beat = 0 ∧ g.isCut = false ∧ g.request.kind.place ≤ k.place := by
  have pk : ∀ p : Fin 8, ∃ k : WriteKind, k.place = p := by
    intro p; fin_cases p
    exacts [⟨.final, rfl⟩, ⟨.orderly, rfl⟩, ⟨.lockRecord, rfl⟩, ⟨.lockClear, rfl⟩, ⟨.calFlip, rfl⟩, ⟨.calStage, rfl⟩, ⟨.calDiscard, rfl⟩, ⟨.routine, rfl⟩]
  have due : (idlePort (s.setMem (Memory.writeBytes s.mem f.address rb))).store.due k := by
    refine ⟨fun p x hp hx => ?_, Or.inl ⟨rfl, k.place, r, le_refl _, h⟩⟩
    have hx : s.store.pending.get p = some x := hx
    rcases lt_or_eq_of_le hp with hp | hp
    · obtain ⟨k', rfl⟩ := pk p
      have := hk k' hp
      rw [Store.isPending, hx] at this; cases this
    · subst hp; rw [h] at hx; injection hx with hx; rw [← hx, hr]
  obtain ⟨d1, d2, d3⟩ := writeEnd_due f _ due
  simp only [endBeat]
  split
  · exact grantNext_due _ d1
  · split
    · exact grantNext_due _ d2
    · split
      · exact grantNext_due _ d3
      · rename_i h1 h2 h3
        exact absurd he (by push Not; exact ⟨not_not.1 h1, h2, h3⟩)

/-- What a failed journal write leaves of the ring's state: the pointer one slot on, one further past the tail, the tail
as it was, and FINAL outstanding clear after a FINAL (R90, R94, R99). -/
theorem writeFailed_journal (f : InFlight) (j : JournalFrame) (s : State)
    (h : f.request = .final j ∨ f.request = .routine j ∨ ∃ q, f.request = .orderly j q) :
    (writeFailed f s).store.tail = s.store.tail ∧ (writeFailed f s).store.pointer = s.store.advanced ∧
    (writeFailed f s).store.finalOut = (if f.request = .final j then false else s.store.finalOut) := by
  have rs : ∀ x : State, (raiseWriteFailed f x).store.tail = x.store.tail ∧
      (raiseWriteFailed f x).store.pointer = x.store.pointer ∧ (raiseWriteFailed f x).store.finalOut = x.store.finalOut := by
    intro x; simp
  rcases h with h | h | ⟨q, h⟩
  all_goals
    simp only [writeFailed, failedTests, lockRetry, failedEffect, h]
    refine ⟨?_, ?_, ?_⟩ <;> simp [clearFinalOut, advancePointer]

end Sys2Proof.Machine
end

