-- ==== Sys2Proof/Laws/Timely.lean ====
section
/-! SUPPORT. Every operation keeps the timed flag true exactly in the states that send (R48). -/

set_option linter.unusedTactic false
set_option linter.unnecessarySeqFocus false
set_option linter.unusedSimpArgs false
set_option linter.unreachableTactic false
set_option linter.unusedVariables false

namespace Sys2Proof.Machine

@[simp] theorem setPower_timely (s : State) (x : Power) : (s.setPower x).linkTimely = s.linkTimely := propext ⟨id, id⟩
@[simp] theorem setStandby_timely (s : State) (x : Standby) : (s.setStandby x).linkTimely = s.linkTimely := propext ⟨id, id⟩
@[simp] theorem setDecoder_timely (s : State) (x : Decoder) : (s.setDecoder x).linkTimely = s.linkTimely := propext ⟨id, id⟩
@[simp] theorem setSensing_timely (s : State) (x : Sensing) : (s.setSensing x).linkTimely = s.linkTimely := propext ⟨id, id⟩
@[simp] theorem setEngine_timely (s : State) (x : Engine) : (s.setEngine x).linkTimely = s.linkTimely := propext ⟨id, id⟩
@[simp] theorem setLink_timely (s : State) (x : Link) (h0 : x.state = s.link.state) (h1 : x.timed = s.link.timed) :
    (s.setLink x).linkTimely = s.linkTimely := by simp [State.linkTimely, h0, h1]
@[simp] theorem setPeers_timely (s : State) (x : Vector PeerEntry 8) : (s.setPeers x).linkTimely = s.linkTimely := propext ⟨id, id⟩
@[simp] theorem setCoord_timely (s : State) (x : Coord) : (s.setCoord x).linkTimely = s.linkTimely := propext ⟨id, id⟩
@[simp] theorem setPlan_timely (s : State) (x : Plan) : (s.setPlan x).linkTimely = s.linkTimely := propext ⟨id, id⟩
@[simp] theorem setHold_timely (s : State) (x : Hold) : (s.setHold x).linkTimely = s.linkTimely := propext ⟨id, id⟩
@[simp] theorem setGate_timely (s : State) (x : GateState) : (s.setGate x).linkTimely = s.linkTimely := propext ⟨id, id⟩
@[simp] theorem setCal_timely (s : State) (x : Cal) : (s.setCal x).linkTimely = s.linkTimely := propext ⟨id, id⟩
@[simp] theorem setStore_timely (s : State) (x : Store) : (s.setStore x).linkTimely = s.linkTimely := propext ⟨id, id⟩
@[simp] theorem setMem_timely (s : State) (x : Memory) : (s.setMem x).linkTimely = s.linkTimely := propext ⟨id, id⟩
@[simp] theorem setPort_timely (s : State) (x : Port) : (s.setPort x).linkTimely = s.linkTimely := propext ⟨id, id⟩

@[simp] theorem advance_timely (dt : Time) (s : State) : (advance dt s).linkTimely = s.linkTimely := by simp [State.linkTimely]

@[simp] theorem bumpFree_timely (s : State) : (bumpFree s).linkTimely = s.linkTimely := by simp [State.linkTimely]

@[simp] theorem addCause_timely (c : Cause) (s : State) : (addCause c s).linkTimely = s.linkTimely := by simp [State.linkTimely]

@[simp] theorem writeOrder_timely (o : MotionOrder) (s : State) : (writeOrder o s).linkTimely = s.linkTimely := by simp [State.linkTimely]

@[simp] theorem engineWrite_timely (o : MotionOrder) (s : State) : (engineWrite o s).linkTimely = s.linkTimely := by simp [State.linkTimely]

@[simp] theorem clearHoldOrder_timely (s : State) : (clearHoldOrder s).linkTimely = s.linkTimely := by simp [State.linkTimely]

@[simp] theorem recordFault_timely (code : Byte) (cls : FaultClass) (origin : Station) (step : Option Nat) (detail : BitVec 32) (s : State) : (recordFault code cls origin step detail s).linkTimely = s.linkTimely := by simp [State.linkTimely]

@[simp] theorem noteFault_timely (code : FaultCode) (cls : FaultClass) (step : Option Nat) (detail : Int) (s : State) : (noteFault code cls step detail s).linkTimely = s.linkTimely := by simp [State.linkTimely]

@[simp] theorem gateUpdate_timely (s : State) : (gateUpdate s).linkTimely = s.linkTimely := by simp [State.linkTimely]

@[simp] theorem parkedCheck_timely (s : State) : (parkedCheck s).linkTimely = s.linkTimely := by simp [State.linkTimely]

@[simp] theorem moveCounter_timely (d : Int) (s : State) : (moveCounter d s).linkTimely = s.linkTimely := by simp [State.linkTimely]

@[simp] theorem applySet_timely (v : Int) (r : Position) (s : State) : (applySet v r s).linkTimely = s.linkTimely := by simp [State.linkTimely]

@[simp] theorem setNewestMark_timely (m : Option Int) (s : State) : (setNewestMark m s).linkTimely = s.linkTimely := by simp [State.linkTimely]

@[simp] theorem grant_timely (r : WriteRequest) (s : State) : (grant r s).linkTimely = s.linkTimely := by simp [State.linkTimely]

@[simp] theorem addPending_timely (r : WriteRequest) (s : State) : (addPending r s).linkTimely = s.linkTimely := by simp [State.linkTimely]

@[simp] theorem dropPending_timely (k : WriteKind) (s : State) : (dropPending k s).linkTimely = s.linkTimely := by simp [State.linkTimely]

@[simp] theorem grantNext_timely (s : State) : (grantNext s).linkTimely = s.linkTimely := by simp [State.linkTimely]

@[simp] theorem postWrite_timely (r : WriteRequest) (s : State) : (postWrite r s).linkTimely = s.linkTimely := by simp [State.linkTimely]

@[simp] theorem postLockRecord_timely (s : State) : (postLockRecord s).linkTimely = s.linkTimely := by simp [State.linkTimely]

@[simp] theorem postLockClear_timely (s : State) : (postLockClear s).linkTimely = s.linkTimely := by simp [State.linkTimely]

@[simp] theorem noteLatch_timely (f : JournalFrame) (s : State) : (noteLatch f s).linkTimely = s.linkTimely := by simp [State.linkTimely]

@[simp] theorem markLatch_timely (s : State) : (markLatch s).linkTimely = s.linkTimely := by simp [State.linkTimely]

@[simp] theorem finalLatch_timely (s : State) : (finalLatch s).linkTimely = s.linkTimely := by simp [State.linkTimely]

@[simp] theorem orderlyLatch_timely (s : State) : (orderlyLatch s).linkTimely = s.linkTimely := by simp [State.linkTimely]

@[simp] theorem planDone_timely (step : Option Nat) (s : State) : (planDone step s).linkTimely = s.linkTimely := by simp [State.linkTimely]

@[simp] theorem planHeld_timely (step : Option Nat) (s : State) : (planHeld step s).linkTimely = s.linkTimely := by simp [State.linkTimely]

@[simp] theorem planHold_timely (s : State) : (planHold s).linkTimely = s.linkTimely := by simp [State.linkTimely]

@[simp] theorem planAbandon_timely (s : State) : (planAbandon s).linkTimely = s.linkTimely := by simp [State.linkTimely]

@[simp] theorem planReset_timely (s : State) : (planReset s).linkTimely = s.linkTimely := by simp [State.linkTimely]

@[simp] theorem demote_timely (s : State) : (demote s).linkTimely = s.linkTimely := by simp [State.linkTimely]

@[simp] theorem operationEnded_timely (s : State) : (operationEnded s).linkTimely = s.linkTimely := by simp [State.linkTimely]

@[simp] theorem useDropMotion_timely (s : State) : (useDropMotion s).linkTimely = s.linkTimely := by simp [State.linkTimely]

@[simp] theorem noteDropMotion_timely (s : State) : (noteDropMotion s).linkTimely = s.linkTimely := by simp [State.linkTimely]

@[simp] theorem seekFinish_timely (c : SeekContext) (s : State) : (seekFinish c s).linkTimely = s.linkTimely := by simp [State.linkTimely]

@[simp] theorem seekReturnHeld_timely (c : SeekContext) (s : State) : (seekReturnHeld c s).linkTimely = s.linkTimely := by simp [State.linkTimely]

@[simp] theorem surveyFinish_timely (c : SurveyContext) (o : SurveyOutcome) (filled : Bool) (s : State) : (surveyFinish c o filled s).linkTimely = s.linkTimely := by simp [State.linkTimely]

@[simp] theorem surveyReturn_timely (c : SurveyContext) (e : SurveyEnd) (s : State) : (surveyReturn c e s).linkTimely = s.linkTimely := by simp [State.linkTimely]

@[simp] theorem engineHold_timely (s : State) : (engineHold s).linkTimely = s.linkTimely := by simp [State.linkTimely]

@[simp] theorem sightingUpdate_timely (s : State) : (sightingUpdate s).linkTimely = s.linkTimely := by simp [State.linkTimely]

@[simp] theorem endProposal_timely (detail : Option Int) (s : State) : (endProposal detail s).linkTimely = s.linkTimely := by simp [State.linkTimely]

@[simp] theorem withdrawProposal_timely (detail : Int) (s : State) : (withdrawProposal detail s).linkTimely = s.linkTimely := by simp [State.linkTimely]

@[simp] theorem stageTest_timely (s : State) : (stageTest s).linkTimely = s.linkTimely := by simp [State.linkTimely]

@[simp] theorem postFlip_timely (s : State) : (postFlip s).linkTimely = s.linkTimely := by simp [State.linkTimely]

@[simp] theorem flipTest_timely (s : State) : (flipTest s).linkTimely = s.linkTimely := by simp [State.linkTimely]

@[simp] theorem rollForwardOn_timely (r : StatusRecord) (s : State) : (rollForwardOn r s).linkTimely = s.linkTimely := by simp [State.linkTimely]

@[simp] theorem rollForwardTable_timely (s : State) : (rollForwardTable s).linkTimely = s.linkTimely := by simp [State.linkTimely]

@[simp] theorem proposalSuccess_timely (s : State) : (proposalSuccess s).linkTimely = s.linkTimely := by simp [State.linkTimely]

@[simp] theorem changeSeq_timely (q : BitVec 16) (s : State) : (changeSeq q s).linkTimely = s.linkTimely := by simp [State.linkTimely]

@[simp] theorem setLevel_timely (l : HoldLevel) (s : State) : (setLevel l s).linkTimely = s.linkTimely := by simp [State.linkTimely]

@[simp] theorem setComplete_timely (b : Bool) (s : State) : (setComplete b s).linkTimely = s.linkTimely := by simp [State.linkTimely]

@[simp] theorem setCause_timely (cause : Byte) (origin : Station) (s : State) : (setCause cause origin s).linkTimely = s.linkTimely := by simp [State.linkTimely]

@[simp] theorem newHold_timely (l : HoldLevel) (cause : Byte) (s : State) : (newHold l cause s).linkTimely = s.linkTimely := by simp [State.linkTimely]

@[simp] theorem entryTest_timely (s : State) : (entryTest s).linkTimely = s.linkTimely := by simp [State.linkTimely]

@[simp] theorem holdReaches_timely (s : State) : (holdReaches s).linkTimely = s.linkTimely := by simp [State.linkTimely]

@[simp] theorem beginEntry_timely (s : State) : (beginEntry s).linkTimely = s.linkTimely := by simp [State.linkTimely]

@[simp] theorem enterLockout_timely (post : Bool) (s : State) : (enterLockout post s).linkTimely = s.linkTimely := by simp [State.linkTimely]

@[simp] theorem enterLevel_timely (s : State) : (enterLevel s).linkTimely = s.linkTimely := by simp [State.linkTimely]

@[simp] theorem setPhase_timely (p : ArmPhase) (s : State) : (setPhase p s).linkTimely = s.linkTimely := by simp [State.linkTimely]

@[simp] theorem haltPhase_timely (s : State) : (haltPhase s).linkTimely = s.linkTimely := by simp [State.linkTimely]

@[simp] theorem raiseFault_timely (code : FaultCode) (cls : FaultClass) (step : Option Nat) (detail : Int) (s : State) : (raiseFault code cls step detail s).linkTimely = s.linkTimely := by simp [State.linkTimely]

@[simp] theorem raiseHold_timely (code : FaultCode) (detail : Int) (s : State) : (raiseHold code detail s).linkTimely = s.linkTimely := by simp [State.linkTimely]

@[simp] theorem raiseAbort_timely (code : FaultCode) (detail : Int) (s : State) : (raiseAbort code detail s).linkTimely = s.linkTimely := by simp [State.linkTimely]

@[simp] theorem raiseSpurious_timely (sector : Nat) (s : State) : (raiseSpurious sector s).linkTimely = s.linkTimely := by simp [State.linkTimely]

@[simp] theorem levelToNone_timely (s : State) : (levelToNone s).linkTimely = s.linkTimely := by simp [State.linkTimely]

@[simp] theorem resumeHold_timely (s : State) : (resumeHold s).linkTimely = s.linkTimely := by simp [State.linkTimely]

@[simp] theorem clearLockout_timely (s : State) : (clearLockout s).linkTimely = s.linkTimely := by simp [State.linkTimely]

@[simp] theorem restartStation_timely (s : State) : (restartStation s).linkTimely = s.linkTimely := by simp [State.linkTimely]

@[simp] theorem stopMotion_timely (s : State) : (stopMotion s).linkTimely = s.linkTimely := by simp [State.linkTimely]

@[simp] theorem engineLost_timely (s : State) : (engineLost s).linkTimely = s.linkTimely := by simp [State.linkTimely]

@[simp] theorem engineOrder_timely (o : MotionOrder) (s : State) : (engineOrder o s).linkTimely = s.linkTimely := by simp [State.linkTimely]

@[simp] theorem limitArrival_timely (d : Int) (s : State) : (limitArrival d s).linkTimely = s.linkTimely := by simp [State.linkTimely]

@[simp] theorem startSeek_timely (k : SeekKind) (d : StepDir) (speed : SpeedClass) (limit : Nat) (step : Option Nat) (s : State) : (startSeek k d speed limit step s).linkTimely = s.linkTimely := by simp [State.linkTimely]

@[simp] theorem planRetry_timely (step : Option Nat) (code : FaultCode) (detail : Int) (s : State) : (planRetry step code detail s).linkTimely = s.linkTimely := by simp [State.linkTimely]

@[simp] theorem seekReturn_timely (c : SeekContext) (e : SeekEnd) (s : State) : (seekReturn c e s).linkTimely = s.linkTimely := by simp [State.linkTimely]

@[simp] theorem endSeek_timely (c : SeekContext) (e : SeekEnd) (detail : Int) (s : State) : (endSeek c e detail s).linkTimely = s.linkTimely := by simp [State.linkTimely]

@[simp] theorem capturedComplete_timely (c : SeekContext) (s : State) : (capturedComplete c s).linkTimely = s.linkTimely := by simp [State.linkTimely]

@[simp] theorem enterCaptured_timely (c : SeekContext) (s : State) : (enterCaptured c s).linkTimely = s.linkTimely := by simp [State.linkTimely]

@[simp] theorem seekClaim_timely (c : SeekContext) (v : Int) (s : State) : (seekClaim c v s).linkTimely = s.linkTimely := by simp [State.linkTimely]

@[simp] theorem mismatchResolve_timely (s : State) : (mismatchResolve s).linkTimely = s.linkTimely := by simp [State.linkTimely]

@[simp] theorem witnessMismatch_timely (c : SeekContext) (deviation : Int) (s : State) : (witnessMismatch c deviation s).linkTimely = s.linkTimely := by simp [State.linkTimely]

@[simp] theorem seekIgnores_timely (c : SeekContext) (x : Capture) (s : State) : (seekIgnores c x s).linkTimely = s.linkTimely := by simp [State.linkTimely]

@[simp] theorem seekCapture_timely (c : SeekContext) (x : Capture) (s : State) : (seekCapture c x s).linkTimely = s.linkTimely := by simp [State.linkTimely]

@[simp] theorem markCheck_timely (x : Capture) (s : State) : (markCheck x s).linkTimely = s.linkTimely := by simp [State.linkTimely]

@[simp] theorem surveyEnterCapture_timely (c : SurveyContext) (phase : Nat) (s : State) : (surveyEnterCapture c phase s).linkTimely = s.linkTimely := by simp [State.linkTimely]

@[simp] theorem surveyEnterGoto_timely (c : SurveyContext) (phase : Nat) (s : State) : (surveyEnterGoto c phase s).linkTimely = s.linkTimely := by simp [State.linkTimely]

@[simp] theorem surveyEnterApproach_timely (c : SurveyContext) (phase : Nat) (s : State) : (surveyEnterApproach c phase s).linkTimely = s.linkTimely := by simp [State.linkTimely]

@[simp] theorem surveyFail_timely (c : SurveyContext) (phase : Nat) (s : State) : (surveyFail c phase s).linkTimely = s.linkTimely := by simp [State.linkTimely]

@[simp] theorem raiseBacklash_timely (b : Int) (s : State) : (raiseBacklash b s).linkTimely = s.linkTimely := by simp [State.linkTimely]

@[simp] theorem raiseRatio_timely (d : Int) (s : State) : (raiseRatio d s).linkTimely = s.linkTimely := by simp [State.linkTimely]

@[simp] theorem surveyComplete_timely (c : SurveyContext) (s : State) : (surveyComplete c s).linkTimely = s.linkTimely := by simp [State.linkTimely]

@[simp] theorem surveyStandstill_timely (c : SurveyContext) (s : State) : (surveyStandstill c s).linkTimely = s.linkTimely := by simp [State.linkTimely]

@[simp] theorem surveyTake_timely (c : SurveyContext) (x : Capture) (s : State) : (surveyTake c x s).linkTimely = s.linkTimely := by simp [State.linkTimely]

@[simp] theorem surveyCapture_timely (c : SurveyContext) (x : Capture) (s : State) : (surveyCapture c x s).linkTimely = s.linkTimely := by simp [State.linkTimely]

@[simp] theorem offerCapture_timely (x : Capture) (s : State) : (offerCapture x s).linkTimely = s.linkTimely := by simp [State.linkTimely]

@[simp] theorem startPark_timely (step : Option Nat) (s : State) : (startPark step s).linkTimely = s.linkTimely := by simp [State.linkTimely]

@[simp] theorem parkStandstill_timely (p : ParkOperation) (s : State) : (parkStandstill p s).linkTimely = s.linkTimely := by simp [State.linkTimely]

@[simp] theorem parkWithdrawn_timely (p : ParkOperation) (s : State) : (parkWithdrawn p s).linkTimely = s.linkTimely := by simp [State.linkTimely]

@[simp] theorem withdrawPark_timely (p : ParkOperation) (s : State) : (withdrawPark p s).linkTimely = s.linkTimely := by simp [State.linkTimely]

@[simp] theorem engineStandstill_timely (s : State) : (engineStandstill s).linkTimely = s.linkTimely := by simp [State.linkTimely]

@[simp] theorem engineLeavesStill_timely (s : State) : (engineLeavesStill s).linkTimely = s.linkTimely := by simp [State.linkTimely]

@[simp] theorem engineTravel_timely (s : State) : (engineTravel s).linkTimely = s.linkTimely := by simp [State.linkTimely]

@[simp] theorem homeEdge_timely (arrival : Bool) (s : State) : (homeEdge arrival s).linkTimely = s.linkTimely := by simp [State.linkTimely]

@[simp] theorem raiseDrift_timely (s : State) : (raiseDrift s).linkTimely = s.linkTimely := by simp [State.linkTimely]

@[simp] theorem reclassify_timely (s : State) : (reclassify s).linkTimely = s.linkTimely := by simp [State.linkTimely]

@[simp] theorem putClaim_timely (j : Station) (e : ClaimEntry) (s : State) : (putClaim j e s).linkTimely = s.linkTimely := by simp [State.linkTimely]

@[simp] theorem ownClaimFollows_timely (s : State) : (ownClaimFollows s).linkTimely = s.linkTimely := by simp [State.linkTimely]

@[simp] theorem loseContinuity_timely (cause : StandbyError) (s : State) : (loseContinuity cause s).linkTimely = s.linkTimely := by simp [State.linkTimely]

@[simp] theorem claimFromPeer_timely (j : Station) (r : StatusRecord) (s : State) : (claimFromPeer j r s).linkTimely = s.linkTimely := by simp [State.linkTimely]

@[simp] theorem startNotes_timely (s : State) : (startNotes s).linkTimely = s.linkTimely := by simp [State.linkTimely]

@[simp] theorem buildClaim_timely (s : State) : (buildClaim s).linkTimely = s.linkTimely := by simp [State.linkTimely]

@[simp] theorem initialStateClaim_timely (s : State) : (initialStateClaim s).linkTimely = s.linkTimely := by simp [State.linkTimely]

@[simp] theorem claimStep_timely (i : Nat) (s : State) : (claimStep i s).linkTimely = s.linkTimely := by simp [State.linkTimely]

@[simp] theorem planScan_timely (s : State) : (planScan s).linkTimely = s.linkTimely := by simp [State.linkTimely]

@[simp] theorem withdrawClaim_timely (i : Nat) (st : StepStatus) (s : State) : (withdrawClaim i st s).linkTimely = s.linkTimely := by simp [State.linkTimely]

@[simp] theorem startOperation_timely (r : StepRecord) (s : State) : (startOperation r s).linkTimely = s.linkTimely := by simp [State.linkTimely]

@[simp] theorem grantStep_timely (r : StepRecord) (s : State) : (grantStep r s).linkTimely = s.linkTimely := by simp [State.linkTimely]

@[simp] theorem grantTest_timely (r : StepRecord) (s : State) : (grantTest r s).linkTimely = s.linkTimely := by simp [State.linkTimely]

@[simp] theorem grantAndScan_timely (s : State) : (grantAndScan s).linkTimely = s.linkTimely := by simp [State.linkTimely]

@[simp] theorem noteYield_timely (i : Nat) (s : State) : (noteYield i s).linkTimely = s.linkTimely := by simp [State.linkTimely]

@[simp] theorem yieldTest_timely (s : State) : (yieldTest s).linkTimely = s.linkTimely := by simp [State.linkTimely]

@[simp] theorem endFinding_timely (s : State) : (endFinding s).linkTimely = s.linkTimely := by simp [State.linkTimely]

@[simp] theorem planEvaluation_timely (s : State) : (planEvaluation s).linkTimely = s.linkTimely := by simp [State.linkTimely]

@[simp] theorem refreshOwn_timely (s : State) : (refreshOwn s).linkTimely = s.linkTimely := by simp [State.linkTimely]

@[simp] theorem notePacking_timely (s : State) : (notePacking s).linkTimely = s.linkTimely := by simp [State.linkTimely]

@[simp] theorem noteClaimSent_timely (kept : Bool) (s : State) : (noteClaimSent kept s).linkTimely = s.linkTimely := by simp [State.linkTimely]

@[simp] theorem resumeFlagClear_timely (s : State) : (resumeFlagClear s).linkTimely = s.linkTimely := by simp [State.linkTimely]

@[simp] theorem handOff_timely (s : State) : (handOff s).linkTimely = s.linkTimely := by simp [State.linkTimely]

@[simp] theorem adoptionEntry_timely (old : HoldLevel) (s : State) : (adoptionEntry old s).linkTimely = s.linkTimely := by simp [State.linkTimely]

@[simp] theorem adoptHold_timely (j : Station) (r : StatusRecord) (s : State) : (adoptHold j r s).linkTimely = s.linkTimely := by simp [State.linkTimely]

@[simp] theorem raiseToPeer_timely (r : StatusRecord) (s : State) : (raiseToPeer r s).linkTimely = s.linkTimely := by simp [State.linkTimely]

@[simp] theorem settleOrigin_timely (r : StatusRecord) (s : State) : (settleOrigin r s).linkTimely = s.linkTimely := by simp [State.linkTimely]

@[simp] theorem takeSequence_timely (j : Station) (r : StatusRecord) (s : State) : (takeSequence j r s).linkTimely = s.linkTimely := by simp [State.linkTimely]

@[simp] theorem takeResume_timely (r : StatusRecord) (s : State) : (takeResume r s).linkTimely = s.linkTimely := by simp [State.linkTimely]

@[simp] theorem takeLockClear_timely (r : StatusRecord) (s : State) : (takeLockClear r s).linkTimely = s.linkTimely := by simp [State.linkTimely]

@[simp] theorem takeRetained_timely (j : Station) (r : StatusRecord) (s : State) : (takeRetained j r s).linkTimely = s.linkTimely := by simp [State.linkTimely]

@[simp] theorem takeRestart_timely (r : StatusRecord) (s : State) : (takeRestart r s).linkTimely = s.linkTimely := by simp [State.linkTimely]

@[simp] theorem takeRestarted_timely (j : Station) (r : StatusRecord) (s : State) : (takeRestarted j r s).linkTimely = s.linkTimely := by simp [State.linkTimely]

@[simp] theorem acceptRecord_timely (j : Station) (r : StatusRecord) (s : State) : (acceptRecord j r s).linkTimely = s.linkTimely := by simp [State.linkTimely]

@[simp] theorem raisePeerLost_timely (j : Station) (e : PeerEntry) (s : State) : (raisePeerLost j e s).linkTimely = s.linkTimely := by simp [State.linkTimely]

@[simp] theorem peerLost_timely (j : Station) (e : PeerEntry) (s : State) : (peerLost j e s).linkTimely = s.linkTimely := by simp [State.linkTimely]

@[simp] theorem agePeer_timely (j : Station) (s : State) : (agePeer j s).linkTimely = s.linkTimely := by simp [State.linkTimely]

@[simp] theorem ageAll_timely (s : State) : (ageAll s).linkTimely = s.linkTimely := by simp [State.linkTimely]

@[simp] theorem enterListening_timely (s : State) : (enterListening s).linkTimely := by
  simp [enterListening, State.linkTimely, LinkState.sends]

@[simp] theorem raiseLinkAlone_timely (detail : Int) (s : State) : (raiseLinkAlone detail s).linkTimely = s.linkTimely := by simp [State.linkTimely]

@[simp] theorem adoptFrame_timely (j : Station) (r : StatusRecord) (start : Rat) (s : State) :
    (adoptFrame j r start s).linkTimely := by
  simp [adoptFrame, State.linkTimely, LinkState.sends]

@[simp] theorem reportStranger_timely (j : Station) (s : State) : (reportStranger j s).linkTimely = s.linkTimely := by simp [State.linkTimely]

@[simp] theorem attributeFrame_timely (j : Station) (r : StatusRecord) (start : Rat) (s : State) (h : s.linkTimely) : (attributeFrame j r start s).linkTimely := by
  simp only [attributeFrame]; (repeat' split) <;> simp (maxDischargeDepth := 9) [h]

@[simp] theorem examineFrame_timely (r : StatusRecord) (start : Rat) (s : State) (h : s.linkTimely) : (examineFrame r start s).linkTimely := by
  simp only [examineFrame]; (repeat' split) <;> simp (maxDischargeDepth := 9) [h]

@[simp] theorem cycleEnd_timely (s : State) (h : s.linkTimely) : (cycleEnd s).linkTimely := by
  have key : ∀ x : State, x.link.state = s.link.state → x.link.timed = s.link.timed → s.link.state = .synced →
      (raiseLinkAlone 2 (x.setLink { x.link with state := .alone, foreignCycles := 0 })).linkTimely := by
    intro x a b c
    simp only [State.linkTimely, c, LinkState.sends] at h
    simp [State.linkTimely, LinkState.sends, b, h]
  have key2 : ∀ (x : State) (a b : Prop) [Decidable a] [Decidable b], x.link.state = s.link.state → x.link.timed = s.link.timed →
      (b → s.link.state = .synced) →
      (if a then enterListening x else if b then raiseLinkAlone 2 (x.setLink { x.link with state := .alone, foreignCycles := 0 })
        else x).linkTimely := by
    intro x a b _ _ e1 e2 hb
    split
    · simp
    · split
      · rename_i k; exact key x e1 e2 (hb k)
      · simp only [State.linkTimely, e1, e2]; exact h
  simp only [cycleEnd]
  refine key2 _ _ _ rfl rfl ?_
  intro k
  simp only [Bool.and_eq_true, decide_eq_true_eq] at k
  exact k.1

@[simp] theorem startCycle_timely (s : State) : (startCycle s).linkTimely = s.linkTimely := by simp [State.linkTimely]

@[simp] theorem completeGathering_timely (s : State) : (completeGathering s).linkTimely = s.linkTimely := by simp [State.linkTimely]

@[simp] theorem countAgreement_timely (ok : Bool) (s : State) : (countAgreement ok s).linkTimely = s.linkTimely := by simp [State.linkTimely]

@[simp] theorem gatheringEvaluation_timely (s : State) : (gatheringEvaluation s).linkTimely = s.linkTimely := by simp [State.linkTimely]

@[simp] theorem completeRecovery_timely (s : State) : (completeRecovery s).linkTimely = s.linkTimely := by simp [State.linkTimely]

@[simp] theorem recoveryEvaluation_timely (s : State) : (recoveryEvaluation s).linkTimely = s.linkTimely := by simp [State.linkTimely]

@[simp] theorem slotEvaluation_timely (s : State) : (slotEvaluation s).linkTimely = s.linkTimely := by simp [State.linkTimely]

@[simp] theorem packAndRefresh_timely (s : State) : (packAndRefresh s).linkTimely = s.linkTimely := by simp [State.linkTimely]

@[simp] theorem ownSlot_timely (s : State) : (ownSlot s).linkTimely = s.linkTimely := by simp [State.linkTimely]

@[simp] theorem chooseCal_timely (s : State) : (chooseCal s).linkTimely = s.linkTimely := by simp [State.linkTimely]

@[simp] theorem takeValues_timely (s : State) : (takeValues s).linkTimely = s.linkTimely := by simp [State.linkTimely]

@[simp] theorem flipShift_timely (s : State) : (flipShift s).linkTimely = s.linkTimely := by simp [State.linkTimely]

@[simp] theorem rechooseCal_timely (s : State) : (rechooseCal s).linkTimely = s.linkTimely := by simp [State.linkTimely]

@[simp] theorem calWriteTests_timely (s : State) : (calWriteTests s).linkTimely = s.linkTimely := by simp [State.linkTimely]

@[simp] theorem idlePort_timely (s : State) : (idlePort s).linkTimely = s.linkTimely := by simp [State.linkTimely]

@[simp] theorem advancePointer_timely (s : State) : (advancePointer s).linkTimely = s.linkTimely := by simp [State.linkTimely]

@[simp] theorem takeTail_timely (slot : Fin 96) (f : JournalFrame) (s : State) : (takeTail slot f s).linkTimely = s.linkTimely := by simp [State.linkTimely]

@[simp] theorem clearFinalOut_timely (s : State) : (clearFinalOut s).linkTimely = s.linkTimely := by simp [State.linkTimely]

@[simp] theorem orderlySealed_timely (seq : BitVec 16) (s : State) : (orderlySealed seq s).linkTimely = s.linkTimely := by simp [State.linkTimely]

@[simp] theorem stageSealed_timely (s : State) : (stageSealed s).linkTimely = s.linkTimely := by simp [State.linkTimely]

@[simp] theorem surveyAtFlip_timely (s : State) : (surveyAtFlip s).linkTimely = s.linkTimely := by simp [State.linkTimely]

@[simp] theorem flipDone_timely (s : State) : (flipDone s).linkTimely = s.linkTimely := by simp [State.linkTimely]

@[simp] theorem writeCompleted_timely (f : InFlight) (s : State) : (writeCompleted f s).linkTimely = s.linkTimely := by simp [State.linkTimely]

@[simp] theorem writeCut_timely (f : InFlight) (s : State) : (writeCut f s).linkTimely = s.linkTimely := by simp [State.linkTimely]

@[simp] theorem raiseWriteFailed_timely (f : InFlight) (s : State) : (raiseWriteFailed f s).linkTimely = s.linkTimely := by simp [State.linkTimely]

@[simp] theorem failedEffect_timely (f : InFlight) (s : State) : (failedEffect f s).linkTimely = s.linkTimely := by simp [State.linkTimely]

@[simp] theorem lockRetry_timely (f : InFlight) (s : State) : (lockRetry f s).linkTimely = s.linkTimely := by simp [State.linkTimely]

@[simp] theorem failedTests_timely (f : InFlight) (s : State) : (failedTests f s).linkTimely = s.linkTimely := by simp [State.linkTimely]

@[simp] theorem writeFailed_timely (f : InFlight) (s : State) : (writeFailed f s).linkTimely = s.linkTimely := by simp [State.linkTimely]

@[simp] theorem endBeat_timely (f : InFlight) (readback : List Byte) (s : State) : (endBeat f readback s).linkTimely = s.linkTimely := by simp [State.linkTimely]

@[simp] theorem arrivalCut_timely (s : State) : (arrivalCut s).linkTimely = s.linkTimely := by simp [State.linkTimely]

@[simp] theorem pfailArrival_timely (s : State) : (pfailArrival s).linkTimely = s.linkTimely := by simp [State.linkTimely]

@[simp] theorem pfailWithdrawal_timely (s : State) : (pfailWithdrawal s).linkTimely = s.linkTimely := by simp [State.linkTimely]

@[simp] theorem scanJournal_timely (s : State) : (scanJournal s).linkTimely = s.linkTimely := by simp [State.linkTimely]

@[simp] theorem scanLockout_timely (s : State) : (scanLockout s).linkTimely = s.linkTimely := by simp [State.linkTimely]

@[simp] theorem endScan_timely (s : State) : (endScan s).linkTimely = s.linkTimely := by simp [State.linkTimely]

@[simp] theorem stillArrival_timely (s : State) : (stillArrival s).linkTimely = s.linkTimely := by simp [State.linkTimely]

@[simp] theorem switchChanged_timely (i : SwitchInput) (active : Bool) (s : State) : (switchChanged i active s).linkTimely = s.linkTimely := by simp [State.linkTimely]

@[simp] theorem switchSample_timely (i : SwitchInput) (raw : Bool) (s : State) : (switchSample i raw s).linkTimely = s.linkTimely := by simp [State.linkTimely]

@[simp] theorem pfailSample_timely (raw : Bool) (s : State) : (pfailSample raw s).linkTimely = s.linkTimely := by simp [State.linkTimely]

@[simp] theorem countTransition_timely (positive : Bool) (s : State) : (countTransition positive s).linkTimely = s.linkTimely := by simp [State.linkTimely]

@[simp] theorem dropCaptures_timely (s : State) : (dropCaptures s).linkTimely = s.linkTimely := by simp [State.linkTimely]

@[simp] theorem mainQuadError_timely (s : State) : (mainQuadError s).linkTimely = s.linkTimely := by simp [State.linkTimely]

@[simp] theorem resolveSpurious_timely (e : PendingEdge) (s : State) : (resolveSpurious e s).linkTimely = s.linkTimely := by simp [State.linkTimely]

@[simp] theorem edgeDistance_timely (s : State) : (edgeDistance s).linkTimely = s.linkTimely := by simp [State.linkTimely]

@[simp] theorem mainTransition_timely (positive : Bool) (s : State) : (mainTransition positive s).linkTimely = s.linkTimely := by simp [State.linkTimely]

@[simp] theorem mainSample_timely (a b : Bool) (s : State) : (mainSample a b s).linkTimely = s.linkTimely := by simp [State.linkTimely]

@[simp] theorem noteExcursion_timely (s : State) : (noteExcursion s).linkTimely = s.linkTimely := by simp [State.linkTimely]

@[simp] theorem standbyTransition_timely (positive : Bool) (s : State) : (standbyTransition positive s).linkTimely = s.linkTimely := by simp [State.linkTimely]

@[simp] theorem standbyRead_timely (a b : Bool) (s : State) : (standbyRead a b s).linkTimely = s.linkTimely := by simp [State.linkTimely]

@[simp] theorem pushCapture_timely (c : Capture) (s : State) : (pushCapture c s).linkTimely = s.linkTimely := by simp [State.linkTimely]

@[simp] theorem useLastChange_timely (s : State) : (useLastChange s).linkTimely = s.linkTimely := by simp [State.linkTimely]

@[simp] theorem qualify_timely (l : LastChange) (d : Direction) (value : Position) (cycle : Option (BitVec 32)) (s : State) : (qualify l d value cycle s).linkTimely = s.linkTimely := by simp [State.linkTimely]

@[simp] theorem acceptStep_timely (l : LastChange) (d : Direction) (s : State) : (acceptStep l d s).linkTimely = s.linkTimely := by simp [State.linkTimely]

@[simp] theorem acceptJump_timely (step : Option Nat) (old new : Nat) (s : State) : (acceptJump step old new s).linkTimely = s.linkTimely := by simp [State.linkTimely]

@[simp] theorem acceptSector_timely (n : Nat) (s : State) : (acceptSector n s).linkTimely = s.linkTimely := by simp [State.linkTimely]

@[simp] theorem sectorSample_timely (lines : BitVec 5) (s : State) : (sectorSample lines s).linkTimely = s.linkTimely := by simp [State.linkTimely]

@[simp] theorem displaceEdge_timely (s : State) : (displaceEdge s).linkTimely = s.linkTimely := by simp [State.linkTimely]

@[simp] theorem latchEdge_timely (sector : Nat) (s : State) : (latchEdge sector s).linkTimely = s.linkTimely := by simp [State.linkTimely]

@[simp] theorem motionCheck_timely (s : State) : (motionCheck s).linkTimely = s.linkTimely := by simp [State.linkTimely]

@[simp] theorem endSettling_timely (s : State) : (endSettling s).linkTimely = s.linkTimely := by simp [State.linkTimely]

@[simp] theorem stopBeat_timely (s : State) : (stopBeat s).linkTimely = s.linkTimely := by simp [State.linkTimely]

@[simp] theorem resetMainDomain_timely (kind : StartKind) (alive : Bool) (straps : Station) (s : State) :
    (resetMainDomain kind alive straps s).linkTimely := by
  simp [resetMainDomain, State.linkTimely, Link.initial, LinkState.sends]

@[simp] theorem loseMainSupply_timely (s : State) : (loseMainSupply s).linkTimely = s.linkTimely := by simp [State.linkTimely]

@[simp] theorem loseStandby_timely (s : State) : (loseStandby s).linkTimely = s.linkTimely := by simp [State.linkTimely]

@[simp] theorem raiseMainSupply_timely (alive : Bool) (straps : Station) (s : State) (h : s.linkTimely) : (raiseMainSupply alive straps s).linkTimely := by
  simp only [raiseMainSupply]; (repeat' split) <;> simp (maxDischargeDepth := 9) [h]

@[simp] theorem coldStart_timely (straps : Station) (s : State) (h : s.linkTimely) : (coldStart straps s).linkTimely := by
  simp only [coldStart]; (repeat' split) <;> simp (maxDischargeDepth := 9) [h]

@[simp] theorem assertReset_timely (s : State) (h : s.linkTimely) : (assertReset s).linkTimely := by
  simp only [assertReset]; (repeat' split) <;> simp (maxDischargeDepth := 9) [h]

@[simp] theorem releaseReset_timely (straps : Station) (s : State) (h : s.linkTimely) : (releaseReset straps s).linkTimely := by
  simp only [releaseReset]; (repeat' split) <;> simp (maxDischargeDepth := 9) [h]

@[simp] theorem seekStall_timely (s : State) : (seekStall s).linkTimely = s.linkTimely := by simp [State.linkTimely]

@[simp] theorem parkStall_timely (s : State) : (parkStall s).linkTimely = s.linkTimely := by simp [State.linkTimely]

@[simp] theorem surveyStall_timely (s : State) : (surveyStall s).linkTimely = s.linkTimely := by simp [State.linkTimely]

@[simp] theorem escalateEntry_timely (s : State) : (escalateEntry s).linkTimely = s.linkTimely := by simp [State.linkTimely]

@[simp] theorem abandonFrame_timely (s : State) (h : s.linkTimely) : (abandonFrame s).linkTimely := by
  simp only [abandonFrame]; (repeat' split) <;> simp (maxDischargeDepth := 9) [h]

@[simp] theorem receiveFrame_timely (ago : Time) (bytes : List Byte) (s : State) (h : s.linkTimely) : (receiveFrame ago bytes s).linkTimely := by
  simp only [receiveFrame]; (repeat' split) <;> simp (maxDischargeDepth := 9) [h]

@[simp] theorem slotEnd_timely (k : Station) (s : State) : (slotEnd k s).linkTimely = s.linkTimely := by simp [State.linkTimely]

@[simp] theorem listenPeriod_timely (s : State) : (listenPeriod s).linkTimely = s.linkTimely := by simp [State.linkTimely]

@[simp] theorem timeItself_timely (s : State) : (timeItself s).linkTimely := by
  simp [timeItself, State.linkTimely, LinkState.sends]

@[simp] theorem openRequest_timely (keepsKey : Bool) (s : State) : (openRequest keepsKey s).linkTimely = s.linkTimely := by simp [State.linkTimely]

@[simp] theorem decideConfigure_timely (p : List Byte) (s : State) : (decideConfigure p s).state.linkTimely = s.linkTimely := by simp [State.linkTimely]

@[simp] theorem decidePlanClear_timely (s : State) : (decidePlanClear s).state.linkTimely = s.linkTimely := by simp [State.linkTimely]

@[simp] theorem decidePlanStep_timely (p : List Byte) (s : State) : (decidePlanStep p s).state.linkTimely = s.linkTimely := by simp [State.linkTimely]

@[simp] theorem decidePlanSeal_timely (s : State) : (decidePlanSeal s).state.linkTimely = s.linkTimely := by simp [State.linkTimely]

@[simp] theorem joinArm_timely (s : State) (h : s.linkTimely) : (joinArm s).linkTimely := by
  simp only [joinArm]; (repeat' split) <;> simp (maxDischargeDepth := 9) [h]

@[simp] theorem decideJoin_timely (s : State) (h : s.linkTimely) : (decideJoin s).state.linkTimely := by
  simp only [decideJoin]; (repeat' split) <;> simp (maxDischargeDepth := 9) [h, Reply.refuse, Reply.ok]

@[simp] theorem decideStatus_timely (s : State) : (decideStatus s).state.linkTimely = s.linkTimely := by simp [State.linkTimely]

@[simp] theorem decidePeers_timely (s : State) : (decidePeers s).state.linkTimely = s.linkTimely := by simp [State.linkTimely]

@[simp] theorem decidePosition_timely (s : State) : (decidePosition s).state.linkTimely = s.linkTimely := by simp [State.linkTimely]

@[simp] theorem decideOrder_timely (s : State) : (decideOrder s).state.linkTimely = s.linkTimely := by simp [State.linkTimely]

@[simp] theorem decideFaults_timely (s : State) : (decideFaults s).state.linkTimely = s.linkTimely := by simp [State.linkTimely]

@[simp] theorem decideCalRead_timely (s : State) : (decideCalRead s).state.linkTimely = s.linkTimely := by simp [State.linkTimely]

@[simp] theorem decideJournalRead_timely (p : List Byte) (s : State) : (decideJournalRead p s).state.linkTimely = s.linkTimely := by simp [State.linkTimely]

@[simp] theorem decideFaultClear_timely (s : State) : (decideFaultClear s).state.linkTimely = s.linkTimely := by simp [State.linkTimely]

@[simp] theorem abandonSeek_timely (c : SeekContext) (s : State) : (abandonSeek c s).linkTimely = s.linkTimely := by simp [State.linkTimely]

@[simp] theorem abandonSurvey_timely (c : SurveyContext) (s : State) : (abandonSurvey c s).linkTimely = s.linkTimely := by simp [State.linkTimely]

@[simp] theorem decideAbandon_timely (s : State) : (decideAbandon s).state.linkTimely = s.linkTimely := by simp [State.linkTimely]

@[simp] theorem startSurvey_timely (k : SurveyKind) (m : Int) (s : State) : (startSurvey k m s).linkTimely = s.linkTimely := by simp [State.linkTimely]

@[simp] theorem decideSurvey_timely (p : List Byte) (s : State) : (decideSurvey p s).state.linkTimely = s.linkTimely := by simp [State.linkTimely]

@[simp] theorem decideTrim_timely (p : List Byte) (s : State) : (decideTrim p s).state.linkTimely = s.linkTimely := by simp [State.linkTimely]

@[simp] theorem propose_timely (g : BitVec 16) (s : State) : (propose g s).linkTimely = s.linkTimely := by simp [State.linkTimely]

@[simp] theorem decideCalCommit_timely (s : State) : (decideCalCommit s).state.linkTimely = s.linkTimely := by simp [State.linkTimely]

@[simp] theorem decideResume_timely (s : State) : (decideResume s).state.linkTimely = s.linkTimely := by simp [State.linkTimely]

@[simp] theorem decideRestart_timely (s : State) : (decideRestart s).state.linkTimely = s.linkTimely := by simp [State.linkTimely]

@[simp] theorem setKeyCount_timely (n : Nat) (s : State) : (setKeyCount n s).linkTimely = s.linkTimely := by simp [State.linkTimely]

@[simp] theorem decideLockoutClear_timely (s : State) : (decideLockoutClear s).state.linkTimely = s.linkTimely := by simp [State.linkTimely]

@[simp] theorem decideShutdown_timely (s : State) : (decideShutdown s).state.linkTimely = s.linkTimely := by simp [State.linkTimely]

@[simp] theorem decideReset_timely (s : State) : (decideReset s).state.linkTimely = s.linkTimely := by simp [State.linkTimely]

@[simp] theorem receiveCode_timely (code : Byte) (s : State) : (receiveCode code s).linkTimely = s.linkTimely := by simp [State.linkTimely]

end Sys2Proof.Machine
end

