-- ==== Sys2Proof/WellFormed.lean ====
section
/-! DEFINITION. Which commands the manual's senders can send: the checks on a command's own operands. -/

namespace Sys2Proof

/-- A request record's length byte is one byte (R200), so it carries at most 255 parameter bytes. -/
def WellFormed.params (ps : List Byte) : Bool := decide (ps.length ≤ 255)

/-- A frame on the line is at most 40 bytes and begins with the preamble 96h, 4Bh (R47). -/
def WellFormed.frame (bs : List Byte) : Bool :=
  decide (bs.length ≤ 40) && decide (bs.take 2 = [0x96, 0x4B])

/-- The operands of a command are ones its event can have. -/
def WellFormed (i : Instr) : Bool :=
  match i with
  | .configure _ ps | .planClear _ ps | .planStep _ ps | .planSeal _ ps | .join _ ps | .status _ ps | .peers _ ps
  | .position _ ps | .order _ ps | .faults _ ps | .calRead _ ps | .journalRead _ ps | .faultClear _ ps
  | .abandon _ ps | .survey _ ps | .trim _ ps | .calCommit _ ps | .resume _ ps | .restart _ ps
  | .lockoutClear _ ps | .shutdown _ ps | .reset _ ps => WellFormed.params ps
  | .unknownRequestCode _ c ps => !namesRequest c && WellFormed.params ps
  | .requestCodeReceived _ c => decide (c ≠ lockoutClearCode)
  | .frameReceived _ _ bs => WellFormed.frame bs
  | .transactionCut _ | .statusResponseEnd _ | .portReset _ _ | .switchSample _ _ _ | .pfailSample _ _
  | .encTransition _ _ _ | .standbyDecoderRead _ _ _ | .sectorSample _ _ | .indexEdge _ | .motionCheck _
  | .settlingWindowEnd _ | .mainSupplyLoss _ | .standbyDomainLoss _ | .coldStart _ _ | .warmStart _ _
  | .nresetAssert _ | .nresetRelease _ _ | .scanDone _ | .linkCycleStart _ | .ownSlotStart _
  | .readbackMismatch _ | .frameTransmitEnd _ | .cycleEndEval _ | .slotEndAging _ _ | .listenPeriodEnd _
  | .listenTimeout _ | .gatherTimeout _ | .beatEnd _ _ | .stallTimeout _ | .parkNoStart _
  | .surveyStallTimeout _ | .retryTimerEnd _ _ | .entryDeadline _ | .proposalTimeout _
  | .standbySupplyReturn _ => true

end Sys2Proof
end

