-- ==== Sys2Proof/Tests/Slice0.lean ====
section
/-! SUPPORT. Tests: the checks of WellFormed, published check values, states that meet the statements' hypotheses at the
ends of their ranges, and single commands on small states. -/

namespace Sys2Proof.Tests

set_option Elab.async false

open Sys2Proof.Machine

/-! ### Small states -/

/-- The node after reset with the configuration `Configuration.before`. -/
def conf : State := State.reset.setPort { Port.initial with config := some .before }

/-- In an arm phase. -/
def inPhase (p : ArmPhase) (s : State) : State := s.setCoord { s.coord with phase := p }

/-- At a hold level, its entry complete or not, with sequence 7. -/
def atLevel (l : HoldLevel) (complete : Bool) (s : State) : State :=
  s.setHold { s.hold with level := l, complete := complete, seq := 7, newest := 7 }

/-- DRV_STILL and BRK_FB at given filtered levels. -/
def pins (still brake : Bool) (s : State) : State :=
  s.setSensing { s.sensing with drvStill := ⟨still, 0⟩, brkFb := ⟨brake, 0⟩ }

/-- In a reference state with an operation. -/
def engaged (r : RefState) (o : Operation) (s : State) : State :=
  s.setEngine { s.engine with refState := r, operation := o }

/-- After the settling window, the main decoder counting. -/
def opened (s : State) : State :=
  (s.setSensing { s.sensing with settling := false, earlier := some 0 }).setDecoder
    { s.decoder with standbyFeeds := false }

/-- In a link state, timed where it sends, in cycle 5 that began at 0. -/
def onLink (l : LinkState) (s : State) : State :=
  s.setLink { s.link with state := l, timed := l.sends, cycle := some 5 }

/-- At an instant. -/
def atTime (t : Time) (s : State) : State := s.setNow t

/-- The state a command answers. -/
def after (c : Instr) (s : State) : State :=
  match exec c s with
  | .next t => t
  | _ => s

/-- The response of the last request. -/
def answer (s : State) : Option (PortStatus × List Byte) := s.port.response.map fun r => (r.status, r.data)

/-- A configuration record every field of which passes its check. -/
def confBytes : List Byte :=
  [8, 1, 2, 3, 1, 0xFF, 1, 0x07, 0xD0, 0x01, 0xF4, 1, 0]
  ++ [8, 0, 0, 4, 0, 0, 0xFC, 4, 0, 0, 0, 1, 0, 2, 0, 3]
  ++ [0, 0, 0, 10, 0, 0, 0, 20, 0, 0, 0, 0, 0, 0, 0, 0, 10, 0x01, 0xF4, 4, 2]
  ++ [0, 0, 0, 0, 0, 100, 0, 0, 0, 0, 5]

/-- A step record: index 0, owner 0, WITNESS POSITIVE at SLOW, one guard on station `g`. -/
def stepBytes (g : Byte) : List Byte := [0, 0, 0, 0, 1, 2, 6, 0, 0, 0, 0, 0, 1, g, 2, 0, 0, 0, 0, 0]

/-- The step `stepBytes 1` spells. -/
def step0 : StepRecord :=
  { index := 0, owner := 0, action := .witness, dir := .positive, speed := .slow, travelLimit := 2,
    forUnreferenced := false, forProvisional := true, forReferenced := true, needs := [], guards := [(1, .referenced)],
    noLoad := false }

/-- A sealed plan of one step in a given status. -/
def planned (x : StepState) (s : State) : State :=
  s.setPlan { s.plan with steps := [step0], isSealed := true, digest := some 0, table := [x] }

/-- A seek of step 0 begun at count 0 and instant 0. -/
def seek : SeekContext :=
  { kind := .witness, dir := .positive, speed := .slow, travelLimit := 2, start := 0, entry := .provisional,
    step := some 0, phase := .toMark, phaseStart := 0, target := 1, stall := ⟨0, 0⟩, endCause := none, endDetail := 0 }

/-- A survey begun at count 0 and instant 0. -/
def survey : SurveyContext :=
  { kind := .backlash, mark := 0, phase := 1, first := none, second := none, measure := none, start := 0, phaseStart := 0,
    base := 0, stall := ⟨0, 0⟩, endCause := none, failPhase := 0 }

/-- A park of step 0 begun at instant 0. -/
def park : ParkOperation := { step := some 0, since := 0, leftStill := false, withdrawn := false }

/-- The record a ready station 1 with link cycle 5 sends. -/
def peer1 : StatusRecord :=
  { (onLink .synced (inPhase .ready conf)).packRecord with station := 1 }

/-- Entry 1 of the peer table ACTIVE with that record and a silence count. -/
def hearing (silence : Nat) (s : State) : State :=
  s.setPeers (vput s.peers 1 ⟨.active, silence, some peer1⟩)

/-- A journal frame in run 3, cycle 9. -/
def frame0 (k : JournalKind) : JournalFrame :=
  { kind := k, refState := .referenced, confidence := .kept, brake := true, moving := false, load := false, parked := false,
    tag := ⟨3, 9⟩, position := 0x102030405, sector := 2, level := .none, phase := .ready, generation := 1, holdSeq := 0,
    trim := 4 }

/-- A lockout record. -/
def lock0 : LockRecord := { present := true, origin := 2, cause := 28, run := 3, cycle := 9 }

/-- A calibration record of generation 1. -/
def cal0 : CalRecord := { generation := 1, trim := 4, backlash := 6, run := 3, cycle := 9 }

/-- A write in flight. -/
def writing (r : WriteRequest) (t : WriteTarget) (beat : Fin 4) (isCut : Bool) (s : State) : State :=
  s.setStore { s.store with port := some ⟨r, t, beat, isCut⟩ }

/-! ### WellFormed, the table's words, and check values -/

theorem test_wellformed_accepts_forms :
    WellFormed (.status 0 []) = true ∧ WellFormed (.unknownRequestCode 0 0x06 [1]) = true
    ∧ WellFormed (.requestCodeReceived 0 0x41) = true ∧ WellFormed (.frameReceived 0 0 [0x96, 0x4B]) = true := by
  decide

theorem test_wellformed_refuses_long_parameters : WellFormed (.trim 0 (List.replicate 256 0)) = false := by
  decide +kernel

theorem test_wellformed_refuses_named_code : WellFormed (.unknownRequestCode 0 0x51 []) = false := by decide

theorem test_wellformed_refuses_lockout_clear_code : WellFormed (.requestCodeReceived 0 0x42) = false := by decide

theorem test_wellformed_refuses_long_frame :
    WellFormed (.frameReceived 0 0 ([0x96, 0x4B] ++ List.replicate 39 0)) = false := by decide

theorem test_wellformed_refuses_wrong_preamble : WellFormed (.frameReceived 0 0 [0x96, 0x4A]) = false := by decide

theorem test_no_table_word_spells_a_command : decodeTableWord 8 5 = none ∧ State.reset.withFetchWord 8 5 = State.reset :=
  ⟨rfl, rfl⟩

theorem test_request_codes_name_requests :
    decodeRequest 0 0x16 [3] = .journalRead 0 [3] ∧ decodeRequest 0 0x42 [] = .lockoutClear 0 []
    ∧ decodeRequest 0 0x34 [] = .unknownRequestCode 0 0x34 [] := ⟨rfl, rfl, rfl⟩

/-- The published check value of CRC-16/IBM-3740 over the digits 1 to 9. -/
theorem test_crc16_check_value : crc16 [0x31, 0x32, 0x33, 0x34, 0x35, 0x36, 0x37, 0x38, 0x39] = 0x29B1 := by
  decide +kernel

/-- The published check value of CRC-32/MPEG-2 over the digits 1 to 9. -/
theorem test_crc32_check_value : crc32 [0x31, 0x32, 0x33, 0x34, 0x35, 0x36, 0x37, 0x38, 0x39] = 0x0376E6E7 := by
  decide +kernel

/-! ### States that meet the statements' hypotheses -/

/-- For FaultListKeepsEightMostRecent, whose only hypothesis is that the drive port may begin a transaction, and for the
codes of RequestsOutOfFormAndTransactionEvents. -/
theorem witness_PortReady : State.reset.portReady = true ∧ (0x41 : Byte) ≠ 0x42 := by decide

theorem witness_StepExecutesFrontCommand :
    (State.reset.setPending [.scanDone 0]).pending = [.scanDone 0] ∧ State.reset.pending = [] := by decide

theorem witness_StoppedDomainTakesNothing :
    (Instr.status 0 []).actsStopped = false ∧ (conf.setPower ⟨false, false, true, none⟩).power.vdd = false
    ∧ (conf.setPower ⟨true, true, true, none⟩).power.nreset = true ∧ (Instr.status 0 []).ofTransaction = true
    ∧ (Instr.transactionCut 0).ofTransaction = true
    ∧ (conf.setPort { conf.port with resetArmed := true }).port.resetArmed = true := by decide

theorem witness_RequestsOutOfFormAndTransactionEvents :
    conf.portReady = true ∧ (Instr.configure 0 (confBytes.take 60)).request = some (61, confBytes.take 60)
    ∧ (confBytes.take 60).length ≠ 61 ∧ (Instr.lockoutClear 0 [0]).request = some (0, [0]) ∧ [0].length ≠ 0 := by
  decide

/-- The store with its scan ended and a frame at slot 95. -/
def scanned (s : State) : State :=
  s.setStore { s.store with scanDone := true, tail := some ⟨95, frame0 .final⟩, pointer := 0 }

/-- The last slot back is number 95. -/
theorem witness_ReadsAnswerAndChangeNothing :
    conf.portReady = true ∧ conf.sensing.settling = true ∧ (opened conf).portReady = true
    ∧ (opened conf).sensing.settling = false ∧ 95 < (96 : Byte).toNat ∧ (95 : Byte).toNat ≤ 95
    ∧ conf.store.scanDone = false ∧ (conf.setStore { conf.store with scanDone := true }).store.tail = none
    ∧ (scanned conf).portReady = true ∧ (scanned conf).store.scanDone = true
    ∧ (scanned conf).store.tail = some ⟨95, frame0 .final⟩ := by decide

theorem witness_ConfigureAnswersInOrder :
    State.reset.portReady = true ∧ confBytes.length = 61 ∧ (inPhase .gathering State.reset).coord.phase ≠ .isolated
    ∧ State.reset.coord.phase = .isolated ∧ conf.coord.phase = .isolated ∧ conf.port.config.isSome = true
    ∧ (9 :: confBytes.drop 1).length = 61
    ∧ (armFieldsOk State.reset.own (9 :: confBytes.drop 1) && stationFieldsOk (9 :: confBytes.drop 1)) = false
    ∧ State.reset.port.config = none ∧ armFieldsOk State.reset.own confBytes = true
    ∧ stationFieldsOk confBytes = true := by decide +kernel

theorem witness_PlanIsLoadedClearedAndSealed :
    conf.portReady = true ∧ (stepBytes 1).length = 20 ∧ conf.coord.phase = .isolated ∧ conf.plan.isSealed = false
    ∧ conf.plan.steps.length < 32 ∧ (planned ⟨.pending, 0, none⟩ conf).plan.isSealed = true
    ∧ (conf.setPlan { conf.plan with steps := List.replicate 32 step0 }).plan.steps.length = 32
    ∧ State.reset.port.config = none ∧ rd (1 :: (stepBytes 1).drop 1) 0 1 ≠ conf.plan.steps.length
    ∧ parseStep (stepBytes 8) = none ∧ rd (stepBytes 1) 0 1 = conf.plan.steps.length
    ∧ parseStep (stepBytes 1) = some step0 ∧ conf.port.config = some Configuration.before
    ∧ step0.owner.val < Configuration.before.armSize ∧ (∀ g ∈ step0.guards, g.1.val < Configuration.before.armSize)
    ∧ ({ Configuration.before with armSize := 1 } : Configuration).armSize ≤ (1 : Station).val
    ∧ conf.plan.steps = []
    ∧ (conf.setPlan { conf.plan with steps := [step0] }).plan.steps ≠ [] := by decide +kernel

theorem witness_JoinStartsGathering :
    (inPhase .halted conf).coord.phase ≠ .isolated ∧ conf.coord.phase = .isolated ∧ conf.plan.isSealed = false
    ∧ (planned ⟨.pending, 0, none⟩ conf).portReady = true
    ∧ (planned ⟨.pending, 0, none⟩ conf).port.config = some .before
    ∧ (planned ⟨.pending, 0, none⟩ conf).plan.isSealed = true
    ∧ (planned ⟨.pending, 0, none⟩ conf).store.scanDone = false
    ∧ (scanned (planned ⟨.pending, 0, none⟩ conf)).store.scanDone = true := by decide

theorem witness_AbandonEndsRunningOperation :
    conf.portReady = true ∧ (∀ c, conf.engine.operation ≠ .seek c) ∧ (∀ c, conf.engine.operation ≠ .survey c)
    ∧ (engaged .captured (.seek seek) conf).engine.refState ≠ .seeking
    ∧ (engaged .seeking (.seek seek) conf).engine.operation = .seek seek
    ∧ (engaged .seeking (.seek seek) conf).engine.refState = .seeking ∧ seek.endCause = none
    ∧ ({ seek with endCause := some .hold } : SeekContext).endCause.isSome = true
    ∧ (engaged .seeking (.seek seek) conf).still = false
    ∧ (pins true true (engaged .seeking (.seek seek) conf)).still = true
    ∧ (engaged .seeking (.seek seek) conf).plan.demote = false
    ∧ (engaged .surveying (.survey survey) conf).engine.operation = .survey survey ∧ survey.endCause = none
    ∧ ({ survey with endCause := some .failed } : SurveyContext).endCause.isSome = true
    ∧ (engaged .surveying (.survey survey) conf).still = false
    ∧ (pins true true (engaged .surveying (.survey survey) conf)).still = true :=
  ⟨rfl, nofun, nofun, by decide, rfl, rfl, rfl, rfl, rfl, rfl, rfl, rfl, rfl, rfl, rfl, rfl⟩

/-- A referenced station in READY, moving or still. -/
def ready (still : Bool) : State := pins still still (engaged .referenced .none (inPhase .ready conf))

/-- Still in READY at count `p`, the positive limit active or not. -/
def readyAt (p : Position) (limit : Bool) : State :=
  let s := ready true
  (s.setStandby { s.standby with counter := p }).setSensing { s.sensing with limPos := ⟨limit, 0⟩ }

/-- E - Q is -256 for mark 0 and CPS/16 is 64 counts: at -192 the first phase ends at once, at -191 it does not. -/
theorem witness_SurveyEntersItsFirstPhase :
    [(0 : Byte), 0, 0].length = 3 ∧ (ready false).portReady = true ∧ (ready false).coord.phase = .ready
    ∧ conf.coord.phase ≠ .ready ∧ (inPhase .ready conf).engine.refState = .unreferenced
    ∧ (engaged .seeking (.seek seek) (inPhase .ready conf)).engine.refState = .seeking
    ∧ (engaged .referenced (.park park) (ready false)).engine.operation = .park park
    ∧ (∀ k, (ready false).engine.operation ≠ .park k) ∧ (ready false).engine.refState = .referenced
    ∧ (atLevel .stop false (ready false)).hold.level ≠ .none ∧ (ready false).hold.level = .none
    ∧ ((ready false).setCal { Cal.initial with sighting := some 1 }).cal.sighting.isSome = true
    ∧ (ready false).cal.sighting = none ∧ (ready false).cal.proposal = none
    ∧ SurveyKind.ofCode (rd [(2 : Byte), 0, 0] 0 1) = none
    ∧ SurveyKind.ofCode (rd [(0 : Byte), 0, 1] 0 1) = some .backlash
    ∧ SurveyKind.backlash.inTravel (rdSigned16 [(0 : Byte), 0, 1] 1) (ready false).cfg = false
    ∧ SurveyKind.ofCode (rd [(0 : Byte), 0, 0] 0 1) = some .backlash
    ∧ SurveyKind.backlash.inTravel (rdSigned16 [(0 : Byte), 0, 0] 1) (ready false).cfg = true
    ∧ SurveyKind.ofCode (rd [(1 : Byte), 0, 0] 0 1) = some .ratio
    ∧ SurveyKind.ratio.inTravel (rdSigned16 [(1 : Byte), 0, 0] 1) { (ready false).cfg with travelMax := 1 } = true
    ∧ (BitVec.ofInt 40 (rdSigned16 [(0 : Byte), 0, 0] 1 * (ready false).cps - (ready false).cal.trim
        - (ready false).cps / 4) : Position).toInt = -256
    ∧ (readyAt (-192) false).still = true
    ∧ |(readyAt (-192) false).counter - (-256)| ≤ ((readyAt (-192) false).cfg.cps : Int) / 16
    ∧ ¬ |(readyAt (-191) false).counter - (-256)| ≤ ((readyAt (-191) false).cfg.cps : Int) / 16
    ∧ (readyAt (-257) true).counter < -256 ∧ (readyAt (-192) true).sensing.limPos.level = true
    ∧ ¬ (readyAt (-192) true).counter < -256
    ∧ (ready false).still = false ∧ (ready false).sensing.limPos.level = false
    ∧ (ready false).sensing.limNeg.level = false ∧ (ready false).engine.order.reason ≠ some .hold := by
  refine ⟨rfl, rfl, rfl, by decide, rfl, rfl, rfl, nofun, rfl, by decide, rfl, rfl, rfl, rfl, ?_⟩
  decide +kernel

theorem witness_TrimFillsPendingTrim :
    [(0 : Byte), 0, 0, 0, 1].length = 5 ∧ (ready true).portReady = true ∧ (ready true).coord.phase = .ready
    ∧ (ready true).engine.refState = .referenced ∧ (∀ k, (ready true).engine.operation ≠ .park k)
    ∧ (ready true).still = true ∧ (ready false).still = false ∧ (ready true).hold.level = .none
    ∧ (ready true).cal.sighting = none ∧ (ready true).cal.proposal = none
    ∧ |(ready true).cal.committedTrim + ((ready true).standby.counter.toInt
        - (rdPosition [(0 : Byte), 0, 0, 0x03, 0xFF] 0).toInt)| < ((ready true).cfg.cps : Int)
    ∧ ((ready true).cfg.cps : Int) ≤ |(ready true).cal.committedTrim + ((ready true).standby.counter.toInt
        - (rdPosition [(0 : Byte), 0, 0, 0x04, 0x00] 0).toInt)| := by
  refine ⟨rfl, rfl, rfl, rfl, nofun, rfl, rfl, rfl, rfl, rfl, ?_⟩
  decide +kernel

/-- READY with every station of a two-station arm heard at generation 0. -/
def commitReady : State :=
  let s := (inPhase .ready conf).setPort { Port.initial with config := some { Configuration.before with armSize := 2 } }
  refreshOwn (hearing 0 s)

theorem witness_CalCommitProposesNextGeneration :
    commitReady.portReady = true ∧ commitReady.coord.phase = .ready ∧ (ready true).commitBusy = true
    ∧ (atLevel .drop false commitReady).hold.level ≠ .none ∧ commitReady.hold.level = .none
    ∧ commitReady.cal.generation ≠ 0xFFFF
    ∧ (commitReady.setCal { Cal.initial with committed := some (.a, { cal0 with generation := 0xFFFF }) }).cal.generation
        = 0xFFFF
    ∧ commitReady.cal.flipFailed = false ∧ commitReady.commitBusy = false := by decide +kernel

theorem witness_ResumeEndsCompleteHold :
    conf.portReady = true ∧ conf.hold.level = .none ∧ (atLevel .lockout false conf).hold.level = .lockout
    ∧ (atLevel .stop false conf).hold.level = .stop ∧ (atLevel .stop false conf).hold.complete = false
    ∧ (atLevel .drop true conf).hold.level = .drop ∧ (atLevel .drop true conf).hold.complete = true := by decide

theorem witness_RestartReturnsToGathering :
    conf.portReady = true ∧ conf.coord.phase ≠ .halted ∧ (inPhase .halted (atLevel .stop false conf)).coord.phase = .halted
    ∧ (inPhase .halted (atLevel .stop false conf)).hold.complete = false
    ∧ (inPhase .halted conf).hold.level = .none ∧ (inPhase .halted (atLevel .stop true conf)).hold.complete = true := by
  decide

/-- At LOCKOUT in HALTED with KEYSW active, the key counted `n` times, last at instant `t`. -/
def keyed (n : Nat) (t : Option Time) : State :=
  let s := inPhase .halted (atLevel .lockout false conf)
  (s.setSensing { s.sensing with keySw := ⟨true, 0⟩ }).setHold { s.hold with keyCount := n, lastKey := t }

/-- The key interval of 2 s ends at 2,000,000,000 ns: the request at that instant is in time, the next is not. -/
theorem witness_LockoutClearNeedsThreeKeys :
    (keyed 0 none).portReady = true ∧ conf.coord.phase = .isolated ∧ (inPhase .halted conf).hold.level ≠ .lockout
    ∧ (inPhase .halted (atLevel .lockout false conf)).sensing.keySw.level = false
    ∧ (keyed 0 none).coord.phase ≠ .isolated ∧ (keyed 0 none).hold.level = .lockout
    ∧ (keyed 0 none).sensing.keySw.level = true ∧ (keyed 0 none).hold.keyCount = 0
    ∧ (∀ k, (keyed 2 (some 0)).hold.lastKey = some k → k + ms 2000 < (keyed 2 (some 0)).now + 2000000001)
    ∧ (keyed 1 (some 0)).hold.lastKey = some 0 ∧ (keyed 1 (some 0)).now + 2000000000 ≤ 0 + ms 2000
    ∧ (keyed 1 (some 0)).hold.keyCount = 1 ∧ (keyed 2 (some 0)).hold.keyCount = 2 := by
  refine ⟨rfl, rfl, by decide, rfl, by decide, rfl, rfl, rfl, ?_, rfl, by decide, rfl, rfl⟩
  intro k h
  cases h
  decide

theorem witness_ShutdownRaisesItsHold :
    conf.portReady = true ∧ conf.still = false ∧ (pins true true conf).still = true ∧ (pins true true conf).braked = true
    ∧ (atLevel .lockout false (pins true true conf)).hold.level = .lockout
    ∧ (atLevel .stop false (pins true true conf)).hold.complete = false ∧ (pins true true conf).hold.level = .none
    ∧ (atLevel .drop true (pins true true conf)).hold.complete = true := by decide

theorem witness_MainDomainStartsTakeTheirValues :
    (conf.setPort { conf.port with resetArmed := true }).running = true ∧ conf.port.resetArmed = false
    ∧ conf.store.port = none
    ∧ (writing (.routine (frame0 .routine)) (.ring 0) 1 false conf).store.port.isSome = true ∧ conf.memoryCanonical
    ∧ (conf.setPower ⟨true, true, true, none⟩).power.vdd = true
    ∧ (conf.setPower ⟨false, true, true, none⟩).power.nreset = true
    ∧ (conf.setPower ⟨false, false, true, none⟩).power.vdd = false
    ∧ (conf.setPower ⟨false, false, true, none⟩).standby.alive = true := by
  refine ⟨rfl, rfl, rfl, rfl, ?_, rfl, rfl, rfl, rfl⟩
  unfold State.memoryCanonical
  decide

/-- With the cold start and the reset pin of MainDomainStartsTakeTheirValues. -/
theorem witness_SupplyLossesReachTheStandbyDomain :
    ((conf.setPower ⟨false, false, true, none⟩).setStandby { Standby.cold with alive := false }).power.vdd = false
    ∧ ((conf.setPower ⟨false, false, true, none⟩).setStandby { Standby.cold with alive := false }).standby.alive = false
    ∧ conf.power.nreset = false ∧ conf.power.vdd = true ∧ (conf.setPower ⟨false, false, true, none⟩).power.domainUp = true
    ∧ (conf.setPower ⟨false, false, false, none⟩).power.domainUp = false := by decide

/-- BRK_FB inactive with `n` samples counted. -/
def brakeCount (n : Nat) : State := conf.setSensing { conf.sensing with brkFb := ⟨false, n⟩ }

/-- The fourth differing sample is the one that changes the level at a filter length of 4. -/
theorem witness_SwitchFilterFollowsSamples :
    (brakeCount 2).running = true ∧ (conf.port.config.bind fun c => c.loadStation) ≠ some conf.own
    ∧ (SwitchInput.brkFb ≠ .loadIn) ∧ true ≠ ((brakeCount 2).sensing.filter .brkFb).level
    ∧ ((brakeCount 2).sensing.filter .brkFb).count + 1 < (brakeCount 2).switchLength
    ∧ (brakeCount 3).switchLength ≤ ((brakeCount 3).sensing.filter .brkFb).count + 1 := by decide

/-- Journal-active, the PFAIL filter one sample short of its change, with a store. -/
def failing (st : Store) : State :=
  ((conf.setSensing { conf.sensing with pfail := ⟨false, 1⟩ }).setCoord
    { conf.coord with journalActive := true, phase := .ready }).setStore st

/-- A store with one pending request. -/
def asking (k : WriteKind) (r : WriteRequest) (st : Store) : Store :=
  { st with pending := vput st.pending k.place (some r) }

/-- A staged record is held and its sealing waits, the peers' committed generation being its own. -/
def staging : State :=
  let s := hearing 0 (failing (asking .calStage (.calStage cal0) Store.initial))
  (s.setPeers (vput s.peers 1 ⟨.active, 0, some { peer1 with committed := 1 }⟩)).setCal { s.cal with staged := some cal0 }

theorem witness_PfailFilterAndDip :
    conf.running = true ∧ true ≠ conf.sensing.pfail.level ∧ conf.sensing.pfail.count = 0
    ∧ (failing Store.initial).running = true ∧ 0 < (failing Store.initial).sensing.pfail.count
    ∧ conf.coord.journalActive = false ∧ (failing Store.initial).coord.journalActive = true
    ∧ (failing { Store.initial with finalOut := true }).store.finalOut = true
    ∧ (failing Store.initial).store.finalOut = false ∧ (failing Store.initial).store.closing = none
    ∧ (failing Store.initial).store.busyWith .orderly = false
    ∧ (failing { Store.initial with closing := some 7 }).store.closing.isSome = true
    ∧ (failing (asking .orderly (.orderly (frame0 .orderly) 7) Store.initial)).store.busyWith .orderly = true
    ∧ (writing (.routine (frame0 .routine)) (.ring 0) 1 false (failing Store.initial)).store.port
        = some ⟨.routine (frame0 .routine), .ring 0, 1, false⟩
    ∧ (writing .calFlip (.cal .a) 0 false (failing Store.initial)).store.port = some ⟨.calFlip, .cal .a, 0, false⟩
    ∧ staging.store.isPending .calStage = true ∧ staging.store.inFlight .calStage = false
    ∧ staging.store.busyWith .calFlip = false ∧ staging.store.busyWith .calDiscard = false
    ∧ staging.cal.staged = some cal0 ∧ staging.cal.flipFailed = false ∧ staging.coord.phase ≠ .isolated
    ∧ (staging.peerRecords.any fun y => decide (y.2.committed = cal0.generation)) = true
    ∧ false ≠ (conf.setSensing { conf.sensing with pfail := ⟨true, 1⟩ }).sensing.pfail.level
    ∧ (failing { Store.initial with dip := some true }).store.dip = some true := by decide +kernel

/-- 50 us after the last transition is in time, 1 ns less is not. -/
theorem witness_DecodersCountOrLoseContinuity :
    (opened conf).running = true ∧ conf.decoder.standbyFeeds = true ∧ (opened conf).decoder.standbyFeeds = false
    ∧ true ≠ conf.decoder.lineA ∧ false = conf.decoder.lineB ∧ positiveStep false false true false
    ∧ ¬ positiveStep false false false true ∧ true ≠ conf.decoder.lineB
    ∧ (opened conf).engine.operation = .none
    ∧ (engaged .seeking (.seek seek) (opened conf)).engine.operation.step = some 0
    ∧ (engaged .seeking (.seek seek) (opened conf)).engine.refState ≠ .unreferenced
    ∧ (conf.setDecoder ⟨false, false, true, some 0⟩).now + 49999 < 0 + 50000
    ∧ 0 + 50000 ≤ (conf.setDecoder ⟨false, false, true, some 0⟩).now + 50000 := by
  unfold positiveStep
  decide

/-- With an accepted sector 3, the candidate 4 read once, and the lines 00110 of sector 4 in Gray code. -/
def onSector (a : Nat) : State :=
  (opened conf).setSensing { (opened conf).sensing with accepted := some a, sectorCandidate := some 4, sectorCount := 1 }

theorem witness_SectorTrackFiltersStepsAndJumps :
    (onSector 3).running = true ∧ State.reset.port.config = none ∧ (onSector 3).port.config = some .before
    ∧ graySector Configuration.before.sectors 0b00110 4 ∧ graySector 16 0b01000 15 ∧ graySector 32 0b10000 31
    ∧ (if (onSector 3).sensing.sectorCandidate = some 4 then
        min Configuration.before.sectorFilter ((onSector 3).sensing.sectorCount + 1) else 1) = 2
    ∧ Configuration.before.sectorFilter ≤ 2 ∧ 1 < Configuration.before.sectorFilter
    ∧ conf.sensing.accepted = none ∧ (onSector 3).sensing.accepted = some 3
    ∧ (4 : Nat) = (3 + 1) % Configuration.before.sectors ∧ (onSector 3).sensing.pendingEdge = none
    ∧ (4 : Nat) ≠ (2 + 1) % Configuration.before.sectors ∧ (2 : Nat) ≠ (4 + 1) % Configuration.before.sectors
    ∧ ((onSector 2).engine.refState ≠ .unreferenced ∨ (onSector 2).engine.operation = .none) := by
  unfold graySector
  decide

/-- With a step from sector 3 to 4 at count `p`, unused. -/
def stepped (p : Position) : State :=
  let s := onSector 4
  s.setSensing { s.sensing with lastChange := some ⟨3, 4, p, false⟩ }

/-- CPS/8 is 128 counts: a step 128 counts away qualifies the edge, one 129 away does not. -/
theorem witness_IndexEdgeIsQualifiedOrPending :
    conf.running = true ∧ State.reset.port.config = none ∧ conf.sensing.settling = true
    ∧ (opened conf).sensing.accepted = none ∧ (stepped 128).port.config = some .before
    ∧ (stepped 128).sensing.settling = false ∧ (stepped 128).sensing.accepted = some 4
    ∧ (stepped 128).sensing.pendingEdge = none ∧ (stepped 128).sensing.lastChange = some ⟨3, 4, 128, false⟩
    ∧ |(128 : Position).toInt - (stepped 128).standby.counter.toInt| ≤ (Configuration.before.cps : Int) / 8
    ∧ (Configuration.before.cps : Int) / 8 < |(129 : Position).toInt - (stepped 129).standby.counter.toInt|
    ∧ (4 : Nat) = (3 + 1) % Configuration.before.sectors ∧ (4 : Nat) ≠ (5 + 1) % Configuration.before.sectors
    ∧ (5 : Nat) = (4 + 1) % Configuration.before.sectors ∧ (stepped 128).engine.refState = .unreferenced := by decide

/-- A pending edge at count `p` in sector 3. -/
def edged (p : Position) (s : State) : State := s.setSensing { s.sensing with pendingEdge := some ⟨p, 3, none⟩ }

theorem witness_PendingEdgeIsResolved :
    (edged 128 (onSector 3)).running = true ∧ (edged 128 (onSector 3)).port.config = some .before
    ∧ (edged 128 (onSector 3)).sensing.pendingEdge = some ⟨128, 3, none⟩
    ∧ (edged 128 (onSector 3)).decoder.standbyFeeds = false ∧ (edged 128 (onSector 3)).sensing.settling = false
    ∧ (edged 128 (onSector 3)).sensing.accepted = some 3 ∧ (edged 128 (onSector 3)).sensing.lastChange = none
    ∧ |(after (.encTransition 0 true false) (edged 128 (onSector 3))).standby.counter.toInt - (128 : Position).toInt|
        ≤ (Configuration.before.cps : Int) / 8
    ∧ (Configuration.before.cps : Int) / 8
        < |(after (.encTransition 0 false true) (edged 128 (onSector 3))).standby.counter.toInt - (128 : Position).toInt|
    ∧ (engaged .seeking (.seek seek) (edged 128 (onSector 3))).engine.operation.step = some 0
    ∧ (Configuration.before.cps : Int) / 8
        < |(after (.encTransition 0 false true) (engaged .seeking (.seek seek) (edged 128 (onSector 3)))).standby.counter.toInt
          - (128 : Position).toInt|
    ∧ (edged 128 (onSector 3)).engine.refState = .unreferenced ∧ (edged 128 (onSector 3)).coord.phase ≠ .recovering := by
  decide +kernel

theorem witness_MotionCheckAndSettlingEnd :
    conf.running = true ∧ conf.sensing.settling = true ∧ (opened conf).sensing.earlier = some 0
    ∧ (opened conf).hold.level.dropped = false ∧ (atLevel .drop false (opened conf)).hold.level.dropped = true
    ∧ conf.now + 1999999 < conf.sensing.settleStart + 2000000 ∧ conf.sensing.settleStart + 2000000 ≤ conf.now + 2000000
    ∧ conf.cal.heldShift = false ∧ (conf.setCal { conf.cal with heldShift := true }).cal.heldShift = true := by decide

theorem witness_ClaimsMoveTheCounterAndHeldPositions :
    conf.sensing.settling = true ∧ (opened conf).sensing.settling = false ∧ (opened conf).sensing.captures = []
    ∧ ((opened conf).setSensing { (opened conf).sensing with captures := [⟨9, 4, .positive, none, none⟩] }).sensing.captures.getLast?
        = some ⟨9, 4, .positive, none, none⟩ := by decide

theorem witness_MarksAreFoundByTheCandidateAndNearestRules :
    0 < conf.cfg.cps ∧ (⟨9, 7, .positive, none, none⟩ : Capture).sector < conf.cfg.sectors := by decide

/-- The capture of an edge at count `p` in the step from sector 3 to 4, referenced, the step at that count. -/
def checked (p : Position) : State :=
  let s := engaged .referenced .none (stepped p)
  s.setStandby { s.standby with counter := p }

/-- Mark 4 is expected at 4096 with no trim and no backlash: 1 count off is within a tolerance of 1, 2 are not. -/
theorem witness_ReferencedCaptureIsChecked :
    (checked 4097).running = true ∧ (checked 4097).port.config = some .before ∧ (checked 4097).sensing.settling = false
    ∧ (checked 4097).sensing.accepted = some 4 ∧ (checked 4097).sensing.pendingEdge = none
    ∧ (checked 4097).sensing.lastChange = some ⟨3, 4, 4097, false⟩ ∧ (checked 4097).engine.refState = .referenced
    ∧ (checked 4097).nearestMark ⟨4097, 4, .positive, none, none⟩ = 4
    ∧ |(checked 4097).standby.counter.toInt - (checked 4097).expected 4 .positive|
        ≤ (Configuration.before.markTolerance : Int)
    ∧ (checked 4098).nearestMark ⟨4098, 4, .positive, none, none⟩ = 4
    ∧ (Configuration.before.markTolerance : Int)
        < |(checked 4098).standby.counter.toInt - (checked 4098).expected 4 .positive| := by decide +kernel

/-- A running seek at count `p`, in the step between sectors 3 and 4 in direction `d`, with DRV_STILL at a level. -/
def seekingTo (d : Direction) (k : SeekContext) (c : Configuration) (p : Position) (still : Bool) : State :=
  let s := pins still true (engaged .seeking (.seek { k with dir := d }) (checked p))
  let s := s.setPort { s.port with config := some c }
  match d with
  | .positive => s
  | .negative => s.setSensing { s.sensing with accepted := some 3, lastChange := some ⟨4, 3, p, false⟩ }

/-- A WITNESS of mark 4. -/
def witness4 : SeekContext := { seek with target := 4 }

/-- A SWITCH in TO_MARK from a phase start. -/
def switch4 (p : Position) : SeekContext := { seek with kind := .switch, phaseStart := p }

/-- The travel range and the home marks at mark 4. -/
def at4 : Configuration := { Configuration.before with travelMin := 4, travelMax := 4, homeMarkPos := 4, homeMarkNeg := 4 }

/-- Mark 4 is expected at 4096: 1 count off confirms, 2 counts off or another target do not. -/
theorem witness_SeekTakesItsCapture :
    (seekingTo .positive witness4 .before 4097 false).running = true
    ∧ (seekingTo .positive witness4 .before 4097 false).port.config = some .before
    ∧ (seekingTo .positive witness4 .before 4097 false).sensing.settling = false
    ∧ (seekingTo .positive witness4 .before 4097 false).sensing.accepted = some 4
    ∧ (seekingTo .positive witness4 .before 4097 false).sensing.pendingEdge = none
    ∧ (seekingTo .positive witness4 .before 4097 false).sensing.lastChange = some ⟨3, 4, 4097, false⟩
    ∧ (seekingTo .negative witness4 .before 4095 false).sensing.accepted = some 3
    ∧ (seekingTo .negative witness4 .before 4095 false).sensing.lastChange = some ⟨4, 3, 4095, false⟩
    ∧ (3 : Nat) ≠ (4 + 1) % Configuration.before.sectors ∧ (4 : Nat) = (3 + 1) % Configuration.before.sectors
    ∧ (seekingTo .positive witness4 .before 4097 false).link.timed = false
    ∧ (seekingTo .positive witness4 .before 4097 false).engine.refState = .seeking
    ∧ (seekingTo .positive witness4 .before 4097 false).engine.operation = .seek { witness4 with dir := .positive }
    ∧ witness4.endCause = none ∧ witness4.kind = .witness ∧ witness4.step = some 0
    ∧ (seekingTo .positive witness4 .before 4097 false).nearestMark ⟨4097, 4, .positive, none, none⟩ = 4
    ∧ |(4097 : Position).toInt - (seekingTo .positive witness4 .before 4097 false).expected 4 .positive|
        ≤ (Configuration.before.witnessTolerance : Int)
    ∧ (Configuration.before.witnessTolerance : Int)
        < |(4098 : Position).toInt - (seekingTo .positive witness4 .before 4098 false).expected witness4.target .positive|
    ∧ (seekingTo .positive seek .before 4097 false).nearestMark ⟨4097, 4, .positive, none, none⟩ ≠ seek.target
    ∧ (seekingTo .negative witness4 .before 4095 false).nearestMark ⟨4095, 4, .negative, none, none⟩ = 4
    ∧ (seekingTo .positive witness4 .before 4097 false).sensing.drvStill.level = false
    ∧ (seekingTo .positive witness4 .before 4097 true).sensing.drvStill.level = true
    ∧ at4.travelMin ≤ 4 ∧ 4 ≤ at4.travelMax ∧ (4 : Int) % (at4.sectors : Int) = ((4 : Nat) : Int)
    ∧ at4.travelMax - at4.travelMin < (at4.sectors : Int) ∧ (switch4 4096).phase = .toMark
    ∧ (switch4 4096).phaseStart.toInt < (4097 : Position).toInt ∧ (4095 : Position).toInt < (switch4 4096).phaseStart.toInt
    ∧ at4.homeMarkPos = 4 ∧ at4.homeMarkNeg = 4 := by decide +kernel

/-- The captures a seek does not take, and those of PROVISIONAL and CAPTURED. -/
theorem witness_SeekLeavesACapture :
    ({ witness4 with endCause := some .hold } : SeekContext).endCause ≠ none ∧ Direction.negative ≠ witness4.dir
    ∧ (∀ n : Int, Configuration.before.travelMin ≤ n → n ≤ Configuration.before.travelMax →
        n % (Configuration.before.sectors : Int) ≠ ((4 : Nat) : Int))
    ∧ 0 < Configuration.before.sectors ∧ ({ switch4 4096 with phase := .toSwitch } : SeekContext).phase = .toSwitch
    ∧ (4096 : Position).toInt ≤ (switch4 4096).phaseStart.toInt ∧ (switch4 4096).phaseStart.toInt ≤ (4096 : Position).toInt
    ∧ ((4 : Nat) : Int) ≠ Configuration.before.homeMarkPos % (Configuration.before.sectors : Int)
    ∧ ({ witness4 with entry := .unreferenced } : SeekContext).entry = .unreferenced ∧ witness4.entry ≠ .unreferenced
    ∧ (engaged .provisional .none (stepped 0)).engine.refState = .provisional
    ∧ (engaged .captured (.seek seek) (stepped 0)).engine.refState = .captured := by
  refine ⟨by decide, by decide, ?_, by decide, by decide, by decide, by decide, by decide, by decide, by decide, rfl, rfl⟩
  intro n h1 h2
  have h3 : (0 : Int) ≤ n := h1
  have h4 : n ≤ 0 := h2
  have : n = 0 := by omega
  subst this
  decide

theorem witness_GateFollowsPermissionAndStandstill :
    (atLevel .drop false conf).hold.level = .drop ∧ (atLevel .lockout false conf).hold.level = .lockout
    ∧ (inPhase .ready conf).hold.level = .none ∧ (inPhase .ready conf).moveRequested = true
    ∧ (inPhase .homing conf).moveRequested = false ∧ (atLevel .stop false conf).hold.level = .stop
    ∧ (conf.setGate .awaitBrake).gate = .awaitBrake ∧ (conf.setGate .opened).sensing.drvStill.level = false
    ∧ (pins true false (conf.setGate .awaitStill)).sensing.drvStill.level = true
    ∧ (pins true false (conf.setGate .awaitStill)).sensing.brkFb.level = false := by decide

/-- For SeekStallEndsTheSeek and SurveyStallFailsTheSurvey: the stall time of 500 ms ends at 500,000,000 ns. -/
theorem witness_StallsEndOperations :
    (engaged .seeking (.seek seek) conf).running = true ∧ seek.endCause = none
    ∧ conf.now + 499999999 < seek.stall.since + conf.cfg.stallTime * 1000000
    ∧ seek.stall.since + conf.cfg.stallTime * 1000000 ≤ conf.now + 500000000
    ∧ conf.sensing.drvStill.level = false ∧ (pins true true conf).sensing.drvStill.level = true
    ∧ conf.engine.order.reason ≠ some .hold ∧ (MotionOrder.stop .hold).reason = some .hold ∧ conf.plan.demote = false
    ∧ seek.step = some 0
    ∧ (planned ⟨.running, 0, none⟩ conf).plan.table[0]? = some ⟨.running, 0, none⟩
    ∧ (planned ⟨.running, 1, none⟩ conf).plan.table[0]? = some ⟨.running, 1, none⟩
    ∧ (engaged .surveying (.survey survey) conf).engine.refState = .surveying ∧ survey.endCause = none
    ∧ survey.stall.since + conf.cfg.stallTime * 1000000 ≤ conf.now + 500000000 := by decide

/-- PARK_TOLERANCE is 1 and PARK_POSITION 0. -/
theorem witness_ParkThatNeverStartsEnds :
    (engaged .referenced (.park park) (pins true true conf)).running = true
    ∧ (engaged .referenced (.park park) (pins true true conf)).engine.operation = .park park
    ∧ park.leftStill = false ∧ park.withdrawn = false ∧ ({ park with leftStill := true } : ParkOperation).leftStill = true
    ∧ park.since + conf.cfg.stallTime * 1000000 ≤ conf.now + 500000000
    ∧ conf.now + 499999999 < park.since + conf.cfg.stallTime * 1000000 ∧ park.step = some 0
    ∧ |(1 : Position).toInt - conf.cfg.parkPosition.toInt| ≤ (conf.cfg.parkTolerance : Int)
    ∧ (conf.cfg.parkTolerance : Int) < |(2 : Position).toInt - conf.cfg.parkPosition.toInt|
    ∧ (planned ⟨.running, 0, none⟩ conf).plan.table[0]? = some ⟨.running, 0, none⟩
    ∧ (planned ⟨.running, 1, none⟩ conf).plan.table[0]? = some ⟨.running, 1, none⟩
    ∧ (planned ⟨.pending, 1, none⟩ conf).plan.status 0 ≠ some .running ∧ conf.hold.level ≠ .lockout
    ∧ (atLevel .lockout false conf).hold.level = .lockout := by decide

theorem witness_RetryTimerAndProposalTimeout_retry :
    (planned ⟨.failedWait, 1, some 9⟩ conf).running = true
    ∧ (planned ⟨.failedWait, 1, some 9⟩ conf).plan.table[(0 : Fin 32).val]? = some ⟨.failedWait, 1, some 9⟩
    ∧ 9 ≤ conf.now + 9 ∧ conf.now + 8 < 9
    ∧ (∀ x, (planned ⟨.failedWait, 1, some 9⟩ conf).plan.table[(31 : Fin 32).val]? = some x → x.status ≠ .failedWait) := by
  refine ⟨rfl, rfl, by decide, by decide, ?_⟩
  intro x h
  cases h

/-- An entry with its deadline at instant 9, and a peer heard that is not settled. -/
def entering (l : HoldLevel) : State :=
  let s := hearing 0 (atLevel l false conf)
  s.setHold { s.hold with deadline := some 9 }

theorem witness_EntryDeadlineEscalates :
    (entering .stop).running = true ∧ (3 : Nat) < 256
    ∧ (∀ j : Station, (3 : Nat).testBit j.val = if j = (entering .stop).own then !(entering .stop).settled
        else match (entering .stop).heardRecord j with
          | some r => !r.settledFor (entering .stop).hold.seq
          | none => false)
    ∧ (entering .stop).hold.complete = false ∧ (entering .stop).hold.deadline = some 9
    ∧ 9 ≤ (entering .stop).now + 9 ∧ (entering .stop).now + 8 < 9 ∧ (entering .stop).hold.level = .stop
    ∧ (entering .drop).hold.level = .drop ∧ (atLevel .stop true conf).hold.complete = true
    ∧ conf.hold.deadline = none := by decide +kernel

/-- In a phase with its deadline at instant 9. -/
def dueIn (p : ArmPhase) : State :=
  let s := inPhase p conf
  s.setCoord { s.coord with deadline := some 9 }

theorem witness_GatherTimeoutHaltsTheStation :
    (dueIn .gathering).running = true ∧ (dueIn .gathering).coord.phase = .gathering
    ∧ (dueIn .recovering).coord.phase = .recovering ∧ (dueIn .gathering).coord.deadline = some 9
    ∧ 9 ≤ (dueIn .gathering).now + 9 ∧ (dueIn .gathering).now + 8 < 9 ∧ conf.coord.deadline = none
    ∧ conf.coord.phase ≠ .gathering ∧ conf.coord.phase ≠ .recovering ∧ (dueIn .gathering).hold.level = .none
    ∧ (7 : Station).val < (dueIn .recovering).cfg.armSize ∧ (dueIn .recovering).heardRecord 7 = none
    ∧ (hearing 0 (dueIn .recovering)).heardRecord 1 = some peer1 := by decide +kernel

/-- An own proposal of generation 1 from instant 0. -/
def proposing (posted : Bool) : State := conf.setCal { conf.cal with proposal := some ⟨1, 0, posted⟩ }

theorem witness_RetryTimerAndProposalTimeout_proposal :
    (proposing false).running = true ∧ conf.cal.proposal = none ∧ (proposing true).cal.proposal = some ⟨1, 0, true⟩
    ∧ (proposing false).cal.proposal = some ⟨1, 0, false⟩ ∧ (proposing false).now + 1999999999 < 0 + 2000000000
    ∧ 0 + 2000000000 ≤ (proposing false).now + 2000000000
    ∧ (∀ x ∈ (proposing false).peerRecords, x.2.proposal ≠ 1) := by decide +kernel

/-- SYNCED and journal-active, the cycle timer stopped short of cycle `n + 1`. -/
def cycling (n : BitVec 32) : State :=
  let s := opened (onLink .synced conf)
  (s.setLink { s.link with cycle := some n }).setCoord { s.coord with journalActive := true }

/-- The cycle period is 1 ms; every eighth cycle latches. -/
theorem witness_CycleStartCountsAndLatches :
    (cycling 7).running = true ∧ (cycling 7).link.state = .synced ∧ conf.link.state = .off
    ∧ (onLink .listening conf).link.state = .listening
    ∧ (cycling 7).link.cycleStart + ((cycling 7).cfg.cyclePeriod * 1000000 : Nat) + (cycling 7).link.correction
        ≤ (((cycling 7).now + 1000000 : Nat) : Rat)
    ∧ (((cycling 7).now + 999999 : Nat) : Rat)
        < (cycling 7).link.cycleStart + ((cycling 7).cfg.cyclePeriod * 1000000 : Nat) + (cycling 7).link.correction
    ∧ ((((cycling 7).link.cycle.map (· + 1)).getD 0).toNat % (cycling 7).cfg.journalEvery) = 0
    ∧ ((((cycling 6).link.cycle.map (· + 1)).getD 0).toNat % (cycling 6).cfg.journalEvery) ≠ 0
    ∧ (cycling 7).coord.journalActive = true ∧ (cycling 7).sensing.pfail.level = false
    ∧ (cycling 7).store.finalOut = false ∧ (cycling 7).store.busyWith .orderly = false
    ∧ (cycling 7).store.closing = none ∧ (cycling 7).store.lastTag = none ∧ (cycling 7).store.port = none
    ∧ (∀ k : WriteKind, (cycling 7).store.isPending k = false)
    ∧ tagNewer ⟨0, 8⟩ ⟨0, 7⟩ = true ∧ tagNewer ⟨0, 8⟩ ⟨0, 8⟩ = false := by
  refine ⟨rfl, rfl, rfl, rfl, by decide +kernel, by decide +kernel, by decide, by decide, rfl, rfl, rfl, rfl, rfl, rfl, rfl,
    ?_, by decide, by decide⟩
  intro k
  cases k <;> rfl

theorem witness_OwnSlotSendsThePackedRecord :
    (onLink .alone conf).running = true ∧ (onLink .alone conf).link.state = .alone
    ∧ (onLink .alone conf).link.cycleStart + ((onLink .alone conf).own.val : Rat)
        * (((onLink .alone conf).cfg.cyclePeriod * 1000000 : Nat) / 8) ≤ (((onLink .alone conf).now + 0 : Nat) : Rat)
    ∧ (onLink .alone conf).link.muted = false ∧ (onLink .alone conf).coord.phase = .isolated
    ∧ ((onLink .alone conf).setCoord { conf.coord with restart := true, restartLeft := 1 }).coord.restart = true := by
  refine ⟨rfl, rfl, by decide +kernel, rfl, rfl, rfl⟩

/-- A two-station arm SYNCED in GATHERING with one good evaluation or none, and a verdict on the own steps. -/
def gatherer (agreement : Nat) (verdict : Option Nat) : State :=
  let s := onLink .synced (inPhase .gathering (planned ⟨.pending, 0, none⟩ conf))
  let s := s.setPort { s.port with config := some { Configuration.before with armSize := 2 }, configDigest := some 7 }
  s.setCoord { s.coord with agreement := agreement, verdict := verdict }

/-- Station 1 shows what the station itself would pack. -/
def agreeing (s : State) : State := s.setPeers (vput s.peers 1 ⟨.active, 0, some { s.packRecord with station := 1 }⟩)

/-- The same arm in RECOVERING, both claims classed or none. -/
def recoverer (k : Confidence) : State :=
  let s := inPhase .recovering (gatherer 1 none)
  s.setCoord { s.coord with
    confidence := k, ownClaim := some ⟨.journal, 3, 9, some .final, true, false⟩
    tailParts := some ⟨.referenced, 0, 0, false⟩ }

/-- For OwnSlotAgreesTheRunAndEndsRecovery: in time, in the arm, the station itself heard or not. -/
theorem witness_OwnSlotEvaluates :
    (gatherer 0 none).running = true ∧ (gatherer 0 none).link.state = .synced
    ∧ (gatherer 0 none).link.cycleStart + ((gatherer 0 none).own.val : Rat)
        * (((gatherer 0 none).cfg.cyclePeriod * 1000000 : Nat) / 8) ≤ (((gatherer 0 none).now + 0 : Nat) : Rat)
    ∧ (gatherer 0 none).own.val < (gatherer 0 none).cfg.armSize ∧ (gatherer 0 none).coord.phase = .gathering
    ∧ (gatherer 0 none).coord.verdictTested = false ∧ (gatherer 0 none).coord.verdict = none
    ∧ (gatherer 0 (some 0)).coord.verdict = some 0 ∧ (1 : Station).val < (gatherer 0 none).cfg.armSize
    ∧ (gatherer 0 none).armRecord 1 = none ∧ (gatherer 0 none).coord.agreement = 0
    ∧ 1 ≤ (gatherer 1 none).coord.agreement
    ∧ ((gatherer 1 none).setCal { Cal.initial with staged := some cal0 }).cal.staged.isSome = true
    ∧ (recoverer .kept).coord.phase = .recovering ∧ 1 ≤ (recoverer .kept).coord.agreement
    ∧ (recoverer .kept).armRecord 1 = none ∧ (recoverer .kept).coord.confidence = .kept
    ∧ (recoverer .journalled).coord.tailParts = some ⟨.referenced, 0, 0, false⟩
    ∧ (opened (recoverer .journalled)).sensing.settling = false := by decide +kernel

/-- Every station of the arm shows the own digests and generation, so the view it takes exists. -/
theorem witness_OwnSlotAgrees :
    (∀ (j : Station) (x : StatusRecord), j.val < (agreeing (gatherer 1 none)).cfg.armSize →
      (agreeing (gatherer 1 none)).armRecord j = some x → x.committed = (agreeing (gatherer 1 none)).cal.generation
        ∧ (x.movedOn = true ∨ ∃ d g a b, x.block = .gather d g a b
            ∧ (agreeing (gatherer 1 none)).plan.digest = some d
            ∧ (agreeing (gatherer 1 none)).port.configDigest = some g))
    ∧ (∀ j : Station, j.val < 2 → ((agreeing (gatherer 1 none)).armRecord j).isSome = true)
    ∧ (∀ j : Station, j.val < 2 →
        ((agreeing (gatherer 1 none)).armRecord j).map (fun x => (x.movedOn, x.run)) = some (false, 0)) := by
  refine ⟨?_, by decide +kernel, by decide +kernel⟩
  intro j x hj hx
  have h : ∀ j : Station, j.val < 2 → ((agreeing (gatherer 1 none)).armRecord j).map (fun x => (x.committed, x.block))
      = some ((agreeing (gatherer 1 none)).cal.generation, .gather 0 7 0 0) := by decide +kernel
  have := h j hj
  rw [hx] at this
  simp only [Option.map_some, Option.some.injEq, Prod.mk.injEq] at this
  exact ⟨this.1, Or.inr ⟨0, 7, 0, 0, this.2, rfl, rfl⟩⟩

/-- Every station has moved on with a class. -/
theorem witness_OwnSlotEndsRecovery :
    ∀ j : Station, j.val < (agreeing (recoverer .journalled)).cfg.armSize →
      ∃ x, (agreeing (recoverer .journalled)).armRecord j = some x ∧ x.movedOn = true ∧ x.confidence ≠ .none := by
  intro j hj
  have h : ∀ j : Station, j.val < 2 → ((agreeing (recoverer .journalled)).armRecord j).map
      (fun x => (x.movedOn, x.confidence)) = some (true, .journalled) := by decide +kernel
  have := h j hj
  obtain ⟨x, hx⟩ : ∃ x, (agreeing (recoverer .journalled)).armRecord j = some x := by
    cases hx : (agreeing (recoverer .journalled)).armRecord j with
    | none => rw [hx] at this; cases this
    | some x => exact ⟨x, rfl⟩
  rw [hx] at this
  simp only [Option.map_some, Option.some.injEq, Prod.mk.injEq] at this
  exact ⟨x, hx, this.1, by rw [this.2]; decide⟩

/-- Step 0 without a guard, for a joint of any standing. -/
def step1 (a : StepAction) : StepRecord := { step0 with action := a, guards := [], forUnreferenced := true }

/-- HOMING in cycle 5 with one step in a status, a claim and the cycle it was sent in. -/
def homing (a : StepAction) (st : StepState) (claim : Option Nat) (sent : Option (BitVec 32)) : State :=
  let s := onLink .synced (inPhase .homing (opened (engaged .provisional .none (planned st conf))))
  s.setPlan { s.plan with steps := [step1 a], claim := claim, claimSent := sent }

/-- A CLAIMING step whose claim went out in cycle `c`. -/
def claimed (a : StepAction) (c : BitVec 32) : State := homing a ⟨.claiming, 0, none⟩ (some 0) (some c)

/-- For OwnSlotClaimsAndGrantsSteps: CONCURRENCY is 1; a claim sent in cycle 4 is heard in cycle 5, one sent in cycle 5
is not. -/
theorem witness_OwnSlotClaimsAndGrantsSteps :
    (homing .witness ⟨.pending, 0, none⟩ none none).running = true
    ∧ (homing .witness ⟨.pending, 0, none⟩ none none).link.state = .synced
    ∧ (homing .witness ⟨.pending, 0, none⟩ none none).coord.phase = .homing
    ∧ (homing .witness ⟨.pending, 0, none⟩ none none).hold.level = .none
    ∧ (homing .witness ⟨.pending, 0, none⟩ none none).plan.steps[0]? = some (step1 .witness)
    ∧ (step1 .witness).owner = (homing .witness ⟨.pending, 0, none⟩ none none).own
    ∧ (homing .witness ⟨.pending, 0, none⟩ none none).plan.running = false ∧ (step1 .witness).appliesTo .provisional = true
    ∧ (homing .witness ⟨.pending, 0, none⟩ none none).engine.standing = .provisional ∧ (step1 .witness).needs = []
    ∧ (step1 .witness).guards = [] ∧ (step1 .witness).noLoad = false
    ∧ (homing .witness ⟨.pending, 0, none⟩ none none).plan.claim = none
    ∧ (homing .witness ⟨.pending, 0, none⟩ none none).plan.status 0 = some .pending
    ∧ (claimed .witness 4).plan.claim = some 0 ∧ (claimed .witness 4).plan.status 0 = some .claiming
    ∧ (homing .witness ⟨.claiming, 0, none⟩ (some 0) none).plan.claimSent = none
    ∧ (claimed .witness 4).link.cycle = some 5 ∧ serialNewer (5 : BitVec 32) 4 = true
    ∧ serialNewer (5 : BitVec 32) 5 = false
    ∧ (claimed .witness 4).runningPeers.length + (claimed .witness 4).lowerClaims 0 < (claimed .witness 4).cfg.concurrency
    ∧ ((claimed .witness 4).setPeers
        (vput peersInitial 1 ⟨.active, 0, some { peer1 with running := true }⟩)).runningPeers.length = 1
    ∧ (claimed .witness 4).stepAnswer (step1 .witness) = .taken ∧ (claimed .witness 4).sensing.limPos.level = false
    ∧ (claimed .witness 4).sensing.limNeg.level = false ∧ (claimed .witness 4).engine.order.reason ≠ some .hold
    ∧ (engaged .referenced .none (claimed .park 4)).stepAnswer (step1 .park) = .taken
    ∧ (engaged .referenced .none (claimed .park 4)).still = false
    ∧ (engaged .unreferenced .none (claimed .witness 4)).stepAnswer (step1 .witness) = .invalid
    ∧ (step1 .witness).appliesTo .unreferenced = true := by decide +kernel

/-- Station 1 runs a step, with a claim. -/
def rival (q : Option (BitVec 5)) (s : State) : State :=
  s.setPeers (vput s.peers 1 ⟨.active, 0, some { peer1 with running := true, claim := q }⟩)

/-- HOMING with an own step 1 in a status, above a step 0 of an owner in a status. -/
def above (a : StepAction) (owner : Station) (x y : StepStatus) (claim : Option Nat) (sent : Option (BitVec 32)) : State :=
  let s := homing a ⟨y, 0, none⟩ claim sent
  s.setPlan { s.plan with steps := [{ step1 .witness with owner := owner }, { step1 a with index := 1 }]
                          table := [⟨x, 0, none⟩, ⟨y, 0, none⟩] }

/-- Step 1 RUNNING its operation in a reference state, with DRV_STILL at a level. -/
def runningStep (r : RefState) (o : Operation) (still : Bool) : State :=
  let s := pins still true (engaged r o (above .witness 1 .pending .running (some 1) (some 4)))
  s.setPlan { s.plan with running := true }

/-- The seek and the park of step 1. -/
def seek1 : SeekContext := { seek with step := some 1 }

/-- The park of step 1. -/
def park1 : ParkOperation := { park with step := some 1 }

/-- For the yield of OwnSlotYieldsWaitsAndEndsHoming: CONCURRENCY is 1, step 1 yields to a claim of step 0 and not to one of
step 1. -/
theorem witness_OwnSlotYields :
    (runningStep .seeking (.seek seek1) false).running = true
    ∧ (runningStep .seeking (.seek seek1) false).link.state = .synced
    ∧ (runningStep .seeking (.seek seek1) false).link.cycleStart
        + ((runningStep .seeking (.seek seek1) false).own.val : Rat)
          * (((runningStep .seeking (.seek seek1) false).cfg.cyclePeriod * 1000000 : Nat) / 8)
        ≤ (((runningStep .seeking (.seek seek1) false).now + 0 : Nat) : Rat)
    ∧ (runningStep .seeking (.seek seek1) false).coord.phase = .homing
    ∧ (runningStep .seeking (.seek seek1) false).hold.level = .none
    ∧ (runningStep .seeking (.seek seek1) false).plan.claim = some 1
    ∧ (runningStep .seeking (.seek seek1) false).plan.steps[1]? = some { step1 .witness with index := 1 }
    ∧ (step1 .witness).owner = (runningStep .seeking (.seek seek1) false).own
    ∧ (runningStep .seeking (.seek seek1) false).plan.status 1 = some .running
    ∧ (runningStep .seeking (.seek seek1) false).plan.running = true
    ∧ (runningStep .seeking (.seek seek1) false).plan.yieldReturn = false
    ∧ (runningStep .seeking (.seek seek1) false).runningPeers.length + 1
        ≤ (runningStep .seeking (.seek seek1) false).cfg.concurrency
    ∧ (rival (some 1) (runningStep .seeking (.seek seek1) false)).runningPeers.map (·.claim) = [some 1]
    ∧ (rival (some 1) (runningStep .seeking (.seek seek1) false)).cfg.concurrency
        < (rival (some 1) (runningStep .seeking (.seek seek1) false)).runningPeers.length + 1
    ∧ (rival (some 0) (runningStep .seeking (.seek seek1) false)).runningPeers.map (·.claim) = [some 0]
    ∧ (rival none (runningStep .seeking (.seek seek1) false)).runningPeers.map (·.claim) = [none]
    ∧ seek1.endCause = none ∧ seek1.step = some 1 ∧ park1.withdrawn = false ∧ park1.step = some 1
    ∧ (runningStep .seeking (.seek seek1) false).sensing.drvStill.level = false
    ∧ (runningStep .referenced (.park park1) true).sensing.drvStill.level = true
    ∧ (runningStep .seeking (.seek seek1) true).plan.demote = false
    ∧ (step1 .witness).appliesTo (runningStep .seeking (.seek seek1) true).engine.standing = true
    ∧ (step1 .witness).needs = [] ∧ (step1 .witness).guards = [] ∧ (step1 .witness).noLoad = false := by decide +kernel

/-- For its scan: step 1 is PENDING, the lower step DONE or not; a step whose set does not hold the standing. -/
theorem witness_OwnSlotScans :
    (above .waitAll 0 .done .pending none none).plan.claim = none
    ∧ (∀ (j : Nat) (x : StepRecord), (above .waitAll 0 .done .pending none none).plan.steps[j]? = some x → x.index = j)
    ∧ (above .waitAll 0 .done .pending none none).plan.status 1 = some .pending
    ∧ ((above .waitAll 0 .done .pending none none).plan.steps.take 1).map
        (fun x => (above .waitAll 0 .done .pending none none).stepResolved x) = [true]
    ∧ ((above .waitAll 0 .failedWait .pending none none).plan.steps.take 1).map
        (fun x => (above .waitAll 0 .failedWait .pending none none).stepResolved x) = [false]
    ∧ (above .waitAll 0 .failedWait .pending none none).plan.status 0 ≠ some .pending
    ∧ (step1 .waitAll).appliesTo (above .waitAll 0 .done .pending none none).engine.standing = true
    ∧ step0.appliesTo .unreferenced = false := by
  refine ⟨by decide +kernel, ?_, by decide +kernel, by decide +kernel, by decide +kernel, by decide +kernel,
    by decide +kernel, by decide⟩
  intro j x h
  match j, h with
  | 0, h => cases h; rfl
  | 1, h => cases h; rfl
  | _ + 2, h => cases h

/-- The plan's one step DONE in an arm of two, the own joint REFERENCED, station 1 heard in a reference state. -/
def ending (st : StepStatus) (r : Option RefState) : State :=
  let s := engaged .referenced .none (homing .witness ⟨st, 0, none⟩ none none)
  let s := s.setPort { s.port with config := some { Configuration.before with armSize := 2 } }
  match r with
  | some x => s.setPeers (vput s.peers 1 ⟨.active, 0, some { peer1 with refState := x }⟩)
  | none => s

/-- For its end: every station of the arm REFERENCED, station 1 not, or not heard; or the step unresolved. -/
theorem witness_OwnSlotEndsHoming :
    (∀ x ∈ (ending .done none).plan.steps, (ending .done none).plan.status x.index ≠ some .pending)
    ∧ (∀ x ∈ (ending .done none).plan.steps, (ending .done none).stepResolved x = true)
    ∧ (∃ x ∈ (ending .failedWait none).plan.steps, (ending .failedWait none).stepResolved x = false)
    ∧ (∀ j : Station, j.val < (ending .done (some .referenced)).cfg.armSize →
        (ending .done (some .referenced)).armState j = some .referenced)
    ∧ (1 : Station).val < (ending .done (some .provisional)).cfg.armSize
    ∧ (ending .done (some .provisional)).armState 1 = some .provisional
    ∧ (∀ k : Station, k.val < (ending .done (some .provisional)).cfg.armSize →
        (ending .done (some .provisional)).armState k ≠ none)
    ∧ (∀ k : Station, k.val < (1 : Station).val → (ending .done (some .provisional)).armState k = some .referenced)
    ∧ (ending .done none).armState 1 = none := by decide +kernel

/-- SYNCED with a frame that begins at the instant `start`, and `n` mismatches. -/
def sendingFrom (start : Rat) (n : Nat) : State :=
  let s := onLink .synced conf
  s.setLink { s.link with tx := some ⟨start, [0x96]⟩, mismatches := n }

/-- The same, the frame begun. -/
def sending (n : Nat) : State := sendingFrom 0 n

/-- A frame that begins at 4000 ns is not on the line at 3999. -/
theorem witness_ReadbackCountsAndMutes :
    (sending 1).running = true ∧ conf.link.tx = none ∧ (sending 1).link.tx = some ⟨0, [0x96]⟩
    ∧ (0 : Rat) ≤ (((sending 1).now + 0 : Nat) : Rat)
    ∧ (sendingFrom 4000 1).link.tx = some ⟨4000, [0x96]⟩ ∧ (((sendingFrom 4000 1).now + 3999 : Nat) : Rat) < 4000
    ∧ (sending 1).link.state = .synced
    ∧ (sending 1).link.mismatches + 1 < 3 ∧ 3 ≤ (sending 2).link.mismatches + 1 := by decide +kernel

/-- SYNCED in cycle 5 at the instant a frame begun 4 us after the start of slot 1 has been received, `off` ns late. -/
def receiving (off : Nat) : State := atTime (125000 + 4000 + 320000 + off) (onLink .synced conf)

/-- Station 2 at an instant, the cycle begun at 0: its own frame begins at 254,000 ns, 4 us into its slot. -/
def beside (t : Time) : State :=
  let s := atTime t (onLink .synced conf)
  s.setLink { s.link with station := 2, tx := some ⟨254000, []⟩ }

/-- The frame of station 1 in its slot: 25 us off are accepted, 1 ns more is not. -/
theorem witness_ReceivedFrameIsDiscardedOrAccepted :
    (receiving 25000).running = true ∧ (peer1.frame.take 39).length < 40
    ∧ rd (peer1.frame.take 39 ++ [0]) 38 2 ≠ (crc16 (((peer1.frame.take 39 ++ [0]).drop 2).take 36)).toNat
    ∧ parseFrame peer1.frame = some peer1 ∧ peer1.station ≠ (receiving 25000).own
    ∧ (receiving 25000).link.state = .synced
    ∧ (((receiving 25000).now + 0 : Nat) : Rat) - (320000 : Nat)
        = (receiving 25000).link.cycleStart + 4000
          + (((1 : Station).val : Int) + 8 * 0 : Int) * (((receiving 25000).cfg.cyclePeriod * 1000000 : Nat) / 8 : Rat)
          + 25000
    ∧ (25000 : Rat) < (((receiving 25000).cfg.cyclePeriod * 1000000 : Nat) / 8 : Rat) / 2 ∧ (25000 : Rat) < 25001
    ∧ (25001 : Rat) < (((receiving 25001).cfg.cyclePeriod * 1000000 : Nat) / 8 : Rat) / 2
    ∧ peer1.station = 1 ∧ (1 : Station).val < (receiving 25000).cfg.armSize
    ∧ (receiving 25000).link.cycle = some peer1.cycle ∧ (receiving 25000).link.tx = none ∧ peer1.station ≠ 2
    ∧ (beside 250999).link.tx = some ⟨254000, []⟩ ∧ (((beside 250999).now + 0 : Nat) : Rat) < 254000
    ∧ (254000 : Rat) ≤ (((beside 254000).now + 0 : Nat) : Rat)
    ∧ ((receiving 25000).setLink { (receiving 25000).link with cycle := some 4 }).link.cycle ≠ some peer1.cycle
    ∧ conf.link.state = .off := by decide +kernel

theorem witness_FrameIsAdopted :
    (onLink .listening conf).running = true ∧ parseFrame peer1.frame = some peer1
    ∧ peer1.station ≠ (onLink .listening conf).own ∧ (onLink .listening conf).link.state = .listening
    ∧ (onLink .alone conf).link.state = .alone ∧ peer1.link = .synced
    ∧ peer1.station.val < (onLink .listening conf).cfg.armSize
    ∧ parseFrame ({ peer1 with station := 2 } : StatusRecord).frame = some { peer1 with station := 2 }
    ∧ (commitReady.cfg.armSize ≤ ({ peer1 with station := 2 } : StatusRecord).station.val)
    ∧ (2 : Station) ∉ (onLink .listening conf).link.outOfArm := by decide +kernel

/-- SYNCED with counts of silent and foreign cycles, the last cycle foreign. -/
def quiet (silent foreign : Nat) : State :=
  let s := onLink .synced conf
  s.setLink { s.link with silentCycles := silent, foreignCycles := foreign, foreignInCycle := true }

/-- PEER_LOSS_LIMIT is 2: the second foreign cycle ends SYNCED, and so does the fourth silent one. -/
theorem witness_StationGoesAloneOrListening :
    (quiet 3 0).running = true ∧ (quiet 3 0).link.state = .synced ∧ (quiet 3 0).link.acceptedInCycle = false
    ∧ (quiet 3 0).link.foreignInCycle = true ∧ 4 ≤ (quiet 3 0).link.silentCycles + 1
    ∧ (quiet 3 0).link.foreignCycles + 1 < (quiet 3 0).cfg.peerLossLimit ∧ (quiet 2 0).link.silentCycles + 1 < 4
    ∧ (quiet 0 1).cfg.peerLossLimit ≤ (quiet 0 1).link.foreignCycles + 1
    ∧ (quiet 3 0).link.cycleStart + ((quiet 3 0).cfg.cyclePeriod * 1000000 : Nat)
        ≤ (((quiet 3 0).now + 1000000 : Nat) : Rat)
    ∧ (((quiet 3 0).now + 999999 : Nat) : Rat)
        < (quiet 3 0).link.cycleStart + ((quiet 3 0).cfg.cyclePeriod * 1000000 : Nat)
    ∧ (onLink .listening conf).link.state = .listening
    ∧ (onLink .listening conf).link.listenSince + (2 + (onLink .listening conf).own.val)
        * ((onLink .listening conf).cfg.cyclePeriod * 1000000) ≤ (onLink .listening conf).now + 2000000
    ∧ (onLink .listening conf).now + 1999999 < (onLink .listening conf).link.listenSince
        + (2 + (onLink .listening conf).own.val) * ((onLink .listening conf).cfg.cyclePeriod * 1000000) := by
  decide +kernel

/-- Slot 1 ends at 250,000 ns; an entry silent once is LOST at its second silence. -/
theorem witness_UnheardPeersAgeAndAreLost :
    (hearing 1 (onLink .synced conf)).running = true ∧ (1 : Station) ≠ (hearing 1 (onLink .synced conf)).own
    ∧ (hearing 1 (onLink .synced conf)).link.cycleStart + (((1 : Station).val + 1 : Nat) : Rat)
        * (((hearing 1 (onLink .synced conf)).cfg.cyclePeriod * 1000000 : Nat) / 8)
        ≤ (((hearing 1 (onLink .synced conf)).now + 250000 : Nat) : Rat)
    ∧ (1 : Station) ∉ (hearing 1 (onLink .synced conf)).link.heard
    ∧ ((onLink .synced conf).peers.get 1).loss ≠ .active
    ∧ (hearing 0 (onLink .synced conf)).peers.get 1 = ⟨.active, 0, some peer1⟩
    ∧ 0 + 1 < (onLink .synced conf).cfg.peerLossLimit ∧ (onLink .synced conf).cfg.peerLossLimit ≤ 1 + 1
    ∧ (254 : Nat) < 255 ∧ peer1.closing = false ∧ (hearing 1 (onLink .listening (inPhase .homing conf))).coord.phase = .homing
    ∧ (hearing 1 (onLink .listening (inPhase .homing conf))).peers.get 1 = ⟨.active, 1, some peer1⟩
    ∧ (onLink .listening conf).link.listenSince + (onLink .listening conf).cfg.cyclePeriod * 1000000
        ≤ (onLink .listening conf).now + 1000000
    ∧ (onLink .listening conf).now + 999999
        < (onLink .listening conf).link.listenSince + (onLink .listening conf).cfg.cyclePeriod * 1000000 := by
  decide +kernel

/-- A beat of a ROUTINE of `frame0` at slot 0, the tail at slot 95. -/
def lastBeat (isCut : Bool) (beat : Fin 4) : State :=
  writing (.routine (frame0 .routine)) (.ring 0) beat isCut (scanned conf)

/-- The eight bytes the beat writes. -/
def beatOf (s : State) : List Byte :=
  match s.store.port with
  | some f => f.beatBytes
  | none => []

theorem witness_BeatEndWritesChecksAndGrants :
    conf.running = true ∧ conf.store.port = none
    ∧ (lastBeat false 3).store.port = some ⟨.routine (frame0 .routine), .ring 0, 3, false⟩
    ∧ (lastBeat false 3).store.pointer = 0 ∧ (beatOf (lastBeat false 3)).length = 8
    ∧ (2 : Fin 4).val + 1 < (WriteRequest.routine (frame0 .routine)).kind.beats
    ∧ (3 : Fin 4).val + 1 = (WriteRequest.routine (frame0 .routine)).kind.beats
    ∧ beatOf (lastBeat false 3) ≠ List.replicate 8 0xFF
    ∧ (writing (.lockRecord lock0) .lockout 0 false conf).store.port = some ⟨.lockRecord lock0, .lockout, 0, false⟩
    ∧ Memory.wf conf.mem = true ∧ (WriteRequest.lockRecord lock0).kind.beats = 1 ∧ (WriteRequest.calFlip).kind.beats = 1
    ∧ (lastBeat true 2).store.tail = some ⟨95, frame0 .final⟩ ∧ (95 : Fin 96) ≠ (lastBeat true 2).store.pointer + 1
    ∧ (95 : Fin 96) = 94 + 1
    ∧ ((lastBeat true 2).setStore { (lastBeat true 2).store with pointer := 94 }).store.tail = some ⟨95, frame0 .final⟩
    ∧ (asking .lockRecord (.lockRecord lock0) (lastBeat false 3).store).pending.get WriteKind.lockRecord.place
        = some (.lockRecord lock0)
    ∧ (writing (.final (frame0 .final)) (.ring 0) 0 false (scanned conf)).store.port
        = some ⟨.final (frame0 .final), .ring 0, 0, false⟩ := by
  decide +kernel

/-- Nothing pending, or a LOCK_RECORD first in grant order. -/
theorem witness_BeatEndGrants :
    (∀ k : WriteKind, (lastBeat false 3).store.isPending k = false)
    ∧ (∀ k : WriteKind, k.place < WriteKind.lockRecord.place →
        (asking .lockRecord (.lockRecord lock0) (lastBeat false 3).store).isPending k = false) := by
  constructor
  · intro k
    cases k <;> decide +kernel
  · intro k
    cases k <;> decide +kernel

/-- A store that holds a frame at slot 95, a calibration record sealed COMMITTED in slot A, and a lockout. -/
def stored : State :=
  conf.setMem (Memory.writeBytes (Memory.writeBytes (Memory.writeBytes [] 0xBE0 (frame0 .final).encode) 0xC00
    (0xA5 :: cal0.encode.drop 1)) 0xC40 lock0.encode)

theorem witness_ScanFindsTailCalibrationAndLockout :
    stored.running = true ∧ stored.store.scanDone = false ∧ JournalFrame.decode (stored.ringSlot 95) = some (frame0 .final)
    ∧ calRecordWith calCommittedByte (stored.calSlot .a) = some cal0
    ∧ calRecordWith calCommittedByte (stored.calSlot .b) = none ∧ lockSealed stored.lockBeat = true
    ∧ (LockRecord.decode stored.lockBeat).present = true
    ∧ calRecordWith calCommittedByte (conf.calSlot .a) = none
    ∧ (lockSealed conf.lockBeat = false ∨ (LockRecord.decode conf.lockBeat).present = false)
    ∧ (scanned conf).store.scanDone = true := by decide +kernel

theorem witness_WrittenLayoutsReadBack :
    peer1.link ≠ .off ∧ cal0.generation ≠ 0 ∧ (Response.mk .ok [1]).data.length < 65536
    ∧ ({ Port.initial with response := some ⟨.ok, [1]⟩ } : Port).response = some ⟨.ok, [1]⟩ := by decide +kernel

/-- A JOURNAL claim of a FINAL tail in run 3, cycle 9, as the own claim and as the one claim held. -/
def claiming (kind : Option JournalKind) (continuity agree : Bool) : State :=
  let c : Claim := ⟨.journal, 3, 9, kind, agree, continuity⟩
  conf.setCoord { conf.coord with ownClaim := some c, tailParts := some ⟨.referenced, 0, 0, false⟩,
                                  claims := vput claimsEmpty 0 (.held c) }

theorem witness_OwnClaimIsClassified :
    (claiming (some .final) true true).coord.ownClaim = some ⟨.journal, 3, 9, some .final, true, true⟩
    ∧ (claiming (some .final) false true).tailReferenced ∧ ¬ (claiming (some .final) false true).coord.ownClaim = none
    ∧ (claiming (some .final) false true).heldClaims = [⟨.journal, 3, 9, some .final, true, false⟩]
    ∧ (claiming (some .final) false true).agreedStop.run = some 3
    ∧ (claiming (some .final) false true).agreedStop.latestFinal = some 9
    ∧ ((9 : BitVec 32) - 9).toNat ≤ conf.cfg.pfailSpread
    ∧ (claiming none false true).heldClaims = [⟨.journal, 3, 9, none, true, false⟩]
    ∧ (⟨.journal, 3, 9, some .final, true, false⟩ : Claim).closesIn (some 3) := by
  refine ⟨rfl, ⟨⟨.referenced, 0, 0, false⟩, rfl, Or.inr (Or.inl rfl)⟩, by decide, by decide +kernel, by decide +kernel,
    by decide +kernel, by decide, by decide +kernel, ⟨rfl, Or.inl rfl, rfl⟩⟩

/-- For the invariants of every step, and for what a step may write. -/
theorem witness_InvariantsHold :
    (inPhase .ready conf).gateSafe ∧ (onLink .synced conf).linkTimely ∧ conf.listsBounded ∧ stored.memoryCanonical
    ∧ step (stored.setPending [.status 0 []]) = .next (after (.status 0 []) stored) := by
  refine ⟨⟨by decide, by decide, by decide⟩, rfl, ⟨by decide, by decide, by decide, nofun⟩, ?_, rfl⟩
  unfold State.memoryCanonical
  decide +kernel

/-! ### States that meet the hypotheses on accepted records -/

/-- SYNCED in cycle 5 at the end of a frame of station 1 that began `off` ns after its nominal instant. -/
def listening (off : Int) (s : State) : State := atTime (449000 + off).toNat (onLink .synced s)

/-- A record in the words of `State.hears` is heard 25 us off at the most, and in ALONE a lower station's at any time. -/
theorem witness_hears (off : Int) (r : StatusRecord) (s : State)
    (h : s.running = true ∧ parseFrame r.frame = some r ∧ r.station ≠ s.own ∧ r.station.val < s.cfg.armSize
      ∧ s.link.state = .synced ∧ s.link.cycle = some r.cycle ∧ s.cfg.cyclePeriod = 1 ∧ r.station = 1
      ∧ s.link.cycleStart = 0 ∧ s.now = (449000 + off).toNat ∧ -25000 ≤ off ∧ off ≤ 25000) :
    s.hears 0 320000 r.frame r := by
  obtain ⟨h1, h2, h3, h4, h5, h6, h7, h8, h9, h10, h11, h12⟩ := h
  refine ⟨h1, h2, h3, h4, Or.inr ⟨Or.inl h5, h6, 0, 125000, (off : Rat), ?_, ?_, ?_, ?_, ?_, ?_, ?_⟩⟩
  · rw [h7]; norm_num
  · norm_num
  · obtain ⟨n, hn⟩ := Int.eq_ofNat_of_zero_le (show (0 : Int) ≤ 449000 + off by omega)
    have hq : ((449000 + off : Int) : Rat) = (n : Rat) := by rw [hn]; norm_num
    rw [h8, h9, h10, hn]
    push_cast at hq ⊢
    simp only [Int.toNat_natCast]
    norm_num
    linarith
  · have : ((-25000 : Int) : Rat) ≤ (off : Rat) := by exact_mod_cast h11
    norm_num at this ⊢
    linarith
  · have : (off : Rat) ≤ ((25000 : Int) : Rat) := by exact_mod_cast h12
    norm_num at this ⊢
    linarith
  · exact_mod_cast h11
  · exact_mod_cast h12

/-- The test of `StatusRecord.flagsIdle`, stronger by the lockout-clear flag. -/
def bringsNothing (r : StatusRecord) (s : State) : Bool :=
  !r.resume && !r.lockClear && !r.restart
  && (match r.block with | .gather _ _ f _ => decide (f ≠ 1) | _ => true)
  && decide ((s.coord.phase = .homing ∨ s.coord.phase = .ready ∨ s.coord.phase = .halted) →
      r.phase ≠ .isolated ∧ r.phase ≠ .gathering)
  && decide (s.coord.phase = .recovering → s.standby.excursion ≤ s.cfg.driftThreshold)

theorem flagsIdle_of_bringsNothing (r : StatusRecord) (s : State) (h : bringsNothing r s = true) : r.flagsIdle s := by
  simp only [bringsNothing, Bool.and_eq_true, Bool.not_eq_true', decide_eq_true_eq] at h
  obtain ⟨⟨⟨⟨⟨h1, h2⟩, h3⟩, h4⟩, h5⟩, h6⟩ := h
  refine ⟨h1, (by rw [h2]; nofun), h3, fun _ pd cd c hb => ?_, h5, h6⟩
  rw [hb] at h4
  simp at h4

/-- Equal sequences and a newer one, by their first and last values. -/
theorem witness_sequences :
    seqNewer 8 7 = true ∧ seqNewer (7 + 0x7FFF) 7 = true ∧ seqNewer (7 + 0x8000) 7 = false ∧ seqNewer 7 7 = false
    ∧ seqNewer 1 0 = true ∧ seqNewer 0 7 = false ∧ seqNewer 0 0 = false := by decide

/-- The record of station 1 in a phase, at a level, with a sequence, a cause and an origin. -/
def told (p : ArmPhase) (l : HoldLevel) (q : BitVec 16) (cause : Byte) (origin : Station) : StatusRecord :=
  { peer1 with phase := p, level := l, holdSeq := q, cause := cause, origin := origin }

/-- The record a station of the arm in GATHERING or RECOVERING with or without a retained lockout of cause 28 sends. -/
def recording (p : ArmPhase) (retained : Bool) : StatusRecord :=
  { (onLink .synced (inPhase p conf)).packRecord with
    station := 1
    block := match p with
      | .recovering => .recover ⟨.journal, 3, 9, some .final, true, false⟩
      | _ => .gather 0 0 (boolByte retained) (if retained then 28 else 0) }

/-- SYNCED in a phase at a level, its sequence 7 with cause 1 and origin 2, at the end of a frame in time. -/
def held (l : HoldLevel) (complete : Bool) (p : ArmPhase) : State :=
  let s := listening 0 (atLevel l complete (inPhase p (opened conf)))
  s.setHold { s.hold with origin := 2, cause := 1 }

/-- The ends of the time a frame is heard in, and a frame adopted in ALONE. -/
theorem witness_hearing :
    (listening 25000 (held .stop false .ready)).hears 0 320000 peer1.frame peer1
    ∧ (listening (-25000) (held .stop false .ready)).hears 0 320000 peer1.frame peer1
    ∧ (held .stop false .ready).hears 0 320000 (told .ready .drop 8 1 3).frame (told .ready .drop 8 1 3)
    ∧ (held .none false .gathering).hears 0 320000 (recording .gathering true).frame (recording .gathering true)
    ∧ (held .none false .recovering).hears 0 320000 (recording .recovering false).frame (recording .recovering false)
    ∧ (onLink .alone conf).hears 0 0 peer1.frame peer1
    ∧ ((beside 0).setLink { (beside 0).link with state := .alone }).hears 0 0
        ({ peer1 with link := .alone } : StatusRecord).frame { peer1 with link := .alone } := by
  refine ⟨witness_hears 25000 _ _ ?_, witness_hears (-25000) _ _ ?_, witness_hears 0 _ _ ?_, witness_hears 0 _ _ ?_,
    witness_hears 0 _ _ ?_, ⟨?_, ?_, ?_, ?_, Or.inl ⟨rfl, Or.inl ?_⟩⟩, ?_, ?_, ?_, ?_, Or.inl ⟨rfl, Or.inr ?_⟩⟩ <;> decide +kernel

/-- Adoption in every class, a LOCKOUT upon a LOCKOUT, and an ABORT while ISOLATED. -/
theorem witness_AcceptedRecordActsOnTheHold_adopts :
    (told .ready .drop 8 1 3).flagsIdle (held .stop false .ready)
    ∧ seqNewer (told .ready .drop 8 1 3).holdSeq (held .stop false .ready).hold.seq = true
    ∧ (told .ready .drop 8 1 3).level ≠ .none ∧ adoptedClass 1 = .hold ∧ adoptedClass 15 = .abort
    ∧ adoptedClass 7 = .retry ∧ adoptedClass 25 = .note ∧ adoptedClass 28 = .escalation ∧ adoptedClass 0 = .hold
    ∧ (told .ready .stop 8 15 3).flagsIdle (held .none false .ready)
    ∧ (told .ready .stop 8 15 3).phase ≠ .isolated ∧ (told .ready .stop 8 15 3).phase ≠ .gathering
    ∧ (held .none false .ready).coord.phase ≠ .isolated ∧ (held .none false .isolated).coord.phase = .isolated
    ∧ (told .ready .stop 8 15 3).flagsIdle (held .none false .isolated)
    ∧ (told .ready .lockout 8 28 3).level = .lockout ∧ (held .lockout false .ready).hold.level = .lockout
    ∧ (told .ready .lockout 8 28 3).flagsIdle (held .lockout false .ready)
    ∧ (held .stop false .ready).hold.level ≠ .lockout := by
  refine ⟨flagsIdle_of_bringsNothing _ _ ?_, by decide, by decide, by decide, by decide, by decide, by decide, by decide,
    by decide, flagsIdle_of_bringsNothing _ _ ?_, by decide, by decide, by decide, by decide,
    flagsIdle_of_bringsNothing _ _ ?_, by decide, by decide, flagsIdle_of_bringsNothing _ _ ?_, by decide⟩
  all_goals decide +kernel

/-- STOP rising to DROP and LOCKOUT, DROP to LOCKOUT, from a lower origin and from another; an entry complete or not. -/
theorem witness_AcceptedRecordActsOnTheHold_rises :
    (told .ready .drop 7 9 1).flagsIdle (held .stop true .ready)
    ∧ (told .ready .lockout 7 9 3).flagsIdle (held .drop false .ready)
    ∧ (told .ready .drop 7 9 1).holdSeq = (held .stop true .ready).hold.seq
    ∧ (held .stop true .ready).hold.level = .stop ∧ (held .drop false .ready).hold.level = .drop
    ∧ (held .stop true .ready).hold.level.rank < (told .ready .drop 7 9 1).level.rank
    ∧ (held .drop false .ready).hold.level.rank < (told .ready .lockout 7 9 3).level.rank
    ∧ (told .ready .drop 7 9 1).origin.val < (held .stop true .ready).hold.origin.val
    ∧ (held .drop false .ready).hold.origin.val ≤ (told .ready .lockout 7 9 3).origin.val
    ∧ (held .drop false .ready).hold.origin.val ≤ (told .ready .lockout 7 9 2).origin.val
    ∧ (held .stop true .ready).cal.proposal = none := by
  refine ⟨flagsIdle_of_bringsNothing _ _ ?_, flagsIdle_of_bringsNothing _ _ ?_, ?_⟩ <;> decide +kernel

/-- The same, the station itself settled. -/
def settledAt (l : HoldLevel) (p : ArmPhase) : State := pins true true (held l false p)

/-- No change of level: an older sequence, a newer one at NONE, the same at the same level; a completion; and a retained
lockout in GATHERING and RECOVERING. -/
theorem witness_AcceptedRecordActsOnTheHold_leaves :
    (told .ready .stop 6 9 1).flagsIdle (held .stop false .ready)
    ∧ seqNewer (told .ready .stop 6 9 1).holdSeq (held .stop false .ready).hold.seq = false
    ∧ (told .ready .none 8 0 1).flagsIdle (held .stop false .ready) ∧ (told .ready .none 8 0 1).level = .none
    ∧ seqNewer (told .ready .none 8 0 1).holdSeq (held .stop false .ready).hold.newest = true
    ∧ (told .ready .stop 7 9 1).level.rank ≤ (held .stop false .ready).hold.level.rank
    ∧ (told .ready .stop 7 9 1).origin.val < (held .stop false .ready).hold.origin.val
    ∧ (settledAt .stop .ready).settled = true
    ∧ ({ told .ready .stop 7 9 3 with still := true, brake := true } : StatusRecord).settledFor 7 = true
    ∧ (∀ y ∈ (settledAt .stop .ready).peerRecords, y.1 ≠ (1 : Station) → y.2.settledFor 7 = true)
    ∧ (recording .gathering true).block = .gather 0 0 1 28
    ∧ (held .none false .gathering).coord.phase = .gathering ∧ (held .stop false .recovering).coord.phase = .recovering
    ∧ (held .stop false .recovering).hold.level ≠ .lockout
    ∧ (recording .gathering true).sequenceIdle (held .none false .gathering)
    ∧ (recording .gathering true).sequenceIdle (held .stop false .recovering)
    ∧ seqNewer (recording .gathering true).holdSeq (held .none false .gathering).hold.newest = false
    ∧ (recording .gathering true).resume = false := by
  unfold StatusRecord.sequenceIdle
  refine ⟨flagsIdle_of_bringsNothing _ _ ?_, ?_, flagsIdle_of_bringsNothing _ _ ?_, ?_⟩ <;> decide +kernel

/-- A resume for sequence `q`. -/
def resuming (q : BitVec 16) : StatusRecord := { told .ready .none 7 0 0 with resume := true, resumeFor := q }

/-- A resume at a complete STOP and DROP, one of another sequence, and one at an entry that has not settled. -/
theorem witness_AcceptedRecordEndsHoldsAndRestarts_resumes :
    (resuming 7).restIdle (held .stop true .ready) ∧ (resuming 7).restIdle (held .drop true .homing)
    ∧ (resuming 7).sequenceIdle (held .stop true .ready) ∧ (resuming 7).sequenceIdle (held .drop true .ready)
    ∧ (resuming 7).resume = true ∧ (resuming 7).resumeFor = (held .stop true .ready).hold.seq
    ∧ (held .stop true .ready).hold.complete = true ∧ (resuming 8).resumeFor ≠ (held .stop true .ready).hold.seq
    ∧ (held .stop false .ready).hold.complete = false ∧ (held .stop false .ready).settled = false
    ∧ (held .stop true .ready).hold.resume = false ∧ (held .drop true .ready).hold.level = .drop
    ∧ (held .stop true .ready).hears 0 320000 (resuming 7).frame (resuming 7) := by
  have h (s : State) (hb : bringsNothing { resuming 7 with resume := false } s = true) : (resuming 7).restIdle s :=
    (flagsIdle_of_bringsNothing _ _ hb).2.2
  unfold StatusRecord.sequenceIdle
  refine ⟨h _ ?_, h _ ?_, ?_, ?_, ?_, ?_, ?_, ?_, ?_, ?_, ?_, ?_, witness_hears 0 _ _ ?_⟩ <;> decide +kernel

/-- A lockout-clear flag, with or without a restart flag, beside a hold not newer. -/
def clearing (restart : Bool) : StatusRecord := { told .ready .none 7 0 0 with lockClear := true, restart := restart }

/-- A restart flag of a station in GATHERING. -/
def restarting : StatusRecord := { recording .gathering false with restart := true }

/-- A lockout cleared, and a restart in every phase and at every level. -/
theorem witness_AcceptedRecordEndsHoldsAndRestarts_clears :
    (clearing false).lockClear = true ∧ (held .lockout false .ready).hold.level = .lockout
    ∧ (held .lockout false .ready).coord.phase ≠ .isolated
    ∧ ((clearing true).restart = true ∨ (clearing true).phase ≠ .isolated ∧ (clearing true).phase ≠ .gathering)
    ∧ (clearing false).phase ≠ .isolated ∧ (clearing false).phase ≠ .gathering ∧ restarting.restart = true
    ∧ restarting.sequenceIdle (held .none false .halted) ∧ restarting.sequenceIdle (held .stop true .halted)
    ∧ (held .stop true .halted).hold.complete = true ∧ (held .none false .halted).coord.phase = .halted
    ∧ (held .drop true .halted).hold.level = .drop ∧ (held .lockout false .halted).hold.level = .lockout
    ∧ restarting.sequenceIdle (held .drop true .halted) ∧ restarting.sequenceIdle (held .lockout false .halted)
    ∧ restarting.sequenceIdle (held .stop false .halted)
    ∧ (held .stop false .halted).hold.complete = false ∧ (held .stop false .halted).settled = false
    ∧ restarting.resume = false ∧ restarting.lockClear = false ∧ restarting.sequenceIdle (held .none false .isolated)
    ∧ restarting.sequenceIdle (held .none false .homing) ∧ restarting.sequenceIdle (held .stop false .ready)
    ∧ restarting.sequenceIdle (held .none false .gathering) ∧ restarting.sequenceIdle (held .none false .recovering)
    ∧ (held .none false .gathering).hold.level ≠ .lockout
    ∧ (held .none false .halted).hears 0 320000 restarting.frame restarting
    ∧ (held .lockout false .ready).hears 0 320000 (clearing true).frame (clearing true) := by
  unfold StatusRecord.sequenceIdle
  refine ⟨?_, ?_, ?_, ?_, ?_, ?_, ?_, ?_, ?_, ?_, ?_, ?_, ?_, ?_, ?_, ?_, ?_, ?_, ?_, ?_, ?_, ?_, ?_, ?_, ?_, ?_,
    witness_hears 0 _ _ ?_, witness_hears 0 _ _ ?_⟩ <;> decide +kernel

/-- A station that has reported the restart of station 1. -/
def reported (s : State) : State := s.setCoord { s.coord with restartedReported := [1] }

/-- A peer in GATHERING without the restart flag, met first and again. -/
theorem witness_AcceptedRecordEndsHoldsAndRestarts_restarted :
    (held .none false .homing).coord.phase = .homing ∧ (held .none false .ready).coord.phase = .ready
    ∧ (held .none false .halted).coord.phase = .halted ∧ (recording .gathering false).phase = .gathering
    ∧ (recording .isolated false).phase = .isolated ∧ (recording .gathering false).restart = false
    ∧ (recording .gathering false).station ∉ (held .none false .homing).coord.restartedReported
    ∧ (recording .gathering false).station ∈ (reported (held .none false .homing)).coord.restartedReported
    ∧ (recording .gathering false).sequenceIdle (reported (held .none false .homing))
    ∧ (recording .gathering false).resume = false ∧ (recording .gathering false).lockClear = false
    ∧ (held .none false .homing).hears 0 320000 (recording .isolated false).frame (recording .isolated false) := by
  unfold StatusRecord.sequenceIdle
  refine ⟨?_, ?_, ?_, ?_, ?_, ?_, ?_, ?_, ?_, ?_, ?_, witness_hears 0 _ _ ?_⟩ <;> decide +kernel

/-- RECOVERING in an arm of two or three stations, the own claim held, that of station 1 being `e`. -/
def recovered (arm : Nat) (e : ClaimEntry) : State :=
  let s := held .none false .recovering
  let s := s.setPort { s.port with config := some { Configuration.before with armSize := arm } }
  s.setCoord { s.coord with
    ownClaim := some ⟨.journal, 3, 9, some .final, true, false⟩
    claims := vput (vput claimsEmpty 0 (.held ⟨.journal, 3, 9, some .final, true, false⟩)) 1 e }

/-- The claim the record of a RECOVERING station 1 carries. -/
def claim1 : Claim := ⟨.journal, 3, 9, some .final, true, false⟩

/-- A record in RUN of station 1 in a phase. -/
def moving (p : ArmPhase) : StatusRecord := { told p .none 0 0 0 with block := .run 0 0 false false 0 }

/-- A claim and a MOVED_ON that change the set, complete with them or not, and records that do not change it. -/
theorem witness_AcceptedRecordActsOnClaimsAndCalibration_claims :
    (recovered 2 .empty).coord.phase = .recovering ∧ (recording .recovering false).sequenceIdle (recovered 2 .empty)
    ∧ (recovered 2 .empty).hold.level ≠ .lockout ∧ (recording .recovering false).block = .recover claim1
    ∧ (recovered 2 .empty).coord.claims.get 1 ≠ .held claim1 ∧ (recovered 2 .movedOn).coord.claims.get 1 ≠ .held claim1
    ∧ (moving .homing).block = .run 0 0 false false 0 ∧ (moving .homing).phase = .homing
    ∧ (recovered 2 .empty).coord.claims.get 1 = .empty
    ∧ (∀ k : Station, k.val < (recovered 2 .empty).cfg.armSize → k ≠ 1 → (recovered 2 .empty).coord.claims.get k ≠ .empty)
    ∧ (2 : Station).val < (recovered 3 .empty).cfg.armSize ∧ (recovered 3 .empty).coord.claims.get 2 = .empty
    ∧ (recovered 2 (.held claim1)).coord.claims.get 1 ≠ .empty ∧ (moving .halted).phase = .halted
    ∧ (recording .gathering false).block = .gather 0 0 0 0
    ∧ (recovered 2 .empty).hears 0 320000 (recording .recovering false).frame (recording .recovering false)
    ∧ (recovered 3 .empty).hears 0 320000 (moving .homing).frame (moving .homing) := by
  unfold StatusRecord.sequenceIdle
  refine ⟨?_, ?_, ?_, ?_, ?_, ?_, ?_, ?_, ?_, ?_, ?_, ?_, ?_, ?_, ?_, witness_hears 0 _ _ ?_, witness_hears 0 _ _ ?_⟩
    <;> decide +kernel

/-- The committed generation is 0: a record of station 1 that shows a proposal, a staged and a committed generation. -/
def showing (p st c : BitVec 16) : StatusRecord := { moving .ready with proposal := p, staged := st, committed := c }

/-- READY at NONE in an arm of `n`, station 2 showing generation 1 staged. -/
def calibrating (n : Nat) (c : Cal) : State :=
  let s := held .none false .ready
  let s := s.setPort { s.port with config := some { Configuration.before with armSize := n } }
  (s.setPeers (vput s.peers 2 ⟨.active, 0, some { showing 0 1 0 with station := 2 }⟩)).setCal c

/-- In the sighting of generation 1, its record staged and sealed in it. -/
def sighted : Cal :=
  { Cal.initial with
    staged := some cal0, sighting := some 1, stagedInSighting := true, sealedInSighting := true }

/-- The sighting begun, gone on with, staged in or not, and none. -/
theorem witness_AcceptedRecordActsOnClaimsAndCalibration_sighting :
    (calibrating 3 .initial).cal.generation ≠ 0xFFFF
    ∧ (showing 1 0 0).proposal = (calibrating 3 .initial).cal.generation + 1
    ∧ (showing 1 0 0).sequenceIdle (calibrating 3 .initial) ∧ (showing 1 0 0).flagsIdle (calibrating 3 .initial)
    ∧ (calibrating 3 .initial).coord.phase = .ready ∧ (calibrating 3 .initial).hold.level = .none
    ∧ (calibrating 3 .initial).engine.refState ≠ .surveying ∧ (calibrating 3 .initial).sensing.pfail.level = false
    ∧ (calibrating 3 .initial).cal.sighting ≠ some ((calibrating 3 .initial).cal.generation + 1)
    ∧ (calibrating 3 { Cal.initial with sighting := some 1 }).cal.stagedInSighting = false
    ∧ (calibrating 3 sighted).cal.sighting = some ((calibrating 3 sighted).cal.generation + 1)
    ∧ (calibrating 3 sighted).cal.stagedInSighting = true
    ∧ (showing 0 0 0).proposal ≠ (calibrating 3 .initial).cal.generation + 1
    ∧ (calibrating 3 .initial).cal.proposal = none
    ∧ (∀ y ∈ (calibrating 3 .initial).peerRecords, y.1 ≠ (1 : Station) →
        y.2.proposal ≠ (calibrating 3 .initial).cal.generation + 1)
    ∧ (calibrating 3 .initial).hears 0 320000 (showing 1 0 0).frame (showing 1 0 0) := by
  unfold StatusRecord.sequenceIdle
  refine ⟨?_, ?_, ?_, flagsIdle_of_bringsNothing _ _ ?_, ?_, ?_, ?_, ?_, ?_, ?_, ?_, ?_, ?_, ?_, ?_,
    witness_hears 0 _ _ ?_⟩ <;> decide +kernel

/-- The flip's every station showing generation 1 staged or committed; the roll-forward; and a failed flip. -/
theorem witness_AcceptedRecordActsOnClaimsAndCalibration_flip :
    (showing 1 1 0).sequenceIdle (calibrating 3 sighted) ∧ (showing 1 1 0).flagsIdle (calibrating 3 sighted)
    ∧ (calibrating 3 sighted).cal.staged = some cal0 ∧ cal0.generation = (calibrating 3 sighted).cal.generation + 1
    ∧ (calibrating 3 sighted).cal.flipFailed = false ∧ (calibrating 3 sighted).store.calBusy = false
    ∧ (calibrating 3 sighted).coord.phase ≠ .isolated ∧ (calibrating 3 sighted).cal.sighting = some cal0.generation
    ∧ (calibrating 3 sighted).cal.sealedInSighting = true ∧ (calibrating 3 sighted).cal.stagedInSighting = true
    ∧ (showing 1 1 0).proposal = cal0.generation ∧ (showing 1 1 0).staged = cal0.generation
    ∧ (showing 1 0 1).committed = cal0.generation
    ∧ (∀ k : Station, k.val < (calibrating 3 sighted).cfg.armSize → k ≠ (calibrating 3 sighted).own → k ≠ 1 →
        ((calibrating 3 sighted).heardRecord k).map (fun y => decide (y.staged = 1)) = some true)
    ∧ (calibrating 3 { sighted with proposal := some ⟨1, 0, false⟩ }).cal.proposal = some ⟨1, 0, false⟩
    ∧ (showing 0 0 1).proposal ≠ cal0.generation ∧ (showing 0 0 1).committed = cal0.generation
    ∧ (calibrating 3 { sighted with sighting := none }).cal.proposal = none
    ∧ (∀ y ∈ (calibrating 3 { sighted with sighting := none }).peerRecords, y.1 ≠ (1 : Station) →
        y.2.proposal ≠ cal0.generation)
    ∧ (inPhase .isolated (calibrating 3 sighted)).coord.phase = .isolated
    ∧ (calibrating 3 { sighted with flipFailed := true }).cal.flipFailed = true := by
  unfold StatusRecord.sequenceIdle
  refine ⟨?_, flagsIdle_of_bringsNothing _ _ ?_, ?_⟩ <;> decide +kernel

/-! ### States that meet the hypotheses on accepted changes and standstills -/

/-- A switch-type input one sample short of its change to `level`. -/
def dueAt (i : SwitchInput) (level : Bool) (s : State) : State :=
  s.setSensing (s.sensing.putFilter i ⟨!level, 3⟩)

/-- DRV_STILL one sample short of its arrival. -/
def arriving (s : State) : State := dueAt .drvStill true s

/-- A SWITCH seek in TO_SWITCH. -/
def toSwitch (d : Direction) : SeekContext := { seek with kind := .switch, phase := .toSwitch, dir := d }

/-- With a motion order. -/
def ordered (o : MotionOrder) (s : State) : State := s.setEngine { s.engine with order := o }

/-- With the limits at given levels. -/
def limits (pos neg : Bool) (s : State) : State :=
  s.setSensing { s.sensing with limPos := ⟨pos, 0⟩, limNeg := ⟨neg, 0⟩ }

/-- The edge a SWITCH seek looks for in both directions, with and without a limit, and edges it does not look for. -/
theorem witness_SwitchFilterFollowsSamples_homeSw :
    (engaged .seeking (.seek (toSwitch .positive)) conf).engine.operation = .seek (toSwitch .positive)
    ∧ (engaged .seeking (.seek (toSwitch .positive)) conf).engine.refState = .seeking
    ∧ (toSwitch .positive).kind = .switch ∧ (toSwitch .positive).phase = .toSwitch ∧ (toSwitch .positive).endCause = none
    ∧ (dueAt .homeSw false (engaged .seeking (.seek (toSwitch .positive)) conf)).running = true
    ∧ false ≠ ((dueAt .homeSw false (engaged .seeking (.seek (toSwitch .positive)) conf)).sensing.filter .homeSw).level
    ∧ true ≠ ((dueAt .homeSw true (engaged .seeking (.seek (toSwitch .negative)) conf)).sensing.filter .homeSw).level
    ∧ (dueAt .homeSw false conf).switchLength ≤ ((dueAt .homeSw false conf).sensing.filter .homeSw).count + 1
    ∧ (limits true false conf).sensing.limPos.level = true ∧ (limits false true conf).sensing.limNeg.level = true
    ∧ (limits false false conf).sensing.limPos.level = false ∧ (limits false false conf).sensing.limNeg.level = false
    ∧ (ordered (.stop .hold) conf).engine.order.reason = some .hold
    ∧ (ordered (.jog .positive 1 .seek) conf).engine.order.reason ≠ some .hold
    ∧ (engaged .seeking (.seek seek) conf).engine.operation = .seek seek ∧ seek.kind ≠ .switch
    ∧ (toSwitch .positive).dir = .positive ∧ (toSwitch .negative).dir = .negative := by decide

/-- Limits met with a JOG, with a GOTO, moving, and at rest; at NONE, under a hold and at LOCKOUT. -/
theorem witness_SwitchFilterFollowsSamples_limits :
    true ≠ ((dueAt .limPos true conf).sensing.filter .limPos).level
    ∧ false ≠ ((dueAt .limNeg false conf).sensing.filter .limNeg).level
    ∧ (ordered (.jog .positive 1 .seek) conf).engine.order = .jog .positive 1 .seek
    ∧ (ordered (.goto 5 1 .park) conf).engine.order = .goto 5 1 .park
    ∧ (conf.setSensing { conf.sensing with moving := true }).sensing.moving = true
    ∧ (∀ d w q, conf.engine.order ≠ .jog d w q) ∧ (∀ g w q, conf.engine.order ≠ .goto g w q)
    ∧ conf.sensing.moving = false ∧ (ordered (.jog .positive 1 .seek) conf).hold.level = .none
    ∧ (atLevel .stop false conf).hold.level ≠ .lockout ∧ (atLevel .lockout false conf).hold.level = .lockout := by
  refine ⟨by decide, by decide, rfl, rfl, rfl, nofun, nofun, rfl, rfl, by decide, rfl⟩

/-- BRK_FB met by a gate that awaits it, by a permitted gate, and by an entry that it completes or does not. -/
theorem witness_SwitchFilterFollowsSamples_brkFb :
    true ≠ ((dueAt .brkFb true conf).sensing.filter .brkFb).level
    ∧ false ≠ ((dueAt .brkFb false conf).sensing.filter .brkFb).level
    ∧ (conf.setGate .awaitBrake).gate = .awaitBrake ∧ (conf.setGate .awaitBrake).permitted = false
    ∧ (inPhase .ready conf).permitted = true ∧ (conf.setGate .awaitBrake).hold.level.dropped = false
    ∧ (atLevel .stop false conf).hold.level = .stop ∧ (atLevel .stop false conf).hold.complete = false
    ∧ (atLevel .drop false (pins true false conf)).still = true ∧ (atLevel .drop false conf).still = false
    ∧ (∀ y ∈ (atLevel .drop false (pins true false conf)).peerRecords, y.2.settledFor 7 = true)
    ∧ (after (.switchSample 0 .brkFb true) (dueAt .brkFb true (atLevel .drop false (pins true false conf)))).gate = .closed
    ∧ (hearing 0 (atLevel .stop false conf)).peerRecords.map (fun y => y.2.settledFor 7) = [false] := by decide +kernel

/-- A step RUNNING with `n` retries left, a yield or not, and an operation. -/
def run0 (n : Nat) (yield : Bool) (r : RefState) (o : Operation) : State :=
  let s := arriving (engaged r o (planned ⟨.running, n, none⟩ (inPhase .homing (opened conf))))
  s.setPlan { s.plan with running := true, yieldReturn := yield, claim := some 0 }

/-- The seek of step 0 ending for a cause. -/
def ended (e : SeekEnd) : SeekContext := { seek with endCause := some e }

/-- A capture completes; a seek ends for each cause, retries left or none, a yield or not; a seek goes on. -/
theorem witness_StandstillEndsTheOperation_seek :
    (run0 0 false .captured (.seek seek)).running = true
    ∧ (run0 0 false .captured (.seek seek)).sensing.drvStill.level = false
    ∧ (run0 0 false .captured (.seek seek)).switchLength
        ≤ (run0 0 false .captured (.seek seek)).sensing.drvStill.count + 1
    ∧ (∀ k, (run0 0 false .captured (.seek seek)).engine.operation ≠ .survey k)
    ∧ (run0 0 false .captured (.seek seek)).engine.mismatch = none
    ∧ (run0 0 false .captured (.seek seek)).engine.refState = .captured
    ∧ (run0 0 false .captured (.seek seek)).plan.demote = false
    ∧ (run0 0 false .captured (.seek seek)).plan.table[0]? = some ⟨.running, 0, none⟩ ∧ seek.step = some 0
    ∧ (run0 1 false .seeking (.seek (ended .exhausted))).engine.refState ≠ .captured
    ∧ (ended .exhausted).endCause = some .exhausted ∧ (ended .stalled).endCause = some .stalled
    ∧ (run0 1 false .seeking (.seek (ended .stalled))).plan.table[0]? = some ⟨.running, 1, none⟩
    ∧ (ended .abandoned).endCause = some .abandoned ∧ (ended .hold).endCause = some .hold
    ∧ (run0 1 false .seeking (.seek (ended .abandoned))).plan.yieldReturn = false
    ∧ (atLevel .stop false (run0 1 true .seeking (.seek (ended .hold)))).hold.level ≠ .none
    ∧ seek.endCause = none ∧ (MotionOrder.stop .hold).reason = some .hold := by
  refine ⟨rfl, rfl, by decide, nofun, ?_⟩
  decide

/-- A park within PARK_TOLERANCE, beyond it and withdrawn; a mismatch; no operation; and what follows the engine. -/
theorem witness_StandstillEndsTheOperation_park :
    (run0 0 false .referenced (.park park)).engine.operation = .park park ∧ park.withdrawn = false
    ∧ |(1 : Position).toInt - conf.cfg.parkPosition.toInt| ≤ (conf.cfg.parkTolerance : Int)
    ∧ (conf.cfg.parkTolerance : Int) < |(2 : Position).toInt - conf.cfg.parkPosition.toInt| ∧ park.step = some 0
    ∧ ({ park with withdrawn := true } : ParkOperation).withdrawn = true
    ∧ (run0 0 true .referenced (.park park)).plan.yieldReturn = true
    ∧ (run0 0 true .referenced (.park park)).hold.level = .none
    ∧ (run0 0 false .referenced .none).engine.operation = .none
    ∧ ((run0 0 false .unreferenced .none).setEngine { Engine.initial with mismatch := some (some 0) }).engine.mismatch
        = some (some 0)
    ∧ (after (.switchSample 0 .drvStill true) (run0 0 false .seeking (.seek seek))).permitted = true
    ∧ (after (.switchSample 0 .drvStill true) (run0 0 false .captured (.seek seek))).permitted = false
    ∧ (run0 0 false .captured (.seek seek)).sensing.brkFb.level = false
    ∧ (arriving (pins false true conf)).sensing.brkFb.level = true
    ∧ (after (.switchSample 0 .drvStill true) (arriving (pins false true (atLevel .drop false conf)))).hold.level = .drop
    ∧ (after (.switchSample 0 .drvStill true) (arriving (pins false true (atLevel .stop false conf)))).hold.level = .stop
    ∧ (after (.switchSample 0 .drvStill true) (arriving (pins false true (atLevel .stop false conf)))).gate = .closed
    ∧ (∀ y ∈ (atLevel .stop false conf).peerRecords, y.2.settledFor 7 = true) := by decide +kernel

/-! ### States that meet the hypotheses on surveys -/

/-- SURVEYING at count `p` in the step between sectors 3 and 4 in direction `d`. -/
def surveying (k : SurveyContext) (d : Direction) (p : Position) (still : Bool) : State :=
  let s := pins still true (engaged .surveying (.survey k) (checked p))
  match d with
  | .positive => s
  | .negative => s.setSensing { s.sensing with accepted := some 3, lastChange := some ⟨4, 3, p, false⟩ }

/-- A survey of mark `m` in a phase, its first capture at `f`. -/
def surveyOf (kind : SurveyKind) (m : Int) (phase : Nat) (f : Option Position) : SurveyContext :=
  { survey with kind := kind, mark := m, phase := phase, first := f }

/-- The capture phases, their marks and directions; the target E + Q of mark 4 is 4352, and CPS/16 is 64. -/
theorem witness_SurveyTakesCapturesAndCompletes_captures :
    (surveying (surveyOf .ratio 4 2 none) .positive 4097 false).running = true
    ∧ (surveying (surveyOf .ratio 4 2 none) .positive 4097 false).port.config = some .before
    ∧ (surveying (surveyOf .ratio 4 2 none) .positive 4097 false).sensing.settling = false
    ∧ (surveying (surveyOf .ratio 4 2 none) .positive 4097 false).sensing.accepted = some 4
    ∧ (surveying (surveyOf .ratio 4 2 none) .positive 4097 false).sensing.pendingEdge = none
    ∧ (surveying (surveyOf .ratio 4 2 none) .positive 4097 false).sensing.lastChange = some ⟨3, 4, 4097, false⟩
    ∧ (surveying (surveyOf .backlash 4 4 (some 5000)) .negative 4095 false).sensing.lastChange = some ⟨4, 3, 4095, false⟩
    ∧ (surveying (surveyOf .ratio 4 2 none) .positive 4097 false).engine.refState = .surveying
    ∧ (surveying (surveyOf .ratio 4 2 none) .positive 4097 false).nearestMark ⟨4097, 4, .positive, none, none⟩ = 4
    ∧ (surveying (surveyOf .backlash 4 4 (some 5000)) .negative 4095 false).nearestMark ⟨4095, 4, .negative, none, none⟩ = 4
    ∧ (surveyOf .ratio 4 2 none).phaseStart.toInt < (4097 : Position).toInt
    ∧ (4095 : Position).toInt < ({ surveyOf .backlash 4 4 (some 5000) with phaseStart := 5000 } : SurveyContext).phaseStart.toInt
    ∧ (4 : Int) = (surveyOf .ratio 3 2 (some 3072)).mark + 1 ∧ (surveyOf .ratio 3 2 (some 3072)).first = some 3072
    ∧ (surveying (surveyOf .backlash 4 2 none) .positive 4288 true).nearestMark ⟨4288, 4, .positive, none, none⟩ = 4
    ∧ (BitVec.ofInt 40 ((surveying (surveyOf .backlash 4 2 none) .positive 4288 true).expected 4 .positive
        + (surveying (surveyOf .backlash 4 2 none) .positive 4288 true).cps / 4) : Position).toInt = 4352
    ∧ (surveying (surveyOf .backlash 4 2 none) .positive 4288 true).still = true
    ∧ |(surveying (surveyOf .backlash 4 2 none) .positive 4288 true).counter - 4352| ≤ (conf.cfg.cps : Int) / 16
    ∧ ¬ |(surveying (surveyOf .backlash 4 2 none) .positive 4287 true).counter - 4352| ≤ (conf.cfg.cps : Int) / 16
    ∧ (surveying (surveyOf .backlash 4 2 none) .positive 4097 false).still = false
    ∧ (surveying (surveyOf .backlash 4 2 none) .positive 4097 false).engine.order.reason ≠ some .hold
    ∧ (surveying (surveyOf .backlash 4 2 none) .positive 4097 false).sensing.limPos.level = false
    ∧ (limits true false (surveying (surveyOf .backlash 4 2 none) .positive 4097 false)).sensing.limPos.level = true
    ∧ (limits false true (surveying (surveyOf .backlash 4 2 none) .positive 4288 true)).sensing.limNeg.level = true := by
  decide +kernel

/-- The captures a survey does not take. -/
theorem witness_SurveyTakesCapturesAndCompletes_leaves :
    ({ surveyOf .ratio 4 2 none with endCause := some .failed } : SurveyContext).endCause ≠ none
    ∧ ¬((surveyOf .backlash 4 1 none).phase = 2
        ∨ (surveyOf .backlash 4 1 none).kind = .backlash ∧ (surveyOf .backlash 4 1 none).phase = 4)
    ∧ (surveyOf .backlash 4 2 none).phase = 2 ∧ (4097 : Position).toInt
        ≤ ({ surveyOf .backlash 4 2 none with phaseStart := 4097 } : SurveyContext).phaseStart.toInt
    ∧ (surveyOf .backlash 4 4 (some 5000)).phase = 4
    ∧ (surveyOf .backlash 4 4 (some 5000)).phaseStart.toInt ≤ (4095 : Position).toInt
    ∧ (4 : Int) ≠ (surveyOf .backlash 0 2 none).mark ∧ (surveyOf .backlash 0 2 none).kind = .backlash
    ∧ (surveyOf .ratio 0 2 none).first = none ∧ (4 : Int) ≠ (surveyOf .ratio 4 2 (some 4096)).mark + 1
    ∧ (surveyOf .ratio 4 2 (some 4096)).first ≠ none := by decide

/-- SURVEYING at count `p`, DRV_STILL about to arrive. -/
def surveyStops (k : SurveyContext) (p : Position) : State :=
  let s := arriving (engaged .surveying (.survey k) (inPhase .ready (opened conf)))
  s.setStandby { s.standby with counter := p }

/-- E - Q is -256 and E + Q is 256 for mark 0: 64 counts off are near, 65 are not; B and the ratio at and beyond their
bounds of 0 and 100; and the three causes. -/
theorem witness_SurveyTakesCapturesAndCompletes_standstill :
    (surveyStops (surveyOf .backlash 0 1 none) 0).running = true
    ∧ (surveyStops (surveyOf .backlash 0 1 none) 0).sensing.drvStill.level = false
    ∧ (surveyStops (surveyOf .backlash 0 1 none) 0).switchLength
        ≤ (surveyStops (surveyOf .backlash 0 1 none) 0).sensing.drvStill.count + 1
    ∧ (surveyStops (surveyOf .backlash 0 1 none) 0).engine.refState = .surveying
    ∧ (surveyStops (surveyOf .backlash 0 1 none) 0).engine.operation = .survey (surveyOf .backlash 0 1 none)
    ∧ (surveyStops (surveyOf .backlash 0 1 none) 0).engine.mismatch = none
    ∧ (surveyStops (surveyOf .backlash 0 1 none) 0).engine.order.reason ≠ some .hold
    ∧ (surveyOf .backlash 0 1 none).endCause = none ∧ (surveyOf .backlash 0 3 (some 0)).phase = 3
    ∧ (BitVec.ofInt 40 ((surveyStops (surveyOf .backlash 0 1 none) 0).expected 0 .positive
        - (surveyStops (surveyOf .backlash 0 1 none) 0).cps / 4) : Position).toInt = -256
    ∧ (BitVec.ofInt 40 ((surveyStops (surveyOf .backlash 0 3 none) 0).expected 0 .positive
        + (surveyStops (surveyOf .backlash 0 3 none) 0).cps / 4) : Position).toInt = 256
    ∧ |(surveyStops (surveyOf .backlash 0 1 none) (-192)).counter - (-256)| ≤ (conf.cfg.cps : Int) / 16
    ∧ (conf.cfg.cps : Int) / 16 < |(surveyStops (surveyOf .backlash 0 1 none) (-191)).counter - (-256)|
    ∧ |(surveyStops (surveyOf .backlash 0 3 (some 0)) 320).counter - 256| ≤ (conf.cfg.cps : Int) / 16
    ∧ (conf.cfg.cps : Int) / 16 < |(surveyStops (surveyOf .backlash 0 3 (some 0)) 321).counter - 256|
    ∧ (limits true false (surveyStops (surveyOf .backlash 0 1 none) 0)).sensing.limPos.level = true
    ∧ (limits false true (surveyStops (surveyOf .backlash 0 3 (some 0)) 0)).sensing.limNeg.level = true
    ∧ (surveyOf .ratio 0 2 none).phase = 2 ∧ (surveyOf .backlash 0 4 (some 0)).phase = 4
    ∧ ({ surveyOf .backlash 0 5 (some 0) with measure := some 0 } : SurveyContext).measure = some 0
    ∧ (0 : Int) ≤ (conf.cfg.backlashLimit : Int) ∧ (conf.cfg.backlashLimit : Int) < 1
    ∧ ({ surveyOf .ratio 0 3 (some 0) with measure := some 101 } : SurveyContext).measure = some 101
    ∧ |(-100 : Int)| ≤ (conf.cfg.ratioTolerance : Int) ∧ (conf.cfg.ratioTolerance : Int) < |(101 : Int)|
    ∧ ({ survey with endCause := some .failed } : SurveyContext).endCause = some .failed
    ∧ ({ survey with endCause := some .abandoned } : SurveyContext).endCause = some .abandoned
    ∧ ({ survey with endCause := some .hold } : SurveyContext).endCause = some .hold
    ∧ (surveyStops survey 0).plan.demote = false := by decide +kernel

/-- 2 x CPS is 2048: the transition to 2049 is beyond it, that to 2048 is not, and phase 4 goes NEGATIVE. -/
theorem witness_SurveyTakesCapturesAndCompletes_travel :
    (surveyStops (surveyOf .ratio 0 2 none) 2048).decoder.standbyFeeds = false
    ∧ (surveyStops (surveyOf .ratio 0 2 none) 2048).sensing.pendingEdge = none
    ∧ true ≠ (surveyStops survey 0).decoder.lineA ∧ false = (surveyStops survey 0).decoder.lineB
    ∧ positiveStep false false true false ∧ ¬ positiveStep false false false true
    ∧ 2 * (surveyStops survey 0).cps < (2048 + 1 : Position).toInt - (surveyOf .ratio 0 2 none).base.toInt
    ∧ (2047 + 1 : Position).toInt - (surveyOf .ratio 0 2 none).base.toInt ≤ 2 * (surveyStops survey 0).cps
    ∧ 2 * (surveyStops survey 0).cps < (surveyOf .backlash 0 4 (some 0)).base.toInt - (-2048 - 1 : Position).toInt
    ∧ (surveyStops (surveyOf .ratio 0 2 none) 2048).sensing.drvStill.level = false
    ∧ (pins true true (surveyStops (surveyOf .ratio 0 2 none) 2048)).sensing.drvStill.level = true
    ∧ ¬((surveyOf .ratio 0 3 none).phase = 2
        ∨ (surveyOf .ratio 0 3 none).kind = .backlash ∧ (surveyOf .ratio 0 3 none).phase = 4) := by
  unfold positiveStep
  decide +kernel

/-! ### States that meet the other widened hypotheses -/

/-- A claimed step with a need, a guard or a load rule that is not met. -/
def unmet (r : StepRecord) : State :=
  let s := claimed .witness 4
  s.setPlan { s.plan with steps := [r, { step1 .witness with index := 1 }], table := [⟨.claiming, 0, none⟩, ⟨.pending, 0, none⟩] }

/-- A PARK at once within a PARK_TOLERANCE of 1, BUSY, and the claims the re-test withdraws, another step PENDING or none;
REFUSED_HOLD has no witness, the level being NONE. -/
theorem witness_OwnSlotClaimsAndGrantsSteps_ends :
    (pins true true (engaged .referenced .none (claimed .park 4))).stepAnswer (step1 .park) = .taken
    ∧ (pins true true (engaged .referenced .none (claimed .park 4))).still = true
    ∧ |(1 : Position).toInt - (claimed .park 4).cfg.parkPosition.toInt| ≤ ((claimed .park 4).cfg.parkTolerance : Int)
    ∧ ((claimed .park 4).cfg.parkTolerance : Int) < |(2 : Position).toInt - (claimed .park 4).cfg.parkPosition.toInt|
    ∧ (engaged .referenced .none (claimed .park 4)).engine.operation = .none
    ∧ (∃ x ∈ ((claimed .park 4).setPlan { (claimed .park 4).plan with
          steps := [step1 .park, { step1 .witness with index := 1, owner := 1 }] }).plan.steps,
        x.owner ≠ (claimed .park 4).own ∧ (claimed .park 4).stepResolved x = false)
    ∧ (engaged .seeking (.seek seek) (claimed .witness 4)).stepAnswer (step1 .witness) = .busy
    ∧ (engaged .seeking (.seek seek) (claimed .witness 4)).plan.running = false
    ∧ (step1 .witness).appliesTo (engaged .seeking (.seek seek) (claimed .witness 4)).engine.standing = true
    ∧ step0.appliesTo (engaged .unreferenced .none (unmet step0)).engine.standing = false
    ∧ (unmet { step1 .witness with needs := [1] }).indexResolved 1 = false
    ∧ (unmet step0).guardMet (1, .referenced) = false ∧ (unmet { step1 .witness with noLoad := true }).loadFlag = true
    ∧ ({ step1 .witness with noLoad := true } : StepRecord).noLoad = true
    ∧ (unmet step0).plan.claim = some 0 ∧ (unmet step0).plan.status 0 = some .claiming
    ∧ (unmet step0).plan.status 1 = some .pending
    ∧ (∀ x ∈ (unmet step0).plan.steps.take 1, x.owner = (unmet step0).own →
        (unmet step0).plan.status x.index ≠ some .pending)
    ∧ (∀ x ∈ (claimed .witness 4).plan.steps, x.owner = (claimed .witness 4).own →
        (claimed .witness 4).plan.status x.index ≠ some .pending) := by decide +kernel

/-- Every step stands at its index in these plans. -/
theorem witness_OwnSlotClaimsAndGrantsSteps_indexes :
    ∀ (k : Nat) (x : StepRecord), (unmet step0).plan.steps[k]? = some x → x.index = k := by
  intro k x h
  match k, h with
  | 0, h => cases h; rfl
  | 1, h => cases h; rfl
  | _ + 2, h => cases h

/-- A NEGATIVE step from sector 5 to 4 resolves an edge in any state, a NEGATIVE capture is checked within and beyond a
tolerance of 1 of 4096. -/
theorem witness_NegativeStepsAndCaptures :
    (edged 128 (onSector 5)).sensing.accepted = some 5 ∧ (5 : Nat) ≠ 4 ∧ (4 : Nat) ≠ (5 + 1) % Configuration.before.sectors
    ∧ (5 : Nat) = (4 + 1) % Configuration.before.sectors
    ∧ |(edged 128 (onSector 5)).standby.counter.toInt - (128 : Position).toInt| ≤ (Configuration.before.cps : Int) / 8
    ∧ (engaged .referenced .none (inPhase .recovering (edged 128 (onSector 5)))).engine.refState ≠ .unreferenced
    ∧ (engaged .referenced .none (seekingTo .negative witness4 .before 4095 false)).engine.refState = .referenced
    ∧ (engaged .referenced .none (seekingTo .negative witness4 .before 4095 false)).sensing.lastChange
        = some ⟨4, 3, 4095, false⟩
    ∧ (engaged .referenced .none (seekingTo .negative witness4 .before 4095 false)).nearestMark
        ⟨4095, 4, .negative, none, none⟩ = 4
    ∧ |(4095 : Position).toInt - (seekingTo .negative witness4 .before 4095 false).expected 4 .negative|
        ≤ (Configuration.before.markTolerance : Int)
    ∧ (Configuration.before.markTolerance : Int)
        < |(4094 : Position).toInt - (seekingTo .negative witness4 .before 4094 false).expected 4 .negative| := by
  decide +kernel

/-- An arm of one station, in which a frame of slot 1 is out of the arm, new or reported; and frames ALONE does not adopt. -/
theorem witness_ReceivedFrameIsDiscardedOrAccepted_outOfArm :
    ((receiving 0).setPort { conf.port with config := some { Configuration.before with armSize := 1 } }).cfg.armSize
      ≤ (1 : Station).val
    ∧ (1 : Station) ∉ (receiving 0).link.outOfArm
    ∧ (1 : Station) ∈ ((receiving 0).setLink { (receiving 0).link with outOfArm := [1] }).link.outOfArm
    ∧ (onLink .alone conf).link.state = .alone
    ∧ ({ peer1 with link := .alone } : StatusRecord).link ≠ .synced ∧ (onLink .alone conf).own.val ≤ peer1.station.val
    ∧ ({ peer1 with link := .listening } : StatusRecord).link ≠ .synced
    ∧ ({ peer1 with link := .listening } : StatusRecord).link ≠ .alone
    ∧ parseFrame ({ peer1 with link := .alone } : StatusRecord).frame = some { peer1 with link := .alone } := by
  decide +kernel

/-- A CAL_FLIP in flight in its one beat, which reads back as written. -/
theorem witness_BeatEndWritesChecksAndGrants_flip :
    (writing .calFlip (.cal .a) 0 false conf).store.port = some ⟨.calFlip, .cal .a, 0, false⟩
    ∧ (⟨.calFlip, .cal .a, 0, false⟩ : InFlight).beat = 0 ∧ (⟨.calFlip, .cal .a, 0, false⟩ : InFlight).request = .calFlip
    ∧ ((Vector.ofFn fun i => (beatOf (writing .calFlip (.cal .a) 0 false conf)).getD i.val 0 : Vector Byte 8)).toList
        = (⟨.calFlip, .cal .a, 0, false⟩ : InFlight).beatBytes := by decide +kernel

/-- A ROUTINE latched beside a write in flight, and beside a pending request. -/
theorem witness_CycleStartCountsAndLatches_waits :
    (writing (.lockRecord lock0) .lockout 0 false (cycling 7)).store.port ≠ none
    ∧ (writing (.lockRecord lock0) .lockout 0 false (cycling 7)).store.finalOut = false
    ∧ (writing (.lockRecord lock0) .lockout 0 false (cycling 7)).store.busyWith .orderly = false
    ∧ ((cycling 7).setStore (asking .lockRecord (.lockRecord lock0) (cycling 7).store)).store.isPending .lockRecord = true
    ∧ ((cycling 7).setStore (asking .lockRecord (.lockRecord lock0) (cycling 7).store)).store.busyWith .orderly = false := by
  decide +kernel

/-! ### Single commands -/

theorem test_configure_takes_the_record :
    answer (after (.configure 0 confBytes) State.reset) = some (.ok, [])
    ∧ (after (.configure 0 confBytes) State.reset).cfg.cps = 1024
    ∧ (after (.configure 0 confBytes) State.reset).cfg.travelMin = -4
    ∧ (after (.configure 0 confBytes) State.reset).hold.spuriousHold = true
    ∧ (after (.configure 0 confBytes) State.reset).hold.backlashHold = false
    ∧ (after (.configure 0 confBytes) State.reset).hold.ratioHold = true := by decide +kernel

theorem test_configure_refuses_a_zero_filter :
    answer (after (.configure 0 (confBytes.take 48 ++ [1] ++ confBytes.drop 49)) State.reset) = some (.invalid, []) := by
  decide +kernel

theorem test_plan_step_is_appended : (after (.planStep 0 (stepBytes 1)) conf).plan.steps = [step0] := by decide +kernel

theorem test_plan_step_record_reads_back : step0.encode = stepBytes 1 := by decide +kernel

theorem test_plan_seal_answers_the_digest :
    answer (after (.planSeal 0 []) (conf.setPlan { conf.plan with steps := [step0] }))
      = some (.ok, be32 (crc32 (stepBytes 1))) := by decide +kernel

theorem test_plan_clear_empties : (after (.planClear 0 []) (planned ⟨.pending, 0, none⟩ conf)).plan.steps = [] := by
  decide +kernel

theorem test_join_listens :
    (after (.join 0 []) (scanned (planned ⟨.pending, 0, none⟩ conf))).coord.phase = .gathering
    ∧ (after (.join 0 []) (scanned (planned ⟨.pending, 0, none⟩ conf))).link.state = .listening := by decide +kernel

/-- The sizes R207 to R210 give: STATUS 109, PEERS 313, POSITION 29, ORDER 10, FAULTS 1 and CAL_READ 131 bytes. -/
theorem test_read_sizes :
    State.reset.statusData.length = 109 ∧ State.reset.peersData.length = 313 ∧ State.reset.positionData.length = 29
    ∧ State.reset.engine.order.bytes.length = 10 ∧ State.reset.faultsData.length = 1
    ∧ State.reset.calData.length = 131 := by decide +kernel

theorem test_status_reports_causes :
    (answer (after (.status 0 []) (conf.setPort { conf.port with attention := ⟨true, false, false, true, false, false⟩ }))).map
      (fun r => r.2.take 3) = some [9, 0, 6] := by decide +kernel

theorem test_status_response_end_removes_causes :
    (after (.statusResponseEnd 0) (conf.setPort { conf.port with
      attention := ⟨true, true, false, false, false, false⟩, reported := ⟨true, false, false, false, false, false⟩ })).port.attention
      = ⟨false, true, false, false, false, false⟩ := by decide

theorem test_position_is_not_settled_after_reset : answer (after (.position 0 []) State.reset) = some (.notSettled, []) := by
  decide

theorem test_order_reports_goto :
    answer (after (.order 0 []) (conf.setEngine { conf.engine with order := .goto (-2) 3 .park }))
      = some (.ok, [2, 0, 0xFF, 0xFF, 0xFF, 0xFF, 0xFE, 0, 3, 1]) := by decide +kernel

theorem test_faults_reports_a_record :
    answer (after (.faults 0 []) (conf.setHold { conf.hold with
      faults := [⟨7, .retry, 0, some 2, none, some 5, 0, -1⟩] }))
      = some (.ok, [1, 7, 1, 0, 2, 0, 0, 1, 0, 0, 0, 5, 0, 0, 0xFF, 0xFF, 0xFF, 0xFF]) := by decide +kernel

theorem test_journal_read_goes_back_from_the_tail :
    (answer (after (.journalRead 0 [95]) (scanned stored))).map (fun r => r.2.take 3) = some [0, 0, 0]
    ∧ (answer (after (.journalRead 0 [0]) (scanned stored))).map (fun r => r.2.take 3) = some [95, 1, 0x32] := by
  decide +kernel

theorem test_fault_clear_empties_the_list :
    (after (.faultClear 0 []) (conf.setHold { conf.hold with
      faults := [⟨7, .retry, 0, some 2, none, some 5, 0, -1⟩] })).hold.faults = [] := by decide

theorem test_abandon_at_standstill_returns :
    (after (.abandon 0 []) (pins true true (engaged .surveying (.survey survey) conf))).engine.refState = .referenced := by
  decide +kernel

theorem test_survey_orders_its_approach :
    (after (.survey 0 [0, 0, 0]) (ready false)).engine.order = .goto (-256) 1 .survey := by decide +kernel

theorem test_trim_answers_the_pending_value :
    answer (after (.trim 0 [0, 0, 0, 0, 3]) (ready true)) = some (.ok, [0xFF, 0xFF, 0xFF, 0xFD]) := by decide +kernel

theorem test_cal_commit_proposes : answer (after (.calCommit 0 []) commitReady) = some (.ok, [0, 1]) := by decide +kernel

theorem test_resume_ends_a_hold : (after (.resume 0 []) (atLevel .stop true conf)).hold.level = .none := by decide +kernel

theorem test_restart_gathers :
    (after (.restart 0 []) (inPhase .halted conf)).coord.phase = .gathering := by decide +kernel

theorem test_lockout_clear_counts_keys :
    answer (after (.lockoutClear 5 []) (keyed 0 none)) = some (.ok, [1])
    ∧ answer (after (.lockoutClear 5 []) (keyed 2 (some 0))) = some (.ok, [0])
    ∧ (after (.lockoutClear 5 []) (keyed 2 (some 0))).hold.level = .none := by decide +kernel

theorem test_shutdown_raises_a_stop :
    (after (.shutdown 0 []) (pins true true conf)).hold.level = .stop
    ∧ (after (.shutdown 0 []) (pins true true conf)).hold.cause = 33 := by decide +kernel

theorem test_reset_arms_the_port_reset :
    (after (.reset 0 []) conf).port.resetArmed = true
    ∧ (after (.portReset 0 3) (after (.reset 0 []) conf)).link.station = 3 := by decide +kernel

theorem test_switch_sample_accepts_at_the_fourth :
    (after (.switchSample 0 .brkFb true) (brakeCount 3)).braked = true
    ∧ (after (.switchSample 0 .brkFb true) (brakeCount 2)).braked = false := by decide +kernel

theorem test_pfail_latches_a_final :
    (after (.pfailSample 0 true) ((conf.setSensing { conf.sensing with pfail := ⟨false, 1⟩ }).setCoord
      { conf.coord with journalActive := true })).store.finalOut = true := by decide +kernel

theorem test_encoder_counts_up_and_down :
    (after (.encTransition 0 true false) (opened conf)).counter = 1
    ∧ (after (.encTransition 0 false true) (opened conf)).counter = -1 := by decide +kernel

theorem test_encoder_skip_loses_continuity :
    (after (.encTransition 0 true true) (opened conf)).standby.continuity = false
    ∧ (after (.encTransition 0 true true) (opened conf)).hold.cause = 1 := by decide +kernel

theorem test_standby_decoder_marks_overspeed :
    (after (.standbyDecoderRead 49999 true false)
      ((conf.setDecoder ⟨false, false, true, some 0⟩).setStandby { conf.standby with continuity := true })).standby
      = ⟨1, false, .overspeed, 0, 0, true⟩ := by decide +kernel

theorem test_sector_jump_is_a_hold :
    (after (.sectorSample 0 0b00110) (onSector 1)).hold.cause = 2
    ∧ (after (.sectorSample 0 0b00110) (onSector 3)).hold.level = .none := by decide +kernel

theorem test_index_edge_is_captured :
    (after (.indexEdge 0) (stepped 128)).sensing.captures = [⟨0, 4, .positive, none, none⟩]
    ∧ (after (.indexEdge 0) (stepped 129)).sensing.captures = [] := by decide +kernel

theorem test_motion_check_needs_sixteen_counts :
    (after (.motionCheck 0) ((opened conf).setStandby { conf.standby with counter := 16 })).sensing.moving = true
    ∧ (after (.motionCheck 0) ((opened conf).setStandby { conf.standby with counter := 15 })).sensing.moving = false := by
  decide +kernel

theorem test_settling_window_ends_after_two_ms :
    (after (.settlingWindowEnd 2000000) conf).sensing.settling = false
    ∧ (after (.settlingWindowEnd 1999999) conf).sensing.settling = true := by decide +kernel

theorem test_supply_loss_and_warm_start_keep_the_counter :
    (after (.mainSupplyLoss 0) (conf.setStandby { conf.standby with counter := 40 })).standby.supplyLoss = 40
    ∧ (after (.warmStart 0 2) ((conf.setPower ⟨false, false, true, none⟩).setStandby
        { conf.standby with counter := 40 })).counter = 40 := by decide +kernel

theorem test_cold_start_is_the_reset_state :
    after (.coldStart 0 0) ((State.reset.setPower ⟨false, false, false, none⟩).setStandby
      { Standby.cold with counter := 9, alive := false }) = State.reset := by decide +kernel

theorem test_reset_pin_stops_and_starts :
    (after (.nresetAssert 0) conf).running = false
    ∧ (after (.nresetRelease 0 4) (after (.nresetAssert 0) conf)).coord.start.kind = .pin := by decide +kernel

theorem test_standby_domain_is_lost_and_returns :
    (after (.standbyDomainLoss 0) (conf.setPower ⟨false, false, true, none⟩)).power.domainUp = false
    ∧ (after (.standbySupplyReturn 0) (conf.setPower ⟨false, false, false, none⟩)).power.domainUp = true := by
  decide +kernel

theorem test_scan_finds_tail_calibration_and_lockout :
    (after (.scanDone 0) stored).store.pointer = 0 ∧ (after (.scanDone 0) stored).coord.lastRunClaim = some 3
    ∧ (after (.scanDone 0) stored).cal.trim = 4 ∧ (after (.scanDone 0) stored).hold.level = .lockout
    ∧ (after (.scanDone 0) stored).hold.cause = 28 := by decide +kernel

theorem test_cycle_start_latches_every_eighth :
    (after (.linkCycleStart 1000000) (cycling 7)).store.port.isSome = true
    ∧ (after (.linkCycleStart 1000000) (cycling 6)).store.port.isSome = false := by decide +kernel

theorem test_own_slot_sends_a_frame :
    (after (.ownSlotStart 0) (onLink .alone conf)).link.tx.map (fun x => (x.start, x.frame.length))
      = some (4000, 40) := by decide +kernel

theorem test_third_mismatch_mutes :
    (after (.readbackMismatch 0) (sending 2)).link.muted = true
    ∧ (after (.frameTransmitEnd 0) (sending 2)).link.mismatches = 0 := by decide +kernel

theorem test_frame_is_accepted_within_25_us :
    (after (.frameReceived 0 320000 peer1.frame) (receiving 25000)).link.acceptedInCycle = true
    ∧ (after (.frameReceived 0 320000 peer1.frame) (receiving 25001)).link.state = .listening := by decide +kernel

theorem test_cycle_end_goes_alone_at_the_fourth_silent_cycle :
    (after (.cycleEndEval 1000000) (quiet 3 0)).link.state = .alone
    ∧ (after (.cycleEndEval 1000000) (quiet 2 0)).link.state = .synced := by decide +kernel

theorem test_silent_peer_is_lost :
    ((after (.slotEndAging 250000 1) (hearing 1 (onLink .synced conf))).peers.get 1).loss = .lost
    ∧ ((after (.listenPeriodEnd 1000000) (hearing 0 (onLink .listening conf))).peers.get 1).silence = 1 := by
  decide +kernel

theorem test_listen_timeout_goes_alone :
    (after (.listenTimeout 2000000) (onLink .listening conf)).link.state = .alone := by decide +kernel

theorem test_gather_timeout_halts : (after (.gatherTimeout 9) (dueIn .gathering)).coord.phase = .halted := by decide +kernel

theorem test_last_beat_seals_the_tail :
    (after (.beatEnd 0 #v[0, 0, 0, 0, 0, 0, 0, 0]) (writing (.lockClear lock0) .lockout 0 false conf)).hold.cause = 29
    ∧ (after (.beatEnd 0 (Vector.ofFn fun i => lock0.encode.getD i.val 0)) (writing (.lockRecord lock0) .lockout 0 false conf)).store.retainedLockout
        = true := by decide +kernel

/-- A staged record of generation 2 and ZERO_TRIM 9 in slot B. -/
def cal1 : CalRecord := { cal0 with generation := 2, trim := 9 }

/-- A CAL_DISCARD of it in flight, after the scan. -/
def discarding : State :=
  writing .calDiscard (.cal .b) 0 false
    (after (.scanDone 0) (opened (stored.setMem (Memory.writeBytes stored.mem 0xC20 cal1.encode))))

/-- A failed discard whose beat reads back sealed COMMITTED puts that record in force, the counter moved with it. -/
theorem test_failed_discard_that_reads_committed_is_in_force :
    discarding.cal.trim = 4
    ∧ (after (.beatEnd 0 (Vector.ofFn fun i => (0xA5 :: cal1.encode.drop 1).getD i.val 0)) discarding).cal.trim = 9
    ∧ (after (.beatEnd 0 (Vector.ofFn fun i => (0xA5 :: cal1.encode.drop 1).getD i.val 0)) discarding).counter = -5 := by
  decide +kernel

theorem test_stall_timeout_ends_the_seek :
    (after (.stallTimeout 500000000) (engaged .seeking (.seek seek) conf)).engine.order = .stop .seek := by decide +kernel

theorem test_park_that_never_starts_is_parked :
    (after (.parkNoStart 500000000) (engaged .referenced (.park park) (pins true true conf))).engine.parked = true := by
  decide +kernel

theorem test_survey_stall_fails :
    (after (.surveyStallTimeout 500000000) (engaged .surveying (.survey survey) conf)).engine.order = .stop .survey := by
  decide +kernel

theorem test_retry_timer_returns_the_step :
    (after (.retryTimerEnd 9 0) (planned ⟨.failedWait, 1, some 9⟩ conf)).plan.table = [⟨.pending, 1, none⟩] := by
  decide +kernel

theorem test_entry_deadline_escalates :
    (after (.entryDeadline 9) (entering .stop)).hold.level = .drop
    ∧ (after (.entryDeadline 9) (entering .drop)).hold.level = .lockout := by decide +kernel

theorem test_proposal_times_out : (after (.proposalTimeout 2000000000) (proposing false)).cal.proposal = none := by
  decide +kernel

theorem test_response_record_bytes :
    (Response.mk .refusedHold [7]).record = [0x5A, 3, 0, 1, 7]
    ∧ (after (.join 0 []) State.reset).port.sends 1 = 0xFF ∧ (after (.join 0 []) State.reset).port.sends 2 = 0x5A
    ∧ (after (.join 0 []) State.reset).port.sends 3 = 6 ∧ (after (.join 0 []) State.reset).port.sends 6 = 0xFF := by
  decide +kernel

theorem test_armed_reset_takes_no_request :
    after (.status 0 []) (after (.reset 0 []) conf) = after (.reset 0 []) conf := by decide +kernel

theorem test_yielded_claim_is_stamped_at_the_own_slot_alone :
    (after (.listenPeriodEnd 1000000)
      (onLink .listening (homing .witness ⟨.claiming, 0, none⟩ (some 0) none))).plan.claimSent = none
    ∧ (after (.ownSlotStart 0) (homing .witness ⟨.claiming, 0, none⟩ (some 0) none)).plan.claimSent = some 5 := by
  decide +kernel

theorem test_seek_confirms_or_mismatches :
    (after (.indexEdge 0) (seekingTo .positive witness4 .before 4097 false)).counter = 4096
    ∧ (after (.indexEdge 0) (seekingTo .positive witness4 .before 4097 true)).engine.refState = .referenced
    ∧ (after (.indexEdge 0) (seekingTo .positive witness4 .before 4098 false)).engine.refState = .unreferenced
    ∧ (after (.indexEdge 0) (seekingTo .negative (switch4 4096) at4 4095 false)).engine.refState = .captured
    ∧ (after (.indexEdge 0) (seekingTo .positive (switch4 4097) at4 4097 false)).engine.refState = .seeking := by
  decide +kernel

theorem test_yield_stops_the_seek :
    (after (.ownSlotStart 0) (rival (some 0) (runningStep .seeking (.seek seek1) false))).engine.order = .stop .seek
    ∧ (after (.ownSlotStart 0) (rival (some 1) (runningStep .seeking (.seek seek1) false))).engine.order = .none := by
  decide +kernel

/-- A yield that ends its step at once leaves the claim sent cycle to the next own slot. -/
def yielded : State := after (.ownSlotStart 0) (rival (some 0) (runningStep .seeking (.seek seek1) true))

theorem test_yield_at_standstill_waits_for_the_next_own_slot :
    yielded.plan.status 1 = some .claiming ∧ yielded.plan.claimSent = none
    ∧ (after (.ownSlotStart 0) (yielded.setLink { yielded.link with cycle := some 6 })).plan.claimSent = some 6 := by
  decide +kernel

theorem test_wait_all_waits :
    (after (.ownSlotStart 0) (above .waitAll 0 .failedWait .pending none none)).plan.status 1 = some .pending
    ∧ (after (.ownSlotStart 0) (above .waitAll 0 .done .pending none none)).plan.status 1 = some .done := by decide +kernel

theorem test_homing_ends :
    (after (.ownSlotStart 0) (ending .done (some .referenced))).coord.phase = .ready
    ∧ (after (.ownSlotStart 0) (ending .done (some .provisional))).coord.phase = .halted
    ∧ (after (.ownSlotStart 0) (ending .done none)).coord.phase = .homing := by decide +kernel

theorem test_grant_starts_the_step_in_the_cycle_after :
    (after (.ownSlotStart 0) (claimed .witness 4)).plan.status 0 = some .running
    ∧ (after (.ownSlotStart 0) (claimed .witness 5)).plan.status 0 = some .claiming := by decide +kernel

theorem test_invalid_step_is_named_by_its_fault :
    (after (.ownSlotStart 0) (engaged .unreferenced .none (claimed .witness 4))).hold.faults.map (·.step) = [some 0] := by
  decide +kernel

theorem test_second_good_evaluation_agrees_the_run :
    (after (.ownSlotStart 0) (agreeing (gatherer 1 none))).coord.run = some 1
    ∧ (after (.ownSlotStart 0) (agreeing (gatherer 0 none))).coord.run = none := by decide +kernel

theorem test_frame_before_the_own_one_begins_is_off_time :
    (after (.frameReceived 0 61999 peer1.frame) (beside 250999)).link.state = .listening
    ∧ (after (.frameReceived 0 65000 peer1.frame) (beside 254000)).link.state = .synced := by decide +kernel

theorem test_second_arrival_with_final_outstanding_drops_nothing :
    (after (.pfailSample 0 true) (failing (asking .calStage (.calStage cal0)
      { Store.initial with finalOut := true }))).store.isPending .calStage = true := by decide +kernel

theorem test_port_framing :
    answer (after (.unknownRequestCode 0 0x34 []) conf) = some (.invalid, [])
    ∧ (after (.requestCodeReceived 0 0x10) (keyed 2 none)).hold.keyCount = 0
    ∧ (after (.transactionCut 0) (after (.requestCodeReceived 0 0x10) conf)).port.receiving = none := by decide +kernel

theorem test_newer_hold_is_adopted :
    (after (.frameReceived 0 320000 (told .ready .drop 8 15 3).frame) (held .stop false .ready)).hold.level = .drop
    ∧ (after (.frameReceived 0 320000 (told .ready .drop 8 15 3).frame) (held .stop false .ready)).coord.phase = .halted
    ∧ (after (.frameReceived 0 320000 (told .ready .lockout 7 9 1).frame) (held .stop false .ready)).hold.origin = 1
    ∧ (after (.frameReceived 0 320000 (recording .gathering true).frame) (held .none false .gathering)).hold.cause = 28 := by
  decide +kernel

theorem test_peer_flags_end_holds :
    (after (.frameReceived 0 320000 (resuming 7).frame) (held .drop true .ready)).coord.phase = .homing
    ∧ (after (.frameReceived 0 320000 (clearing false).frame) (held .lockout false .ready)).hold.level = .none
    ∧ (after (.frameReceived 0 320000 restarting.frame) (held .stop true .halted)).coord.phase = .gathering
    ∧ (after (.frameReceived 0 320000 (recording .gathering false).frame) (held .none false .homing)).hold.cause = 15 := by
  decide +kernel

theorem test_peer_claims_and_generations :
    (after (.frameReceived 0 320000 (recording .recovering false).frame) (recovered 3 .empty)).coord.claims.get 1
      = .held claim1
    ∧ (after (.frameReceived 0 320000 (recording .recovering false).frame) (recovered 2 .empty)).coord.stop.isSome = true
    ∧ (after (.frameReceived 0 320000 (showing 1 0 0).frame) (calibrating 3 .initial)).store.busyWith .calStage = true
    ∧ (after (.frameReceived 0 320000 (showing 1 1 0).frame) (calibrating 3 sighted)).store.busyWith .calFlip = true
    ∧ (after (.frameReceived 0 320000 (showing 1 0 0).frame) (calibrating 3 sighted)).store.busyWith .calFlip = false := by
  decide +kernel

theorem test_standstill_ends_operations :
    (after (.switchSample 0 .drvStill true) (run0 0 false .captured (.seek seek))).plan.status 0 = some .done
    ∧ (after (.switchSample 0 .drvStill true) (run0 1 false .seeking (.seek (ended .stalled)))).plan.table
        = [⟨.failedWait, 0, some 500000000⟩]
    ∧ (after (.switchSample 0 .drvStill true) (run0 0 false .seeking (.seek (ended .stalled)))).hold.cause = 12
    ∧ (after (.switchSample 0 .drvStill true) (run0 0 false .referenced (.park park))).engine.parked = true
    ∧ (after (.switchSample 0 .drvStill true) (arriving (pins false true (atLevel .stop false conf)))).hold.complete = true := by
  decide +kernel

theorem test_home_switch_and_limits :
    (after (.switchSample 0 .homeSw false) (dueAt .homeSw false (engaged .seeking (.seek (toSwitch .positive)) conf))).engine.order
      = .jog .positive 1 .seek
    ∧ (after (.switchSample 0 .limPos true) (dueAt .limPos true (ordered (.goto 5 1 .park) conf))).hold.cause = 5
    ∧ (after (.switchSample 0 .limPos true) (dueAt .limPos true conf)).hold.level = .none
    ∧ (after (.switchSample 0 .brkFb true) (dueAt .brkFb true (conf.setGate .awaitBrake))).gate = .closed := by decide +kernel

theorem test_survey_runs_its_phases :
    (after (.indexEdge 0) (surveying (surveyOf .backlash 4 2 none) .positive 4097 false)).engine.order = .goto 4352 1 .survey
    ∧ (after (.indexEdge 0) (surveying (surveyOf .backlash 4 2 none) .positive 4288 true)).engine.order
        = .jog .negative 1 .survey
    ∧ (after (.switchSample 0 .drvStill true) (surveyStops (surveyOf .backlash 0 1 none) (-192))).engine.order
        = .jog .positive 1 .survey
    ∧ (after (.switchSample 0 .drvStill true) (surveyStops (surveyOf .backlash 0 1 none) (-191))).engine.refState = .referenced
    ∧ (after (.switchSample 0 .drvStill true)
        (surveyStops { surveyOf .backlash 0 5 (some 0) with measure := some 0 } 0)).cal.pendBacklash = some 0
    ∧ (after (.encTransition 0 true false) (surveyStops (surveyOf .ratio 0 2 none) 2048)).engine.order = .stop .survey := by
  decide +kernel

theorem test_park_at_standstill_is_done_at_its_grant :
    (after (.ownSlotStart 0) (pins true true (engaged .referenced .none (claimed .park 4)))).engine.parked = true
    ∧ (after (.ownSlotStart 0) (engaged .seeking (.seek seek) (claimed .witness 4))).plan.status 0 = some .pending
    ∧ (after (.ownSlotStart 0) (engaged .unreferenced .none (unmet step0))).plan.status 0 = some .skipped
    ∧ (after (.ownSlotStart 0) (unmet step0)).plan.claim = some 1 := by decide +kernel

end Sys2Proof.Tests
end

section
/-! The commands while the main domain stands still, its starts, and the supplies. -/

namespace Sys2Proof.Machine

/-! ### A main domain that stands still (R14, R18, R212) -/

/-- Without the main supply or with nRESET asserted the main domain does not run (R14, R18). -/
theorem running_of_stopped {s : State} (h : s.power.vdd = false ∨ s.power.nreset = true) : s.running = false := by
  rcases h with h | h <;> simp [State.running, h]

/-- The outputs of a main domain that stands still (R18; log entry 38). -/
theorem outputs_of_stopped {s : State} (h : s.running = false) :
    s.moveOk = false ∧ s.brakeOk = false ∧ s.attn = false := by
  simp [State.moveOk, State.brakeOk, State.attn, h]

@[simp] theorem running_advance (dt : Time) (s : State) : (advance dt s).running = s.running := rfl

@[simp] theorem linkTimed_advance (dt : Time) (s : State) : (advance dt s).linkTimed = s.linkTimed := rfl

@[simp] theorem portReady_advance_eq (dt : Time) (s : State) : (advance dt s).portReady = s.portReady := rfl

/-- A port that cannot begin a transaction takes no request (R14, R18, R212). -/
theorem answerRequest_notReady (keepsKey : Bool) (n : Nat) (ps : List Byte) (d : State → Reply) (dt : Time) (s : State)
    (h : s.portReady = false) : answerRequest keepsKey n ps d (advance dt s) = s.later dt := by
  simp only [answerRequest, portReady_advance_eq, h, Bool.false_eq_true, if_false]; rfl

/-- A command of a transaction does nothing at a port that cannot begin one (R14, R18, R212). -/
theorem exec_transaction_notReady (c : Instr) (s : State) (hc : c.ofTransaction = true) (h : s.portReady = false) :
    exec c s = .next (s.later c.elapsed) := by
  cases c
  case requestCodeReceived | transactionCut | statusResponseEnd =>
    simp only [exec, execRequestCodeReceived, execTransactionCut, execStatusResponseEnd, portReady_advance_eq, h,
      Bool.false_eq_true, if_false]
    rfl
  case configure | planClear | planStep | planSeal | join | status | peers | position | order | faults | calRead
      | journalRead | faultClear | abandon | survey | trim | calCommit | resume | restart | lockoutClear | shutdown
      | reset | unknownRequestCode =>
    exact congrArg Host.Outcome.next (answerRequest_notReady _ _ _ _ _ _ h)
  all_goals cases hc

/-- The other commands of the main domain do nothing while it stands still: each asks first whether it runs (R14, R18). -/
theorem exec_stopped (c : Instr) (s : State) (ha : c.actsStopped = false) (hc : c.ofTransaction = false)
    (h : s.running = false) : exec c s = .next (s.later c.elapsed) := by
  have hl : s.linkTimed = false := by simp [State.linkTimed, h]
  cases c
  case switchSample | pfailSample | encTransition | sectorSample | indexEdge | motionCheck | settlingWindowEnd
      | portReset =>
    simp only [exec, execSwitchSample, execPfailSample, execEncTransition, execSectorSample, execIndexEdge,
      execMotionCheck, execSettlingWindowEnd, execPortReset, running_advance, h, Bool.false_and, Bool.false_eq_true,
      if_false]
    rfl
  case linkCycleStart | ownSlotStart | readbackMismatch | frameTransmitEnd | frameReceived | cycleEndEval
      | slotEndAging | listenPeriodEnd | listenTimeout =>
    simp only [exec, execLinkCycleStart, execOwnSlotStart, execReadbackMismatch, execFrameTransmitEnd,
      execFrameReceived, execCycleEndEval, execSlotEndAging, execListenPeriodEnd, execListenTimeout, linkTimed_advance,
      running_advance, h, hl, Bool.false_and, Bool.false_eq_true, if_false]
    rfl
  case scanDone | beatEnd | gatherTimeout | stallTimeout | parkNoStart | surveyStallTimeout | retryTimerEnd
      | entryDeadline | proposalTimeout =>
    simp only [exec, execScanDone, execBeatEnd, execGatherTimeout, execStallTimeout, execParkNoStart,
      execSurveyStallTimeout, execRetryTimerEnd, execEntryDeadline, execProposalTimeout, running_advance, h,
      Bool.false_and, Bool.false_eq_true, if_false]
    rfl
  case standbyDecoderRead | mainSupplyLoss | standbyDomainLoss | coldStart | warmStart | nresetAssert | nresetRelease
      | standbySupplyReturn => cases ha
  all_goals cases hc

/-- Settles O3: by the commands' own guards, the transaction's apart. -/
theorem stoppedDomainTakesNothing : Obligations.StoppedDomainTakesNothing := by
  refine ⟨fun c s ha h => ?_, fun c s hc h => ?_⟩
  · have hr := running_of_stopped h
    cases hc : c.ofTransaction
    · exact exec_stopped c s ha hc hr
    · exact exec_transaction_notReady c s hc (by simp [State.portReady, hr])
  · exact exec_transaction_notReady c s hc (by simp [State.portReady, h])

/-! ### The reset state -/

theorem reset_gateSafe : State.reset.gateSafe :=
  ⟨fun h => absurd h (by decide), fun h => absurd h (by decide), fun h => absurd h (by decide)⟩

theorem reset_listsBounded : State.reset.listsBounded := by
  refine ⟨by decide, by decide, by decide, ?_⟩
  intro k x h
  exact absurd h (by simp [State.reset, Plan.initial])

theorem reset_peers (j : Station) : State.reset.peers.get j = ⟨.neverHeard, 0, none⟩ := by
  revert j; decide

theorem reset_nothingPending (k : WriteKind) : State.reset.store.isPending k = false := by
  cases k <;> rfl

/-- Settles O57: the reset state is a closed value, read off field by field; the invariants hold of it for the reasons
named above. -/
theorem resetStateIsTheDeliveredStart : Obligations.ResetStateIsTheDeliveredStart := by
  unfold Obligations.ResetStateIsTheDeliveredStart
  repeat' with_reducible apply And.intro
  any_goals rfl
  · exact reset_peers
  · exact reset_nothingPending
  · intro a; rfl
  · exact reset_gateSafe
  · exact reset_listsBounded

/-! ### Supplies -/

/-- What a main-supply loss leaves of the supplies, the standby domain and the decoders (R5, R14). -/
theorem loseMainSupply_spec (s : State) :
    (loseMainSupply s).standby = { s.standby with supplyLoss := s.standby.counter, excursion := 0 } ∧
    (loseMainSupply s).power = { s.power with vdd := false, pendingPower := none } ∧
    (loseMainSupply s).decoder = s.decoder.toStandby := by
  cases h : s.running <;> simp [loseMainSupply, h]

/-- A main-supply loss reaches the store by the beat it stops alone (R90). -/
theorem loseMainSupply_mem (s : State) :
    (loseMainSupply s).mem = if s.running = true then (stopBeat s).mem else s.mem := by
  cases h : s.running <;> simp [loseMainSupply, h]

/-- Settles O24: a loss of the main supply by what it leaves block by block, the standby supply's commands by their
guards. -/
theorem supplyLossesReachTheStandbyDomain : Obligations.SupplyLossesReachTheStandbyDomain := by
  refine ⟨fun dt s hv => ?_, fun dt s => ⟨fun hv hd => ?_, fun hv => ⟨?_, ?_⟩, fun hv hd => ?_⟩⟩
  · refine ⟨loseMainSupply (advance dt s), congrArg Host.Outcome.next (if_pos hv), ?_⟩
    obtain ⟨hstandby, hpower, hdecoder⟩ := loseMainSupply_spec (advance dt s)
    have hmem := loseMainSupply_mem (advance dt s)
    refine ⟨by simpa using hstandby, by simp [hpower], by simp [hpower], by simp [hpower],
      running_of_stopped (.inl (by simp [hpower])), by simp [hdecoder, toStandby_eq], by simp [hdecoder, toStandby_eq],
      by simp [hdecoder, toStandby_eq], ?idle, ?beat, ?_⟩
    case idle =>
      intro hp
      rw [hmem, stopBeat_idle _ (by simpa using hp)]
      simp
    case beat =>
      intro f hf hw a ha
      rw [hmem]
      split
      · exact stopBeat_outside (advance dt s) f a (by simpa using hf) hw ha
      · simp
    simp [advance]
  · exact ⟨lostStandby s.freeCount, s.freeCount + 4, rfl, congrArg Host.Outcome.next (if_pos (by simp [hv, hd]))⟩
  · exact congrArg Host.Outcome.next (if_neg (by simp [hv]))
  · exact congrArg Host.Outcome.next (if_neg (by simp [hv]))
  · exact congrArg Host.Outcome.next (if_pos (by simp [hv, hd]))

/-! ### Starts -/

/-- With nRESET released a rise of the main supply starts the main domain (R17, R18). -/
theorem raiseMainSupply_released (alive : Bool) (straps : Station) (dt : Time) (s : State)
    (h : s.power.nreset = false) : raiseMainSupply alive straps (advance dt s) =
      s.restarted dt .power alive straps { s.power with vdd := true, domainUp := true } := by
  rw [← resetMainDomain_restarted]
  exact if_neg (by simp [h])

/-- With nRESET asserted the start waits for its release (R111). -/
theorem raiseMainSupply_held (alive : Bool) (straps : Station) (dt : Time) (s : State) (h : s.power.nreset = true) :
    raiseMainSupply alive straps (advance dt s) =
      { s.later dt with power := { s.power with vdd := true, domainUp := true, pendingPower := some alive } } :=
  if_pos h

/-- The state with a standby domain and decoders initialised as a cold start does it (R17; log entry 5). -/
def State.cooled (s : State) : State := { s with standby := .cold, decoder := ⟨false, false, true, none⟩ }

/-- A cold start initialises the standby domain and raises the main supply on what that gives (R17). -/
theorem coldStart_cooled (straps : Station) (dt : Time) (s : State) :
    coldStart straps (advance dt s) = raiseMainSupply false straps (advance dt s.cooled) := rfl

/-- The release of nRESET (R18, R111). -/
theorem exec_nresetRelease (dt : Time) (straps : Station) (s : State) (h : s.power.nreset = true) :
    exec (.nresetRelease dt straps) s = .next (releaseReset straps (advance dt s)) :=
  congrArg Host.Outcome.next (if_pos h)

/-- A rise of the main supply on a domain that is alive (R18). -/
theorem exec_warmStart (dt : Time) (straps : Station) (s : State) (hv : s.power.vdd = false)
    (ha : s.standby.alive = true) :
    exec (.warmStart dt straps) s = .next (raiseMainSupply true straps (advance dt s)) :=
  congrArg Host.Outcome.next (if_pos (by simp [hv, ha]))

/-- A rise of the main supply on a domain that is not alive (R17). -/
theorem exec_coldStart (dt : Time) (straps : Station) (s : State) (hv : s.power.vdd = false)
    (ha : s.standby.alive = false) :
    exec (.coldStart dt straps) s = .next (raiseMainSupply false straps (advance dt s.cooled)) :=
  congrArg Host.Outcome.next (if_pos (by simp [hv, ha]))

/-- The assertion of nRESET while the main domain runs: a start's values, with the pin held (R18; log entry 38). -/
theorem exec_nresetAssert_running (dt : Time) (s : State) (hn : s.power.nreset = false) (hv : s.power.vdd = true) :
    exec (.nresetAssert dt) s = .next (s.restarted dt s.coord.start.kind s.coord.start.aliveAtStart s.own
      { s.power with nreset := true }) := by
  have hr : s.running = true := by simp [State.running, hn, hv]
  rw [← resetMainDomain_restarted]
  exact congrArg Host.Outcome.next ((if_neg (by simp [hn])).trans (if_pos hr))

/-- Settles O21: every start is `State.restarted` of the state it finds, a cold one of that state with its standby domain
initialised. -/
theorem mainDomainStartsTakeTheirValues : Obligations.MainDomainStartsTakeTheirValues := by
  refine ⟨fun dt straps s => ⟨fun hr ha => ?_, fun hr ha => ?_, fun hn hv => ?_, fun hn hv => ?_, fun hv ha hn => ?_,
    fun hv ha hn => ?_⟩, fun dt straps s hv ha => ?cold, fun dt s hn => ⟨fun hv => ?_, fun hv => ?_⟩⟩
  · rw [← resetMainDomain_restarted']
    exact congrArg Host.Outcome.next (if_pos (by simp [hr, ha]))
  · exact congrArg Host.Outcome.next (if_neg (by simp [ha]))
  · rw [exec_nresetRelease dt straps s hn, releaseReset]
    simp only [advance_keeps, State.setPower_power, hv, if_true]
    cases s.power.pendingPower <;> simp only [resetMainDomain_restarted]
  · rw [exec_nresetRelease dt straps s hn]
    exact congrArg Host.Outcome.next (if_neg (by simp [hv]))
  · rw [exec_warmStart dt straps s hv ha, raiseMainSupply_released _ _ _ _ hn]
  · rw [exec_warmStart dt straps s hv ha, raiseMainSupply_held _ _ _ _ hn]
  case cold =>
    refine ⟨_, exec_coldStart dt straps s hv ha, ?_⟩
    cases hn : s.power.nreset
    · rw [raiseMainSupply_released _ _ _ s.cooled hn]
      exact ⟨rfl, rfl, rfl, rfl, rfl, hn, fun _ => ⟨rfl, rfl, rfl, rfl, rfl, rfl, rfl, rfl, rfl, rfl, rfl, rfl, rfl⟩,
        nofun⟩
    · rw [raiseMainSupply_held _ _ _ s.cooled hn]
      exact ⟨rfl, rfl, rfl, rfl, rfl, hn, nofun, fun _ => rfl⟩
  · refine ⟨_, exec_nresetAssert_running dt s hn hv, rfl, rfl, rfl, rfl, rfl, rfl, rfl, rfl, rfl, rfl, rfl, rfl, rfl,
      rfl, rfl, rfl, rfl, rfl, rfl, ?_⟩
    have hr := running_of_stopped (s := s.restarted dt s.coord.start.kind s.coord.start.aliveAtStart s.own
      { s.power with nreset := true }) (.inr rfl)
    exact ⟨hr, outputs_of_stopped hr⟩
  · have hr : s.running = false := running_of_stopped (.inl hv)
    exact congrArg Host.Outcome.next ((if_neg (by simp [hn])).trans (if_neg (by simp [hr])))

end Sys2Proof.Machine
end

section
/-! Claims on the counter, the motion comparison and the end of the settling window. -/

namespace Sys2Proof.Machine

/-! ### Claims (R15, R16, R22) -/

/-- The parked flag stands while the counter is within PARK_TOLERANCE (R44). -/
theorem parkedCheck_eq (s : State) : parkedCheck s = { s with engine := { s.engine with
    parked := s.engine.parked && !decide (s.cfg.parkTolerance < Position.dist s.standby.counter s.cfg.parkPosition) } } := by
  unfold parkedCheck
  generalize decide (s.cfg.parkTolerance < Position.dist s.standby.counter s.cfg.parkPosition) = far
  cases hp : s.engine.parked
  · simp only [Bool.false_and, Bool.false_eq_true, if_false]; rw [← hp]
  · cases far
    · simp only [Bool.and_false, Bool.false_eq_true, if_false, Bool.not_false, Bool.and_true]; rw [← hp]
    · rfl

/-- What a move of the counter leaves of the standby domain, the sensing unit and the engine's operation (R15, R22). -/
theorem moveCounter_spec (d : Int) (s : State) :
    (moveCounter d s).standby = { s.standby with counter := s.standby.counter + BitVec.ofInt 40 d } ∧
    (moveCounter d s).sensing = s.sensing.moved d ∧
    (moveCounter d s).engine.operation = s.engine.operation.moved d := by
  simp only [moveCounter, parkedCheck]
  split <;> simp [Position.shift]

/-- A SET moves what a SHIFT by its amount moves, and beside that sets continuity and the error kind (R13, R15). -/
theorem moveCounter_eq_applySet (v : Int) (r : Position) (s : State) :
    moveCounter (v - r.toInt) s = { applySet v r s with
      standby := { s.standby with counter := s.standby.counter.shift (v - r.toInt) } } := by
  simp only [applySet, moveCounter, parkedCheck_eq]; rfl

/-- Outside the settling window a SHIFT is taken (R15, R16). -/
theorem shiftClaim_taken (d : Int) (s : State) (h : s.sensing.settling = false) :
    shiftClaim d s = some (moveCounter d s) := by
  simp only [shiftClaim, h, Bool.false_eq_true, if_false]

/-- Settles O34: both kinds of claim are a move of the counter, a SET with continuity restored. -/
theorem claimsMoveTheCounterAndHeldPositions : Obligations.ClaimsMoveTheCounterAndHeldPositions := by
  intro s v d
  refine ⟨fun h => ?settling, fun h => ?gone, fun h => ⟨?shift, ?now, fun c hc => ?newest⟩⟩
  case settling => simp [setClaimNow, setClaimNewest, shiftClaim, h]
  case gone => simp [setClaimNewest, h]
  case shift =>
    obtain ⟨hstandby, hsensing, hoperation⟩ := moveCounter_spec d s
    exact ⟨_, shiftClaim_taken d s h, hstandby, hsensing, hoperation, by simp⟩
  case now =>
    refine ⟨applySet v s.standby.counter s, by simp [setClaimNow, h], ?_, ?_⟩
    · rw [(applySet_spec v _ s).1, shift_claim]
    · rw [shiftClaim_taken _ s h, moveCounter_eq_applySet, shift_claim]
  case newest =>
    refine ⟨applySet v c.raw s, by simp [setClaimNewest, h, hc], (applySet_spec v _ s).1, ?_⟩
    rw [shiftClaim_taken _ s h, moveCounter_eq_applySet, Position.shift]

/-! ### The motion comparison and the end of the settling window (R3, R11, R22) -/

/-- A distance of a number of counts or more, by absolute differences. -/
theorem le_dist_iff (n : Nat) (p q : Position) : n ≤ Position.dist p q ↔ (n : Int) ≤ |p.toInt - q.toInt| := by
  rw [← dist_abs, Int.ofNat_le]

/-- The comparison outside the settling window (R3). -/
theorem exec_motionCheck (dt : Time) (s : State) (hr : s.running = true) (hs : s.sensing.settling = false) :
    exec (.motionCheck dt) s = .next (motionCheck (advance dt s)) :=
  congrArg Host.Outcome.next (if_pos (by simp [hs, hr]))

/-- The end of the settling window (R11). -/
theorem exec_settlingWindowEnd (dt : Time) (s : State) (hr : s.running = true) (hs : s.sensing.settling = true)
    (ht : s.sensing.settleStart + 2000000 ≤ s.now + dt) :
    exec (.settlingWindowEnd dt) s = .next (endSettling (advance dt s)) :=
  congrArg Host.Outcome.next (if_pos (by simp only [advance_keeps, running_advance, hs, hr, Bool.true_and]; exact decide_eq_true ht))

/-- The drop motion flag becomes true while the joint moves at DROP or LOCKOUT (R151). -/
theorem noteDropMotion_eq (s : State) : noteDropMotion s = { s with plan := { s.plan with
    dropMotion := s.plan.dropMotion || (s.hold.level.dropped && s.sensing.moving) } } := by
  unfold noteDropMotion
  cases s.hold.level.dropped && s.sensing.moving <;> simp [State.setPlan]

/-- What the comparison leaves: the flag and the value for the next one, and at DROP or LOCKOUT the drop motion flag as
the joint starts to move (R3, R151). -/
theorem motionCheck_eq (s : State) (p : Position) (h : s.sensing.earlier = some p) :
    motionCheck s = { s with
      sensing := { s.sensing with
        moving := decide (16 ≤ |s.standby.counter.toInt - p.toInt|), earlier := some s.standby.counter }
      plan := { s.plan with dropMotion := s.plan.dropMotion || (s.hold.level.dropped
        && (decide (16 ≤ |s.standby.counter.toInt - p.toInt|) && !s.sensing.moving)) } } := by
  have hd : decide (16 ≤ |s.standby.counter.toInt - p.toInt|) = decide (16 ≤ Position.dist s.standby.counter p) :=
    decide_eq_decide.mpr (le_dist_iff 16 _ p).symm
  rw [hd]
  simp only [motionCheck, h, noteDropMotion_eq]
  generalize decide (16 ≤ Position.dist s.standby.counter p) = moves
  split
  · rename_i hstarts
    obtain ⟨rfl, -⟩ : moves = true ∧ s.sensing.moving = false := by simpa using hstarts
    simp_all [State.setSensing]
  · rename_i hnot
    have : (moves && !s.sensing.moving) = false := by simpa using hnot
    simp [this, State.setSensing]

/-- Outside the settling window the SHIFT of a completed flip is applied, with the values in use (R22, R196). -/
theorem flipShift_applied (s : State) (h : s.sensing.settling = false) :
    flipShift s = takeValues (moveCounter (-(s.cal.committedTrim - s.cal.trim)) s) := by
  rw [flipShift, shiftClaim_taken _ s h]

/-- What the end of the settling window leaves when a SHIFT was held for it: the main decoder counts, the counter is
moved and the committed values are in use (R11, R22, R196). -/
theorem endSettling_held (s : State) (h : s.cal.heldShift = true) :
    ∃ t, endSettling s = takeValues (moveCounter (-(s.cal.committedTrim - s.cal.trim)) t) ∧
      t.sensing.settling = false ∧ t.decoder = { s.decoder with standbyFeeds := false } ∧ t.standby = s.standby ∧
      t.cal = s.cal ∧ t.mem = s.mem ∧ t.peers = s.peers ∧ t.hold = s.hold ∧ t.coord = s.coord := by
  refine ⟨_, (if_pos h).trans (flipShift_applied _ rfl), rfl, rfl, rfl, rfl, rfl, rfl, rfl, rfl⟩

/-- Settles O32: by what the comparison and the end of the window leave, and their guards. -/
theorem motionCheckAndSettlingEnd : Obligations.MotionCheckAndSettlingEnd := by
  intro dt s hr
  refine ⟨fun hs => ?_, fun p hs he hl => ?_, fun p hs he hl => ?_, fun hs ht => ?_, fun hs ht hh => ?_,
    fun hs ht hh => ?held⟩
  · exact congrArg Host.Outcome.next (if_neg (by simp [hs]))
  · rw [exec_motionCheck dt s hr hs, motionCheck_eq (advance dt s) p he]
    simp only [advance_keeps, hl, Bool.false_and, Bool.or_false]; rfl
  · rw [exec_motionCheck dt s hr hs, motionCheck_eq (advance dt s) p he]
    simp only [advance_keeps, hl, Bool.true_and]; rfl
  · exact congrArg Host.Outcome.next (if_neg (by
      simp only [advance_keeps, running_advance, hs, hr, Bool.true_and, decide_eq_true_eq]; exact not_le.mpr ht))
  · rw [exec_settlingWindowEnd dt s hr hs ht]
    exact congrArg Host.Outcome.next (if_neg (by simp [hh]))
  case held =>
    obtain ⟨t, he, hsettling, hdecoder, hstandby, hcal, hmem, hpeers, hhold, hcoord⟩ :=
      endSettling_held (advance dt s) hh
    refine ⟨_, exec_settlingWindowEnd dt s hr hs ht, ?_⟩
    rw [he]
    simp [takeValues, moveCounter_spec, *]

end Sys2Proof.Machine
end

section
/-! The decoders: what a sample of each does to the counter, to continuity and to what depends on them. -/

namespace Sys2Proof.Machine

/-! ### The main decoder (R4, R9, R11) -/

/-- A sample of the main decoder while it counts (R4, R11). -/
theorem exec_encTransition (dt : Time) (a b : Bool) (s : State) (hr : s.running = true)
    (hf : s.decoder.standbyFeeds = false) :
    exec (.encTransition dt a b) s = .next (mainSample a b (advance dt s)) :=
  congrArg Host.Outcome.next (if_pos (by simp [hr, hf]))

/-- The reference levels taken from an unchanged sample are the ones they were. -/
theorem take_same (d : Decoder) (a b : Bool) (ha : a = d.lineA) (hb : b = d.lineB) : d.take a b = d := by
  subst ha hb; rfl

theorem mainSample_same (a b : Bool) (s : State) (ha : a = s.decoder.lineA) (hb : b = s.decoder.lineB) :
    mainSample a b s = s := by
  simp only [mainSample, change_same s.decoder a b ha hb, take_same s.decoder a b ha hb]; rfl

theorem mainSample_counted (a b p : Bool) (s : State) (h : s.decoder.change a b = .counted p) :
    mainSample a b s = mainTransition p (s.setDecoder (s.decoder.take a b)) := by
  simp only [mainSample, h]

theorem mainSample_both (a b : Bool) (s : State) (ha : a ≠ s.decoder.lineA) (hb : b ≠ s.decoder.lineB) :
    mainSample a b s = mainQuadError (s.setDecoder (s.decoder.take a b)) := by
  simp only [mainSample, change_both s.decoder a b ha hb]

/-- Of the standby domain a transition counted by the main decoder moves the counter alone (R4, R12). -/
theorem mainTransition_standby (p : Bool) (s : State) : (mainTransition p s).standby =
    { s.standby with counter := if p = true then s.standby.counter + 1 else s.standby.counter - 1 } := by
  rw [← countTransition_counter]; simp [mainTransition]

/-- Where an engine that is UNREFERENCED had no operation, one that has lost its reference has none (R25). -/
theorem engineLost_operation (s : State) (h : s.engine.refState ≠ .unreferenced ∨ s.engine.operation = .none) :
    (engineLost s).engine.operation = .none := by
  by_cases hu : s.engine.refState = .unreferenced
  · have : engineLost s = s := if_pos hu
    rw [this]
    exact h.resolve_left (not_not_intro hu)
  · exact ((engineLost_spec s).2 hu).1

/-- A HOLD fault that sends the engine to UNREFERENCED leaves it there with no operation (R25). -/
theorem raiseFault_engineLost (code : FaultCode) (step : Option Nat) (d : Int) (s : State)
    (h : s.engine.refState ≠ .unreferenced ∨ s.engine.operation = .none) :
    (raiseFault code .hold step d (engineLost s)).engine.refState = .unreferenced ∧
    (raiseFault code .hold step d (engineLost s)).engine.operation = .none := by
  obtain ⟨hop, href, -, -⟩ := raiseFault_idle code .hold step d (engineLost s) (by simp) (engineLost_operation s h)
  exact ⟨href.trans (engineLost_spec s).1, hop⟩

/-- A loss of continuity leaves the engine (R13). -/
theorem loseContinuity_engine (c : StandbyError) (s : State) : (loseContinuity c s).engine = s.engine := by
  obtain ⟨x, h⟩ := loseContinuity_reach c s
  rw [h]; rfl

/-- A quadrature error of the main decoder (R4, R10, R13, R25). -/
theorem mainQuadError_spec (s : State) :
    (mainQuadError s).standby = { s.standby with
      continuity := false, error := if s.standby.continuity = true then .quadError else s.standby.error } ∧
    (mainQuadError s).sensing = { s.sensing with captures := [], pendingEdge := none } ∧
    ((s.engine.refState ≠ .unreferenced ∨ s.engine.operation = .none) →
      (mainQuadError s).engine.refState = .unreferenced ∧ (mainQuadError s).engine.operation = .none) ∧
    (mainQuadError s).hasFault .quadError .hold s.engine.operation.step 1 := by
  have hengine := loseContinuity_engine .quadError s
  refine ⟨?_, ?_, fun h => ?_, raiseFault_hasFault _ _ _ _ _⟩
  · simp [mainQuadError, dropCaptures, loseContinuity_standby]
  · simp [mainQuadError, dropCaptures]
  · exact raiseFault_engineLost _ _ _ _ (by simpa [dropCaptures, hengine] using h)

/-! ### The standby decoder (R5, R13, R14) -/

/-- A read of the standby decoder while it feeds the counter (R5, R12). -/
theorem exec_standbyDecoderRead (dt : Time) (a b : Bool) (s : State)
    (hs : s.power.vdd = true ∨ s.power.domainUp = true) (hf : s.decoder.standbyFeeds = true) :
    exec (.standbyDecoderRead dt a b) s = .next (standbyRead a b (advance dt s)) :=
  congrArg Host.Outcome.next (if_pos (by simpa [State.domainAlive, hf] using hs))

theorem standbyRead_same (a b : Bool) (s : State) (ha : a = s.decoder.lineA) (hb : b = s.decoder.lineB) :
    standbyRead a b s = s := by
  simp only [standbyRead, change_same s.decoder a b ha hb, take_same s.decoder a b ha hb]; rfl

theorem standbyRead_counted (a b p : Bool) (s : State) (h : s.decoder.change a b = .counted p) :
    standbyRead a b s = standbyTransition p (s.setDecoder (s.decoder.take a b)) := by
  simp only [standbyRead, h]

theorem standbyRead_both (a b : Bool) (s : State) (ha : a ≠ s.decoder.lineA) (hb : b ≠ s.decoder.lineB) :
    standbyRead a b s = loseContinuity .quadError (s.setDecoder (s.decoder.take a b)) := by
  simp only [standbyRead, change_both s.decoder a b ha hb]

/-- The standby domain after a transition it counts: the counter moved by one, and while main power is absent the
excursion at the larger distance from the supply-loss value (R4, R12, R14). -/
def Standby.counted (x : Standby) (positive vdd : Bool) : Standby :=
  let c := if positive = true then x.counter + 1 else x.counter - 1
  { x with
    counter := c, excursion := if vdd = true then x.excursion else max x.excursion (c.toInt - x.supplyLoss.toInt).natAbs }

theorem noteExcursion_countTransition (p : Bool) (s : State) :
    noteExcursion (countTransition p s) = { s with standby := s.standby.counted p s.power.vdd } := by
  have hc : countTransition p s = { s with standby := { s.standby with
      counter := if p = true then s.standby.counter + 1 else s.standby.counter - 1 } } := by
    rw [← countTransition_counter]; rfl
  rw [hc, noteExcursion, Standby.counted]
  by_cases hv : s.power.vdd = true
  · rw [if_pos hv, if_pos hv]
  · rw [if_neg hv, if_neg hv]; rfl

/-- The node after a transition the standby decoder counts, before its speed is tested (R5). -/
def State.standbyCounted (s : State) (p : Bool) : State :=
  { s with decoder := { s.decoder with lastAccepted := some s.now }, standby := s.standby.counted p s.power.vdd }

/-- A transition counted by the standby decoder loses continuity when it came too fast (R5). -/
theorem standbyTransition_eq (p : Bool) (s : State) : standbyTransition p s =
    if s.overspeed = true then loseContinuity .overspeed (s.standbyCounted p) else s.standbyCounted p := by
  simp only [standbyTransition, noteExcursion_countTransition]; rfl

/-- The Coordinator that a loss of continuity leaves (R13, R113). -/
theorem loseContinuity_coord (c : StandbyError) (s : State) : ∃ y, loseContinuity c s = { s with
      standby := { s.standby with continuity := false, error := if s.standby.continuity = true then c else s.standby.error }
      coord := y } ∧ y.phase = s.coord.phase := by
  have hphase := loseContinuity_phase c s
  obtain ⟨y, hy⟩ := loseContinuity_reach c s
  rw [hy] at hphase ⊢
  exact ⟨y, rfl, hphase⟩

/-- Less than 50 us have passed since the transition the standby decoder accepted last (R5). -/
theorem overspeed_iff (s : State) :
    s.overspeed = true ↔ ∃ p, s.decoder.lastAccepted = some p ∧ s.now < p + 50000 := by
  unfold State.overspeed
  split <;> rename_i h <;> simp [h]

/-- Settles O28: each decoder by the kind of change its sample shows. -/
theorem decodersCountOrLoseContinuity : Obligations.DecodersCountOrLoseContinuity := by
  refine ⟨fun dt a b s hr => ⟨fun hf => ?_, fun hf ha hb => ?_, fun hf hone => ?counted⟩,
    fun dt a b s hr hf ha hb => ?both, fun dt a b s hs hf => ⟨fun ha hb => ?same, fun hone => ?standby, fun ha hb => ?lost⟩⟩
  · exact congrArg Host.Outcome.next (if_neg (by simp [hf]))
  · rw [exec_encTransition dt a b s hr hf, mainSample_same a b (advance dt s) ha hb]; rfl
  case counted =>
    obtain ⟨p, hc, hp⟩ := change_counted s.decoder a b hone
    refine ⟨_, exec_encTransition dt a b s hr hf, ?_⟩
    rw [mainSample_counted a b p (advance dt s) hc]
    refine ⟨fun h => ?_, fun h => ?_, ?_⟩
    · simp [mainTransition_standby, hp.mp h]
    · simp [mainTransition_standby, mt hp.mpr h]
    · simp [Decoder.take]
  case both =>
    refine ⟨_, exec_encTransition dt a b s hr hf, ?_⟩
    rw [mainSample_both a b (advance dt s) ha hb]
    obtain ⟨hstandby, hsensing, hengine, hfault⟩ :=
      mainQuadError_spec ((advance dt s).setDecoder (s.decoder.take a b))
    refine ⟨hstandby, by simp [mainQuadError, Decoder.take], hsensing, hengine, hfault, ?_⟩
    simp [mainQuadError, raiseFault_coord, dropCaptures]
  case same =>
    rw [exec_standbyDecoderRead dt a b s hs hf, standbyRead_same a b (advance dt s) ha hb]; rfl
  case standby =>
    obtain ⟨p, hc, hp⟩ := change_counted s.decoder a b hone
    rw [exec_standbyDecoderRead dt a b s hs hf, standbyRead_counted a b p (advance dt s) hc, standbyTransition_eq]
    have hup (h : positiveStep s.decoder.lineA s.decoder.lineB a b) :
        (s.standby.counted p s.power.vdd).counter = s.standby.counter + 1 := by rw [hp.mp h]; rfl
    have hdown (h : ¬ positiveStep s.decoder.lineA s.decoder.lineB a b) :
        (s.standby.counted p s.power.vdd).counter = s.standby.counter - 1 := by
      rw [Bool.eq_false_iff.mpr (mt hp.mpr h)]; rfl
    have hd : (⟨a, b, true, some (s.now + dt)⟩ : Decoder) =
        { s.decoder.take a b with lastAccepted := some (s.now + dt) } := by rw [Decoder.take, hf]
    rw [hd]
    split
    · rename_i hfast
      obtain ⟨q, hq, hlate⟩ := (overspeed_iff _).mp hfast
      obtain ⟨y, hy, hphase⟩ := loseContinuity_coord .overspeed
        (((advance dt s).setDecoder (s.decoder.take a b)).standbyCounted p)
      exact ⟨_, y, congrArg Host.Outcome.next hy, hup, hdown, rfl, rfl, rfl,
        fun hslow => absurd (hslow q hq) (not_le.mpr hlate), fun _ _ _ => ⟨rfl, rfl⟩, hphase⟩
    · rename_i hslow
      exact ⟨s.standby.counted p s.power.vdd, s.coord, rfl, hup, hdown, rfl, rfl, rfl, fun _ => ⟨rfl, rfl, rfl⟩,
        fun q hq hlate => absurd
          ((overspeed_iff ((advance dt s).setDecoder (s.decoder.take a b))).mpr ⟨q, hq, hlate⟩) hslow, rfl⟩
  case lost =>
    rw [exec_standbyDecoderRead dt a b s hs hf, standbyRead_both a b (advance dt s) ha hb]
    obtain ⟨y, hy, hphase⟩ := loseContinuity_coord .quadError ((advance dt s).setDecoder (s.decoder.take a b))
    exact ⟨y, congrArg Host.Outcome.next hy, hphase⟩

end Sys2Proof.Machine
end

section
/-! The sector track and the index edge. -/

namespace Sys2Proof.Machine

/-! ### The sector filter (R6) -/

/-- A read of the sector lines once CONFIGURE has been taken (R6). -/
theorem exec_sectorSample (dt : Time) (lines : BitVec 5) (s : State) (c : Configuration) (hr : s.running = true)
    (hc : s.port.config = some c) :
    exec (.sectorSample dt lines) s = .next (sectorSample lines (advance dt s)) :=
  congrArg Host.Outcome.next (if_pos (by simp [hr, hc]))

theorem cfg_of_config {s : State} {c : Configuration} (h : s.port.config = some c) : s.cfg = c := by
  simp [State.cfg, h]

/-- How often the sector read has now been read in a row, counted to SECTOR_FILTER (R6; log entry 16). -/
def State.sectorCountAt (s : State) (n : Nat) : Nat :=
  if s.sensing.sectorCandidate = some n then min s.cfg.sectorFilter (s.sensing.sectorCount + 1) else 1

/-- The node with sector `n` the candidate, read `k` times in a row (R6). -/
def State.sectorRead (s : State) (n k : Nat) : State :=
  { s with sensing := { s.sensing with sectorCandidate := some n, sectorCount := k } }

/-- A read that the filter does not accept, or that shows the accepted sector, is counted only (R6). -/
theorem sectorSample_counted (lines : BitVec 5) (n k : Nat) (s : State) (hn : sectorOfLines s.cfg.sectors lines = n)
    (hk : s.sectorCountAt n = k) (h : k < s.cfg.sectorFilter ∨ s.sensing.accepted = some n) :
    sectorSample lines s = s.sectorRead n k := by
  subst hn hk
  refine if_neg fun hacc => ?_
  rcases h with h | h
  · exact absurd hacc.1 (not_le.mpr h)
  · exact hacc.2 h

/-- A read that fills the filter with another sector than the accepted one is accepted (R6). -/
theorem sectorSample_accepted (lines : BitVec 5) (n k : Nat) (s : State) (hn : sectorOfLines s.cfg.sectors lines = n)
    (hk : s.sectorCountAt n = k) (h : s.cfg.sectorFilter ≤ k) (ha : s.sensing.accepted ≠ some n) :
    sectorSample lines s = acceptSector n (s.sectorRead n k) := by
  subst hn hk
  exact if_pos ⟨h, ha⟩

/-! ### Steps and jumps (R7) -/

theorem stepDirection_positive {sectors old new : Nat} (h : new = (old + 1) % sectors) :
    stepDirection sectors old new = some .positive := if_pos h

theorem stepDirection_negative {sectors old new : Nat} (h : new ≠ (old + 1) % sectors)
    (h' : old = (new + 1) % sectors) : stepDirection sectors old new = some .negative :=
  (if_neg h).trans (if_pos h')

theorem stepDirection_none {sectors old new : Nat} (h : new ≠ (old + 1) % sectors)
    (h' : old ≠ (new + 1) % sectors) : stepDirection sectors old new = none :=
  (if_neg h).trans (if_neg h')

/-- A step has a direction, positive where both would fit (R7). -/
theorem stepDirection_step {sectors old new : Nat} (h : new = (old + 1) % sectors ∨ old = (new + 1) % sectors) :
    ∃ d, stepDirection sectors old new = some d := by
  by_cases hp : new = (old + 1) % sectors
  · exact ⟨_, stepDirection_positive hp⟩
  · exact ⟨_, stepDirection_negative hp (h.resolve_left hp)⟩

/-- The node with an accepted change of sector noted, and the own claim following it (R6, R113). -/
def State.sectorChanged (s : State) (a n : Nat) : State :=
  ownClaimFollows (s.setSensing { s.sensing with accepted := some n, lastChange := some ⟨a, n, s.standby.counter, false⟩ })

theorem sectorChanged_cfg (s : State) (a n : Nat) : (s.sectorChanged a n).cfg = s.cfg := by
  simp [State.cfg, State.sectorChanged]

@[simp] theorem sectorChanged_keeps (s : State) (a n : Nat) :
    (s.sectorChanged a n).sensing =
      { s.sensing with accepted := some n, lastChange := some ⟨a, n, s.standby.counter, false⟩ } ∧
    (s.sectorChanged a n).standby = s.standby ∧ (s.sectorChanged a n).mem = s.mem ∧
    (s.sectorChanged a n).peers = s.peers := by
  simp [State.sectorChanged]

theorem acceptSector_first (n : Nat) (s : State) (h : s.sensing.accepted = none) :
    acceptSector n s = ownClaimFollows (s.setSensing { s.sensing with accepted := some n }) := by
  simp only [acceptSector, h]

theorem acceptSector_step (n a : Nat) (d : Direction) (s : State) (h : s.sensing.accepted = some a)
    (hd : stepDirection s.cfg.sectors a n = some d) :
    acceptSector n s = acceptStep ⟨a, n, s.standby.counter, false⟩ d (s.sectorChanged a n) := by
  have hd' : stepDirection (s.sectorChanged a n).cfg.sectors a n = some d := by rw [sectorChanged_cfg]; exact hd
  unfold State.sectorChanged at hd' ⊢
  simp only [acceptSector, h, hd']

theorem acceptSector_jump (n a : Nat) (s : State) (h : s.sensing.accepted = some a)
    (hd : stepDirection s.cfg.sectors a n = none) :
    acceptSector n s = acceptJump s.engine.operation.step a n (s.sectorChanged a n) := by
  have hd' : stepDirection (s.sectorChanged a n).cfg.sectors a n = none := by rw [sectorChanged_cfg]; exact hd
  unfold State.sectorChanged at hd' ⊢
  simp only [acceptSector, h, hd']

/-- With no pending edge an accepted step qualifies none (R9). -/
theorem acceptStep_noEdge (l : LastChange) (d : Direction) (s : State) (h : s.sensing.pendingEdge = none) :
    acceptStep l d s = s := by
  simp only [acceptStep, h]

/-- What an accepted jump leaves (R7, R10, R25). -/
theorem acceptJump_spec (step : Option Nat) (a n : Nat) (s : State) :
    (acceptJump step a n s).sensing = { s.sensing with
      lastChange := s.sensing.lastChange.map fun l => { l with used := true }, captures := [], pendingEdge := none } ∧
    (acceptJump step a n s).standby = s.standby ∧ (acceptJump step a n s).mem = s.mem ∧
    (acceptJump step a n s).peers = s.peers ∧
    ((s.engine.refState ≠ .unreferenced ∨ s.engine.operation = .none) →
      (acceptJump step a n s).engine.refState = .unreferenced ∧ (acceptJump step a n s).engine.operation = .none) ∧
    (acceptJump step a n s).hasFault .sectorJump .hold step ((a * 256 + n : Nat) : Int) := by
  refine ⟨?_, ?_, ?_, ?_, fun h => raiseFault_engineLost _ _ _ _ h, raiseFault_hasFault _ _ _ _ _⟩ <;>
  simp [acceptJump, dropCaptures, useLastChange]

/-- What a read does once CONFIGURE has been taken, by the sector the lines show and the count it reaches (R6). -/
theorem exec_sectorSample_gray (dt : Time) (lines : BitVec 5) (s : State) (c : Configuration) (n k : Nat)
    (hr : s.running = true) (hc : s.port.config = some c) (hsectors : c.sectors = 8 ∨ c.sectors = 16 ∨ c.sectors = 32)
    (hgray : graySector c.sectors lines n)
    (hk : k = if s.sensing.sectorCandidate = some n then min c.sectorFilter (s.sensing.sectorCount + 1) else 1) :
    (k < c.sectorFilter ∨ s.sensing.accepted = some n →
      exec (.sectorSample dt lines) s = .next ((advance dt s).sectorRead n k)) ∧
    (c.sectorFilter ≤ k → s.sensing.accepted ≠ some n →
      exec (.sectorSample dt lines) s = .next (acceptSector n ((advance dt s).sectorRead n k))) := by
  have hcfg : (advance dt s).cfg = c := cfg_of_config hc
  have hn : sectorOfLines (advance dt s).cfg.sectors lines = n := by
    rw [hcfg]; exact sectorOfLines_gray c.sectors n lines hsectors hgray
  have hcount : (advance dt s).sectorCountAt n = k := by rw [hk, State.sectorCountAt, hcfg]; rfl
  rw [exec_sectorSample dt lines s c hr hc]
  exact ⟨fun h => by rw [sectorSample_counted lines n k _ hn hcount (by rw [hcfg]; exact h)],
    fun hf ha => by rw [sectorSample_accepted lines n k _ hn hcount (by rw [hcfg]; exact hf) ha]⟩

/-- Settles O30: a read by what the filter, then the accepted sector, makes of it. -/
theorem sectorTrackFiltersStepsAndJumps : Obligations.SectorTrackFiltersStepsAndJumps := by
  intro dt lines s hr
  refine ⟨fun hc => congrArg Host.Outcome.next (if_neg (by simp [hc])), fun c n k hc hsectors hgray hk => ?_⟩
  obtain ⟨counted, accepted⟩ := exec_sectorSample_gray dt lines s c n k hr hc hsectors hgray hk
  have hcfg : ((advance dt s).sectorRead n k).cfg = c := cfg_of_config hc
  refine ⟨counted, fun hf ha => ?first, fun a hf ha hne hstep hp => ?step,
    fun a hf ha hne h1 h2 => ?jump⟩
  case first =>
    refine ⟨_, accepted hf (by simp [ha]), ?_⟩
    rw [acceptSector_first n ((advance dt s).sectorRead n k) ha]
    simp [State.sectorRead]
  case step =>
    obtain ⟨d, hd⟩ := stepDirection_step hstep
    refine ⟨_, accepted hf (by simpa [ha] using hne), ?_⟩
    rw [acceptSector_step n a d ((advance dt s).sectorRead n k) ha (hcfg ▸ hd),
      acceptStep_noEdge _ _ _ (by simpa [State.sectorRead] using hp)]
    simp [State.sectorRead]
  case jump => 
    refine ⟨_, accepted hf (by simpa [ha] using hne), ?_⟩
    rw [acceptSector_jump n a ((advance dt s).sectorRead n k) ha (hcfg ▸ stepDirection_none h1 h2)]
    obtain ⟨hsensing, hstandby, hmem, hpeers, hengine, hfault⟩ := acceptJump_spec s.engine.operation.step a n
      (((advance dt s).sectorRead n k).sectorChanged a n)
    exact ⟨hsensing.trans (by simp [State.sectorRead]), hstandby.trans (by simp [State.sectorRead]),
      hmem.trans (by simp [State.sectorRead]), hpeers.trans (by simp [State.sectorRead]),
      fun h => hengine (ownClaimFollows_sound _ h), hfault⟩
end Sys2Proof.Machine
end

section
/-! The index edge: ignored, qualified, pending and resolved. -/

namespace Sys2Proof.Machine

/-! ### An edge as it comes (R8) -/

/-- A latched edge of IDX (R8). -/
theorem exec_indexEdge (dt : Time) (s : State) (c : Configuration) (a : Nat) (hr : s.running = true)
    (hc : s.port.config = some c) (hs : s.sensing.settling = false) (ha : s.sensing.accepted = some a) :
    exec (.indexEdge dt) s = .next (latchEdge a (advance dt s)) := by
  refine congrArg Host.Outcome.next ((if_pos (by simp [hr, hc, hs])).trans ?_)
  simp only [advance_keeps, ha]

/-- An edge that is not latched (R8). -/
theorem exec_indexEdge_ignored (dt : Time) (s : State)
    (h : s.port.config = none ∨ s.sensing.settling = true ∨ s.sensing.accepted = none) :
    exec (.indexEdge dt) s = .next (s.later dt) := by
  rcases h with h | h | h
  · exact congrArg Host.Outcome.next (if_neg (by simp [h]))
  · exact congrArg Host.Outcome.next (if_neg (by simp [h]))
  · simp only [exec, execIndexEdge, advance_keeps, h, ite_self]; rfl

/-- An edge's distance test failing, by absolute differences (R8, R9). -/
theorem edge_beyond (s : State) (p q : Position) :
    s.edgeReach < Position.dist p q ↔ (s.cfg.cps : Int) / 8 < |p.toInt - q.toInt| := by
  rw [← not_le, edge_reach, not_le]

/-- No step stands before an edge when the last change is used, too far away or a jump, or there is none (R8). -/
theorem earlierStep_none (s : State) (v : Position) (h : ∀ l, s.sensing.lastChange = some l → l.used = true
    ∨ (s.cfg.cps : Int) / 8 < |l.counter.toInt - v.toInt|
    ∨ (l.new ≠ (l.old + 1) % s.cfg.sectors ∧ l.old ≠ (l.new + 1) % s.cfg.sectors)) : s.earlierStep v = none := by
  unfold State.earlierStep
  split
  · rfl
  · rename_i l hl
    rcases h l hl with hu | hd | ⟨h1, h2⟩
    · exact if_neg (by simp [hu])
    · exact if_neg (by simpa using fun _ => (edge_beyond s _ _).mpr hd)
    · rw [stepDirection_none h1 h2]; exact ite_self _

/-- An edge with no step before it and no pending edge becomes the pending edge (R8). -/
theorem latchEdge_pending (a : Nat) (s : State) (hp : s.sensing.pendingEdge = none)
    (h : s.earlierStep s.standby.counter = none) :
    latchEdge a s = { s with sensing := { s.sensing with
      pendingEdge := some ⟨s.standby.counter, a, s.sensedCycle⟩ } } := by
  have hd : displaceEdge s = s := by simp only [displaceEdge, hp]
  simp only [latchEdge, hd, h]; rfl

/-- A capture offered to an UNREFERENCED engine acts on nothing (R23). -/
theorem offerCapture_unreferenced (x : Capture) (s : State) (h : s.engine.refState = .unreferenced) :
    offerCapture x s = s := by
  simp only [offerCapture, h]

/-- Settles O31: an edge by its guards, then by the step that stands before it. -/
theorem indexEdgeIsQualifiedOrPending : Obligations.IndexEdgeIsQualifiedOrPending := by
  intro dt s hr
  refine ⟨exec_indexEdge_ignored dt s, fun c a hc hs ha hp => ⟨fun h => ?pending, fun l hl hu hd => ⟨?_, ?_⟩⟩⟩
  case pending =>
    have hcfg : (advance dt s).cfg = c := cfg_of_config hc
    rw [exec_indexEdge dt s c a hr hc hs ha, latchEdge_pending a (advance dt s) hp
      (earlierStep_none _ _ (by rw [hcfg]; exact h))]
    rfl
  · intro hstep hu'
    rw [exec_indexEdge_step dt s c a l .positive _ hr hc hs ha hp hl hu hd (stepDirection_positive hstep) rfl]
    exact congrArg Host.Outcome.next (offerCapture_unreferenced _ _ hu')
  · intro hnot hstep hu'
    rw [exec_indexEdge_step dt s c a l .negative _ hr hc hs ha hp hl hu hd (stepDirection_negative hnot hstep) rfl]
    exact congrArg Host.Outcome.next (offerCapture_unreferenced _ _ hu')

/-! ### A pending edge (R9) -/

/-- Of the sensing unit a transition counted by the main decoder reaches the pending edge alone (R9). -/
theorem mainTransition_sensing (p : Bool) (s : State) :
    (mainTransition p s).sensing = (edgeDistance (countTransition p s)).sensing := by
  simp [mainTransition]

/-- A fault record that stands before the checks that follow a counted transition stands after them (R38, R186, R191). -/
theorem mainTransition_recent {n : Nat} {r : FaultRecord} (p : Bool) (s : State) (hn : n ≤ 4)
    (h : recentFault n r (edgeDistance (countTransition p s)).hold.faults) :
    recentFault (n + 4) r (mainTransition p s).hold.faults := by
  have hpark := engineTravel_older (parkedCheck (edgeDistance (countTransition p s))) hn (by simpa using h)
  simpa [mainTransition] using hpark

theorem edgeDistance_near (s : State) (e : PendingEdge) (h : s.sensing.pendingEdge = some e)
    (hd : |s.standby.counter.toInt - e.value.toInt| ≤ (s.cfg.cps : Int) / 8) : edgeDistance s = s := by
  simp only [edgeDistance, h]
  exact if_neg (not_lt.mpr ((edge_reach s _ _).mpr hd))

theorem edgeDistance_far (s : State) (e : PendingEdge) (h : s.sensing.pendingEdge = some e)
    (hd : (s.cfg.cps : Int) / 8 < |s.standby.counter.toInt - e.value.toInt|) :
    edgeDistance s = resolveSpurious e s := by
  simp only [edgeDistance, h]
  exact if_pos ((edge_beyond s _ _).mpr hd)

/-- A spurious edge leaves the list of captures and is recorded in the class of its disposition (R9, R155). -/
theorem resolveSpurious_spec (e : PendingEdge) (s : State) :
    (resolveSpurious e s).sensing = { s.sensing with pendingEdge := none } ∧
    ∃ r, recentFault 3 r (resolveSpurious e s).hold.faults ∧ r.code = FaultCode.byte .spuriousIndex ∧
      r.cls = (if s.hold.spuriousHold = true then .hold else .note) ∧ r.origin = s.own ∧
      r.step = s.engine.operation.step ∧ r.detail = sat32 (e.sector : Int) :=
  ⟨by simp [resolveSpurious], raiseFault_recent .spuriousIndex _ _ _ _⟩

/-- `b` is `a` but for positions and marks: the track is the same, no edge has become pending, and the last change and
the newest capture have kept their sectors, direction and cycle. What claims and marks leave of the sensing unit (R15,
R23). -/
structure Sensing.SameTrack (a b : Sensing) : Prop where
  accepted : b.accepted = a.accepted
  candidate : b.sectorCandidate = a.sectorCandidate
  count : b.sectorCount = a.sectorCount
  edge : a.pendingEdge = none → b.pendingEdge = none
  change : ∀ l, a.lastChange = some l → ∃ p, b.lastChange = some { l with counter := p }
  newest : ∀ x, a.captures.getLast? = some x → ∃ p m, b.captures.getLast? = some { x with raw := p, mark := m }

theorem Sensing.SameTrack.refl (a : Sensing) : a.SameTrack a :=
  ⟨rfl, rfl, rfl, id, fun l h => ⟨l.counter, h⟩, fun x h => ⟨x.raw, x.mark, h⟩⟩

theorem Sensing.SameTrack.trans {a b c : Sensing} (h : a.SameTrack b) (k : b.SameTrack c) : a.SameTrack c where
  accepted := k.accepted.trans h.accepted
  candidate := k.candidate.trans h.candidate
  count := k.count.trans h.count
  edge e := k.edge (h.edge e)
  change l hl := by
    obtain ⟨p, hp⟩ := h.change l hl
    obtain ⟨q, hq⟩ := k.change _ hp
    exact ⟨q, hq⟩
  newest x hx := by
    obtain ⟨p, m, hp⟩ := h.newest x hx
    obtain ⟨q, n, hq⟩ := k.newest _ hp
    exact ⟨q, n, hq⟩

/-- A claim moves positions alone (R15). -/
theorem Sensing.sameTrack_moved (d : Int) (a : Sensing) : a.SameTrack (a.moved d) where
  accepted := rfl
  candidate := rfl
  count := rfl
  edge h := by simp [Sensing.moved, h]
  change l h := by simp [Sensing.moved, h]
  newest x h := by simp [Sensing.moved, Capture.moved, h]

/-- Filling in the newest record's mark changes that mark alone (R23). -/
theorem setNewestMark_sameTrack (m : Option Int) (s : State) : s.sensing.SameTrack (setNewestMark m s).sensing := by
  unfold setNewestMark
  split
  · exact .refl _
  · rename_i x hx
    refine ⟨rfl, rfl, rfl, id, fun l h => ⟨l.counter, h⟩, fun y hy => ⟨x.raw, m, ?_⟩⟩
    obtain rfl : x = y := Option.some.inj (hx.symm.trans hy)
    simp

/-- A seek's claim moves the unit's positions, or is refused (R16, R36). -/
theorem seekClaim_sameTrack (c : SeekContext) (v : Int) (s : State) : s.sensing.SameTrack (seekClaim c v s).sensing := by
  unfold seekClaim setClaimNewest
  split
  · rename_i t ht
    split at ht
    · cases ht
    · split at ht
      · cases ht
      · cases ht
        simp only [enterCaptured_keeps, (applySet_spec _ _ _).2.1]
        exact Sensing.sameTrack_moved _ _
  · exact .refl _

/-- A capture that a seek does not take (R23). -/
theorem seekIgnores_sameTrack (c : SeekContext) (x : Capture) (s : State) :
    s.sensing.SameTrack (seekIgnores c x s).sensing := by
  unfold seekIgnores
  split
  · exact .refl _
  · exact setNewestMark_sameTrack _ s

/-- A capture offered to a running seek (R31 to R36). -/
theorem seekCapture_sameTrack (c : SeekContext) (x : Capture) (s : State) :
    s.sensing.SameTrack (seekCapture c x s).sensing := by
  have claimed (v m : Int) : s.sensing.SameTrack (seekClaim c v (setNewestMark (some m) s)).sensing :=
    (setNewestMark_sameTrack (some m) s).trans (seekClaim_sameTrack c v _)
  unfold seekCapture
  split
  · exact seekIgnores_sameTrack c x s
  · split
    · simp only []
      split
      · exact claimed _ _
      · simpa using setNewestMark_sameTrack _ s
    · split
      · exact claimed _ _
      · exact seekIgnores_sameTrack c x s
    · simp only []
      split
      · exact claimed _ _
      · exact seekIgnores_sameTrack c x s

/-- An offered capture leaves the track as it was, whatever the engine makes of it (R10, R23). -/
theorem offerCapture_sameTrack (x : Capture) (s : State) : s.sensing.SameTrack (offerCapture x s).sensing := by
  have marked := setNewestMark_sameTrack (some (s.nearestMark x)) s
  unfold offerCapture
  split
  case h_1 => exact .refl _
  case h_2 | h_3 => exact marked
  case h_4 =>
    unfold markCheck
    simp only []
    split <;> simpa using marked
  case h_5 =>
    split
    · split
      · exact seekCapture_sameTrack _ x s
      · exact seekIgnores_sameTrack _ x s
    · exact .refl _
  case h_6 =>
    split
    · unfold surveyCapture
      simp only []
      split
      · simpa using marked
      · exact marked
    · exact marked

/-- The node with a step used and its capture pushed (R8, R10). -/
def State.qualified (s : State) (l : LastChange) (x : Capture) : State :=
  { s with sensing := { s.sensing with
      pendingEdge := none, lastChange := some { l with used := true }
      captures := (s.sensing.captures ++ [x]).drop (s.sensing.captures.length + 1 - 4) } }

/-- A step accepted near a pending edge qualifies it: its capture is pushed and offered (R8, R9, R10). -/
theorem acceptStep_near (l : LastChange) (d : Direction) (s : State) (e : PendingEdge)
    (h : s.sensing.pendingEdge = some e) (hl : s.sensing.lastChange = some l)
    (hd : |s.standby.counter.toInt - e.value.toInt| ≤ (s.cfg.cps : Int) / 8) :
    acceptStep l d s = offerCapture ⟨e.value, markSector l.old l.new d, d, e.cycle, none⟩
      (s.qualified l ⟨e.value, markSector l.old l.new d, d, e.cycle, none⟩) := by
  simp only [acceptStep, h, (edge_reach s _ _).mpr hd, if_true]
  simp only [qualify, pushCapture, useLastChange, State.setSensing_sensing, hl, Option.map_some, List.length_append,
    List.length_singleton]
  rfl

/-- The newest of the captures kept after one is pushed is that one (R10). -/
theorem getLast?_pushed (l : List Capture) (x : Capture) : ((l ++ [x]).drop (l.length + 1 - 4)).getLast? = some x := by
  rw [List.getLast?_drop, if_neg (by simp), List.getLast?_concat]

/-- A counted transition and the edge that was pending: left while the counter is near it, spurious beyond (R9, R155). -/
theorem mainTransition_edge (p : Bool) (s : State) (e : PendingEdge) (h : s.sensing.pendingEdge = some e) :
    (|(mainTransition p s).standby.counter.toInt - e.value.toInt| ≤ (s.cfg.cps : Int) / 8 →
      (mainTransition p s).sensing = s.sensing) ∧
    ((s.cfg.cps : Int) / 8 < |(mainTransition p s).standby.counter.toInt - e.value.toInt| →
      (mainTransition p s).sensing = { s.sensing with pendingEdge := none } ∧
      (mainTransition p s).hasFault .spuriousIndex (if s.hold.spuriousHold = true then .hold else .note)
        s.engine.operation.step (e.sector : Int)) := by
  have hcounter : (mainTransition p s).standby.counter = (countTransition p s).standby.counter := by
    rw [mainTransition_standby, countTransition_counter]
  rw [hcounter, mainTransition_sensing]
  refine ⟨fun hd => ?_, fun hd => ?_⟩
  · rw [edgeDistance_near (countTransition p s) e h hd]; rfl
  · have hfar := edgeDistance_far (countTransition p s) e h hd
    obtain ⟨hsensing, r, hrec, hcode, hcls, horigin, hstep, hdetail⟩ := resolveSpurious_spec e (countTransition p s)
    refine ⟨hfar ▸ hsensing, r, ?_, hcode, hcls, horigin.trans ?_, hstep, hdetail⟩
    · exact recentFault_mem (mainTransition_recent p s (by decide) (hfar ▸ hrec))
    · simp [State.own]

/-- A newer edge with no step before it takes the place of a spurious older one (R8, R9; log entry 14). -/
theorem latchEdge_newer (a : Nat) (s : State) (e : PendingEdge) (h : s.sensing.pendingEdge = some e)
    (hl : s.sensing.lastChange = none) :
    latchEdge a s = { resolveSpurious e s with sensing := { s.sensing with
      pendingEdge := some ⟨s.standby.counter, a, s.sensedCycle⟩ } } := by
  have hsensing := (resolveSpurious_spec e s).1
  have hd : displaceEdge s = resolveSpurious e s := by simp only [displaceEdge, h]
  have hn : (resolveSpurious e s).earlierStep s.standby.counter = none :=
    earlierStep_none _ _ fun l hl' => by simp [hsensing, hl] at hl'
  simp only [latchEdge, hd, hn, hsensing]; rfl

/-- The direction and the mark sector of a step (R7). -/
theorem stepDirection_mark {sectors old new m : Nat} {d : Direction}
    (h : d = .positive ∧ m = new ∧ new = (old + 1) % sectors
      ∨ d = .negative ∧ m = old ∧ new ≠ (old + 1) % sectors ∧ old = (new + 1) % sectors) :
    stepDirection sectors old new = some d ∧ markSector old new d = m := by
  rcases h with ⟨rfl, rfl, hp⟩ | ⟨rfl, rfl, hnp, hn⟩
  · exact ⟨stepDirection_positive hp, rfl⟩
  · exact ⟨stepDirection_negative hnp hn, rfl⟩

/-- Settles O33: a pending edge by what comes first, a counted transition, a newer edge or an accepted step. -/
theorem pendingEdgeIsResolved : Obligations.PendingEdgeIsResolved := by
  intro dt s c e hr hc he
  have hcfg : (advance dt s).cfg = c := cfg_of_config hc
  refine ⟨fun a b hf hone => ?transition, fun a hs ha hl => ?newer,
    fun lines a n k d m hsectors hgray hk hfull ha hne hnear hdir => ?step⟩
  case transition =>
    obtain ⟨p, hch, -⟩ := change_counted s.decoder a b hone
    refine ⟨_, exec_encTransition dt a b s hr hf, ?_⟩
    rw [mainSample_counted a b p (advance dt s) hch]
    have hedge := mainTransition_edge p ((advance dt s).setDecoder (s.decoder.take a b)) e he
    rw [show ((advance dt s).setDecoder (s.decoder.take a b)).cfg = c from hcfg] at hedge
    exact hedge
  case newer =>
    obtain ⟨-, r, hrec, hcode, hcls, horigin, hstep, hdetail⟩ := resolveSpurious_spec e (advance dt s)
    refine ⟨_, exec_indexEdge dt s c a hr hc hs ha, ?_⟩
    rw [latchEdge_newer a (advance dt s) e he hl]
    exact ⟨rfl, ⟨r, recentFault_mem hrec, hcode, hcls, horigin.trans (by simp [State.own]), hstep, hdetail⟩, by simp⟩
  case step =>
    obtain ⟨hd, hm⟩ := stepDirection_mark hdir
    subst hm
    have hcfg' : ((advance dt s).sectorRead n k).cfg = c := hcfg
    have hexec := (exec_sectorSample_gray dt lines s c n k hr hc hsectors hgray hk).2 hfull (by simpa [ha] using hne)
    rw [acceptSector_step n a d ((advance dt s).sectorRead n k) ha (hcfg' ▸ hd),
      acceptStep_near _ _ _ e (by simpa [State.sectorRead] using he) (by simp)
        (by rw [sectorChanged_cfg, hcfg']; simpa [State.sectorRead] using hnear)] at hexec
    refine ⟨?_, fun hu hph => ?_⟩
    · have hsame := offerCapture_sameTrack ⟨e.value, markSector a n d, d, e.cycle, none⟩
        (State.qualified (((advance dt s).sectorRead n k).sectorChanged a n) ⟨a, n, s.standby.counter, false⟩
          ⟨e.value, markSector a n d, d, e.cycle, none⟩)
      obtain ⟨p, hp⟩ := hsame.change _ rfl
      obtain ⟨q, i, hq⟩ := hsame.newest _ (getLast?_pushed _ _)
      exact ⟨_, _, hexec, hsame.accepted.trans (by simp [State.qualified]),
        hsame.candidate.trans (by simp [State.sectorRead, State.qualified]),
        hsame.count.trans (by simp [State.sectorRead, State.qualified]), hsame.edge rfl, ⟨_, hp, rfl, rfl, rfl⟩, hq,
        rfl, rfl, rfl⟩
    · have hown : ((advance dt s).sectorRead n k).sectorChanged a n =
          ((advance dt s).sectorRead n k).setSensing { ((advance dt s).sectorRead n k).sensing with
            accepted := some n, lastChange := some ⟨a, n, s.standby.counter, false⟩ } := ownClaimFollows_outside _ hph
      rw [hexec, hown]
      exact congrArg Host.Outcome.next (offerCapture_unreferenced _ _ hu)

end Sys2Proof.Machine
end

section
/-! The PFAIL filter: its arrival at the write port and its withdrawal. -/

namespace Sys2Proof.Machine

/-! ### What a posted write leaves at a port that is in use (R91) -/

/-- A write in flight stays in flight when another is posted (R91). -/
theorem postWrite_port (r : WriteRequest) (s : State) (f : InFlight) (h : s.store.port = some f) :
    (postWrite r s).store.port = some f := by
  simp only [postWrite, h, Option.isNone_some, Bool.false_and, Bool.false_eq_true, if_false]
  split
  · exact h
  · exact h

/-- What CAL_FLIP as it is posted leaves of the pending set and the port (R91, R194). -/
theorem postFlip_store (s : State) :
    (∀ k, k ≠ .calFlip → (postFlip s).store.isPending k = s.store.isPending k) ∧
    (∀ f, s.store.port = some f → (postFlip s).store.port = some f) :=
  ⟨fun k hk => (postWrite_posted .calFlip _ nofun).2 k hk, fun f hf => postWrite_port .calFlip _ f hf⟩

/-! ### The calibration tests while PFAIL is active (R98, R194, R197) -/

/-- A station stages nothing while the filtered PFAIL is active (R191). -/
theorem stageTest_pfail (s : State) (h : s.sensing.pfail.level = true) : stageTest s = s := by
  unfold stageTest
  split
  · rfl
  · exact if_neg (by simp [h])

/-- While PFAIL is active the tests at the end of a calibration write can only post CAL_FLIP: what a posted CAL_FLIP keeps,
they keep. -/
theorem calWriteTests_induct (P : State → Prop) (s : State) (hf : s.sensing.pfail.level = true) (h : P s)
    (hp : ∀ x, P x → P (postFlip x)) : P (calWriteTests s) := by
  have hflip : P (flipTest s) := by
    rcases flipTest_or s with e | ⟨e, -⟩ <;> rw [e]
    · exact h
    · exact hp s h
  rw [calWriteTests, stageTest_pfail _ (by simpa using hf), rollForwardTable]
  split
  · exact hp _ hflip
  · exact hflip

/-! ### The arrival at the write port (R98) -/

/-- The node with the write in flight cut and the pending ROUTINE and CAL_STAGE dropped, as an arrival does it (R98). -/
def State.arrivalDropped (s : State) : State :=
  dropPending .calStage (dropPending .routine (s.setStore { s.store with port := s.store.port.map InFlight.cutAtArrival }))

/-- The same with the FINAL latched where one is due (R98, R100). -/
def State.arrivalLatched (s : State) : State :=
  if s.store.closing = none ∧ s.store.busyWith .orderly = false then finalLatch s.arrivalDropped else s.arrivalDropped

/-- The cut leaves a write's request (R98). -/
theorem cutAtArrival_request (f : InFlight) : f.cutAtArrival.request = f.request := by
  unfold InFlight.cutAtArrival
  split <;> rfl

theorem cutAtArrival_cut (f : InFlight) (h : f.request.kind = .routine ∨ f.request.kind = .calStage) :
    f.cutAtArrival = { f with isCut := true } := by
  unfold InFlight.cutAtArrival
  cases hr : f.request <;> simp [hr, WriteRequest.kind] at h ⊢

theorem cutAtArrival_other (f : InFlight) (h : f.request.kind ≠ .routine) (h' : f.request.kind ≠ .calStage) :
    f.cutAtArrival = f := by
  unfold InFlight.cutAtArrival
  cases hr : f.request <;> simp [hr, WriteRequest.kind] at h h' ⊢

/-- The cut leaves what is pending or in flight (R98). -/
theorem cut_busy (k : WriteKind) (s : State) :
    (s.setStore { s.store with port := s.store.port.map InFlight.cutAtArrival }).store.busyWith k = s.store.busyWith k := by
  simp only [Store.busyWith, Store.isPending, Store.inFlight, State.setStore_store]
  cases s.store.port <;> simp [cutAtArrival_request]

/-- What the cut and the drops leave of the store controller (R98). -/
theorem arrivalDropped_spec (s : State) :
    s.arrivalDropped.store.isPending .routine = false ∧ s.arrivalDropped.store.isPending .calStage = false ∧
    s.arrivalDropped.store.port = s.store.port.map InFlight.cutAtArrival ∧
    (∀ k, k ≠ .routine → k ≠ .calStage → s.arrivalDropped.store.busyWith k = s.store.busyWith k) ∧
    s.arrivalDropped.store.inFlight .calStage = s.store.inFlight .calStage := by
  refine ⟨?_, ?_, ?_, fun k h1 h2 => ?_, ?_⟩
  · simp [State.arrivalDropped, dropPending, Store.isPending, WriteKind.place]
  · simp [State.arrivalDropped, dropPending, Store.isPending]
  · simp [State.arrivalDropped]
  · rw [State.arrivalDropped, dropPending_others _ _ _ h2, dropPending_others _ _ _ h1, cut_busy]
  · simp only [State.arrivalDropped, Store.inFlight, dropPending_keeps, State.setStore_store]
    cases s.store.port <;> simp [cutAtArrival_request]

/-- What a FINAL as it is latched leaves (R93, R98, R101). -/
theorem finalLatch_spec (s : State) :
    (finalLatch s).store.dip = s.store.dip.map (fun _ => true) ∧ (finalLatch s).store.finalOut = true ∧
    (finalLatch s).store.lastTag = some s.nextTag ∧ (finalLatch s).store.busyWith .final = true ∧
    (∀ k, k ≠ .final → (finalLatch s).store.isPending k = s.store.isPending k) ∧
    (∀ k, k ≠ .final → (finalLatch s).store.busyWith k = s.store.busyWith k) ∧
    (∀ f, s.store.port = some f → (finalLatch s).store.port = some f) ∧ (finalLatch s).cal = s.cal := by
  refine ⟨?_, ?_, ?_, postWrite_busy _ _ (by simp [WriteRequest.kind]),
    fun k hk => (postWrite_posted _ _ (by simp [WriteRequest.kind])).2 k hk,
    fun k hk => postWrite_others _ _ _ hk, fun f hf => postWrite_port _ _ f hf, ?_⟩
  · simp [finalLatch]
  · simp [finalLatch]
  · simp [finalLatch, noteLatch, State.latchFrame]
  · rw [finalLatch, (postWrite_sightings _ _).2.2.2 (by simp [WriteRequest.kind])]; simp

/-- Where the closing flag is clear and no ORDERLY stands a FINAL is latched, and elsewhere none (R98, R100). -/
theorem arrivalLatched_cases (s : State) :
    (s.store.closing = none ∧ s.store.busyWith .orderly = false ∧ s.arrivalLatched = finalLatch s.arrivalDropped) ∨
    ((s.store.closing.isSome = true ∨ s.store.busyWith .orderly = true) ∧ s.arrivalLatched = s.arrivalDropped) := by
  unfold State.arrivalLatched
  split
  · rename_i h; exact .inl ⟨h.1, h.2, rfl⟩
  · rename_i h
    refine .inr ⟨?_, rfl⟩
    rw [not_and_or, ← ne_eq, Option.ne_none_iff_isSome, Bool.not_eq_false] at h
    exact h

/-- What the latching of a FINAL at an arrival keeps of the cut and the drops (R98). -/
theorem arrivalLatched_spec (s : State) :
    s.arrivalLatched.store.isPending .routine = false ∧ s.arrivalLatched.store.isPending .calStage = false ∧
    (∀ f, s.store.port = some f → s.arrivalLatched.store.port = some f.cutAtArrival) ∧
    (∀ k, k ≠ .routine → k ≠ .calStage → k ≠ .final → s.arrivalLatched.store.busyWith k = s.store.busyWith k) ∧
    s.arrivalLatched.store.busyWith .calStage = s.store.inFlight .calStage ∧ s.arrivalLatched.cal = s.cal := by
  obtain ⟨hroutine, hstage, hport, hbusy, hflight⟩ := arrivalDropped_spec s
  have hcal : s.arrivalDropped.cal = s.cal := by simp [State.arrivalDropped]
  have hboth : s.arrivalDropped.store.busyWith .calStage = s.store.inFlight .calStage := by
    rw [Store.busyWith, hstage, hflight, Bool.false_or]
  rcases arrivalLatched_cases s with ⟨-, -, he⟩ | ⟨-, he⟩ <;> rw [he]
  · obtain ⟨-, -, -, -, hpend, hothers, hkeep, hfcal⟩ := finalLatch_spec s.arrivalDropped
    exact ⟨(hpend .routine nofun).trans hroutine, (hpend .calStage nofun).trans hstage,
      fun f hf => hkeep _ (by rw [hport, hf]; rfl), fun k h1 h2 h3 => (hothers k h3).trans (hbusy k h1 h2),
      (hothers .calStage nofun).trans hboth, hfcal.trans hcal⟩
  · exact ⟨hroutine, hstage, fun f hf => by rw [hport, hf]; rfl, fun k h1 h2 _ => hbusy k h1 h2, hboth, hcal⟩

/-- An arrival at the write port: the cut, the drops and the FINAL, then the calibration tests for a dropped CAL_STAGE
(R98, R193, R197). -/
theorem arrivalCut_eq (s : State) : arrivalCut s =
    if s.store.isPending .calStage = true then calWriteTests s.arrivalLatched else s.arrivalLatched := by
  have hclosing : s.arrivalDropped.store.closing = s.store.closing := by simp [State.arrivalDropped, dropPending]
  have hbusy := (arrivalDropped_spec s).2.2.2.1 .orderly nofun nofun
  have he : s.arrivalLatched = if s.arrivalDropped.store.closing.isNone && !s.arrivalDropped.store.busyWith .orderly
      then finalLatch s.arrivalDropped else s.arrivalDropped := by
    rw [hclosing, hbusy, State.arrivalLatched]
    simp
  rw [he]; rfl

/-- The latched state shows what the cut, the drops and the FINAL leave of the other blocks. -/
theorem arrivalLatched_keeps (s : State) :
    s.arrivalLatched.sensing = s.sensing ∧ s.arrivalLatched.coord = s.coord ∧ s.arrivalLatched.peers = s.peers ∧
    s.arrivalLatched.link = s.link := by
  unfold State.arrivalLatched
  split <;> simp [State.arrivalDropped]

/-- What the FINAL leaves and a posted CAL_FLIP keeps holds after an arrival (R98, R197). -/
theorem arrivalCut_induct (P : State → Prop) (s : State) (hf : s.sensing.pfail.level = true) (h : P s.arrivalLatched)
    (hp : ∀ x, P x → P (postFlip x)) : P (arrivalCut s) := by
  rw [arrivalCut_eq]
  split
  · exact calWriteTests_induct P _ (by rwa [(arrivalLatched_keeps s).1]) h hp
  · exact h

/-- A dropped CAL_STAGE makes the roll-forward post CAL_FLIP where a peer has committed the staged record (R193, R197). -/
theorem arrivalCut_flips (s : State) (x : CalRecord) (hf : s.sensing.pfail.level = true)
    (hdropped : s.store.isPending .calStage = true) (hflight : s.store.inFlight .calStage = false)
    (hflip : s.store.busyWith .calFlip = false) (hdiscard : s.store.busyWith .calDiscard = false)
    (hx : s.cal.staged = some x) (hfailed : s.cal.flipFailed = false) (hphase : s.coord.phase ≠ .isolated)
    (hpeer : ∃ y ∈ s.peerRecords, y.2.committed = x.generation) : (arrivalCut s).store.busyWith .calFlip = true := by
  obtain ⟨hsensing, hcoord, hpeers, hlink⟩ := arrivalLatched_keeps s
  obtain ⟨-, -, -, hbusy, hstage, hcal⟩ := arrivalLatched_spec s
  have hready : s.arrivalLatched.flipReady = true := by
    simp [State.flipReady, Store.calBusy, hcal, hcoord, hx, hfailed, hphase, hstage, hflight,
      hbusy .calFlip nofun nofun nofun, hflip, hbusy .calDiscard nofun nofun nofun, hdiscard]
  have htable : (s.arrivalLatched.peerRecords.any fun y =>
      decide (y.2.committed = s.arrivalLatched.cal.stagedGeneration)) = true := by
    rw [peerRecords_congr hpeers (congrArg Link.station hlink), hcal, Cal.stagedGeneration, hx]
    simpa using hpeer
  have hroll : rollForwardTable s.arrivalLatched = postFlip s.arrivalLatched := if_pos (by rw [hready, htable]; rfl)
  rw [arrivalCut_eq, if_pos hdropped, calWriteTests, stageTest_pfail _ (by simpa [hsensing] using hf)]
  rcases flipTest_or s.arrivalLatched with e | ⟨e, -⟩ <;> rw [e]
  · rw [hroll]; exact postFlip_busy _
  · unfold rollForwardTable
    split <;> exact postFlip_busy _

/-- What an arrival at the write port leaves of the port, the pending set and the dip flag (R98 to R101). -/
theorem arrivalCut_spec (s : State) (hf : s.sensing.pfail.level = true) :
    (arrivalCut s).store.isPending .routine = false ∧ (arrivalCut s).store.isPending .calStage = false ∧
    (∀ f, s.store.port = some f → (arrivalCut s).store.port = some f.cutAtArrival) ∧
    ((s.store.closing.isSome = true ∨ s.store.busyWith .orderly = true) →
      (arrivalCut s).store.dip = s.store.dip ∧ (arrivalCut s).store.finalOut = s.store.finalOut ∧
      (arrivalCut s).store.lastTag = s.store.lastTag) ∧
    (s.store.closing = none → s.store.busyWith .orderly = false →
      (arrivalCut s).store.dip = s.store.dip.map (fun _ => true) ∧ (arrivalCut s).store.finalOut = true ∧
      (arrivalCut s).store.busyWith .final = true ∧ (arrivalCut s).store.lastTag = some s.nextTag) ∧
    (s.store.isPending .calStage = false → (arrivalCut s).cal = s.cal) := by
  obtain ⟨hroutine, hstage, hport, -, -, hcal⟩ := arrivalLatched_spec s
  refine ⟨?_, ?_, fun f hf' => ?_, fun hno => ?_, fun hclosing horderly => ?_, fun hnone => ?_⟩
  · exact arrivalCut_induct (fun x => x.store.isPending .routine = false) s hf hroutine
      fun x hx => ((postFlip_store x).1 .routine nofun).trans hx
  · exact arrivalCut_induct (fun x => x.store.isPending .calStage = false) s hf hstage
      fun x hx => ((postFlip_store x).1 .calStage nofun).trans hx
  · exact arrivalCut_induct (fun x => x.store.port = some f.cutAtArrival) s hf (hport f hf')
      fun x hx => (postFlip_store x).2 _ hx
  · refine arrivalCut_induct (fun x => x.store.dip = s.store.dip ∧ x.store.finalOut = s.store.finalOut ∧
      x.store.lastTag = s.store.lastTag) s hf ?_ fun x hx => by simpa using hx
    rcases arrivalLatched_cases s with ⟨hc, ho, -⟩ | ⟨-, he⟩
    · simp [hc, ho] at hno
    · rw [he]; simp [State.arrivalDropped]
  · refine arrivalCut_induct (fun x => x.store.dip = s.store.dip.map (fun _ => true) ∧ x.store.finalOut = true ∧
      x.store.busyWith .final = true ∧ x.store.lastTag = some s.nextTag) s hf ?_ fun x hx => ?_
    · rcases arrivalLatched_cases s with ⟨-, -, he⟩ | ⟨hno, -⟩
      · obtain ⟨hdip, hout, htag, hbusy, -⟩ := finalLatch_spec s.arrivalDropped
        rw [he]
        exact ⟨by simpa [State.arrivalDropped] using hdip, hout, hbusy, by rw [htag]; rfl⟩
      · simp [hclosing, horderly] at hno
    · obtain ⟨hdip, hout, hbusy, htag⟩ := hx
      exact ⟨by simpa using hdip, by simpa using hout, busy_posted _ _ _ hbusy, by simpa using htag⟩
  · rw [arrivalCut_eq, if_neg (by simp [hnone])]; exact hcal

/-! ### The PFAIL filter (R2) -/

/-- The node with the PFAIL filter in another state. -/
def State.setPfail (s : State) (f : InputFilter) : State := { s with sensing := { s.sensing with pfail := f } }

theorem exec_pfailSample (dt : Time) (raw : Bool) (s : State) (hr : s.running = true) :
    exec (.pfailSample dt raw) s = .next (pfailSample raw (advance dt s)) :=
  congrArg Host.Outcome.next (if_pos hr)

/-- What a sample of the PFAIL filter is, by the levels and the count (R2). -/
theorem pfailSample_cases (raw : Bool) (s : State) :
    (raw = s.sensing.pfail.level → pfailSample raw s = s.setPfail ⟨s.sensing.pfail.level, 0⟩) ∧
    (raw ≠ s.sensing.pfail.level → s.sensing.pfail.count = 0 →
      pfailSample raw s = s.setPfail ⟨s.sensing.pfail.level, 1⟩) ∧
    (raw ≠ s.sensing.pfail.level → 0 < s.sensing.pfail.count →
      pfailSample raw s = if raw = true then pfailArrival (s.setPfail ⟨raw, 0⟩)
        else pfailWithdrawal (s.setPfail ⟨raw, 0⟩)) := by
  refine ⟨fun h => ?_, fun h hc => ?_, fun h hc => ?_⟩
  · simp only [pfailSample, InputFilter.sample, if_pos h]; rfl
  · simp only [pfailSample, InputFilter.sample, if_neg h, hc]; rfl
  · have hlen : 2 ≤ s.sensing.pfail.count + 1 := by omega
    simp only [pfailSample, InputFilter.sample, if_neg h, if_pos hlen]; rfl

/-- The node with the dip flag set by an arrival (R101). -/
def State.dipped (s : State) : State := { s with store := { s.store with dip := some false } }

theorem pfailArrival_idle (s : State) (h : s.coord.journalActive = false ∨ s.store.finalOut = true) :
    pfailArrival s = s.dipped :=
  if_neg (by rcases h with h | h <;> simp [h])

theorem pfailArrival_cut (s : State) (hj : s.coord.journalActive = true) (hf : s.store.finalOut = false) :
    pfailArrival s = arrivalCut s.dipped :=
  if_pos (by simp [hj, hf])

/-- The withdrawal raises POWER_DIP with the mark of a latched FINAL, and clears the dip flag (R101). -/
theorem pfailWithdrawal_spec (s : State) :
    (pfailWithdrawal s).store.dip = none ∧
    (pfailWithdrawal s).hasFault .powerDip .hold none (if s.store.dip = some true then 1 else 0) := by
  obtain ⟨r, hr, hcode, hcls, horigin, hstep, hdetail⟩ := raiseFault_recent .powerDip .hold none
    (if s.store.dip = some true then 1 else 0) s
  refine ⟨by simp [pfailWithdrawal], r, ?_, hcode, hcls, horigin.trans (by simp [State.own]), hstep, hdetail⟩
  exact recentFault_mem (n := 3) (by simpa [pfailWithdrawal, raiseHold] using hr)

/-- Settles O27: a sample by what the filter makes of it, an arrival by what it leaves of the write port. -/
theorem pfailFilterAndDip : Obligations.PfailFilterAndDip := by
  intro dt raw s hr
  obtain ⟨hequal, hfirst, hsecond⟩ := pfailSample_cases raw (advance dt s)
  rw [exec_pfailSample dt raw s hr]
  refine ⟨fun h => by rw [hequal h]; rfl, fun h hc => by rw [hfirst h hc]; rfl,
    fun h hc hraw => ⟨fun hidle => ?idle, fun hj hf => ?arrival⟩, fun h hc hraw => ?withdrawal⟩
  case idle =>
    rw [hsecond h hc, if_pos hraw, hraw, pfailArrival_idle ((advance dt s).setPfail ⟨true, 0⟩) hidle]
    rfl
  case arrival =>
    rw [hsecond h hc, if_pos hraw, hraw, pfailArrival_cut ((advance dt s).setPfail ⟨true, 0⟩) hj hf]
    obtain ⟨hroutine, hstage, hport, hnone, hlatched, hcal⟩ :=
      arrivalCut_spec ((advance dt s).setPfail ⟨true, 0⟩).dipped rfl
    refine ⟨_, rfl, by simp [State.dipped, State.setPfail], hroutine, hstage, fun f hf' hk => ?_, fun f hf' h1 h2 => ?_,
      fun hno => ?_, hlatched, hcal, fun x hp hfl h1 h2 hx hfailed hphase hpeer =>
        arrivalCut_flips ((advance dt s).setPfail ⟨true, 0⟩).dipped x rfl hp hfl h1 h2 hx hfailed hphase hpeer, ?_⟩
    · rw [hport f hf', cutAtArrival_cut f hk]
    · rw [hport f hf', cutAtArrival_other f h1 h2]
    · obtain ⟨hdip, hout, htag⟩ := hnone hno
      exact ⟨hdip, hout.trans hf, htag⟩
    · simp [State.dipped, State.setPfail]
  case withdrawal =>
    rw [hsecond h hc, if_neg (by simp [hraw]), hraw]
    obtain ⟨hdip, hfault⟩ := pfailWithdrawal_spec ((advance dt s).setPfail ⟨false, 0⟩)
    refine ⟨_, rfl, by simp [State.setPfail], hdip, hfault, ?_⟩
    simp [State.setPfail]

end Sys2Proof.Machine
end

section
/-! The filters of the switch-type inputs, and what an accepted change of each does. -/

namespace Sys2Proof.Machine

/-! ### The filter (R1) -/

/-- The node with the filter of one switch-type input in another state. -/
def State.setFilter (s : State) (i : SwitchInput) (f : InputFilter) : State :=
  { s with sensing := s.sensing.putFilter i f }

/-- A switch filter is no part of the motion check (R3). -/
theorem setFilter_moving (s : State) (i : SwitchInput) (f : InputFilter) :
    (s.setFilter i f).sensing.moving = s.sensing.moving := by
  cases i <;> rfl

theorem exec_switchSample (dt : Time) (i : SwitchInput) (raw : Bool) (s : State) (hr : s.running = true) :
    exec (.switchSample dt i raw) s = .next (switchSample i raw (advance dt s)) :=
  congrArg Host.Outcome.next (if_pos hr)

/-- The filter length an unconfigured station samples with is 4 (R1). -/
theorem switchFilter_eq_switchLength (s : State) : s.cfg.switchFilter = s.switchLength := by
  unfold State.cfg State.switchLength
  cases s.port.config <;> rfl

/-- The station that samples LOAD_IN, none at an unconfigured one (R1). -/
theorem loadStation_eq (s : State) : s.cfg.loadStation = s.port.config.bind fun c => c.loadStation := by
  unfold State.cfg
  cases s.port.config <;> rfl

theorem samples_iff (s : State) (i : SwitchInput) :
    s.samples i = true ↔ (i ≠ .loadIn ∨ (s.port.config.bind fun c => c.loadStation) = some s.own) := by
  rw [← loadStation_eq]
  cases i <;> simp [State.samples]

/-- What a sample of a switch filter is, by the levels and the count (R1). -/
theorem switchSample_cases (i : SwitchInput) (raw : Bool) (s : State) (h : s.samples i = true) :
    (raw = (s.sensing.filter i).level → switchSample i raw s = s.setFilter i ⟨(s.sensing.filter i).level, 0⟩) ∧
    (raw ≠ (s.sensing.filter i).level → (s.sensing.filter i).count + 1 < s.switchLength →
      switchSample i raw s = s.setFilter i ⟨(s.sensing.filter i).level, (s.sensing.filter i).count + 1⟩) ∧
    (raw ≠ (s.sensing.filter i).level → s.switchLength ≤ (s.sensing.filter i).count + 1 →
      switchSample i raw s = switchChanged i raw (s.setFilter i ⟨raw, 0⟩)) := by
  simp only [← switchFilter_eq_switchLength, switchSample, if_pos h, InputFilter.sample]
  refine ⟨fun he => ?_, fun hne hc => ?_, fun hne hc => ?_⟩
  · simp only [if_pos he]; rfl
  · simp only [if_neg hne, if_neg (Nat.not_le.mpr hc)]; rfl
  · simp only [if_neg hne, if_pos hc]; rfl

/-! ### HOME_SW (R34) -/

/-- The edge of HOME_SW to `raw` is the one the running SWITCH seek `k` looks for (R34). -/
def State.seeksEdge (s : State) (raw : Bool) (k : SeekContext) : Prop :=
  s.engine.operation = .seek k ∧ s.engine.refState = .seeking ∧ k.kind = .switch ∧ k.phase = .toSwitch ∧
    k.endCause = none ∧ (k.dir = .positive ∧ raw = false ∨ k.dir = .negative ∧ raw = true)

/-- The seek `k` on its way from the edge of HOME_SW to the mark (R34). -/
def State.pastEdge (s : State) (k : SeekContext) : State :=
  { s with engine := { s.engine with operation := .seek { k with
      phase := .toMark, phaseStart := s.standby.counter, stall := s.stallNow } } }

/-- The edge looked for: the fall going POSITIVE, the arrival going NEGATIVE (R34). -/
theorem edge_iff (raw : Bool) (d : Direction) :
    (raw = true ↔ d = .negative) ↔ (d = .positive ∧ raw = false ∨ d = .negative ∧ raw = true) := by
  cases raw <;> cases d <;> decide

theorem homeEdge_sought (raw : Bool) (s : State) (k : SeekContext) (h : s.seeksEdge raw k) :
    homeEdge raw s = engineOrder (.jog k.dir s.cfg.creep .seek) (s.pastEdge k) := by
  obtain ⟨hop, hstate, hkind, hphase, hcause, hedge⟩ := h
  simp only [homeEdge, hop]
  exact if_pos ⟨hstate, hkind, hphase, hcause, (edge_iff raw k.dir).mpr hedge⟩

theorem homeEdge_unsought (raw : Bool) (s : State) (h : ∀ k, ¬ s.seeksEdge raw k) : homeEdge raw s = s := by
  unfold homeEdge
  split
  · rename_i k hop
    refine if_neg fun ⟨hstate, hkind, hphase, hcause, hedge⟩ => ?_
    exact h k ⟨hop, hstate, hkind, hphase, hcause, (edge_iff raw k.dir).mp hedge⟩
  · rfl

/-- The limit a JOG meets (R28). -/
theorem limitMet_jog (s : State) (d : Direction) (w : Nat) (q : OrderReason) :
    ((d = .positive → s.sensing.limPos.level = false) → (d = .negative → s.sensing.limNeg.level = false) →
      s.limitMet (.jog d w q) = none) ∧
    (d = .positive → s.sensing.limPos.level = true → s.limitMet (.jog d w q) = some 1) ∧
    (d = .negative → s.sensing.limNeg.level = true → s.limitMet (.jog d w q) = some (-1)) := by
  cases d <;> simp +contextual [State.limitMet]

/-- What the edge a seek looks for leaves: the seek in TO_MARK jogging on at CREEP, or OVERTRAVEL at a limit (R28, R34). -/
theorem homeEdge_spec (raw : Bool) (s : State) (k : SeekContext) (h : s.seeksEdge raw k) :
    ((s.engine.order.reason = some .hold ∨
        (k.dir = .positive → s.sensing.limPos.level = false) ∧ (k.dir = .negative → s.sensing.limNeg.level = false)) →
      (homeEdge raw s).engine = { (s.pastEdge k).engine with
        order := if s.engine.order.reason = some .hold then s.engine.order else .jog k.dir s.cfg.creep .seek } ∧
      (homeEdge raw s).hold = s.hold ∧ (homeEdge raw s).plan = s.plan ∧ (homeEdge raw s).gate = s.gate) ∧
    (s.engine.order.reason ≠ some .hold → ∀ v, s.limitMet (.jog k.dir s.cfg.creep .seek) = some v →
      (homeEdge raw s).hasFault .overtravel .hold k.step v) := by
  rw [homeEdge_sought raw s k h]
  refine ⟨fun hfree => ?_, fun hreason v hmet => ?_⟩
  · have hnone : (s.pastEdge k).engine.order.reason = some .hold ∨
        (s.pastEdge k).limitMet (.jog k.dir s.cfg.creep .seek) = none :=
      hfree.imp_right fun hlimits => (limitMet_jog _ _ _ _).1 hlimits.1 hlimits.2
    obtain ⟨x, hx⟩ := engineOrder_free (.jog k.dir s.cfg.creep .seek) (s.pastEdge k) hnone
    rw [hx]
    exact ⟨rfl, rfl, rfl, rfl⟩
  · rw [engineOrder_met (.jog k.dir s.cfg.creep .seek) (s.pastEdge k) v hreason hmet]
    exact raiseFault_hasFault _ _ _ _ _

/-! ### LIM_POS and LIM_NEG (R28) -/

/-- An arrival of a limit finds the joint ordered to move, or moving (R28). -/
def State.inMotion (s : State) : Prop :=
  (∃ d w q, s.engine.order = .jog d w q) ∨ (∃ g w q, s.engine.order = .goto g w q) ∨ s.sensing.moving = true

theorem limitArrival_inMotion (v : Int) (s : State) (h : s.inMotion) :
    limitArrival v s = raiseFault .overtravel .hold s.engine.operation.step v s := by
  refine if_pos ?_
  rcases h with ⟨d, w, q, ho⟩ | ⟨g, w, q, ho⟩ | hm
  · rw [ho]; rfl
  · rw [ho]; rfl
  · rw [hm, Bool.or_true]

theorem limitArrival_atRest (v : Int) (s : State) (hj : ∀ d w q, s.engine.order ≠ .jog d w q)
    (hg : ∀ g w q, s.engine.order ≠ .goto g w q) (hm : s.sensing.moving = false) : limitArrival v s = s := by
  refine if_neg ?_
  cases ho : s.engine.order
  case jog => exact absurd ho (hj _ _ _)
  case goto => exact absurd ho (hg _ _ _)
  all_goals simp [hm]

/-- A HOLD-class fault raised at level NONE begins a new STOP hold (R159, R160). -/
theorem raiseFault_fresh (code : FaultCode) (step : Option Nat) (d : Int) (s : State) (h : s.hold.level = .none) :
    (raiseFault code .hold step d s).hold.level = .stop ∧
    (raiseFault code .hold step d s).hold.seq = s.hold.freshSeq ∧
    (raiseFault code .hold step d s).hold.cause = code.byte ∧ (raiseFault code .hold step d s).hold.origin = s.own := by
  have he : raiseFault code .hold step d s = beginEntry (noteFault code .hold step d (newHold .stop code.byte s)) := by
    simp only [raiseFault, h, reduceCtorEq, if_false]
  obtain ⟨hlevel, hseq, hcause, horigin, -⟩ := newHold_spec .stop code.byte s
  obtain ⟨hcause', horigin', -⟩ := beginEntry_spec (noteFault code .hold step d (newHold .stop code.byte s))
  rw [he, hcause', horigin']
  exact ⟨by simp [hlevel], by simp [hseq], by simp [hcause], by simp [horigin]⟩

/-- What an arrival of a limit in motion leaves (R28). -/
theorem limitArrival_spec (v : Int) (s : State) (h : s.inMotion) :
    (limitArrival v s).hasFault .overtravel .hold s.engine.operation.step v ∧
    (s.hold.level ≠ .lockout → (limitArrival v s).engine.order = .stop .hold) ∧
    (s.hold.level = .none → (limitArrival v s).hold.level = .stop ∧ (limitArrival v s).hold.seq = s.hold.freshSeq ∧
      (limitArrival v s).hold.cause = FaultCode.byte .overtravel ∧ (limitArrival v s).hold.origin = s.own) := by
  rw [limitArrival_inMotion v s h]
  exact ⟨raiseFault_hasFault _ _ _ _ _, fun hl => (raiseFault_order _ _ _ _).trans (if_neg hl), raiseFault_fresh _ _ _ s⟩

/-- A change of a limit is an arrival or acts on nothing (R28). -/
theorem switchChanged_limit (i : SwitchInput) (v : Int) (raw : Bool) (s : State)
    (h : i = .limPos ∧ v = 1 ∨ i = .limNeg ∧ v = -1) :
    switchChanged i raw s = if raw = true then limitArrival v s else s := by
  rcases h with ⟨rfl, rfl⟩ | ⟨rfl, rfl⟩ <;> rfl

/-! ### BRK_FB (R167, R170) -/

/-- A gate that awaits the brake and is not permitted closes with it, or at a level that drops (R167, R168). -/
theorem gateUpdate_awaitBrake (s : State) (hg : s.gate = .awaitBrake) (hp : s.permitted = false) :
    (s.braked = true → (gateUpdate s).gate = .closed) ∧
    (s.braked = false → s.hold.level.dropped = false → (gateUpdate s).gate = .awaitBrake) := by
  refine ⟨fun hb => ?_, fun hb hd => ?_⟩
  · cases hd : s.hold.level.dropped <;> simp [gateUpdate, nextGate, hg, hp, hb, hd]
  · simp [gateUpdate, nextGate, hg, hp, hb, hd]

/-- Every station is settled for the entry (R169, R170). -/
theorem entrySettled_iff (s : State) : s.entrySettled = true ↔
    s.braked = true ∧ s.still = true ∧ s.gate = .closed ∧ ∀ y ∈ s.peerRecords, y.2.settledFor s.hold.seq = true := by
  simp [State.entrySettled, State.settled]
  tauto

/-- An entry not yet complete is complete with no deadline once every station is settled (R170). -/
theorem entryTest_completes (s : State) (hl : s.hold.level = .stop ∨ s.hold.level = .drop) (hc : s.hold.complete = false)
    (h : s.entrySettled = true) : (entryTest s).hold.complete = true ∧ (entryTest s).hold.deadline = none := by
  have hentering : s.hold.level.entering = true := by rcases hl with hl | hl <;> rw [hl] <;> rfl
  have htest : (s.hold.level.entering && !s.hold.complete && s.entrySettled) = true := by simp [hentering, hc, h]
  simp only [entryTest, if_pos htest]
  split <;> simp

theorem entryTest_waits (s : State) (h : s.entrySettled = false) : entryTest s = s :=
  if_neg (by simp [h])

/-- What a change of BRK_FB leaves: the gate's next state, and an entry complete where all are settled (R167, R170). -/
theorem brakeChanged_spec (raw : Bool) (s : State) :
    (switchChanged .brkFb raw s).gate = (gateUpdate s).gate ∧
    ((s.hold.level = .stop ∨ s.hold.level = .drop) → s.hold.complete = false →
      (s.braked = true → s.still = true → (gateUpdate s).gate = .closed →
        (∀ y ∈ s.peerRecords, y.2.settledFor s.hold.seq = true) →
        (switchChanged .brkFb raw s).hold.complete = true ∧ (switchChanged .brkFb raw s).hold.deadline = none) ∧
      ((s.braked = false ∨ s.still = false ∨ (gateUpdate s).gate ≠ .closed ∨
          ∃ y ∈ s.peerRecords, y.2.settledFor s.hold.seq = false) →
        (switchChanged .brkFb raw s).hold = s.hold)) := by
  have hhold : (gateUpdate s).hold = s.hold := by simp
  have hsettled : (gateUpdate s).entrySettled = true ↔ s.braked = true ∧ s.still = true ∧
      (gateUpdate s).gate = .closed ∧ ∀ y ∈ s.peerRecords, y.2.settledFor s.hold.seq = true := entrySettled_iff _
  refine ⟨?_, fun hl hc => ⟨fun hb hs hg hp => ?_, fun hno => ?_⟩⟩
  · simp [switchChanged]
  · exact entryTest_completes (gateUpdate s) (hhold ▸ hl) (hhold ▸ hc) (hsettled.mpr ⟨hb, hs, hg, hp⟩)
  · have hnot : (gateUpdate s).entrySettled = false := by
      rw [Bool.eq_false_iff, ne_eq, hsettled]
      rintro ⟨hb, hs, hg, hp⟩
      rcases hno with h | h | h | ⟨y, hy, h⟩
      · simp [h] at hb
      · simp [h] at hs
      · exact h hg
      · simp [hp y hy] at h
    simp only [switchChanged]
    rw [entryTest_waits _ hnot, hhold]

/-! ### DRV_STILL (R43) -/

/-- A park notes that the drive has left standstill (R43). -/
def Operation.leavesStill : Operation → Operation
  | .park p => .park { p with leftStill := true }
  | o => o

theorem engineLeavesStill_eq (s : State) : engineLeavesStill s =
    { s with engine := { s.engine with operation := s.engine.operation.leavesStill } } := by
  cases hop : s.engine.operation <;> simp only [engineLeavesStill, hop, Operation.leavesStill]
  case park => rfl
  all_goals rw [← hop]

/-! ### The sample -/

/-- What an accepted change of any switch-type input leaves (R1). -/
theorem switchChanged_frame (i : SwitchInput) (raw : Bool) (dt : Time) (f : InputFilter) (s : State) :
    let t := switchChanged i raw ((advance dt s).setFilter i f)
    t.sensing = s.sensing.putFilter i f ∧ t.standby = s.standby ∧ t.decoder = s.decoder ∧ t.peers = s.peers ∧
    t.mem = s.mem ∧ t.power = s.power ∧ t.pending = s.pending ∧ t.now = s.now + dt ∧ t.coord.phase = s.coord.phase ∧
    t.link.state = s.link.state ∧ t.plan.steps = s.plan.steps ∧ t.port.config = s.port.config := by
  simp [State.setFilter, advance]

/-- Settles O26: a sample by what the filter makes of it, an accepted change input by input. -/
theorem switchFilterFollowsSamples : Obligations.SwitchFilterFollowsSamples := by
  intro dt i raw s hr
  rw [exec_switchSample dt i raw s hr]
  refine ⟨fun ⟨hi, hl⟩ => ?_, fun hsampled => ?_⟩
  · have hno : ¬ (advance dt s).samples i = true := by
      rw [samples_iff]; exact not_or.mpr ⟨not_not.mpr hi, hl⟩
    exact congrArg Host.Outcome.next (if_neg hno)
  obtain ⟨hequal, hcounted, hchanged⟩ := switchSample_cases i raw (advance dt s) ((samples_iff _ i).mpr hsampled)
  refine ⟨fun h => by rw [hequal h]; rfl, fun h hc => by rw [hcounted h hc]; rfl, fun h hc => ?_⟩
  obtain ⟨hsensing, hframe⟩ := switchChanged_frame i raw dt ⟨raw, 0⟩ s
  rw [hchanged h hc]
  refine ⟨_, rfl, hsensing, ?keySw, ?loadIn, ?drvStill, ?homeSw, ?limits, ?brkFb, hframe⟩
  case keySw =>
    rintro rfl
    cases raw <;> rfl
  case loadIn =>
    rintro rfl
    rfl
  case drvStill =>
    rintro rfl rfl
    exact engineLeavesStill_eq ((advance dt s).setFilter .drvStill ⟨false, 0⟩)
  case homeSw =>
    rintro rfl sought hsought
    have hiff (k : SeekContext) : sought k ↔ ((advance dt s).setFilter .homeSw ⟨raw, 0⟩).seeksEdge raw k := hsought k
    refine ⟨fun k hk => ?_, fun hno => homeEdge_unsought raw _ fun k hk => hno k ((hiff k).mpr hk)⟩
    obtain ⟨hfree, hmet⟩ := homeEdge_spec raw _ k ((hiff k).mp hk)
    obtain ⟨-, hpos, hneg⟩ := limitMet_jog ((advance dt s).setFilter .homeSw ⟨raw, 0⟩) k.dir s.cfg.creep .seek
    exact ⟨hfree, fun hreason => ⟨fun hd hl => hmet hreason 1 (hpos hd hl), fun hd hl => hmet hreason (-1) (hneg hd hl)⟩⟩
  case limits =>
    intro v hi
    rw [switchChanged_limit i v raw _ hi]
    have hmoving : ((advance dt s).setFilter i ⟨raw, 0⟩).sensing.moving = s.sensing.moving := setFilter_moving _ i _
    refine ⟨fun hraw hmotion => ?_, fun hrest => ?_⟩
    · rw [if_pos hraw]
      refine limitArrival_spec v ((advance dt s).setFilter i ⟨raw, 0⟩) ?_
      unfold State.inMotion
      rwa [hmoving]
    · rcases hrest with hraw | ⟨hj, hg, hm⟩
      · exact if_neg (by simp [hraw])
      · rw [limitArrival_atRest v ((advance dt s).setFilter i ⟨raw, 0⟩) hj hg (hmoving.trans hm)]
        exact ite_self _
  case brkFb =>
    rintro rfl
    obtain ⟨hgate, hentry⟩ := brakeChanged_spec raw ((advance dt s).setFilter .brkFb ⟨raw, 0⟩)
    rw [hgate]
    refine ⟨rfl, fun hg hp hraw => ?_, fun hg hp hraw hd => ?_, hentry, ?_⟩
    · exact (gateUpdate_awaitBrake ((advance dt s).setFilter .brkFb ⟨raw, 0⟩) hg hp).1 hraw
    · exact (gateUpdate_awaitBrake ((advance dt s).setFilter .brkFb ⟨raw, 0⟩) hg hp).2 hraw hd
    · simp [switchChanged, State.setFilter]

end Sys2Proof.Machine
end

section
/-! Where marks are found: the candidate marks of a WITNESS and the nearest mark of a capture. -/

namespace Sys2Proof.Machine

/-! ### The candidate marks of a WITNESS (R31) -/

/-- The expected positions of the marks for one direction lie CPS apart (R22). -/
theorem expected_mark (s : State) (m : Int) (d : Direction) : s.expected m d = m * s.cps + s.expected 0 d := by
  unfold State.expected
  ring

/-- The positive candidate is the lowest mark whose positive expected position is greater than the counter (R31). -/
theorem lt_expected_positive_iff (s : State) (m : Int) (h : 0 < s.cps) :
    s.counter < s.expected m .positive ↔ s.positiveCandidate ≤ m := by
  have hdiv : (s.counter - s.expected 0 .positive) / s.cps < m ↔ s.counter - s.expected 0 .positive < m * s.cps :=
    Int.ediv_lt_iff_lt_mul h
  rw [expected_mark, State.positiveCandidate]
  omega

/-- The negative candidate is the highest mark whose negative expected position is less than the counter (R31). -/
theorem expected_negative_lt_iff (s : State) (m : Int) (h : 0 < s.cps) :
    s.expected m .negative < s.counter ↔ m ≤ s.negativeCandidate := by
  have hdiv : m ≤ (s.counter - s.expected 0 .negative - 1) / s.cps ↔
      m * s.cps ≤ s.counter - s.expected 0 .negative - 1 := Int.le_ediv_iff_mul_le h
  rw [expected_mark, State.negativeCandidate]
  omega

/-! ### The nearest rule (R23) -/

/-- Of a remainder's distances to the multiples of its divisor, the one to the nearer of 0 and the divisor is the least,
and a multiple as near is no lower. -/
theorem remainder_nearest {r turn : Int} (k : Int) (hlow : 0 ≤ r) (hhigh : r < turn) :
    (2 * r ≤ turn → |r| ≤ |r - k * turn| ∧ (|r - k * turn| = |r| → 0 ≤ k)) ∧
    (turn < 2 * r → |r - turn| ≤ |r - k * turn| ∧ (|r - k * turn| = |r - turn| → 1 ≤ k)) := by
  have hbelow : k ≤ -1 → k * turn ≤ -1 * turn := fun hk => mul_le_mul_of_nonneg_right hk (by omega)
  have habove : 2 ≤ k → 2 * turn ≤ k * turn := fun hk => mul_le_mul_of_nonneg_right hk (by omega)
  have hzero : k = 0 → k * turn = 0 := fun hk => by rw [hk, zero_mul]
  have hone : k = 1 → k * turn = turn := fun hk => by rw [hk, one_mul]
  simp only [abs_eq_max_neg]
  omega

/-- A capture's distance to a mark of its sector, from the turns between that mark and the lowest turn's (R23). -/
theorem raw_sub_expected (s : State) (c : Capture) (j : Int) :
    c.raw.toInt - s.expected (c.sector + j * s.cfg.sectors) c.dir =
      c.raw.toInt - s.expected c.sector c.dir - j * (s.cfg.sectors * s.cps) := by
  rw [expected_mark s (_ + _), expected_mark s c.sector]
  ring

/-- The nearest rule finds a mark of the capture's sector, nearest to it and the lowest of those as near (R23). -/
theorem nearestMark_spec (s : State) (c : Capture) (hcps : 0 < s.cps) (hsector : c.sector < s.cfg.sectors) :
    s.nearestMark c % (s.cfg.sectors : Int) = c.sector ∧
    ∀ m : Int, m % (s.cfg.sectors : Int) = c.sector →
      |c.raw.toInt - s.expected (s.nearestMark c) c.dir| ≤ |c.raw.toInt - s.expected m c.dir| ∧
      (|c.raw.toInt - s.expected m c.dir| = |c.raw.toInt - s.expected (s.nearestMark c) c.dir| →
        s.nearestMark c ≤ m) := by
  have hsectors : (0 : Int) < s.cfg.sectors := by omega
  have hturn : 0 < (s.cfg.sectors : Int) * s.cps := mul_pos hsectors hcps
  have hmod : ∀ j : Int, ((c.sector : Int) + j * s.cfg.sectors) % (s.cfg.sectors : Int) = c.sector := fun j => by
    rw [Int.add_mul_emod_self_right]
    exact Int.emod_eq_of_lt (by omega) (by omega)
  obtain ⟨y, hy⟩ : ∃ y, y = c.raw.toInt - s.expected c.sector c.dir := ⟨_, rfl⟩
  obtain ⟨turn, hturn'⟩ : ∃ turn, turn = (s.cfg.sectors : Int) * s.cps := ⟨_, rfl⟩
  have hlow : 0 ≤ y - y / turn * turn := sub_nonneg.mpr (Int.ediv_mul_le y (by omega))
  have hhigh : y - y / turn * turn < turn := by
    have := Int.lt_ediv_add_one_mul_self y (hturn' ▸ hturn)
    linarith
  have hdist : ∀ j : Int, c.raw.toInt - s.expected (c.sector + j * s.cfg.sectors) c.dir =
      y - y / turn * turn - (j - y / turn) * turn := fun j => by
    rw [raw_sub_expected, ← hy, ← hturn']
    ring
  have hmark : s.nearestMark c = c.sector + (if 2 * (y - y / turn * turn) ≤ turn then y / turn else y / turn + 1) *
      s.cfg.sectors := by
    simp only [State.nearestMark, ← hy, ← hturn']
    split <;> rfl
  refine ⟨by rw [hmark]; exact hmod _, fun m hm => ?_⟩
  obtain ⟨j, rfl⟩ : ∃ j : Int, m = c.sector + j * s.cfg.sectors :=
    ⟨m / s.cfg.sectors, by rw [← hm, mul_comm]; exact (Int.emod_add_mul_ediv m _).symm⟩
  obtain ⟨hnear, hfar⟩ := remainder_nearest (j - y / turn) hlow hhigh
  rw [hmark, hdist, hdist]
  have hle : ∀ t : Int, t ≤ j → (c.sector : Int) + t * s.cfg.sectors ≤ c.sector + j * s.cfg.sectors := fun t ht => by
    have := mul_le_mul_of_nonneg_right ht hsectors.le
    omega
  by_cases hhalf : 2 * (y - y / turn * turn) ≤ turn
  · rw [if_pos hhalf, sub_self, zero_mul, sub_zero]
    exact ⟨(hnear hhalf).1, fun h => hle _ (by linarith [(hnear hhalf).2 h])⟩
  · rw [if_neg hhalf, add_sub_cancel_left, one_mul]
    exact ⟨(hfar (by omega)).1, fun h => hle _ (by linarith [(hfar (by omega)).2 h])⟩

/-- Settles O35: the candidates from the two equivalences, the nearest mark from the remainder by one turn. -/
theorem marksAreFoundByTheCandidateAndNearestRules : Obligations.MarksAreFoundByTheCandidateAndNearestRules := by
  refine ⟨fun s hcps => ?_, fun s c hcps hsector => ?_⟩
  · have hpos : 0 < s.cps := Int.natCast_pos.mpr hcps
    exact ⟨rfl, (lt_expected_positive_iff s _ hpos).mpr le_rfl, fun m => (lt_expected_positive_iff s m hpos).mp, rfl,
      (expected_negative_lt_iff s _ hpos).mpr le_rfl, fun m => (expected_negative_lt_iff s m hpos).mp,
      fun h => if_pos h, fun h => if_neg (not_le.mpr h)⟩
  · exact nearestMark_spec s c (Int.natCast_pos.mpr hcps) hsector

end Sys2Proof.Machine
end

section
/-! A capture pushed at an index edge whose step stands before it, and the mark check of REFERENCED. -/

namespace Sys2Proof.Machine

/-! ### The capture of an edge (R8, R10, R23) -/

/-- An index edge as it comes, with the unused step near it that qualifies it at once as the capture `x` (R8, R10). -/
structure IndexCapture (s : State) (c : Configuration) (a : Nat) (l : LastChange) (d : Direction) (x : Capture) : Prop where
  running : s.running = true
  config : s.port.config = some c
  settled : s.sensing.settling = false
  accepted : s.sensing.accepted = some a
  noEdge : s.sensing.pendingEdge = none
  change : s.sensing.lastChange = some l
  unused : l.used = false
  near : |l.counter.toInt - s.standby.counter.toInt| ≤ (c.cps : Int) / 8
  step : d = .positive ∧ l.new = (l.old + 1) % c.sectors
    ∨ d = .negative ∧ l.new ≠ (l.old + 1) % c.sectors ∧ l.old = (l.new + 1) % c.sectors
  capture : x = ⟨s.standby.counter, if d = .positive then l.new else l.old, d,
    if s.link.timed = true then s.link.cycle else none, none⟩

/-- The state with the step used and the capture `x` the newest of the list, resolved to `m` (R8, R10, R23). -/
def State.captured (s : State) (l : LastChange) (x : Capture) (m : Option Int) : State :=
  { s with sensing := { s.sensing with
      lastChange := some { l with used := true }
      captures := ((s.sensing.captures ++ [x]).drop (s.sensing.captures.length + 1 - 4)).dropLast
        ++ [{ x with mark := m }] } }

section
variable {s : State} {c : Configuration} {a : Nat} {l : LastChange} {d : Direction} {x : Capture}

theorem IndexCapture.cfg_eq (h : IndexCapture s c a l d x) : s.cfg = c := cfg_of_config h.config

theorem IndexCapture.raw_eq (h : IndexCapture s c a l d x) : x.raw = s.standby.counter := by rw [h.capture]

theorem IndexCapture.dir_eq (h : IndexCapture s c a l d x) : x.dir = d := by rw [h.capture]

theorem IndexCapture.mark_eq (h : IndexCapture s c a l d x) : x.mark = none := by rw [h.capture]

/-- The capture's sector is that of a step between two sectors of the track (R7). -/
theorem IndexCapture.sector_lt (h : IndexCapture s c a l d x) (hc : 0 < c.sectors) : x.sector < c.sectors := by
  rw [h.capture]
  rcases h.step with ⟨rfl, hnew⟩ | ⟨rfl, -, hold⟩
  · exact hnew ▸ Nat.mod_lt _ hc
  · exact hold ▸ Nat.mod_lt _ hc

/-- The edge's capture is pushed unresolved and offered to the engine (R8, R10). -/
theorem IndexCapture.exec_eq (h : IndexCapture s c a l d x) (dt : Time) :
    exec (.indexEdge dt) s = .next (offerCapture x ((s.later dt).captured l x none)) := by
  have hmark : d = .positive ∧ (if d = .positive then l.new else l.old) = l.new ∧ l.new = (l.old + 1) % c.sectors ∨
      d = .negative ∧ (if d = .positive then l.new else l.old) = l.old ∧ l.new ≠ (l.old + 1) % c.sectors ∧
        l.old = (l.new + 1) % c.sectors := by
    rcases h.step with ⟨rfl, hnew⟩ | ⟨rfl, hold⟩
    · exact .inl ⟨rfl, rfl, hnew⟩
    · exact .inr ⟨rfl, rfl, hold⟩
  obtain ⟨hdir, hsector⟩ := stepDirection_mark hmark
  have hpushed : (s.sensing.captures ++ [x]).drop (s.sensing.captures.length + 1 - 4) =
      ((s.sensing.captures ++ [x]).drop (s.sensing.captures.length + 1 - 4)).dropLast ++ [{ x with mark := none }] := by
    rw [← h.mark_eq]
    exact (List.dropLast_append_getLast? x (getLast?_pushed _ x)).symm
  rw [exec_indexEdge_step dt s c a l d x h.running h.config h.settled h.accepted h.noEdge h.change h.unused h.near hdir
    (hsector ▸ h.capture), hpushed]
  rfl

end

/-- The nearest rule fills in the newest capture (R23). -/
theorem setNewestMark_captured (m n : Option Int) (s : State) (l : LastChange) (x : Capture) :
    setNewestMark m (s.captured l x n) = s.captured l x m := by
  rw [setNewestMark_last m { x with mark := n } _ (by simp [State.captured])]
  simp [State.captured, State.setSensing]

/-! ### The mark check of REFERENCED (R24, R25) -/

/-- A capture within MARK_TOLERANCE leaves its deviation, one beyond it raises SLIP and the reference is lost (R24, R25). -/
theorem markCheck_eq (x : Capture) (s : State) : markCheck x s =
    if (s.cfg.markTolerance : Int) < |x.raw.toInt - s.expected (s.nearestMark x) x.dir| then
      raiseFault .slip .hold s.engine.operation.step (x.raw.toInt - s.expected (s.nearestMark x) x.dir)
        (engineLost (setNewestMark (some (s.nearestMark x)) s))
    else (setNewestMark (some (s.nearestMark x)) s).setEngine { s.engine with
      lastDeviation := some (x.raw.toInt - s.expected (s.nearestMark x) x.dir) } := by
  have hcfg : (setNewestMark (some (s.nearestMark x)) s).cfg = s.cfg := by simp [State.cfg]
  have hlt : s.cfg.markTolerance < (x.raw.toInt - s.expected (s.nearestMark x) x.dir).natAbs ↔
      (s.cfg.markTolerance : Int) < |x.raw.toInt - s.expected (s.nearestMark x) x.dir| := by
    rw [Int.abs_eq_natAbs, Int.ofNat_lt]
  simp only [markCheck, hcfg, hlt, setNewestMark_keeps]

/-- SLIP at an engine that held a reference leaves it UNREFERENCED, with no operation and not parked (R25). -/
theorem raiseSlip_spec (step : Option Nat) (v : Int) (s : State) (h : s.engine.refState = .referenced) :
    let t := raiseFault .slip .hold step v (engineLost s)
    t.engine.refState = .unreferenced ∧ t.engine.operation = .none ∧ t.engine.parked = false ∧
    t.engine.lastDeviation = s.engine.lastDeviation ∧ t.hasFault .slip .hold step v := by
  have hne : s.engine.refState ≠ .unreferenced := by simp [h]
  obtain ⟨hstate, hkept⟩ := engineLost_spec s
  obtain ⟨hoperation, hparked⟩ := hkept hne
  obtain ⟨toperation, tstate, tparked, tdeviation⟩ :=
    raiseFault_idle .slip .hold step v (engineLost s) (by simp) hoperation
  exact ⟨tstate.trans hstate, toperation, tparked.trans hparked, tdeviation.trans (engineLost_deviation s),
    raiseFault_hasFault _ _ _ _ _⟩

/-- Settles O37: the edge's capture is offered to the mark check. -/
theorem referencedCaptureIsChecked : Obligations.ReferencedCaptureIsChecked := by
  intro dt s c a l d x m hr hc hs ha hp hl hu hd hn href hx hm
  have hcap : IndexCapture s c a l d x := ⟨hr, hc, hs, ha, hp, hl, hu, hd, hn, hx⟩
  have hcheck : exec (.indexEdge dt) s = .next (markCheck x ((s.later dt).captured l x none)) := by
    rw [hcap.exec_eq]
    simp only [offerCapture, show ((s.later dt).captured l x none).engine.refState = .referenced from href]
  have hraw := hcap.raw_eq
  have hdir := hcap.dir_eq
  have hcfg := hcap.cfg_eq
  rw [markCheck_eq, setNewestMark_captured] at hcheck
  subst hm hcfg
  have hdev : x.raw.toInt - ((s.later dt).captured l x none).expected
      (((s.later dt).captured l x none).nearestMark x) x.dir =
      s.standby.counter.toInt - s.expected (s.nearestMark x) d := by
    rw [hraw, hdir]; rfl
  rw [hdev] at hcheck
  refine ⟨fun hin => ?_, fun hout => ?_⟩
  · rw [hcheck]
    exact congrArg Host.Outcome.next (if_neg (not_lt.mpr hin))
  · refine ⟨_, hcheck.trans (congrArg Host.Outcome.next (if_pos hout)), ?_⟩
    obtain ⟨hstate, hoperation, hparked, hlast, hfault⟩ := raiseSlip_spec s.engine.operation.step
      (s.standby.counter.toInt - s.expected (s.nearestMark x) d) ((s.later dt).captured l x (some (s.nearestMark x))) href
    exact ⟨hstate, hoperation, hparked, hlast, hfault, by simp [State.captured, State.later],
      by simp [State.captured, State.later], by simp [State.captured, State.later], by simp [State.captured, State.later]⟩

end Sys2Proof.Machine
end

section
/-! How a seek ends: its return to the entry state, the stall that ends it, and ABANDON. -/

namespace Sys2Proof.Machine

/-! ### The return of an ending seek (R39, R146) -/

/-- EXHAUSTED and STALLED are reported as RETRY faults (R39). -/
theorem seekReturn_failed (c : SeekContext) (e : SeekEnd) (code : FaultCode) (s : State)
    (h : e = .exhausted ∧ code = .seekExhausted ∨ e = .stalled ∧ code = .seekStalled) :
    seekReturn c e s = planRetry c.step code c.endDetail (seekFinish c s) := by
  rcases h with ⟨rfl, rfl⟩ | ⟨rfl, rfl⟩ <;> rfl

/-- ABANDONED and HOLD are reported as ended by a hold (R39). -/
theorem seekReturn_held (c : SeekContext) (e : SeekEnd) (s : State) (h : e = .abandoned ∨ e = .hold) :
    seekReturn c e s = planHeld c.step (seekFinish c s) := by
  rcases h with rfl | rfl <;> rfl

/-- Every return leaves no operation and the entry state (R39). -/
theorem seekReturn_engine (c : SeekContext) (e : SeekEnd) (s : State) :
    (seekReturn c e s).engine.operation = .none ∧
    (s.plan.demote = false → (seekReturn c e s).engine.refState = c.entry.state) := by
  obtain ⟨-, hoperation, hstate⟩ := seekFinish_frame c s
  have hfailed : ∀ code : FaultCode, (planRetry c.step code c.endDetail (seekFinish c s)).engine.operation = .none ∧
      (s.plan.demote = false →
        (planRetry c.step code c.endDetail (seekFinish c s)).engine.refState = c.entry.state) := fun code => by
    obtain ⟨hop, href, -, -⟩ := planRetry_frame c.step code c.endDetail (seekFinish c s) hoperation
    exact ⟨hop, fun hd => href.trans (hstate hd)⟩
  have hheld : (planHeld c.step (seekFinish c s)).engine = (seekFinish c s).engine := by simp
  cases e with
  | exhausted => exact hfailed .seekExhausted
  | stalled => exact hfailed .seekStalled
  | abandoned => exact hheld ▸ ⟨hoperation, hstate⟩
  | hold => exact hheld ▸ ⟨hoperation, hstate⟩

/-- The step of a seek that returns for a RETRY fault waits with one retry fewer, or with none left is PENDING (R146). -/
theorem seekReturn_retry (c : SeekContext) (e : SeekEnd) (code : FaultCode) (s : State) (i n : Nat)
    (h : e = .exhausted ∧ code = .seekExhausted ∨ e = .stalled ∧ code = .seekStalled) (hi : c.step = some i)
    (ht : s.plan.table[i]? = some ⟨.running, n, none⟩) :
    (seekReturn c e s).hasFault code .retry (some i) c.endDetail ∧
    (0 < n → (seekReturn c e s).plan.table[i]? = some ⟨.failedWait, n - 1, some (s.now + 500000000)⟩ ∧
      (seekReturn c e s).plan.claim = none ∧ (seekReturn c e s).plan.running = false ∧
      (seekReturn c e s).engine.order = (if s.engine.order.reason = some .hold then s.engine.order else .none) ∧
      (seekReturn c e s).hold.level = s.hold.level) ∧
    (n = 0 → (seekReturn c e s).plan.status i = some .pending ∧
      (seekReturn c e s).hasFault .retriesExhausted .hold (some i) (code.num : Int)) := by
  obtain ⟨htable, hoperation, -⟩ := seekFinish_frame c s
  obtain ⟨hhold, hnow, -⟩ := seekFinish_reach c s
  have hrunning : (seekFinish c s).plan.table[i]? = some ⟨.running, n, none⟩ := htable ▸ ht
  obtain ⟨hfault, hleft, hnone, -⟩ := planRetry_spec i n code c.endDetail (seekFinish c s) hrunning hoperation
  rw [seekReturn_failed c e code s h, hi]
  refine ⟨hfault, fun hn => ?_, hnone⟩
  obtain ⟨hwait, hclaim, hmove, hlevel⟩ := hleft hn
  refine ⟨hnow ▸ hwait, hclaim, hmove, ?_, hhold ▸ hlevel⟩
  rw [planRetry_left i n code c.endDetail _ hrunning hn, seekFinish_order]

/-- The step of a seek that returns for ABANDONED or HOLD is PENDING, no yield waiting (R39, R145). -/
theorem seekReturn_pending (c : SeekContext) (e : SeekEnd) (s : State) (i n : Nat) (h : e = .abandoned ∨ e = .hold)
    (hy : s.plan.yieldReturn = false ∨ s.hold.level ≠ .none) (hi : c.step = some i)
    (ht : s.plan.table[i]? = some ⟨.running, n, none⟩) :
    (seekReturn c e s).plan.table[i]? = some ⟨.pending, n, none⟩ ∧ (seekReturn c e s).plan.claim = none ∧
    (seekReturn c e s).plan.running = false ∧
    (seekReturn c e s).engine.order = (if s.engine.order.reason = some .hold then s.engine.order else .none) := by
  obtain ⟨hmove, -, hpending⟩ := planHeld_spec i n (seekFinish c s) ((seekFinish_frame c s).1 ▸ ht)
  rw [(seekFinish_plan c s).2, (seekFinish_reach c s).1] at hpending
  obtain ⟨hstatus, hclaim⟩ := hpending hy
  rw [seekReturn_held c e s h, hi]
  exact ⟨hstatus, hclaim, hmove, by rw [← seekFinish_order c s]; simp⟩

/-! ### The end cause of a running seek (R38, R39) -/

/-- A seek with its end cause and detail set (R38). -/
def SeekContext.ended (c : SeekContext) (e : SeekEnd) (v : Int) : SeekContext :=
  { c with endCause := some e, endDetail := v }

/-- The state with an end cause set at a seek and STOP ordered (R38, R40). -/
def State.seekEnding (s : State) (c : SeekContext) (e : SeekEnd) (v : Int) : State :=
  engineWrite (.stop .seek)
    (s.setEngine { s.engine with operation := .seek (c.ended e v) })

@[simp] theorem State.seekEnding_keeps (s : State) (c : SeekContext) (e : SeekEnd) (v : Int) :
    (s.seekEnding c e v).plan = s.plan ∧ (s.seekEnding c e v).hold = s.hold ∧ (s.seekEnding c e v).now = s.now ∧
    (s.seekEnding c e v).sensing = s.sensing ∧ (s.seekEnding c e v).still = s.still ∧
    (s.seekEnding c e v).engine.operation = .seek (c.ended e v) ∧
    (s.seekEnding c e v).engine.refState = s.engine.refState ∧ (s.seekEnding c e v).standby = s.standby ∧
    (s.seekEnding c e v).peers = s.peers ∧ (s.seekEnding c e v).mem = s.mem ∧ (s.seekEnding c e v).power = s.power ∧
    (s.seekEnding c e v).decoder = s.decoder ∧ (s.seekEnding c e v).coord = s.coord ∧
    (s.seekEnding c e v).link = s.link ∧ (s.seekEnding c e v).port.config = s.port.config := by
  simp [State.seekEnding, State.still]

/-- An end cause lets a seek return at once where the drive stands (R39). -/
theorem endSeek_eq (c : SeekContext) (e : SeekEnd) (v : Int) (s : State) : endSeek c e v s =
    if s.still = true then seekReturn (c.ended e v) e (s.seekEnding c e v)
    else s.seekEnding c e v := by
  rw [← (State.seekEnding_keeps s c e v).2.2.2.2.1]
  rfl

/-! ### STALL_TIMEOUT (R38) -/

theorem exec_stallTimeout (dt : Time) (s : State) (hr : s.running = true) :
    exec (.stallTimeout dt) s = .next (seekStall (advance dt s)) := by
  simp only [exec, execStallTimeout, running_advance, hr, if_true]

/-- STALL_TIME has passed from an instant (R38). -/
theorem stalledFrom_iff (s : State) (t : Time) : s.stalledFrom t = true ↔ t + s.cfg.stallTime * 1000000 ≤ s.now :=
  decide_eq_true_iff

/-- The stall ends a running seek whose window has stood for STALL_TIME, and no other (R38). -/
theorem seekStall_eq (c : SeekContext) (s : State) (hs : s.engine.refState = .seeking)
    (ho : s.engine.operation = .seek c) : seekStall s =
    if c.endCause = none ∧ c.stall.since + s.cfg.stallTime * 1000000 ≤ s.now then
      endSeek c .stalled ((s.standby.counter.toInt - c.stall.position.toInt).natAbs : Int) s
    else s := by
  have hiff : (decide (s.engine.refState = .seeking) && c.endCause.isNone && s.stalledFrom c.stall.since) = true ↔
      c.endCause = none ∧ c.stall.since + s.cfg.stallTime * 1000000 ≤ s.now := by
    simp [hs, stalledFrom_iff]
  simp only [seekStall, ho, hiff]
  rfl

/-- Settles O39: the stall sets the end cause, and at standstill the seek returns at once. -/
theorem seekStallEndsTheSeek : Obligations.SeekStallEndsTheSeek := by
  intro dt s c w hr hs ho hw
  rw [exec_stallTimeout dt s hr, seekStall_eq c (advance dt s) hs ho]
  refine ⟨fun hnot => congrArg Host.Outcome.next (if_neg ?_), fun hc hdue hmoving => ?_, fun hc hdue hstill => ?_⟩
  · rintro ⟨hc, hdue⟩
    exact hnot.elim (fun h => h hc) (fun h => absurd hdue (not_le.mpr h))
  · rw [if_pos ⟨hc, hdue⟩, endSeek_eq, if_neg (by simpa [State.still, advance] using hmoving)]
    obtain ⟨x, hx, hadded, hkept⟩ := engineWrite_reach (.stop .seek) ((advance dt s).setEngine { s.engine with
      operation := .seek { c with endCause := some .stalled, endDetail := w } })
    subst hw
    exact ⟨x, congrArg Host.Outcome.next hx, hadded, hkept⟩
  · rw [if_pos ⟨hc, hdue⟩, endSeek_eq, if_pos (show (advance dt s).still = true from hstill)]
    have hw' : ((advance dt s).standby.counter.toInt - c.stall.position.toInt).natAbs = w := hw.symm
    rw [hw']
    refine ⟨_, rfl, (seekReturn_engine _ _ _).1, fun hd => ?_, fun i k hi ht => ?_, ?_⟩
    · exact (seekReturn_engine (c.ended .stalled w) .stalled _).2 (by simpa [advance] using hd)
    · obtain ⟨hfault, hleft, hnone⟩ := seekReturn_retry (c.ended .stalled w) .stalled .seekStalled
        ((advance dt s).seekEnding c .stalled w) i k (.inr ⟨rfl, rfl⟩) hi (by simpa [advance] using ht)
      refine ⟨hfault, fun hk => ?_, hnone⟩
      obtain ⟨htable, hclaim, hmove, -, hlevel⟩ := hleft hk
      exact ⟨by simpa [advance] using htable, hclaim, hmove, by simpa [advance] using hlevel⟩
    · simp [advance]

end Sys2Proof.Machine
end

section
/-! ABANDON: what it answers, and how a seek or a survey that runs takes it. -/

namespace Sys2Proof.Machine

/-- A fault record stands in any state with the same list at the same station. -/
theorem hasFault_of_faults {s t : State} {code : FaultCode} {cls : FaultClass} {step : Option Nat} {v : Int}
    (h : s.hasFault code cls step v) (hf : t.hold.faults = s.hold.faults) (ho : t.own = s.own) :
    t.hasFault code cls step v := by
  obtain ⟨r, hr, hcode, hcls, horigin, hstep, hdetail⟩ := h
  exact ⟨r, hf ▸ hr, hcode, hcls, horigin.trans ho.symm, hstep, hdetail⟩

/-- A fault noted stands in the fault list (R156, R157). -/
theorem noteFault_hasFault (code : FaultCode) (cls : FaultClass) (step : Option Nat) (v : Int) (s : State) :
    (noteFault code cls step v s).hasFault code cls step v := by
  refine ⟨_, by rw [noteFault_faults]; exact recentFault_mem (recentFault_append_self _ _), rfl, rfl, ?_, rfl, rfl⟩
  simp [State.recordOf, State.own]

/-- Staging leaves the survey result and the pending record (R191). -/
theorem stageTest_results (s : State) : (stageTest s).cal.result = s.cal.result ∧
    (stageTest s).cal.pendBacklash = s.cal.pendBacklash ∧ (stageTest s).cal.pendTrim = s.cal.pendTrim := by
  simp only [stageTest, postWrite, grant, addPending]
  (repeat' split) <;> exact ⟨rfl, rfl, rfl⟩

/-! ### The answers (R40) -/

/-- ABANDON is decided on the opened state (R200). -/
theorem exec_abandon (dt : Time) (s : State) (h : s.portReady = true) :
    exec (.abandon dt []) s = .next (closeRequest (decideAbandon (s.opened dt))) :=
  congrArg Host.Outcome.next (answerRequest_taken 0 [] decideAbandon dt s h rfl)

/-- With no seek or survey held the answer is IDLE (R40). -/
theorem decideAbandon_idle (s : State) (hseek : ∀ c, s.engine.operation ≠ .seek c)
    (hsurvey : ∀ c, s.engine.operation ≠ .survey c) : decideAbandon s = .refuse .idle s := by
  cases ho : s.engine.operation with
  | none => simp only [decideAbandon, ho]
  | park p => simp only [decideAbandon, ho]
  | seek c => exact absurd ho (hseek c)
  | survey c => exact absurd ho (hsurvey c)

/-- A captured or an ending seek is TOO_LATE to abandon (R40). -/
theorem decideAbandon_seekEnding (c : SeekContext) (s : State) (ho : s.engine.operation = .seek c)
    (h : s.engine.refState ≠ .seeking ∨ c.endCause.isSome = true) : decideAbandon s = .refuse .tooLate s := by
  simp only [decideAbandon, ho]
  by_cases hs : s.engine.refState = .seeking
  · rw [if_neg (not_not_intro hs), if_pos (h.resolve_left (not_not_intro hs))]
  · exact if_pos hs

theorem decideAbandon_seek (c : SeekContext) (s : State) (ho : s.engine.operation = .seek c)
    (hs : s.engine.refState = .seeking) (hc : c.endCause = none) : decideAbandon s = .ok [] (abandonSeek c s) := by
  simp [decideAbandon, ho, hs, hc]

theorem decideAbandon_survey (c : SurveyContext) (s : State) (ho : s.engine.operation = .survey c) :
    decideAbandon s = if c.endCause.isSome = true then .refuse .tooLate s else .ok [] (stageTest (abandonSurvey c s)) := by
  simp only [decideAbandon, ho]

/-! ### A seek that is abandoned (R39, R40) -/

/-- The end cause is set, ABANDONED is raised, and at standstill the seek returns (R40). -/
theorem abandonSeek_eq (c : SeekContext) (s : State) : abandonSeek c s =
    if s.still = true then
      seekReturn (c.ended .abandoned 0) .abandoned
        (raiseFault .abandoned (if c.step.isSome then .hold else .note) c.step 1 (s.seekEnding c .abandoned 0))
    else raiseFault .abandoned (if c.step.isSome then .hold else .note) c.step 1 (s.seekEnding c .abandoned 0) := by
  have hstill : (raiseFault .abandoned (if c.step.isSome then .hold else .note) c.step 1
      (s.seekEnding c .abandoned 0)).still = s.still := by simp [State.still]
  rw [← hstill]
  rfl

/-- What an abandoned seek leaves (R39, R40, R156). -/
theorem abandonSeek_spec (c : SeekContext) (s : State) (hs : s.engine.refState = .seeking) :
    (abandonSeek c s).hasFault .abandoned (if c.step.isSome then .hold else .note) c.step 1 ∧
    (s.still = false → (abandonSeek c s).engine.refState = .seeking ∧
      (abandonSeek c s).engine.operation = .seek (c.ended .abandoned 0)) ∧
    (s.still = true → (abandonSeek c s).engine.operation = .none ∧
      (s.plan.demote = false → (abandonSeek c s).engine.refState = c.entry.state)) := by
  obtain ⟨u, hu⟩ : ∃ u, u = raiseFault .abandoned (if c.step.isSome then .hold else .note) c.step 1
      (s.seekEnding c .abandoned 0) := ⟨_, rfl⟩
  have hfault : u.hasFault .abandoned (if c.step.isSome then .hold else .note) c.step 1 :=
    hu ▸ raiseFault_hasFault _ _ _ _ _
  obtain ⟨hoperation, hstate, hdemote⟩ : u.engine.operation = .seek (c.ended .abandoned 0) ∧
      u.engine.refState = .seeking ∧ u.plan.demote = s.plan.demote := by
    have hcls : (if c.step.isSome then FaultClass.hold else .note) ≠ .abort := by split <;> simp
    simpa [hs, ← hu] using raiseFault_abandoned .abandoned _ c.step 1 (s.seekEnding c .abandoned 0)
      (c.ended .abandoned 0) hcls (by simp) rfl
  rw [abandonSeek_eq, ← hu]
  cases hstill : s.still
  · exact ⟨hfault, fun _ => ⟨hstate, hoperation⟩, nofun⟩
  · obtain ⟨hnone, hentry⟩ := seekReturn_engine (c.ended .abandoned 0) .abandoned u
    exact ⟨hasFault_of_faults hfault (by simp [seekReturn]) (by simp [seekReturn, State.own]), nofun,
      fun _ => ⟨hnone, fun hd => hentry (hdemote.trans hd)⟩⟩

/-! ### A survey that is abandoned (R40, R189) -/

/-- The state with an end cause set at a survey and STOP ordered (R40, R186). -/
def State.surveyEnding (s : State) (c : SurveyContext) : State :=
  engineWrite (.stop .survey) (s.setEngine { s.engine with operation := .survey c })

@[simp] theorem State.surveyEnding_keeps (s : State) (c : SurveyContext) :
    (s.surveyEnding c).plan = s.plan ∧ (s.surveyEnding c).hold = s.hold ∧ (s.surveyEnding c).now = s.now ∧
    (s.surveyEnding c).sensing = s.sensing ∧ (s.surveyEnding c).still = s.still ∧
    (s.surveyEnding c).engine.operation = .survey c ∧ (s.surveyEnding c).engine.refState = s.engine.refState ∧
    (s.surveyEnding c).cal = s.cal ∧ (s.surveyEnding c).link = s.link := by
  simp [State.surveyEnding, State.still]

/-- The end cause is set, ABANDONED is noted, and at standstill the survey ends (R40). -/
theorem abandonSurvey_eq (c : SurveyContext) (s : State) : abandonSurvey c s =
    if s.still = true then
      surveyFinish { c with endCause := some .abandoned } .abandoned false
        (noteFault .abandoned .note none 2 (s.surveyEnding { c with endCause := some .abandoned }))
    else noteFault .abandoned .note none 2 (s.surveyEnding { c with endCause := some .abandoned }) := by
  have hstill : (noteFault .abandoned .note none 2 (s.surveyEnding { c with endCause := some .abandoned })).still =
      s.still := by simp [State.still]
  rw [← hstill]
  rfl

/-- What an abandoned survey leaves (R40, R189). -/
theorem abandonSurvey_spec (c : SurveyContext) (s : State) :
    (abandonSurvey c s).hasFault .abandoned .note none 2 ∧
    (s.still = false → (abandonSurvey c s).engine.refState = s.engine.refState ∧
      (abandonSurvey c s).engine.operation = .survey { c with endCause := some .abandoned }) ∧
    (s.still = true → (abandonSurvey c s).engine.operation = .none ∧
      (s.plan.demote = false → (abandonSurvey c s).engine.refState = .referenced) ∧
      (abandonSurvey c s).port.attention.has .surveyDone = true ∧
      ∃ r, (abandonSurvey c s).cal.result = some r ∧ r.outcome = .abandoned) := by
  obtain ⟨u, hu⟩ : ∃ u, u = noteFault .abandoned .note none 2 (s.surveyEnding { c with endCause := some .abandoned }) :=
    ⟨_, rfl⟩
  have hfault : u.hasFault .abandoned .note none 2 := hu ▸ noteFault_hasFault _ _ _ _ _
  have hkept : u.engine.refState = s.engine.refState ∧
      u.engine.operation = .survey { c with endCause := some .abandoned } ∧ u.plan = s.plan := by simp [hu]
  obtain ⟨hstate, hoperation, hplan⟩ := hkept
  rw [abandonSurvey_eq, ← hu]
  cases hstill : s.still
  · exact ⟨hfault, fun _ => ⟨hstate, hoperation⟩, nofun⟩
  · obtain ⟨hnone, href, -, hcal, hhold, hlink, -, hdone⟩ :=
      surveyFinish_spec { c with endCause := some .abandoned } .abandoned false u
    exact ⟨hasFault_of_faults hfault (congrArg Hold.faults hhold) (congrArg Link.station hlink), nofun,
      fun _ => ⟨hnone, fun hd => href (hplan ▸ hd), hdone, _, congrArg Cal.result hcal, rfl⟩⟩

/-- Settles O13: ABANDON by the operation it finds, and whether that still runs. -/
theorem abandonEndsRunningOperation : Obligations.AbandonEndsRunningOperation := by
  intro dt s hp
  rw [exec_abandon dt s hp]
  refine ⟨fun hseek hsurvey => ?idle, fun c ho => ⟨fun hlate => ?seekLate, fun hs hc => ?seek⟩,
    fun c ho => ⟨fun hlate => ?surveyLate, fun hc => ?survey⟩⟩
  case idle =>
    rw [decideAbandon_idle (s.opened dt) hseek hsurvey]
    rfl
  case seekLate =>
    rw [decideAbandon_seekEnding c (s.opened dt) ho hlate]
    rfl
  case seek =>
    obtain ⟨hfault, hmoving, hstill⟩ := abandonSeek_spec c (s.opened dt) hs
    rw [decideAbandon_seek c (s.opened dt) ho hs hc, closeRequest_ok]
    exact ⟨_, rfl, rfl, hfault, hmoving, hstill, by simp⟩
  case surveyLate =>
    rw [decideAbandon_survey c (s.opened dt) ho, if_pos hlate]
    rfl
  case survey =>
    obtain ⟨hfault, hmoving, hstill⟩ := abandonSurvey_spec c (s.opened dt)
    have hresult := (stageTest_results (abandonSurvey c (s.opened dt))).1
    rw [decideAbandon_survey c (s.opened dt) ho, if_neg (by simp [hc]), closeRequest_ok]
    refine ⟨_, rfl, rfl, hasFault_of_faults hfault (by simp) (by simp [State.own]), fun h => ?_, fun h => ?_, ?_⟩
    · simpa using hmoving h
    · obtain ⟨hnone, href, hdone, r, hr, houtcome⟩ := hstill h
      exact ⟨by simpa using hnone, by simpa using href, by simpa [CauseSet.has] using hdone, r, hresult.trans hr, houtcome⟩
    · simp

end Sys2Proof.Machine
end

section
/-! How a park ends: at its standstill, and where its drive never left standstill. -/

namespace Sys2Proof.Machine

/-! ### The end of a park (R43, R144) -/

/-- The state with the park gone, the record NONE unless it holds reason HOLD (R43). -/
def State.parkEnded (s : State) (parked : Bool) : State :=
  engineWrite .none (s.setEngine { s.engine with operation := .none, parked := parked })

theorem parkEnded_engine (s : State) (parked : Bool) : (s.parkEnded parked).engine = { s.engine with
    operation := .none, parked := parked
    order := if s.engine.order.reason = some .hold then s.engine.order else .none } :=
  engineWrite_engine _ _

@[simp] theorem State.parkEnded_keeps (s : State) (parked : Bool) :
    (s.parkEnded parked).plan = s.plan ∧ (s.parkEnded parked).hold = s.hold ∧ (s.parkEnded parked).now = s.now := by
  simp [State.parkEnded]

/-- The joint stands within PARK_TOLERANCE (R42). -/
theorem atPark_iff (s : State) : s.atPark = true ↔ |s.parkError| ≤ (s.cfg.parkTolerance : Int) := by
  simp only [State.atPark, decide_eq_true_eq, Int.abs_eq_natAbs, Int.ofNat_le]

theorem parkStandstill_within (p : ParkOperation) (s : State) (h : |s.parkError| ≤ (s.cfg.parkTolerance : Int)) :
    parkStandstill p s = planDone p.step (s.parkEnded true) :=
  if_pos ((atPark_iff s).mpr h)

theorem parkStandstill_beyond (p : ParkOperation) (s : State) (h : (s.cfg.parkTolerance : Int) < |s.parkError|) :
    parkStandstill p s = planRetry p.step .parkMissed s.parkError (s.parkEnded s.engine.parked) :=
  if_neg (mt (atPark_iff s).mp (not_le.mpr h))

theorem parkWithdrawn_eq (p : ParkOperation) (s : State) :
    parkWithdrawn p s = planHeld p.step (s.parkEnded s.engine.parked) := rfl

/-- A park within PARK_TOLERANCE is DONE, and parked is true (R43). -/
theorem parkStandstill_done (p : ParkOperation) (s : State) (h : |s.parkError| ≤ (s.cfg.parkTolerance : Int)) :
    (parkStandstill p s).engine.parked = true ∧
    (parkStandstill p s).engine.order = (if s.engine.order.reason = some .hold then s.engine.order else .none) ∧
    (parkStandstill p s).hold = s.hold ∧
    ∀ i n, p.step = some i → s.plan.table[i]? = some ⟨.running, n, none⟩ →
      (parkStandstill p s).plan.table[i]? = some ⟨.done, n, none⟩ ∧ (parkStandstill p s).plan.claim = none ∧
      (parkStandstill p s).plan.running = false := by
  rw [parkStandstill_within p s h]
  refine ⟨by simp [parkEnded_engine], by simp [parkEnded_engine], by simp, fun i n hi ht => ?_⟩
  rw [hi]
  exact planDone_spec i n (s.parkEnded true) (by simpa using ht)

/-- A park beyond PARK_TOLERANCE leaves parked, and PARK_MISSED is recorded for its step (R43, R146). -/
theorem parkStandstill_missed (p : ParkOperation) (s : State) (h : (s.cfg.parkTolerance : Int) < |s.parkError|) :
    (parkStandstill p s).engine.parked = s.engine.parked ∧
    ((∀ i, p.step = some i → s.plan.status i ≠ some .running) →
      (parkStandstill p s).engine.order = (if s.engine.order.reason = some .hold then s.engine.order else .none) ∧
      (parkStandstill p s).hold = s.hold ∧ (parkStandstill p s).plan.table = s.plan.table) ∧
    ∀ i n, p.step = some i → s.plan.table[i]? = some ⟨.running, n, none⟩ →
      (parkStandstill p s).hasFault .parkMissed .retry (some i) s.parkError ∧
      (0 < n → (parkStandstill p s).plan.table[i]? = some ⟨.failedWait, n - 1, some (s.now + 500000000)⟩ ∧
        (parkStandstill p s).plan.claim = none ∧ (parkStandstill p s).plan.running = false ∧
        (parkStandstill p s).engine.order = (if s.engine.order.reason = some .hold then s.engine.order else .none)) ∧
      (n = 0 → (parkStandstill p s).plan.status i = some .pending ∧
        (parkStandstill p s).hasFault .retriesExhausted .hold (some i) 9 ∧
        (parkStandstill p s).engine.order = if s.hold.level = .lockout then
          (if s.engine.order.reason = some .hold then s.engine.order else .none) else .stop .hold) := by
  have hengine := parkEnded_engine s s.engine.parked
  obtain ⟨hplan, hhold, hnow⟩ := State.parkEnded_keeps s s.engine.parked
  have hnone : (s.parkEnded s.engine.parked).engine.operation = .none := by rw [hengine]
  have horder : (s.parkEnded s.engine.parked).engine.order =
      (if s.engine.order.reason = some .hold then s.engine.order else .none) := by rw [hengine]
  rw [parkStandstill_beyond p s h]
  refine ⟨?_, fun hidle => ?_, fun i n hi ht => ?_⟩
  · rw [(planRetry_frame p.step .parkMissed s.parkError _ hnone).2.2.1, hengine]
  · rw [planRetry_other p.step .parkMissed s.parkError _ (by rwa [hplan]), hplan]
    exact ⟨horder, hhold, rfl⟩
  · have hrunning : (s.parkEnded s.engine.parked).plan.table[i]? = some ⟨.running, n, none⟩ := hplan ▸ ht
    obtain ⟨hfault, hleft, hexhausted, -⟩ := planRetry_spec i n .parkMissed s.parkError _ hrunning hnone
    have hwritten := planRetry_order i n .parkMissed s.parkError _ hrunning
    rw [horder, hhold] at hwritten
    rw [hi]
    refine ⟨hfault, fun hn => ?_, fun hn => ?_⟩
    · obtain ⟨htable, hclaim, hmove, -⟩ := hleft hn
      exact ⟨hnow ▸ htable, hclaim, hmove, hwritten.trans (if_pos (.inl hn))⟩
    · obtain ⟨hpending, hretries⟩ := hexhausted hn
      exact ⟨hpending, hretries, hwritten.trans (by simp [hn])⟩

/-- Every end of a park leaves no operation and the reference state (R43, R144). -/
theorem parkStandstill_engine (p : ParkOperation) (s : State) :
    (parkStandstill p s).engine.operation = .none ∧ (parkStandstill p s).engine.refState = s.engine.refState := by
  rcases le_or_gt |s.parkError| (s.cfg.parkTolerance : Int) with hin | hout
  · rw [parkStandstill_within p s hin]
    simp [parkEnded_engine]
  · have hengine := parkEnded_engine s s.engine.parked
    obtain ⟨hnone, hstate, -, -⟩ :=
      planRetry_frame p.step .parkMissed s.parkError (s.parkEnded s.engine.parked) (by rw [hengine])
    rw [parkStandstill_beyond p s hout]
    exact ⟨hnone, hstate.trans (by rw [hengine])⟩

/-! ### PARK_NO_START (R43) -/

theorem exec_parkNoStart (dt : Time) (s : State) (hr : s.running = true) :
    exec (.parkNoStart dt) s = .next (parkStall (advance dt s)) := by
  simp only [exec, execParkNoStart, running_advance, hr, if_true]

/-- A park that has not left standstill for STALL_TIME ends as at a standstill, and no other (R43; log entry 53). -/
theorem parkStall_eq (p : ParkOperation) (s : State) (ho : s.engine.operation = .park p) : parkStall s =
    if p.leftStill = false ∧ s.sensing.drvStill.level = true ∧ p.withdrawn = false ∧
        p.since + s.cfg.stallTime * 1000000 ≤ s.now then parkStandstill p s else s := by
  have hiff : (!p.leftStill && s.still && !p.withdrawn && s.stalledFrom p.since) = true ↔
      p.leftStill = false ∧ s.sensing.drvStill.level = true ∧ p.withdrawn = false ∧
        p.since + s.cfg.stallTime * 1000000 ≤ s.now := by
    simp [stalledFrom_iff, State.still, and_assoc]
  simp only [parkStall, ho, hiff]

/-- Settles O40: the park ends by the tolerance as at a standstill. -/
theorem parkThatNeverStartsEnds : Obligations.ParkThatNeverStartsEnds := by
  intro dt s p e hr ho he
  subst he
  rw [exec_parkNoStart dt s hr, parkStall_eq p (advance dt s) ho]
  refine ⟨fun hnot => congrArg Host.Outcome.next (if_neg ?_), fun hleft hstill hkept hdue => ?_⟩
  · rintro ⟨hleft, hstill, hkept, hdue⟩
    rcases hnot with h | h | h | h
    · simp [hleft] at h
    · exact absurd (hstill.symm.trans h) (by simp)
    · simp [hkept] at h
    · exact absurd hdue (not_le.mpr h)
  · rw [if_pos ⟨hleft, hstill, hkept, hdue⟩]
    obtain ⟨hnone, hstate⟩ := parkStandstill_engine p (advance dt s)
    refine ⟨_, rfl, hnone, hstate, parkStandstill_done p (advance dt s), fun hout => ?_, by simp [advance]⟩
    obtain ⟨hparked, hidle, hretry⟩ := parkStandstill_missed p (advance dt s) hout
    refine ⟨hparked, hidle, fun i k hi ht => ?_⟩
    obtain ⟨hfault, hwait, hexhausted⟩ := hretry i k hi ht
    refine ⟨hfault, hwait, fun hk => ?_⟩
    obtain ⟨hpending, hretries, horder⟩ := hexhausted hk
    exact ⟨hpending, hretries, fun hl => horder.trans (if_neg hl), fun hl => horder.trans (if_pos hl)⟩

end Sys2Proof.Machine
end

section
/-! An arrival of DRV_STILL by the operation it finds. -/

namespace Sys2Proof.Machine

/-! ### The state an arrival acts on (R1) -/

/-- The state `dt` later with filtered DRV_STILL active (R1). -/
def State.standing (s : State) (dt : Time) : State :=
  { s.later dt with sensing := { s.sensing with drvStill := ⟨true, 0⟩ } }

@[simp] theorem State.standing_keeps (s : State) (dt : Time) :
    (s.standing dt).engine = s.engine ∧ (s.standing dt).plan = s.plan ∧ (s.standing dt).hold = s.hold ∧
    (s.standing dt).cal = s.cal ∧ (s.standing dt).link = s.link ∧ (s.standing dt).standby = s.standby ∧
    (s.standing dt).mem = s.mem ∧ (s.standing dt).peers = s.peers ∧ (s.standing dt).coord = s.coord ∧
    (s.standing dt).port = s.port ∧ (s.standing dt).now = s.now + dt ∧
    (s.standing dt).sensing = { s.sensing with drvStill := ⟨true, 0⟩ } :=
  ⟨rfl, rfl, rfl, rfl, rfl, rfl, rfl, rfl, rfl, rfl, rfl, rfl⟩

/-- A fault that stands once the engine has acted stands after the arrival (log entry 12). -/
theorem stillArrival_hasFault {s : State} {code : FaultCode} {cls : FaultClass} {step : Option Nat} {v : Int}
    (hs : s.sensing.drvStill.level = true) (h : (engineStandstill s).hasFault code cls step v) :
    (stillArrival s).hasFault code cls step v := by
  obtain ⟨-, -, -, hfaults, -, hlink, -⟩ := stillArrival_spec s hs _ rfl
  exact hasFault_of_faults h hfaults (congrArg Link.station hlink)

/-! ### The engine at an arrival, by its operation (R32, R37, R39, R43) -/

section
variable {s : State} (hm : s.engine.mismatch = none)
include hm

theorem engineStandstill_idle (ho : s.engine.operation = .none) : engineStandstill s = s := by
  simp only [engineStandstill, mismatchResolve, hm, ho]

theorem engineStandstill_captured {c : SeekContext} (ho : s.engine.operation = .seek c)
    (hs : s.engine.refState = .captured) : engineStandstill s = capturedComplete c s := by
  simp only [engineStandstill, mismatchResolve, hm, ho, hs, if_true]

theorem engineStandstill_ending {c : SeekContext} {e : SeekEnd} (ho : s.engine.operation = .seek c)
    (hs : s.engine.refState ≠ .captured) (he : c.endCause = some e) : engineStandstill s = seekReturn c e s := by
  simp only [engineStandstill, mismatchResolve, hm, ho, if_neg hs, he]

theorem engineStandstill_seeking {c : SeekContext} (ho : s.engine.operation = .seek c)
    (hs : s.engine.refState ≠ .captured) (he : c.endCause = none) : engineStandstill s = s := by
  simp only [engineStandstill, mismatchResolve, hm, ho, if_neg hs, he]

theorem engineStandstill_park {p : ParkOperation} (ho : s.engine.operation = .park p) :
    engineStandstill s = if p.withdrawn = true then parkWithdrawn p s else parkStandstill p s := by
  simp only [engineStandstill, mismatchResolve, hm, ho]

theorem engineStandstill_surveyEnding {k : SurveyContext} {e : SurveyEnd} (ho : s.engine.operation = .survey k)
    (he : k.endCause = some e) : engineStandstill s = surveyReturn k e s := by
  simp only [engineStandstill, mismatchResolve, hm, ho, he]

theorem engineStandstill_surveying {k : SurveyContext} (ho : s.engine.operation = .survey k) (he : k.endCause = none) :
    engineStandstill s = surveyStandstill k s := by
  simp only [engineStandstill, mismatchResolve, hm, ho, he]

end

/-- A pending mismatch report resolves its step, the record NONE unless it holds reason HOLD (R32). -/
theorem engineStandstill_mismatch {s : State} {w : Option Nat} (hm : s.engine.mismatch = some w)
    (ho : s.engine.operation = .none) :
    engineStandstill s = planDone w (engineWrite .none (s.setEngine { s.engine with mismatch := none })) := by
  have hresolved : mismatchResolve s = planDone w (engineWrite .none (s.setEngine { s.engine with mismatch := none })) := by
    simp only [mismatchResolve, hm]
  have hnone : (mismatchResolve s).engine.operation = .none := by simp [hresolved, ho]
  rw [← hresolved]
  simp only [engineStandstill, hnone]

/-- CAPTURED completes: REFERENCED with no operation, the step DONE (R37). -/
theorem capturedComplete_spec (c : SeekContext) (s : State) :
    (capturedComplete c s).engine.operation = .none ∧
    (s.plan.demote = false → (capturedComplete c s).engine.refState = .referenced) ∧
    (capturedComplete c s).engine.order = (if s.engine.order.reason = some .hold then s.engine.order else .none) ∧
    ∀ i n, c.step = some i → s.plan.table[i]? = some ⟨.running, n, none⟩ →
      (capturedComplete c s).plan.table[i]? = some ⟨.done, n, none⟩ ∧ (capturedComplete c s).plan.claim = none ∧
      (capturedComplete c s).plan.running = false := by
  obtain ⟨u, hu⟩ : ∃ u, u = engineWrite .none (s.setEngine { s.engine with refState := .referenced, operation := .none }) :=
    ⟨_, rfl⟩
  have hengine : u.engine = { s.engine with
      refState := .referenced, operation := .none
      order := if s.engine.order.reason = some .hold then s.engine.order else .none } := hu ▸ engineWrite_engine _ _
  have hplan : u.plan = s.plan := by simp [hu]
  have hdone : capturedComplete c s = planDone c.step (operationEnded u) := hu ▸ rfl
  have hkept : (planDone c.step (operationEnded u)).engine = (operationEnded u).engine := by simp
  rw [hdone, hkept]
  refine ⟨?_, fun hd => ?_, ?_, fun i n hi ht => ?_⟩
  · rw [(operationEnded_spec u).1, hengine]
  · rw [(operationEnded_spec u).2 (hplan ▸ hd), hengine]
  · rw [operationEnded_order, hengine]
  · rw [hi]
    exact planDone_spec i n _ (by rw [(operationEnded_frame u).1, hplan]; exact ht)

/-- A withdrawn park leaves parked and is reported ended by a hold (R144, R145). -/
theorem parkWithdrawn_spec (p : ParkOperation) (s : State) :
    (parkWithdrawn p s).engine.operation = .none ∧ (parkWithdrawn p s).engine.refState = s.engine.refState ∧
    (parkWithdrawn p s).engine.parked = s.engine.parked ∧
    (parkWithdrawn p s).engine.order = (if s.engine.order.reason = some .hold then s.engine.order else .none) ∧
    ∀ i n, p.step = some i → s.plan.table[i]? = some ⟨.running, n, none⟩ →
      (parkWithdrawn p s).plan.running = false ∧
      (s.plan.yieldReturn = true → s.hold.level = .none →
        (parkWithdrawn p s).plan.table[i]? = some ⟨.claiming, n, none⟩ ∧
        (parkWithdrawn p s).plan.claim = s.plan.claim ∧ (parkWithdrawn p s).plan.claimSent = none) ∧
      ((s.plan.yieldReturn = false ∨ s.hold.level ≠ .none) →
        (parkWithdrawn p s).plan.table[i]? = some ⟨.pending, n, none⟩ ∧ (parkWithdrawn p s).plan.claim = none) := by
  have hengine : (parkWithdrawn p s).engine = (s.parkEnded s.engine.parked).engine := by simp [parkWithdrawn_eq]
  rw [hengine, parkEnded_engine]
  refine ⟨rfl, rfl, rfl, rfl, fun i n hi ht => ?_⟩
  rw [parkWithdrawn_eq, hi]
  simpa using planHeld_spec i n (s.parkEnded s.engine.parked) (by simpa using ht)

/-! ### The arrival as a whole -/

/-- Settles O29: the engine's end by its operation, then the gate and the entry test. -/
theorem standstillEndsTheOperation : Obligations.StandstillEndsTheOperation := by
  intro dt s o hr hlow hcount ho hsurvey
  subst ho
  obtain ⟨u, hu⟩ : ∃ u, u = s.standing dt := ⟨_, rfl⟩
  have hexec : exec (.switchSample dt .drvStill true) s = .next (stillArrival u) := hu ▸ exec_stillArrival hr hlow hcount
  obtain ⟨uengine, uplan, uhold, -⟩ := State.standing_keeps s dt
  rw [← hu] at uengine uplan uhold
  have hnow : u.now = s.now + dt := hu ▸ rfl
  have herror : u.parkError = s.standby.counter.toInt - s.cfg.parkPosition.toInt := hu ▸ rfl
  have htolerance : u.cfg.parkTolerance = s.cfg.parkTolerance := hu ▸ rfl
  have hbrake : u.sensing.brkFb = s.sensing.brkFb := hu ▸ rfl
  have hstill : u.sensing.drvStill.level = true := hu ▸ rfl
  have hpeers : (engineStandstill u).peerRecords = s.peerRecords :=
    peerRecords_congr (by simp [hu]) (by simp [hu])
  obtain ⟨hengine, hplan, hlevel, -, hseq, -, -, -, -, -, hdropped, hopen, hclosed, hcomplete⟩ :=
    stillArrival_spec u hstill _ rfl
  rw [hbrake] at hclosed hcomplete
  rw [hpeers, ← hseq] at hcomplete
  refine ⟨stillArrival u, hexec, by simp [hu], by simp [hu], by simp [hu], by simp [hu], by simp [hu], by simp [hu],
    by simp [hu], fun hm => ⟨fun c hc => ⟨fun hcap => ?captured, fun e hcap he => ?ending, fun hcap he => ?seeking⟩,
      fun p hp => ?park, fun hidle => ?idle⟩, fun w hm hidle => ?mismatch, hdropped, hopen, hclosed, hcomplete⟩
  all_goals rw [hengine, hplan]
  all_goals rw [← uengine] at hm ⊢
  all_goals rw [← uplan]
  case captured =>
    rw [engineStandstill_captured hm (uengine ▸ hc) (uengine ▸ hcap)]
    exact capturedComplete_spec c u
  case ending =>
    have hx := engineStandstill_ending hm (uengine ▸ hc) (uengine ▸ hcap) he
    rw [hx]
    obtain ⟨hnone, hentry⟩ := seekReturn_engine c e u
    refine ⟨hnone, hentry, fun i n hi ht => ⟨fun code hcode => ?_, fun hcode hyield => ?_⟩⟩
    · obtain ⟨hfault, hleft, hexhausted⟩ := seekReturn_retry c e code u i n hcode hi ht
      refine ⟨stillArrival_hasFault hstill (hx ▸ hfault), fun hn => ?_, fun hn => ?_⟩
      · obtain ⟨htable, hclaim, hmove, horder, hkept⟩ := hleft hn
        exact ⟨hnow ▸ htable, hclaim, hmove, horder, hlevel.trans (by rw [hx, hkept, uhold])⟩
      · exact ⟨(hexhausted hn).1, stillArrival_hasFault hstill (hx ▸ (hexhausted hn).2)⟩
    · exact seekReturn_pending c e u i n hcode (uhold ▸ hyield) hi ht
  case seeking =>
    rw [engineStandstill_seeking hm (uengine ▸ hc) (uengine ▸ hcap) he]
    exact ⟨rfl, rfl⟩
  case park =>
    have hx := engineStandstill_park hm (uengine ▸ hp)
    cases hw : p.withdrawn
    case false =>
      rw [if_neg (by simp [hw])] at hx
      rw [hx]
      obtain ⟨hnone, hstate⟩ := parkStandstill_engine p u
      refine ⟨hnone, hstate, fun e _ he => ⟨fun hin => ?_, fun hout => ?_⟩, nofun⟩
      · obtain ⟨hparked, horder, -, hdone⟩ := parkStandstill_done p u (by rwa [herror, htolerance, ← he])
        exact ⟨hparked, horder, hdone⟩
      · obtain ⟨hparked, -, hretry⟩ := parkStandstill_missed p u (by rwa [herror, htolerance, ← he])
        refine ⟨hparked, fun i n hi ht => ?_⟩
        obtain ⟨hfault, hwait, hexhausted⟩ := hretry i n hi ht
        rw [herror, ← he] at hfault
        refine ⟨stillArrival_hasFault hstill (hx ▸ hfault), hnow ▸ hwait, fun hn => ?_⟩
        obtain ⟨hpending, hretries, -⟩ := hexhausted hn
        exact ⟨hpending, stillArrival_hasFault hstill (hx ▸ hretries)⟩
    case true =>
      obtain ⟨hnone, hstate, hparked, horder, hheld⟩ := parkWithdrawn_spec p u
      rw [hx, if_pos hw]
      exact ⟨hnone, hstate, nofun, fun _ => ⟨hparked, horder, uhold ▸ hheld⟩⟩
  case idle =>
    rw [engineStandstill_idle hm (uengine ▸ hidle)]
    exact ⟨rfl, rfl⟩
  case mismatch =>
    rw [engineStandstill_mismatch hm (uengine ▸ hidle)]
    have hkept : ∀ x : State, (planDone w x).engine = x.engine := fun x => by simp
    refine ⟨(hkept _).trans (engineWrite_engine _ _), fun i n hi ht => ?_⟩
    rw [hi]
    exact planDone_spec i n _ (by simpa using ht)

end Sys2Proof.Machine
end

section
/-! What a seek makes of a capture: its claim, a mismatch, or a mark alone. -/

namespace Sys2Proof.Machine

/-! ### What a seek makes of a capture, by its kind (R31 to R35) -/

/-- A capture of the other direction gets its mark alone (R23). -/
theorem seekCapture_otherDir (k : SeekContext) (x : Capture) (s : State) (h : x.dir ≠ k.dir) :
    seekCapture k x s = seekIgnores k x s := by
  simp only [seekCapture, if_pos h]

/-- A WITNESS claims where the nearest mark is its target within WITNESS_TOLERANCE, and mismatches elsewhere (R32). -/
theorem seekCapture_witness (k : SeekContext) (x : Capture) (s : State) (hk : k.kind = .witness) (hd : x.dir = k.dir) :
    seekCapture k x s =
      if s.nearestMark x = k.target ∧
          |x.raw.toInt - s.expected k.target x.dir| ≤ (s.cfg.witnessTolerance : Int) then
        seekClaim k (s.expected k.target x.dir) (setNewestMark (some (s.nearestMark x)) s)
      else witnessMismatch k (x.raw.toInt - s.expected k.target x.dir) (setNewestMark (some (s.nearestMark x)) s) := by
  have hcfg : (setNewestMark (some (s.nearestMark x)) s).cfg = s.cfg := by simp [State.cfg]
  simp only [seekCapture, hd, hk, ne_eq, not_true_eq_false, if_false, hcfg, Int.abs_eq_natAbs, Int.ofNat_le]

/-- An INDEX seek claims the mark of its travel range with the capture's sector (R33). -/
theorem seekCapture_index (k : SeekContext) (x : Capture) (s : State) (m : Int) (hk : k.kind = .index)
    (hd : x.dir = k.dir) (hm : s.travelMark x.sector = some m) :
    seekCapture k x s = seekClaim k (s.expected m x.dir) (setNewestMark (some m) s) := by
  simp only [seekCapture, hd, hk, hm, ne_eq, not_true_eq_false, if_false]

/-- An INDEX seek whose travel range has no mark of the capture's sector does not take it (R33). -/
theorem seekCapture_outOfRange (k : SeekContext) (x : Capture) (s : State) (hk : k.kind = .index)
    (hm : s.travelMark x.sector = none) : seekCapture k x s = seekIgnores k x s := by
  by_cases hd : x.dir = k.dir
  · simp only [seekCapture, hd, hk, hm, ne_eq, not_true_eq_false, if_false]
  · exact seekCapture_otherDir k x s hd

/-- A SWITCH seek claims the home mark in TO_MARK, beyond the phase start and in its sector (R35). -/
theorem seekCapture_switch (k : SeekContext) (x : Capture) (s : State) (hk : k.kind = .switch) :
    seekCapture k x s =
      if x.dir = k.dir ∧ k.phase = .toMark ∧ beyond k.dir x.raw k.phaseStart = true ∧
          (x.sector : Int) = s.homeMark k.dir % (s.cfg.sectors : Int) then
        seekClaim k (s.expected (s.homeMark k.dir) x.dir) (setNewestMark (some (s.homeMark k.dir)) s)
      else seekIgnores k x s := by
  by_cases hd : x.dir = k.dir
  · simp [seekCapture, hd, hk, and_assoc]
  · rw [seekCapture_otherDir k x s hd, if_neg fun h => hd h.1]

/-- A running seek is offered the capture, an ending one gives it its mark alone (R23, R31). -/
theorem offerCapture_seeking (k : SeekContext) (x : Capture) (s : State) (hs : s.engine.refState = .seeking)
    (ho : s.engine.operation = .seek k) :
    offerCapture x s = if k.endCause = none then seekCapture k x s else seekIgnores k x s := by
  simp only [offerCapture, hs, ho, Option.isNone_iff_eq_none]

/-- PROVISIONAL and CAPTURED give a capture its mark alone (R23). -/
theorem offerCapture_marked (x : Capture) (s : State)
    (h : s.engine.refState = .provisional ∨ s.engine.refState = .captured) :
    offerCapture x s = setNewestMark (some (s.nearestMark x)) s := by
  rcases h with h | h <;> simp only [offerCapture, h]

/-! ### A claim taken (R15, R37) -/

/-- What a seek leaves whose claim takes the capture at the counter (R13, R15, R32, R33, R35, R37). -/
theorem seekClaim_taken (k : SeekContext) (v : Int) (s : State) (y : Capture) (hs : s.sensing.settling = false)
    (hy : s.sensing.captures.getLast? = some y) (hr : y.raw = s.standby.counter) (ho : s.engine.operation = .seek k)
    (hc : k.endCause = none) :
    (seekClaim k v s).standby = { s.standby with counter := BitVec.ofInt 40 v, continuity := true, error := .none } ∧
    (seekClaim k v s).sensing.captures.getLast? = some { y with raw := BitVec.ofInt 40 v } ∧
    (s.still = false → (seekClaim k v s).engine.refState = .captured ∧
      (∃ q, (seekClaim k v s).engine.operation = .seek q ∧ q.kind = k.kind ∧ q.step = k.step ∧ q.endCause = none) ∧
      (seekClaim k v s).engine.order = (if s.engine.order.reason = some .hold then s.engine.order else .stop .seek) ∧
      (seekClaim k v s).plan = s.plan) ∧
    (s.still = true → (seekClaim k v s).engine.operation = .none ∧
      (s.plan.demote = false → (seekClaim k v s).engine.refState = .referenced) ∧
      (seekClaim k v s).engine.order = (if s.engine.order.reason = some .hold then s.engine.order else .none) ∧
      (∀ i n, k.step = some i → s.plan.table[i]? = some ⟨.running, n, none⟩ →
        (seekClaim k v s).plan.table[i]? = some ⟨.done, n, none⟩ ∧ (seekClaim k v s).plan.claim = none ∧
        (seekClaim k v s).plan.running = false)) ∧
    (seekClaim k v s).hold = s.hold ∧ (seekClaim k v s).mem = s.mem ∧ (seekClaim k v s).peers = s.peers ∧
    (seekClaim k v s).coord = s.coord ∧ (seekClaim k v s).cal = s.cal := by
  obtain ⟨q, hkind, hstep, hcause, hclaim, hmoved⟩ := seekClaim_spec k v s y hs hy hr ho
  obtain ⟨astandby, asensing, -, -, aorder, aplan, ahold, amem, apeers, acoord, acal⟩ :=
    applySet_spec v s.standby.counter s
  obtain ⟨hmoving, hstill, cstandby, csensing, chold, cmem, cpeers, ccoord, ccal⟩ :=
    enterCaptured_spec q (applySet v s.standby.counter s)
  have hshift : s.standby.counter.shift (v - s.standby.counter.toInt) = BitVec.ofInt 40 v := shift_claim _ _
  have hsame : (applySet v s.standby.counter s).still = s.still := congrArg (fun z => z.drvStill.level) asensing
  rw [hsame, aorder, aplan] at hmoving hstill
  rw [hmoved] at hmoving
  rw [hclaim]
  refine ⟨?_, ?_, fun h => ?_, fun h => ?_, chold.trans ahold, cmem.trans amem, cpeers.trans apeers,
    ccoord.trans acoord, ccal.trans acal⟩
  · rw [cstandby, astandby, hshift]
  · rw [csensing, asensing]
    simp [Sensing.moved, List.getLast?_map, hy, Capture.moved, hr, hshift]
  · obtain ⟨hstate, hoperation, horder, hplan⟩ := hmoving h
    exact ⟨hstate, ⟨q, hoperation, hkind, hstep, hcause.trans hc⟩, horder, hplan⟩
  · rw [← hstep]
    exact hstill h

/-! ### The capture of an index edge, offered to a seek -/

section
variable {s : State} {c : Configuration} {a : Nat} {l : LastChange} {d : Direction} {x : Capture} {k : SeekContext}

/-- What makes a running seek take a capture of its direction as mark `m` (R32, R33, R35). -/
def State.takesMark (s : State) (c : Configuration) (d : Direction) (x : Capture) (k : SeekContext) (m : Int) : Prop :=
  k.kind = .witness ∧ m = k.target ∧ s.nearestMark x = m
      ∧ |s.standby.counter.toInt - s.expected m d| ≤ (c.witnessTolerance : Int)
    ∨ k.kind = .index ∧ c.travelMin ≤ m ∧ m ≤ c.travelMax ∧ m % (c.sectors : Int) = (x.sector : Int)
      ∧ c.travelMax - c.travelMin < (c.sectors : Int)
    ∨ k.kind = .switch ∧ k.phase = .toMark
      ∧ (d = .positive → k.phaseStart.toInt < s.standby.counter.toInt)
      ∧ (d = .negative → s.standby.counter.toInt < k.phaseStart.toInt)
      ∧ m = (if d = .positive then c.homeMarkPos else c.homeMarkNeg) ∧ (x.sector : Int) = m % (c.sectors : Int)

/-- What makes a seek leave a capture untaken (R23, R31, R33, R35). -/
def State.leavesCapture (s : State) (c : Configuration) (d : Direction) (x : Capture) (k : SeekContext) : Prop :=
  k.endCause ≠ none ∨ d ≠ k.dir
    ∨ k.kind = .index ∧ (∀ n : Int, c.travelMin ≤ n → n ≤ c.travelMax → n % (c.sectors : Int) ≠ (x.sector : Int))
      ∧ 0 < c.sectors
    ∨ k.kind = .switch ∧ (k.phase = .toSwitch
      ∨ (d = .positive ∧ s.standby.counter.toInt ≤ k.phaseStart.toInt)
      ∨ (d = .negative ∧ k.phaseStart.toInt ≤ s.standby.counter.toInt)
      ∨ (x.sector : Int) ≠ (if d = .positive then c.homeMarkPos else c.homeMarkNeg) % (c.sectors : Int))

theorem homeMark_eq (hc : s.cfg = c) (d : Direction) :
    s.homeMark d = if d = .positive then c.homeMarkPos else c.homeMarkNeg := by
  subst hc
  cases d <;> rfl

/-- Beyond a position in a direction (R35). -/
theorem beyond_iff (d : Direction) (p q : Position) : beyond d p q = true ↔
    (d = .positive → q.toInt < p.toInt) ∧ (d = .negative → p.toInt < q.toInt) := by
  cases d <;> simp [beyond]

/-- The claim a running seek presents for a capture it takes (R32, R33, R35). -/
theorem IndexCapture.seekCapture_taken (h : IndexCapture s c a l d x) (dt : Time) (hd : d = k.dir) (m : Int)
    (hm : s.takesMark c d x k m) : seekCapture k x ((s.later dt).captured l x none) =
      seekClaim k (s.expected m d) ((s.later dt).captured l x (some m)) := by
  have hdir : x.dir = k.dir := h.dir_eq.trans hd
  have hcfg : ((s.later dt).captured l x none).cfg = c := h.cfg_eq
  have hexpected : ((s.later dt).captured l x none).expected m x.dir = s.expected m d := by rw [h.dir_eq]; rfl
  rcases hm with ⟨hk, rfl, hnear, hin⟩ | ⟨hk, hmin, hmax, hsector, hrange⟩ | ⟨hk, hphase, hpos, hneg, rfl, hsector⟩
  · have hnear' : ((s.later dt).captured l x none).nearestMark x = k.target := hnear
    rw [seekCapture_witness k x _ hk hdir, hnear', setNewestMark_captured, hexpected, h.raw_eq, hcfg]
    exact if_pos ⟨rfl, hin⟩
  · rw [seekCapture_index k x _ m hk hdir (travelMark_of _ c x.sector m hcfg hmin hmax hsector hrange),
      setNewestMark_captured, hexpected]
  · have hhome := homeMark_eq hcfg k.dir
    rw [← hd] at hhome
    rw [seekCapture_switch k x _ hk, ← hd, hhome, setNewestMark_captured, hexpected, h.raw_eq, hcfg]
    exact if_pos ⟨h.dir_eq, hphase, (beyond_iff _ _ _).mpr ⟨hpos, hneg⟩, hsector⟩

/-- The mismatch of a WITNESS whose nearest mark is not its target within WITNESS_TOLERANCE (R32). -/
theorem IndexCapture.seekCapture_mismatch (h : IndexCapture s c a l d x) (dt : Time) (hd : d = k.dir)
    (hk : k.kind = .witness) (hm : s.nearestMark x ≠ k.target
      ∨ (c.witnessTolerance : Int) < |s.standby.counter.toInt - s.expected k.target d|) :
    seekCapture k x ((s.later dt).captured l x none) =
      witnessMismatch k (s.standby.counter.toInt - s.expected k.target d)
        ((s.later dt).captured l x (some (s.nearestMark x))) := by
  have hcfg : ((s.later dt).captured l x none).cfg = c := h.cfg_eq
  have hexpected : ((s.later dt).captured l x none).expected k.target x.dir = s.expected k.target d := by
    rw [h.dir_eq]; rfl
  rw [seekCapture_witness k x _ hk (h.dir_eq.trans hd), setNewestMark_captured, hexpected, h.raw_eq, hcfg]
  exact if_neg fun ⟨hnear, hin⟩ => hm.elim (fun hne => hne hnear) (fun hout => absurd hin (not_le.mpr hout))

/-- A capture left untaken by a seek (R23, R31, R33, R35). -/
theorem IndexCapture.offerCapture_left (h : IndexCapture s c a l d x) (dt : Time) (hs : s.engine.refState = .seeking)
    (ho : s.engine.operation = .seek k) (hm : s.leavesCapture c d x k) :
    offerCapture x ((s.later dt).captured l x none) = seekIgnores k x ((s.later dt).captured l x none) := by
  have hcfg : ((s.later dt).captured l x none).cfg = c := h.cfg_eq
  rw [offerCapture_seeking k x ((s.later dt).captured l x none) hs ho]
  by_cases hc : k.endCause = none
  swap
  · exact if_neg hc
  rw [if_pos hc]
  by_cases hd : d = k.dir
  swap
  · exact seekCapture_otherDir k x _ (h.dir_eq ▸ hd)
  rcases hm with hm | hm | ⟨hk, hrange, hpos⟩ | ⟨hk, hm⟩
  · exact absurd hc hm
  · exact absurd hd hm
  · exact seekCapture_outOfRange k x _ hk (travelMark_none _ c x.sector hcfg hpos (h.sector_lt hpos) hrange)
  · have hhome := homeMark_eq hcfg k.dir
    rw [seekCapture_switch k x _ hk, ← hd]
    rw [← hd] at hhome
    refine if_neg ?_
    rintro ⟨-, hphase, hbeyond, hsector⟩
    rw [hhome, hcfg] at hsector
    rw [beyond_iff, h.raw_eq] at hbeyond
    obtain ⟨hpos, hneg⟩ := hbeyond
    rcases hm with hm | ⟨hdp, hm⟩ | ⟨hdn, hm⟩ | hm
    · simp [hm] at hphase
    · exact absurd (hpos hdp) (not_lt.mpr hm)
    · exact absurd (hneg hdn) (not_lt.mpr hm)
    · exact hm hsector

/-- The mark a capture that is not taken gets: none before the first reference (R23, R30). -/
theorem seekIgnores_captured (k : SeekContext) (s : State) (l : LastChange) (x : Capture) :
    seekIgnores k x (s.captured l x none) =
      s.captured l x (if k.entry = .unreferenced then none else some (s.nearestMark x)) := by
  unfold seekIgnores
  split
  · rfl
  · exact setNewestMark_captured _ _ _ _ _

end

/-- Settles O36: the capture of the edge is claimed, mismatches, or gets its mark alone. -/
theorem seekTakesItsCapture : Obligations.SeekTakesItsCapture := by
  intro dt s c a l d x hr hc hs ha hp hl hu hd hn hx
  have hcap : IndexCapture s c a l d x := ⟨hr, hc, hs, ha, hp, hl, hu, hd, hn, hx⟩
  have hlast : ∀ m, ((s.later dt).captured l x m).sensing.captures.getLast? = some { x with mark := m } := fun m => by
    simp [State.captured]
  refine ⟨fun k href ho he hk => ?running, fun m hm => ?left⟩
  case running =>
    have hoffer : exec (.indexEdge dt) s = .next (seekCapture k x ((s.later dt).captured l x none)) := by
      rw [hcap.exec_eq, offerCapture_seeking k x ((s.later dt).captured l x none) href ho, if_pos he]
    refine ⟨fun m hm => ⟨_, hoffer.trans (congrArg _ (hcap.seekCapture_taken dt hk m hm)), ?_⟩, fun hw hm =>
      ⟨_, hoffer.trans (congrArg _ (hcap.seekCapture_mismatch dt hk hw hm)), ?_⟩⟩
    · exact seekClaim_taken k (s.expected m d) ((s.later dt).captured l x (some m)) _ hs (hlast _) hcap.raw_eq ho he
    · exact witnessMismatch_spec k (s.standby.counter.toInt - s.expected k.target d)
        ((s.later dt).captured l x (some (s.nearestMark x)))
  case left =>
    rw [hcap.exec_eq]
    refine congrArg Host.Outcome.next ?_
    rcases hm with ⟨k, href, ho, rfl, hleft⟩ | ⟨href, rfl⟩
    · exact (hcap.offerCapture_left dt href ho hleft).trans (seekIgnores_captured k (s.later dt) l x)
    · exact (offerCapture_marked x ((s.later dt).captured l x none) href).trans (setNewestMark_captured _ _ _ _ _)

end Sys2Proof.Machine
end

section
/-! What a survey makes of a capture, and the phases it enters by GOTO. -/

namespace Sys2Proof.Machine

/-! ### The phases of a survey (R186 to R188) -/

theorem isCapture_iff (k : SurveyContext) : k.isCapture = true ↔ k.phase = 2 ∨ k.kind = .backlash ∧ k.phase = 4 := by
  simp [SurveyContext.isCapture]

/-- The counter lies within CPS/16 of a phase's target (R186; log entry 52). -/
theorem nearTarget_iff (s : State) (k : SurveyContext) :
    s.nearTarget k = true ↔ |s.counter - (s.surveyTarget k).toInt| ≤ (s.cfg.cps : Int) / 16 := by
  have hdist := dist_abs s.standby.counter (s.surveyTarget k)
  simp only [State.nearTarget, decide_eq_true_eq, State.counter]
  omega

/-! ### The targets (R187, R188) -/

theorem surveyTarget_approach (s : State) (k : SurveyContext) (h : k.phase = 1) :
    s.surveyTarget k = BitVec.ofInt 40 (s.expected k.mark .positive - s.cps / 4) := by
  simp only [State.surveyTarget, h]
  cases k.kind <;> rfl

theorem surveyTarget_phaseThree (s : State) (k : SurveyContext) (hk : k.kind = .backlash) (h : k.phase = 3) :
    s.surveyTarget k = BitVec.ofInt 40 (s.expected k.mark .positive + s.cps / 4) := by
  simp only [State.surveyTarget, hk, h]
  rfl

theorem surveyTarget_return (s : State) (k : SurveyContext)
    (h : k.kind = .backlash ∧ k.phase = 5 ∨ k.kind = .ratio ∧ k.phase = 3) : s.surveyTarget k = k.start := by
  rcases h with ⟨hk, h⟩ | ⟨hk, h⟩ <;> simp only [State.surveyTarget, hk, h]

/-! ### A phase entered by GOTO (R28, R186) -/

/-- `t` is `s` with phase `q` entered by GOTO `g`: OVERTRAVEL where an active limit stands in its way, else the order and
the context alone; where it ends at once, the same of the JOG that follows it (R28, R186, R187). -/
def State.entersGoto (s : State) (q : SurveyContext) (g : Position) (atOnce : Prop) (t : State) : Prop :=
  (s.counter < g.toInt → s.sensing.limPos.level = true → t.hasFault .overtravel .hold none 1) ∧
  (g.toInt < s.counter → s.sensing.limNeg.level = true → t.hasFault .overtravel .hold none (-1)) ∧
  ((s.counter < g.toInt → s.sensing.limPos.level = false) → (g.toInt < s.counter → s.sensing.limNeg.level = false) →
    (¬atOnce → t.engine = { s.engine with operation := .survey q, order := .goto g s.cfg.slow .survey } ∧
      t.sensing = s.sensing ∧ t.hold = s.hold ∧ t.cal = s.cal ∧ t.plan = s.plan ∧ t.gate = s.gate) ∧
    (atOnce → s.sensing.limNeg.level = true → t.hasFault .overtravel .hold none (-1)) ∧
    (atOnce → s.sensing.limNeg.level = false →
      t.engine = { s.engine with
        operation := .survey (s.surveyPhase q 4), order := .jog .negative s.cfg.creep .survey } ∧
      t.sensing = s.sensing ∧ t.hold = s.hold ∧ t.cal = s.cal ∧ t.plan = s.plan ∧ t.gate = s.gate))

/-- The phases after the second captures are entered by their GOTO alone (R187, R188). -/
theorem surveyEnterGoto_enters {k q : SurveyContext} {p : Nat} {g : Position} {s : State} {atOnce : Prop}
    (ho : s.engine.order.reason ≠ some .hold) (hq : q = s.surveyPhase k p) (hg : s.surveyTarget q = g)
    (hno : ¬atOnce) : s.entersGoto q g atOnce (surveyEnterGoto k p s) := by
  obtain ⟨hpos, hneg, hfree⟩ := surveyEnterGoto_spec k p s ho q g hq hg.symm
  refine ⟨fun hlt hl => ?_, fun hlt hl => ?_, fun hp hn =>
    ⟨fun _ => ?_, fun h => absurd h hno, fun h => absurd h hno⟩⟩
  · rw [hpos hlt hl]
    exact raiseFault_hasFault _ _ _ _ _
  · rw [hneg hlt hl]
    exact raiseFault_hasFault _ _ _ _ _
  · obtain ⟨x, hx⟩ := hfree hp hn
    rw [hx]
    exact ⟨rfl, rfl, rfl, rfl, rfl, rfl⟩

/-! ### The approach that may end at once (R186, R187) -/

theorem engineOrder_older {n : Nat} {r : FaultRecord} (o : MotionOrder) (s : State) (hn : n ≤ 5)
    (h : recentFault n r s.hold.faults) : recentFault (n + 3) r (engineOrder o s).hold.faults := by
  simp only [engineOrder]
  split
  · exact recentFault_mono h (by omega)
  · split
    · exact raiseFault_older _ _ _ _ _ hn (by simpa using h)
    · exact recentFault_mono (by simpa using h) (by omega)

/-- An approach is entered by its GOTO, and where it ends at once the capture phase follows (R186). -/
theorem surveyEnterApproach_cases (k : SurveyContext) (p : Nat) (s : State) :
    surveyEnterApproach k p s = surveyEnterGoto k p s ∨
    ∃ q, surveyEnterApproach k p s = surveyEnterCapture q (p + 1) (surveyEnterGoto k p s) := by
  simp only [surveyEnterApproach]
  split
  · split
    · exact .inr ⟨_, rfl⟩
    · exact .inl rfl
  · exact .inl rfl

/-- OVERTRAVEL raised by an approach's GOTO stands whatever follows it (R28, R157). -/
theorem surveyEnterApproach_overtravel {k : SurveyContext} {p : Nat} {s z : State} {v : Int}
    (h : surveyEnterGoto k p s = raiseFault .overtravel .hold none v z) :
    (surveyEnterApproach k p s).hasFault .overtravel .hold none v := by
  obtain ⟨r, hr, hcode, hcls, horigin, hstep, hdetail⟩ := raiseFault_recent .overtravel .hold none v z
  rw [← h] at hr
  have hown : z.own = (surveyEnterApproach k p s).own := by
    have hgoto : (surveyEnterGoto k p s).link.station = z.link.station := by rw [h]; simp
    simpa [State.own] using hgoto.symm
  refine ⟨r, ?_, hcode, hcls, horigin.trans hown, hstep, hdetail⟩
  rcases surveyEnterApproach_cases k p s with he | ⟨q, he⟩
  · exact he ▸ recentFault_mem hr
  · exact he ▸ recentFault_mem (engineOrder_older (n := 3) _ _ (by omega) (by simpa using hr))

theorem surveyEnterApproach_of {k q : SurveyContext} {p : Nat} {s : State}
    (h : (surveyEnterGoto k p s).engine.operation = .survey q) (hc : q.endCause = none) :
    surveyEnterApproach k p s =
      if s.still = true ∧ (surveyEnterGoto k p s).nearTarget q = true then
        surveyEnterCapture q (p + 1) (surveyEnterGoto k p s)
      else surveyEnterGoto k p s := by
  have hstill : (surveyEnterGoto k p s).still = s.still := by simp [State.still]
  simp only [surveyEnterApproach, h, hc, Option.isNone_none, Bool.true_and, Bool.and_eq_true, hstill]

/-- Phase 3 of BACKLASH is entered by its GOTO, and ends at once where the drive stands near the target (R186, R187). -/
theorem surveyEnterApproach_enters {k q : SurveyContext} {g : Position} {s : State} {atOnce : Prop}
    (ho : s.engine.order.reason ≠ some .hold) (hq : q = s.surveyPhase k 3) (hg : s.surveyTarget q = g)
    (hk : k.kind = .backlash) (hc : k.endCause = none)
    (hat : atOnce ↔ s.still = true ∧ |s.counter - g.toInt| ≤ (s.cfg.cps : Int) / 16) :
    s.entersGoto q g atOnce (surveyEnterApproach k 3 s) := by
  obtain ⟨hpos, hneg, hfree⟩ := surveyEnterGoto_spec k 3 s ho q g hq hg.symm
  refine ⟨fun hlt hl => surveyEnterApproach_overtravel (hpos hlt hl),
    fun hlt hl => surveyEnterApproach_overtravel (hneg hlt hl), fun hp hn => ?_⟩
  obtain ⟨x, hx⟩ := hfree hp hn
  have hof := surveyEnterApproach_of (k := k) (q := q) (p := 3) (s := s) (by rw [hx]) (by rw [hq]; exact hc)
  have hiff : s.still = true ∧ (surveyEnterGoto k 3 s).nearTarget q = true ↔ atOnce := by
    have htarget : (surveyEnterGoto k 3 s).surveyTarget q = g := by rw [hx, ← hg]; rfl
    rw [hat, nearTarget_iff, htarget, hx]
    rfl
  have horder : (surveyEnterGoto k 3 s).engine.order.reason ≠ some .hold := by rw [hx]; simp [MotionOrder.reason]
  have hkind : q.kind = .backlash := by rw [hq]; exact hk
  obtain ⟨-, hlimit, hjog⟩ := surveyEnterCapture_spec q 4 (surveyEnterGoto k 3 s) horder _ _ rfl rfl
  refine ⟨fun hfar => ?_, fun hnear hl => ?_, fun hnear hl => ?_⟩
  · rw [hof, if_neg (mt hiff.mp hfar), hx]
    exact ⟨rfl, rfl, rfl, rfl, rfl, rfl⟩
  · rw [hof, if_pos (hiff.mpr hnear)]
    exact hlimit rfl (by rw [hx]; exact hl)
  · obtain ⟨y, hy⟩ := hjog (fun h => by cases h) (fun _ => by rw [hx]; exact hl)
    rw [hof, if_pos (hiff.mpr hnear), hy, hkind, hx]
    exact ⟨rfl, rfl, rfl, rfl, rfl, rfl⟩

/-! ### The capture of an index edge, offered to a survey (R23, R186 to R188) -/

section
variable {s : State} {c : Configuration} {a : Nat} {l : LastChange} {d : Direction} {x : Capture} {k : SurveyContext}

/-- A survey takes a capture in a capture phase, in its direction beyond the phase start, of the mark it looks for; any
other gets its mark alone (R23, R186). -/
theorem IndexCapture.offerCapture_surveying (h : IndexCapture s c a l d x) (dt : Time)
    (hs : s.engine.refState = .surveying) (ho : s.engine.operation = .survey k) :
    offerCapture x ((s.later dt).captured l x none) =
      if k.endCause = none ∧ (k.phase = 2 ∨ k.kind = .backlash ∧ k.phase = 4) ∧ d = k.dir ∧
          ((d = .positive → k.phaseStart.toInt < s.standby.counter.toInt) ∧
            (d = .negative → s.standby.counter.toInt < k.phaseStart.toInt)) ∧
          s.nearestMark x = k.wanted then
        surveyTake k x ((s.later dt).captured l x (some (s.nearestMark x)))
      else (s.later dt).captured l x (some (s.nearestMark x)) := by
  have hoffer : offerCapture x ((s.later dt).captured l x none) = surveyCapture k x ((s.later dt).captured l x none) := by
    simp only [offerCapture, show ((s.later dt).captured l x none).engine.refState = .surveying from hs,
      show ((s.later dt).captured l x none).engine.operation = .survey k from ho]
  have hmark : ((s.later dt).captured l x none).nearestMark x = s.nearestMark x := rfl
  have hbeyond : d = k.dir → (beyond k.dir s.standby.counter k.phaseStart = true ↔
      (d = .positive → k.phaseStart.toInt < s.standby.counter.toInt) ∧
      (d = .negative → s.standby.counter.toInt < k.phaseStart.toInt)) := by
    rintro rfl
    exact beyond_iff _ _ _
  rw [hoffer]
  simp only [surveyCapture, hmark, setNewestMark_captured, h.dir_eq, h.raw_eq, Bool.and_eq_true, decide_eq_true_eq,
    Option.isNone_iff_eq_none, isCapture_iff, and_assoc]
  refine if_congr (and_congr_right fun _ => and_congr_right fun _ => and_congr_right fun hd => ?_) rfl rfl
  rw [hbeyond hd, and_assoc]

end

theorem dir_of_phase_two {k : SurveyContext} (h : k.phase = 2) : k.dir = .positive := by simp [SurveyContext.dir, h]

theorem dir_of_phase_four {k : SurveyContext} (h : k.phase = 4) : k.dir = .negative := by simp [SurveyContext.dir, h]

/-- The mark looked for is the survey's, and after RATIO's first capture the one above it (R187, R188). -/
theorem wanted_eq (k : SurveyContext) : (k.kind = .backlash ∨ k.first = none → k.wanted = k.mark) ∧
    (k.kind = .ratio → k.first ≠ none → k.wanted = k.mark + 1) := by
  refine ⟨fun h => if_neg ?_, fun hk hf => if_pos ⟨hk, Option.isSome_iff_ne_none.mpr hf⟩⟩
  rintro ⟨hk, hf⟩
  rcases h with h | h
  · simp [h] at hk
  · simp [h] at hf

/-! ### What a survey does with a capture it takes (R187, R188) -/

theorem surveyTake_cpos (k : SurveyContext) (x : Capture) (s : State) (hk : k.kind = .backlash) (hp : k.phase = 2) :
    surveyTake k x s = surveyEnterApproach { k with first := some x.raw } 3 s := by
  simp only [surveyTake, hk, hp, if_true]

theorem surveyTake_cneg (k : SurveyContext) (x : Capture) (s : State) (f : Position) (hk : k.kind = .backlash)
    (hp : k.phase = 4) (hf : k.first = some f) : surveyTake k x s =
      surveyEnterGoto { k with second := some x.raw, measure := some |f.toInt - x.raw.toInt| } 5 s := by
  have hne : ¬k.phase = 2 := by omega
  simp only [surveyTake, hk, if_neg hne, hf, Option.getD_some, Int.abs_eq_natAbs]

theorem surveyTake_ratioFirst (k : SurveyContext) (x : Capture) (s : State) (hk : k.kind = .ratio) (hf : k.first = none) :
    surveyTake k x s = s.setEngine { s.engine with
      operation := .survey { k with first := some x.raw, base := x.raw } } := by
  simp only [surveyTake, hk, hf]

theorem surveyTake_ratioSecond (k : SurveyContext) (x : Capture) (s : State) (f : Position) (hk : k.kind = .ratio)
    (hf : k.first = some f) : surveyTake k x s = surveyEnterGoto { k with
      second := some x.raw
      measure := some (((x.raw.toInt - f.toInt - s.cps) * 1000000).tdiv s.cps) } 3 s := by
  simp only [surveyTake, hk, hf]

end Sys2Proof.Machine
end

section
/-! How a survey ends, and what a standstill and a counted transition make of one that runs. -/

namespace Sys2Proof.Machine

/-! ### A survey that is over (R46, R189) -/

/-- The survey of `s` is over in `t`: no operation, REFERENCED where no demotion waits, and SURVEY_DONE (R46, R189). -/
def State.surveyOver (s t : State) : Prop :=
  t.engine.operation = .none ∧ (s.plan.demote = false → t.engine.refState = .referenced) ∧
  t.port.attention.surveyDone = true

/-- What the end of a survey leaves (R46, R189). -/
theorem surveyFinish_over (k : SurveyContext) (o : SurveyOutcome) (filled : Bool) (s : State) :
    s.surveyOver (surveyFinish k o filled s) := by
  obtain ⟨hnone, hstate, -, -, -, -, -, hdone⟩ := surveyFinish_spec k o filled s
  exact ⟨hnone, hstate, hdone⟩

/-- A fault raised after the end leaves the survey over, with its result (R189). -/
theorem raiseFault_over (code : FaultCode) (cls : FaultClass) (step : Option Nat) (v : Int) (s t : State)
    (hc : cls ≠ .abort) (h : s.surveyOver t) : s.surveyOver (raiseFault code cls step v t) := by
  obtain ⟨hnone, hstate, hdone⟩ := h
  obtain ⟨tnone, tstate, -, -⟩ := raiseFault_idle code cls step v t hc hnone
  exact ⟨tnone, fun hd => tstate.trans (hstate hd), raiseFault_has code cls step v .surveyDone t hdone⟩

/-- An ending survey ends for its cause: its result, and SURVEY_FAILED for a failure (R189). -/
theorem surveyReturn_spec (k : SurveyContext) (e : SurveyEnd) (s : State) :
    s.surveyOver (surveyReturn k e s) ∧
    (surveyReturn k e s).engine.order = (if s.engine.order.reason = some .hold then s.engine.order else .none) ∧
    (surveyReturn k e s).cal = { s.cal with result := some (k.resultWith e.outcome false s.link.cycle) } ∧
    (e = .failed → (surveyReturn k e s).hasFault .surveyFailed .note none (k.failPhase : Int)) ∧
    (e ≠ .failed → (surveyReturn k e s).hold.faults = s.hold.faults) := by
  obtain ⟨hnone, hstate, hdone⟩ := surveyFinish_over k e.outcome false s
  obtain ⟨-, -, horder, hcal, hhold, -⟩ := surveyFinish_spec k e.outcome false s
  by_cases hf : e = .failed
  · have heq : surveyReturn k e s =
        noteFault .surveyFailed .note none (k.failPhase : Int) (surveyFinish k e.outcome false s) := if_pos hf
    rw [heq]
    exact ⟨⟨by simpa using hnone, by simpa using hstate, noteFault_has _ _ _ _ .surveyDone _ hdone⟩, by simpa using horder,
      by simpa using hcal, fun _ => noteFault_hasFault _ _ _ _ _, fun hne => absurd hf hne⟩
  · have heq : surveyReturn k e s = surveyFinish k e.outcome false s := if_neg hf
    rw [heq]
    exact ⟨⟨hnone, hstate, hdone⟩, horder, hcal, fun h => absurd h hf, fun _ => congrArg Hold.faults hhold⟩

/-! ### Where a survey stands still (R186, R189) -/

theorem isReturn_iff (k : SurveyContext) :
    k.isReturn = true ↔ k.kind = .backlash ∧ k.phase = 5 ∨ k.kind = .ratio ∧ k.phase = 3 := by
  cases hk : k.kind <;> simp [SurveyContext.isReturn, hk]

theorem surveyStandstill_return (k : SurveyContext) (s : State)
    (h : k.kind = .backlash ∧ k.phase = 5 ∨ k.kind = .ratio ∧ k.phase = 3) : surveyStandstill k s = surveyComplete k s :=
  if_pos ((isReturn_iff k).mpr h)

theorem surveyStandstill_capture (k : SurveyContext) (s : State)
    (h : k.phase = 2 ∨ k.kind = .backlash ∧ k.phase = 4) : surveyStandstill k s = s := by
  have hreturn : ¬k.isReturn = true := by
    rw [isReturn_iff]
    rintro (⟨-, h5⟩ | ⟨hk, h3⟩)
    · omega
    · simp [hk, h3] at h
  exact (if_neg hreturn).trans (if_pos ((isCapture_iff k).mpr h))

theorem surveyStandstill_approach (k : SurveyContext) (s : State)
    (h : k.phase = 1 ∨ k.kind = .backlash ∧ k.phase = 3) : surveyStandstill k s =
      if s.nearTarget k = true then surveyEnterCapture k (k.phase + 1) s else surveyFail k k.phase s := by
  have hreturn : ¬k.isReturn = true := by
    rw [isReturn_iff]
    rintro (⟨-, h5⟩ | ⟨hk, h3⟩)
    · omega
    · simp [hk, h3] at h
  have hcapture : ¬k.isCapture = true := by
    rw [isCapture_iff]
    omega
  exact (if_neg hreturn).trans (if_neg hcapture)

/-! ### A survey that completes (R189) -/

/-- BACKLASH completes with its value filled in, or beyond BACKLASH_LIMIT with BACKLASH_HIGH (R155, R189). -/
theorem surveyComplete_backlash (k : SurveyContext) (s : State) (v : Int) (hk : k.kind = .backlash)
    (hv : k.measure = some v) : surveyComplete k s =
      if v ≤ (s.cfg.backlashLimit : Int) then
        surveyFinish k .done true (s.setCal { s.cal with pendBacklash := some v })
      else raiseFault .backlashHigh (dispositionClass s.hold.backlashHold) none v (surveyFinish k .done false s) := by
  simp only [surveyComplete, hk, hv, Option.getD_some, raiseBacklash, surveyFinish_keeps]

/-- RATIO completes, beyond RATIO_TOLERANCE with RATIO_OFF (R155, R189). -/
theorem surveyComplete_ratio (k : SurveyContext) (s : State) (v : Int) (hk : k.kind = .ratio)
    (hv : k.measure = some v) : surveyComplete k s =
      if (s.cfg.ratioTolerance : Int) < |v| then
        raiseFault .ratioOff (dispositionClass s.hold.ratioHold) none v (surveyFinish k .done false s)
      else surveyFinish k .done false s := by
  simp only [surveyComplete, hk, hv, Option.getD_some, raiseRatio, surveyFinish_keeps, Int.abs_eq_natAbs, Int.ofNat_lt]

/-- A survey that completes with a fault is over, with its result and the pending record as it was (R189). -/
theorem raiseFault_complete (code : FaultCode) (isHold : Bool) (k : SurveyContext) (v : Int) (s : State) :
    let t := raiseFault code (dispositionClass isHold) none v (surveyFinish k .done false s)
    s.surveyOver t ∧ t.cal.result = some (k.resultWith .done false s.link.cycle) ∧
    t.cal.pendBacklash = s.cal.pendBacklash ∧ t.hasFault code (dispositionClass isHold) none v := by
  have hne := dispositionClass_ne isHold
  have hover := surveyFinish_over k .done false s
  obtain ⟨-, -, -, hcal, -⟩ := surveyFinish_spec k .done false s
  obtain ⟨hresult, hpend, -⟩ := raiseFault_results code _ none v (surveyFinish k .done false s) hne hover.1
  rw [hcal] at hresult hpend
  exact ⟨raiseFault_over code _ none v s _ hne hover, hresult, hpend, raiseFault_hasFault _ _ _ _ _⟩

/-! ### What no standstill of a survey writes (R184) -/

theorem surveyReturn_pendTrim (k : SurveyContext) (e : SurveyEnd) (s : State) :
    (surveyReturn k e s).cal.pendTrim = s.cal.pendTrim := by
  obtain ⟨-, -, hcal, -⟩ := surveyReturn_spec k e s
  rw [hcal]

theorem surveyFail_pendTrim (k : SurveyContext) (p : Nat) (s : State) :
    (surveyFail k p s).cal.pendTrim = s.cal.pendTrim := by
  simp only [surveyFail]
  split
  · simp [surveyReturn_pendTrim]
  · simp

theorem engineOrder_pendTrim (o : MotionOrder) (s : State) : (engineOrder o s).cal.pendTrim = s.cal.pendTrim := by
  simp only [engineOrder]
  split
  · rfl
  · split
    · rw [(raiseFault_pend _ _ _ _ _ (by simp)).2]
      simp
    · simp

theorem surveyComplete_pendTrim (k : SurveyContext) (s : State) :
    (surveyComplete k s).cal.pendTrim = s.cal.pendTrim := by
  have hfinish : ∀ b z, (surveyFinish k .done b z).cal.pendTrim = z.cal.pendTrim := fun b z => by
    rw [(surveyFinish_spec k .done b z).2.2.2.1]
  simp only [surveyComplete]
  split <;> split
  · simp [hfinish]
  · rw [raiseBacklash, (raiseFault_pend _ _ _ _ _ (dispositionClass_ne _)).2, hfinish]
  · rw [raiseRatio, (raiseFault_pend _ _ _ _ _ (dispositionClass_ne _)).2, hfinish]
  · exact hfinish _ _

theorem surveyStandstill_pendTrim (k : SurveyContext) (s : State) :
    (surveyStandstill k s).cal.pendTrim = s.cal.pendTrim := by
  simp only [surveyStandstill]
  split
  · exact surveyComplete_pendTrim k s
  · split
    · rfl
    · split
      · exact engineOrder_pendTrim _ _
      · exact surveyFail_pendTrim k k.phase s

/-! ### A counted transition while a survey runs (R38, R186) -/

/-- The travel of a survey since its base, in the direction of its capture phase (R186). -/
def SurveyContext.gone (k : SurveyContext) (p : Position) : Int :=
  if k.phase = 4 then k.base.toInt - p.toInt else p.toInt - k.base.toInt

theorem stallMoved_eq (s : State) (w : StallWindow) : s.stallMoved w =
    if (s.cfg.cps : Int) / 16 ≤ |s.standby.counter.toInt - w.position.toInt| then ⟨s.standby.counter, s.now⟩ else w :=
  if_congr (le_dist_iff _ _ _) rfl rfl

/-- A capture phase that has gone beyond 2 x CPS fails; else the stall window follows (R38, R186). -/
theorem engineTravel_survey (k : SurveyContext) (s : State) (ho : s.engine.operation = .survey k)
    (hc : k.endCause = none) : engineTravel s =
      if (k.phase = 2 ∨ k.kind = .backlash ∧ k.phase = 4) ∧ 2 * s.cps < k.gone s.standby.counter then
        surveyFail k k.phase s
      else s.setEngine { s.engine with operation := .survey { k with stall := s.stallMoved k.stall } } := by
  by_cases hp : k.phase = 4
  · simp only [engineTravel, ho, hc, if_true, isCapture_iff, dir_of_phase_four hp, SurveyContext.gone, if_pos hp]
    rfl
  · simp only [engineTravel, ho, hc, if_true, isCapture_iff, show k.dir = .positive from if_neg hp, SurveyContext.gone,
      if_neg hp]
    rfl

/-- A survey that fails away from standstill is ending (R186). -/
theorem surveyFail_moving (k : SurveyContext) (p : Nat) (s : State) (h : s.still = false) :
    surveyFail k p s = s.surveyEnding { k with endCause := some .failed, failPhase := p } := by
  refine if_neg ?_
  rw [show (engineWrite (.stop .survey) (s.setEngine { s.engine with
    operation := .survey { k with endCause := some .failed, failPhase := p } })).still = s.still by simp [State.still], h]
  simp

/-- The state the engine's checks find at a counted transition with no edge pending (R4, R44; log entry 51). -/
theorem mainTransition_noEdge (up : Bool) (s : State) (h : s.sensing.pendingEdge = none) :
    mainTransition up s = stageTest (engineTravel (parkedCheck (countTransition up s))) := by
  have hno : edgeDistance (countTransition up s) = countTransition up s := by
    simp only [edgeDistance, show (countTransition up s).sensing.pendingEdge = none from h]
  rw [mainTransition, hno]

end Sys2Proof.Machine
end

section
/-! A survey's captures, standstills and travel. -/

namespace Sys2Proof.Machine

/-! ### What a running survey makes of an index edge (R186 to R188) -/

@[simp] theorem captured_later_keeps (s : State) (dt : Time) (l : LastChange) (x : Capture) (m : Option Int) :
    ((s.later dt).captured l x m).standby = s.standby ∧ ((s.later dt).captured l x m).mem = s.mem ∧
    ((s.later dt).captured l x m).peers = s.peers ∧ ((s.later dt).captured l x m).coord = s.coord :=
  ⟨rfl, rfl, rfl, rfl⟩

section
variable {s : State} {c : Configuration} {a : Nat} {l : LastChange} {d : Direction} {x : Capture} {k : SurveyContext}

/-- A capture in phase 2 going POSITIVE beyond its start, of the mark looked for, is taken (R186). -/
theorem IndexCapture.surveyTakes_positive (h : IndexCapture s c a l d x) (dt : Time) (hs : s.engine.refState = .surveying)
    (ho : s.engine.operation = .survey k) (hrun : k.endCause = none) (hphase : k.phase = 2) (hd : d = .positive)
    (hb : k.phaseStart.toInt < s.standby.counter.toInt) (hm : s.nearestMark x = k.wanted) :
    exec (.indexEdge dt) s = .next (surveyTake k x ((s.later dt).captured l x (some (s.nearestMark x)))) := by
  rw [h.exec_eq dt, h.offerCapture_surveying dt hs ho, if_pos]
  exact ⟨hrun, .inl hphase, hd.trans (dir_of_phase_two hphase).symm, ⟨fun _ => hb, fun hn => by simp [hd] at hn⟩, hm⟩

/-- A capture in phase 4 of BACKLASH going NEGATIVE beyond its start, of the mark looked for, is taken (R187). -/
theorem IndexCapture.surveyTakes_negative (h : IndexCapture s c a l d x) (dt : Time) (hs : s.engine.refState = .surveying)
    (ho : s.engine.operation = .survey k) (hrun : k.endCause = none) (hk : k.kind = .backlash) (hphase : k.phase = 4)
    (hd : d = .negative) (hb : s.standby.counter.toInt < k.phaseStart.toInt) (hm : s.nearestMark x = k.wanted) :
    exec (.indexEdge dt) s = .next (surveyTake k x ((s.later dt).captured l x (some (s.nearestMark x)))) := by
  rw [h.exec_eq dt, h.offerCapture_surveying dt hs ho, if_pos]
  exact ⟨hrun, .inr ⟨hk, hphase⟩, hd.trans (dir_of_phase_four hphase).symm, ⟨fun hp => by simp [hd] at hp, fun _ => hb⟩, hm⟩

/-- A capture of an ending survey, outside a capture phase, of the other direction, not beyond the start or of another
mark is left with its mark (R186 to R188). -/
theorem IndexCapture.surveyPasses (h : IndexCapture s c a l d x) (dt : Time) (hs : s.engine.refState = .surveying)
    (ho : s.engine.operation = .survey k)
    (hnot : k.endCause ≠ none ∨ ¬(k.phase = 2 ∨ k.kind = .backlash ∧ k.phase = 4) ∨
      (k.phase = 2 ∧ (d = .negative ∨ s.standby.counter.toInt ≤ k.phaseStart.toInt)) ∨
      (k.phase = 4 ∧ (d = .positive ∨ k.phaseStart.toInt ≤ s.standby.counter.toInt)) ∨
      (s.nearestMark x ≠ k.mark ∧ (k.kind = .backlash ∨ k.first = none)) ∨
      (s.nearestMark x ≠ k.mark + 1 ∧ k.kind = .ratio ∧ k.first ≠ none)) :
    exec (.indexEdge dt) s = .next ((s.later dt).captured l x (some (s.nearestMark x))) := by
  obtain ⟨hwanted, hwanted'⟩ := wanted_eq k
  rw [h.exec_eq dt, h.offerCapture_surveying dt hs ho, if_neg]
  rintro ⟨hrun, hcapture, hdir, ⟨hpos, hneg⟩, hmark⟩
  rcases hnot with h | h | ⟨h2, h⟩ | ⟨h4, h⟩ | ⟨h, hk⟩ | ⟨h, hk, hf⟩
  · exact h hrun
  · exact h hcapture
  · rw [dir_of_phase_two h2] at hdir
    rcases h with h | h
    · simp [hdir] at h
    · exact absurd (hpos hdir) (not_lt.mpr h)
  · rw [dir_of_phase_four h4] at hdir
    rcases h with h | h
    · simp [hdir] at h
    · exact absurd (hneg hdir) (not_lt.mpr h)
  · exact h (hmark.trans (hwanted hk))
  · exact h (hmark.trans (hwanted' hk hf))

end

/-- BACKLASH's first capture enters phase 3, which ends at once where the drive stands near its target (R187). -/
theorem surveyTake_cpos_enters {k : SurveyContext} {s : State} {atOnce : Prop} (x : Capture)
    (ho : s.engine.order.reason ≠ some .hold) (hk : k.kind = .backlash) (hp : k.phase = 2) (hrun : k.endCause = none)
    (hat : atOnce ↔ s.still = true ∧
      |s.counter - (BitVec.ofInt 40 (s.expected k.mark .positive + s.cps / 4)).toInt| ≤ (s.cfg.cps : Int) / 16) :
    s.entersGoto (s.surveyPhase { k with first := some x.raw } 3) (BitVec.ofInt 40 (s.expected k.mark .positive + s.cps / 4))
      atOnce (surveyTake k x s) := by
  rw [surveyTake_cpos k x s hk hp]
  exact surveyEnterApproach_enters ho rfl (surveyTarget_phaseThree s _ hk rfl) hk hrun hat

/-- BACKLASH's second capture enters phase 5 with the measure (R187). -/
theorem surveyTake_cneg_enters {k : SurveyContext} {s : State} {f : Position} {atOnce : Prop} (x : Capture)
    (ho : s.engine.order.reason ≠ some .hold) (hk : k.kind = .backlash) (hp : k.phase = 4) (hf : k.first = some f)
    (hno : ¬atOnce) :
    s.entersGoto (s.surveyPhase { k with second := some x.raw, measure := some |f.toInt - x.raw.toInt| } 5) k.start atOnce
      (surveyTake k x s) := by
  rw [surveyTake_cneg k x s f hk hp hf]
  exact surveyEnterGoto_enters ho rfl (surveyTarget_return s _ (.inl ⟨hk, rfl⟩)) hno

/-- RATIO's second capture enters phase 3 with the measure (R188). -/
theorem surveyTake_ratioSecond_enters {k : SurveyContext} {s : State} {f : Position} {atOnce : Prop} (x : Capture)
    (ho : s.engine.order.reason ≠ some .hold) (hk : k.kind = .ratio) (hf : k.first = some f) (hno : ¬atOnce) :
    s.entersGoto (s.surveyPhase { k with
      second := some x.raw
      measure := some (((x.raw.toInt - f.toInt - s.cps) * 1000000).tdiv s.cps) } 3) k.start atOnce
      (surveyTake k x s) := by
  rw [surveyTake_ratioSecond k x s f hk hf]
  exact surveyEnterGoto_enters ho rfl (surveyTarget_return s _ (.inr ⟨hk, rfl⟩)) hno

/-! ### What a standstill makes of a running survey (R186, R189) -/

/-- A survey that fails where the drive stands is over, with its failing phase in the result (R186, R189). -/
theorem surveyFail_over (k : SurveyContext) (p : Nat) (s : State) (h : s.still = true) :
    s.surveyOver (surveyFail k p s) := by
  obtain ⟨hnone, hstate, hdone, -⟩ := surveyFail_still k p s h
  exact ⟨hnone, hstate, hdone⟩

/-- The result of a survey that completes with a value (R189). -/
theorem resultWith_done (k : SurveyContext) (v : Int) (filled : Bool) (cycle : Option (BitVec 32))
    (hv : k.measure = some v) :
    k.resultWith .done filled cycle = ⟨k.kind, k.mark, .done, 0, k.first, k.second, some v, filled, cycle⟩ := by
  simp [SurveyContext.resultWith, hv]

/-- A survey that is over once the engine has acted is over after the arrival (log entry 12). -/
theorem stillArrival_over {s u : State} (hs : u.sensing.drvStill.level = true) (h : s.surveyOver (engineStandstill u)) :
    s.surveyOver (stillArrival u) := by
  obtain ⟨hengine, -, -, -, -, -, -, -, -, hattention, -⟩ := stillArrival_spec u hs _ rfl
  obtain ⟨hnone, hstate, hdone⟩ := h
  exact ⟨hengine ▸ hnone, hengine ▸ hstate, hattention .surveyDone hdone⟩

/-! ### The standstills of a survey, seen after the arrival (R186, R189; log entry 12) -/

section
variable {u : State} {k : SurveyContext}

/-- An approach that stands near its target enters its capture phase, or OVERTRAVEL where the limit is active (R28, R186). -/
theorem stillArrival_entersCapture {p : Nat} (hs : u.still = true) (hx : engineStandstill u = surveyEnterCapture k p u)
    (ho : u.engine.order.reason ≠ some .hold) : ∀ e, (u.surveyPhase k p).dir = e →
    (e = .positive → u.sensing.limPos.level = true → (stillArrival u).hasFault .overtravel .hold none 1) ∧
    (e = .negative → u.sensing.limNeg.level = true → (stillArrival u).hasFault .overtravel .hold none (-1)) ∧
    ((e = .positive → u.sensing.limPos.level = false) → (e = .negative → u.sensing.limNeg.level = false) →
      (stillArrival u).engine = { u.engine with
        operation := .survey (u.surveyPhase k p)
        order := .jog e (if k.kind = .backlash then u.cfg.creep else u.cfg.slow) .survey } ∧
      (stillArrival u).cal.result = u.cal.result ∧ (stillArrival u).hold.level = u.hold.level ∧
      (stillArrival u).plan = u.plan) := by
  rintro e rfl
  obtain ⟨hpos, hneg, hfree⟩ := surveyEnterCapture_spec k p u ho _ _ rfl rfl
  refine ⟨fun hd hl => ?_, fun hd hl => ?_, fun hp hn => ?_⟩
  · exact stillArrival_hasFault hs (hx ▸ hpos hd hl)
  · exact stillArrival_hasFault hs (hx ▸ hneg hd hl)
  · obtain ⟨hengine, hplan, hlevel, -, -, -, hresult, -⟩ := stillArrival_spec u hs _ rfl
    obtain ⟨y, hy⟩ := hfree hp hn
    rw [hengine, hplan, hlevel, hresult, hx, hy]
    exact ⟨rfl, rfl, rfl, rfl⟩

/-- A survey that fails where the drive stands ends with its failing phase, SURVEY_FAILED noted (R186, R189). -/
theorem stillArrival_surveyFails {p : Nat} (hs : u.still = true) (hx : engineStandstill u = surveyFail k p u) :
    u.surveyOver (stillArrival u) ∧
    (stillArrival u).engine.order = (if u.engine.order.reason = some .hold then u.engine.order else .none) ∧
    (stillArrival u).cal.result = some ⟨k.kind, k.mark, .failed, p, k.first, k.second, none, false, u.link.cycle⟩ ∧
    (stillArrival u).hasFault .surveyFailed .note none (p : Int) ∧
    (stillArrival u).cal.pendBacklash = u.cal.pendBacklash ∧ (stillArrival u).hold.level = u.hold.level := by
  obtain ⟨hengine, -, hlevel, -, -, -, hresult, hpend, -⟩ := stillArrival_spec u hs _ rfl
  obtain ⟨-, -, -, horder, hcal, hkept, -, hfault⟩ := surveyFail_still k p u hs
  rw [hengine, hlevel, hresult, hpend, hx, hcal]
  exact ⟨stillArrival_over hs (hx ▸ surveyFail_over k p u hs), horder, rfl, stillArrival_hasFault hs (hx ▸ hfault), rfl,
    hkept⟩

/-- A survey that completes with a fault is over with its result, the pending record as it was (R189). -/
theorem stillArrival_completesWithFault {code : FaultCode} {isHold : Bool} {v : Int} (hs : u.still = true)
    (hx : engineStandstill u = raiseFault code (dispositionClass isHold) none v (surveyFinish k .done false u))
    (hv : k.measure = some v) :
    u.surveyOver (stillArrival u) ∧ (stillArrival u).cal.pendBacklash = u.cal.pendBacklash ∧
    (stillArrival u).cal.result = some ⟨k.kind, k.mark, .done, 0, k.first, k.second, some v, false, u.link.cycle⟩ ∧
    (stillArrival u).hasFault code (dispositionClass isHold) none v := by
  obtain ⟨-, -, -, -, -, -, hresult, hpend, -⟩ := stillArrival_spec u hs _ rfl
  obtain ⟨hover, hdone, hkept, hfault⟩ := raiseFault_complete code isHold k v u
  rw [resultWith_done k v false _ hv] at hdone
  rw [← hx] at hover hdone hkept hfault
  exact ⟨stillArrival_over hs hover, hpend.trans hkept, hresult.trans hdone, stillArrival_hasFault hs hfault⟩

/-- A survey that completes without a fault is over with its result; BACKLASH has its value in the record (R189). -/
theorem stillArrival_completes {v : Int} {filled : Bool} {c : Cal} (hs : u.still = true)
    (hx : engineStandstill u = surveyFinish k .done filled (u.setCal c)) (hv : k.measure = some v) :
    u.surveyOver (stillArrival u) ∧ (stillArrival u).cal.pendBacklash = c.pendBacklash ∧
    (stillArrival u).cal.result = some ⟨k.kind, k.mark, .done, 0, k.first, k.second, some v, filled, u.link.cycle⟩ ∧
    (stillArrival u).engine.order = (if u.engine.order.reason = some .hold then u.engine.order else .none) ∧
    (stillArrival u).hold.faults = u.hold.faults := by
  obtain ⟨hengine, -, -, hfaults, -, -, hresult, hpend, -⟩ := stillArrival_spec u hs _ rfl
  obtain ⟨-, -, horder, hcal, hhold, -⟩ := surveyFinish_spec k .done filled (u.setCal c)
  have hover : u.surveyOver (engineStandstill u) := hx ▸ surveyFinish_over k .done filled (u.setCal c)
  rw [hengine, hfaults, hresult, hpend, hx, hcal, hhold, resultWith_done k v filled _ hv]
  exact ⟨stillArrival_over hs hover, rfl, rfl, horder, rfl⟩

/-- A survey that was ending ends for its cause, with SURVEY_FAILED for a failure (R189). -/
theorem stillArrival_surveyEnds {e : SurveyEnd} (hs : u.still = true) (hx : engineStandstill u = surveyReturn k e u) :
    u.surveyOver (stillArrival u) ∧
    (stillArrival u).engine.order = (if u.engine.order.reason = some .hold then u.engine.order else .none) ∧
    (stillArrival u).cal.pendBacklash = u.cal.pendBacklash ∧ (stillArrival u).hold.level = u.hold.level ∧
    (stillArrival u).cal.result = some (k.resultWith e.outcome false u.link.cycle) ∧
    (e = .failed → (stillArrival u).hasFault .surveyFailed .note none (k.failPhase : Int)) ∧
    (e ≠ .failed → (stillArrival u).hold.faults = u.hold.faults) := by
  obtain ⟨hengine, -, hlevel, hfaults, -, -, hresult, hpend, -⟩ := stillArrival_spec u hs _ rfl
  obtain ⟨hover, horder, hcal, hfailed, hother⟩ := surveyReturn_spec k e u
  rw [hengine, hlevel, hfaults, hresult, hpend, hx, hcal]
  exact ⟨stillArrival_over hs (hx ▸ hover), horder, rfl, by simp, rfl,
    fun he => stillArrival_hasFault hs (hx ▸ hfailed he), hother⟩

end

/-- No standstill of a survey writes the pending trim (R184). -/
theorem engineStandstill_survey_pendTrim {u : State} {k : SurveyContext} (hm : u.engine.mismatch = none)
    (ho : u.engine.operation = .survey k) : (engineStandstill u).cal.pendTrim = u.cal.pendTrim := by
  cases he : k.endCause with
  | none => rw [engineStandstill_surveying hm ho he, surveyStandstill_pendTrim]
  | some e => rw [engineStandstill_surveyEnding hm ho he, surveyReturn_pendTrim]

/-! ### The engine's checks at a counted transition (R38, R186) -/

/-- The state of a counted transition before the engine's checks (R4, R44). -/
def State.counted (s : State) (dt : Time) (a b up : Bool) : State :=
  parkedCheck (countTransition up ((advance dt s).setDecoder (s.decoder.take a b)))

/-- With no edge pending a counted transition comes to the engine's checks and the staging test (R4, R44; log entry 51). -/
theorem exec_encTransition_noEdge {a b up : Bool} {s : State} (dt : Time) (hr : s.running = true)
    (hf : s.decoder.standbyFeeds = false) (he : s.sensing.pendingEdge = none)
    (hchange : s.decoder.change a b = .counted up) :
    exec (.encTransition dt a b) s = .next (stageTest (engineTravel (s.counted dt a b up))) := by
  have hcounted : mainSample a b (advance dt s) =
      mainTransition up ((advance dt s).setDecoder (s.decoder.take a b)) := mainSample_counted a b up (advance dt s) hchange
  rw [exec_encTransition dt a b s hr hf, hcounted, mainTransition_noEdge up _ (by exact he), State.counted]

theorem counted_counter (s : State) (dt : Time) (a b up : Bool) : (s.counted dt a b up).standby.counter =
    if up = true then s.standby.counter + 1 else s.standby.counter - 1 := by
  rw [State.counted, parkedCheck_eq]
  exact congrArg Standby.counter (countTransition_counter up _)

/-- What a counted transition leaves before the engine's checks (R4, R44). -/
theorem State.counted_keeps (s : State) (dt : Time) (a b up : Bool) :
    (s.counted dt a b up).plan = s.plan ∧ (s.counted dt a b up).hold = s.hold ∧
    (s.counted dt a b up).sensing.drvStill = s.sensing.drvStill ∧ (s.counted dt a b up).engine.order = s.engine.order ∧
    (s.counted dt a b up).engine.refState = s.engine.refState ∧
    (s.counted dt a b up).engine.operation = s.engine.operation ∧ (s.counted dt a b up).cfg = s.cfg ∧
    (s.counted dt a b up).now = s.now + dt := by
  rw [State.counted, parkedCheck_eq]
  exact ⟨rfl, rfl, rfl, rfl, rfl, rfl, rfl, rfl⟩

/-- What a survey that goes too far leaves: ending away from standstill, and over at it (R186, R189). -/
theorem surveyFail_travel (k : SurveyContext) (s : State) :
    (s.still = false → (surveyFail k k.phase s).engine.refState = s.engine.refState ∧
      (surveyFail k k.phase s).engine.operation = .survey { k with endCause := some .failed, failPhase := k.phase } ∧
      (surveyFail k k.phase s).engine.order =
        (if s.engine.order.reason = some .hold then s.engine.order else .stop .survey)) ∧
    (s.still = true → s.surveyOver (surveyFail k k.phase s) ∧
      (∃ r, (surveyFail k k.phase s).cal.result = some r ∧ r.outcome = .failed ∧ r.failPhase = k.phase) ∧
      (surveyFail k k.phase s).hasFault .surveyFailed .note none (k.phase : Int)) := by
  refine ⟨fun h => ?_, fun h => ?_⟩
  · rw [surveyFail_moving k k.phase s h, State.surveyEnding, engineWrite_engine]
    exact ⟨rfl, rfl, rfl⟩
  · obtain ⟨-, -, -, -, hcal, -, -, hfault⟩ := surveyFail_still k k.phase s h
    exact ⟨surveyFail_over k k.phase s h, ⟨_, congrArg Cal.result hcal, rfl, rfl⟩, hfault⟩

/-- Settles O45: the captures by what the survey looks for, the standstills by its phase, the travel by its base. -/
theorem surveyTakesCapturesAndCompletes : Obligations.SurveyTakesCapturesAndCompletes := by
  refine ⟨?captures, ?standstill, ?travel⟩
  case captures =>
    intro dt s c a l d x k m hr hc hs ha hp hl hu hd hn hx href ho hm u hu'
    subst hm hu'
    have hcap : IndexCapture s c a l d x := ⟨hr, hc, hs, ha, hp, hl, hu, hd, hn, hx⟩
    have hraw := hcap.raw_eq
    obtain ⟨hwanted, hwanted'⟩ := wanted_eq k
    refine ⟨hcap.surveyPasses dt href ho, fun hrun hk hphase hf hdir hbeyond hmark => ?first,
      fun q g hrun horder hstart atOnce hat => ?goto⟩
    case first =>
      refine (hcap.surveyTakes_positive dt href ho hrun hphase hdir hbeyond (hmark.trans (hwanted (.inr hf)).symm)).trans ?_
      rw [surveyTake_ratioFirst k x _ hk hf, ← hraw]
      rfl
    case goto =>
      obtain ⟨z, hz⟩ : ∃ z, z = (s.later dt).captured l x (some (s.nearestMark x)) := ⟨_, rfl⟩
      have hzorder : z.engine.order.reason ≠ some .hold := by rw [hz]; exact horder
      have hphased : ∀ k' p, z.surveyPhase k' p = { k' with
          phase := p, phaseStart := s.standby.counter, base := s.standby.counter
          stall := ⟨s.standby.counter, s.now + dt⟩ } := fun k' p => by rw [hz]; rfl
      suffices hentered : exec (.indexEdge dt) s = .next (surveyTake k x z) ∧ z.entersGoto { q with
          phaseStart := s.standby.counter, base := s.standby.counter
          stall := ⟨s.standby.counter, s.now + dt⟩ } g atOnce (surveyTake k x z) by
        obtain ⟨hexec, henters⟩ := hentered
        refine ⟨_, hexec, by simp [hz], by simp [hz], by simp [hz], by simp [hz], ?_⟩
        subst hz
        exact henters
      rcases hstart with ⟨hk, hphase, hdir, hbeyond, hmark, rfl, rfl⟩ | ⟨f, hk, hphase, hdir, hbeyond, hmark, hf, rfl, rfl⟩ |
        ⟨f, hk, hphase, hdir, hbeyond, hmark, hf, rfl, rfl⟩
      · have henters := surveyTake_cpos_enters (atOnce := atOnce) x hzorder hk hphase hrun ?_
        · rw [hphased, hraw, hz] at henters
          exact ⟨hz ▸ hcap.surveyTakes_positive dt href ho hrun hphase hdir hbeyond (hmark.trans (hwanted (.inl hk)).symm),
            by rw [hmark, hz]; exact henters⟩
        · rw [hmark] at hat
          rw [hz]
          exact hat.trans ⟨fun h => h.2.2, fun h => ⟨hk, hphase, h⟩⟩
      · have henters := surveyTake_cneg_enters x hzorder hk hphase hf (mt hat.mp fun h => by omega)
        rw [hphased, hraw] at henters
        exact ⟨hz ▸ hcap.surveyTakes_negative dt href ho hrun hk hphase hdir hbeyond (hmark.trans (hwanted (.inl hk)).symm),
          henters⟩
      · have henters := surveyTake_ratioSecond_enters x hzorder hk hf (mt hat.mp fun h => by simp [hk] at h)
        rw [hphased, hraw, show z.cps = s.cps from hz ▸ rfl] at henters
        exact ⟨hz ▸ hcap.surveyTakes_positive dt href ho hrun hphase hdir hbeyond (hmark.trans (hwanted' hk (by simp [hf])).symm),
          henters⟩
  case standstill =>
    intro dt s k o res hr hlow hcount href ho hm ho' hres
    subst ho' hres
    obtain ⟨u, hu⟩ : ∃ u, u = s.standing dt := ⟨_, rfl⟩
    have hexec : exec (.switchSample dt .drvStill true) s = .next (stillArrival u) := hu ▸ exec_stillArrival hr hlow hcount
    obtain ⟨uengine, uplan, uhold, ucal, ulink, -⟩ := State.standing_keeps s dt
    rw [← hu] at uengine uplan uhold ucal ulink
    have hstill : u.still = true := hu ▸ rfl
    have hcfg : u.cfg = s.cfg := hu ▸ rfl
    rw [← uengine] at href ho hm
    obtain ⟨hengine, hplan, hlevel, -, -, -, hresult, -, htrim, -⟩ := stillArrival_spec u hstill _ rfl
    have htrim' := htrim.trans (engineStandstill_survey_pendTrim hm ho)
    have hover : u.surveyOver (stillArrival u) → s.surveyOver (stillArrival u) := fun ⟨hnone, hstate, hdone⟩ =>
      ⟨hnone, uplan ▸ hstate, hdone⟩
    refine ⟨stillArrival u, hexec, by simp [hu], by simp [hu], by simp [hu], by simp [hu], by simp [hu], by simp [hu],
      htrim'.trans (by rw [ucal]), by simp [hu], fun ended hended => ⟨fun hrun => ⟨fun g e horder hphase => ?approach,
        fun hphase => ?capture, fun v hk hphase hv => ?backlash, fun v hk hphase hv => ?ratio⟩, fun e he => ?ending⟩⟩
    case approach =>
      have htarget : u.surveyTarget k = g ∧ (k.phase = 1 ∨ k.kind = .backlash ∧ k.phase = 3) ∧
          (u.surveyPhase k (k.phase + 1)).dir = e := by
        rcases hphase with ⟨hp, rfl, rfl⟩ | ⟨hk, hp, rfl, rfl⟩
        · exact ⟨by rw [surveyTarget_approach u k hp, hu]; rfl, .inl hp, by rw [hp]; rfl⟩
        · exact ⟨by rw [surveyTarget_phaseThree u k hk hp, hu]; rfl, .inr ⟨hk, hp⟩, by rw [hp]; rfl⟩
      obtain ⟨htarget, happroach, hdir⟩ := htarget
      have hx := (engineStandstill_surveying hm ho hrun).trans (surveyStandstill_approach k u happroach)
      have hnear : u.nearTarget k = true ↔ |s.counter - g.toInt| ≤ (s.cfg.cps : Int) / 16 := by
        rw [nearTarget_iff, htarget, hcfg, hu]
        rfl
      refine ⟨fun hin => ?_, fun hout => ?_⟩
      · rw [if_pos (hnear.mpr hin)] at hx
        obtain ⟨hpos, hneg, hfree⟩ := stillArrival_entersCapture hstill hx (uengine ▸ horder) e hdir
        subst hu
        exact ⟨⟨fun h => hpos h.1 h.2, fun h => hneg h.1 h.2⟩, hfree⟩
      · rw [if_neg (mt hnear.mp (not_le.mpr hout))] at hx
        obtain ⟨hover', hends⟩ := stillArrival_surveyFails hstill hx
        rw [uengine, ulink, ucal, uhold] at hends
        exact ⟨hended.mpr (hover hover'), hends⟩
    case capture =>
      rw [hengine, hplan, hlevel, hresult, engineStandstill_surveying hm ho hrun, surveyStandstill_capture k u hphase,
        uengine, uplan, ucal, uhold]
      exact ⟨rfl, rfl, rfl, rfl⟩
    case backlash =>
      have hx := (engineStandstill_surveying hm ho hrun).trans ((surveyStandstill_return k u (.inl ⟨hk, hphase⟩)).trans
        (surveyComplete_backlash k u v hk hv))
      rw [hcfg] at hx
      rcases le_or_gt v (s.cfg.backlashLimit : Int) with hin | hout
      · obtain ⟨hover', hends⟩ := stillArrival_completes hstill (hx.trans (if_pos hin)) hv
        rw [uengine, ulink, uhold] at hends
        exact ⟨hended.mpr (hover hover'), fun _ => hends, fun hout => absurd hin (not_le.mpr hout)⟩
      · obtain ⟨hover', hends⟩ := stillArrival_completesWithFault hstill (hx.trans (if_neg (not_le.mpr hout))) hv
        rw [ulink, ucal, uhold] at hends
        exact ⟨hended.mpr (hover hover'), fun hin => absurd hin (not_le.mpr hout), fun _ => hends⟩
    case ratio =>
      have hx := (engineStandstill_surveying hm ho hrun).trans ((surveyStandstill_return k u (.inr ⟨hk, hphase⟩)).trans
        (surveyComplete_ratio k u v hk hv))
      rw [hcfg] at hx
      rcases le_or_gt |v| (s.cfg.ratioTolerance : Int) with hin | hout
      · obtain ⟨hover', hkept, hdone, hends⟩ := stillArrival_completes (c := u.cal) hstill (hx.trans (if_neg (not_lt.mpr hin))) hv
        rw [uengine, uhold] at hends
        exact ⟨hended.mpr (hover hover'), ucal ▸ hkept, ulink ▸ hdone, fun _ => hends,
          fun hout => absurd hin (not_le.mpr hout)⟩
      · obtain ⟨hover', hkept, hdone, hfault⟩ := stillArrival_completesWithFault hstill (hx.trans (if_pos hout)) hv
        exact ⟨hended.mpr (hover hover'), ucal ▸ hkept, ulink ▸ hdone, fun hin => absurd hin (not_le.mpr hout),
          fun _ => uhold ▸ hfault⟩
    case ending =>
      obtain ⟨hover', horder, hkept, hlevel', hdone, hfailed, hother⟩ :=
        stillArrival_surveyEnds hstill (engineStandstill_surveyEnding hm ho he)
      rw [uengine] at horder
      rw [ulink] at hdone
      refine ⟨hended.mpr (hover hover'), horder, ucal ▸ hkept, uhold ▸ hlevel', ?_, ?_, ?_⟩
      · rintro rfl
        exact ⟨hdone, hfailed rfl⟩
      · rintro rfl
        exact ⟨hdone, uhold ▸ hother (by simp)⟩
      · rintro rfl
        exact ⟨hdone, uhold ▸ hother (by simp)⟩
  case travel =>
    intro dt a b s k p gone hr hf he ho hc hone hup hdown hgone
    obtain ⟨up, hchange, hiff⟩ := change_counted s.decoder a b hone
    obtain ⟨z, hz⟩ : ∃ z, z = s.counted dt a b up := ⟨_, rfl⟩
    have hexec : exec (.encTransition dt a b) s = .next (stageTest (engineTravel z)) :=
      hz ▸ exec_encTransition_noEdge dt hr hf he hchange
    have hp : z.standby.counter = p := by
      rw [hz, counted_counter]
      split
      · exact (hup (hiff.mpr ‹_›)).symm
      · exact (hdown (mt hiff.mp ‹_›)).symm
    obtain ⟨hplan, hhold, hsensing, horder, hstate, hoperation, hcfg, hnow⟩ := State.counted_keeps s dt a b up
    rw [← hz] at hplan hhold hsensing horder hstate hoperation hcfg hnow
    have hlevel : z.hold.level = s.hold.level := congrArg Hold.level hhold
    have hstill : z.still = s.sensing.drvStill.level := congrArg InputFilter.level hsensing
    have hcps : z.cps = s.cps := congrArg (fun c => (c.cps : Int)) hcfg
    have hgone' : k.gone p = gone := hgone.symm
    have hfar := engineTravel_survey k z (hoperation.trans ho) hc
    rw [hp, hgone', hcps] at hfar
    obtain ⟨hmoving, hstopped⟩ := surveyFail_travel k z
    rw [hstill, horder, hstate] at hmoving
    rw [hstill] at hstopped
    refine ⟨_, hexec, ?counter, ?level, fun hbeyond => ⟨fun hd => ?moving, fun hd => ?stopped⟩, fun hwithin => ?within⟩
    case counter =>
      rw [hfar]
      split <;> simp [hp]
    case level =>
      rw [hfar]
      split <;> simp [hlevel]
    case moving =>
      rw [if_pos hbeyond] at hfar
      simpa [hfar] using hmoving hd
    case stopped =>
      rw [if_pos hbeyond] at hfar
      obtain ⟨⟨hnone, href, hdone⟩, ⟨r, hr, houtcome, hphase⟩, hfault⟩ := hstopped hd
      rw [hfar]
      have hkept := (stageTest_results (surveyFail k k.phase z)).1
      refine ⟨by simpa using hnone, by simpa [hplan] using href, by simpa using hdone, ⟨r, hkept.trans hr, houtcome, hphase⟩,
        hasFault_of_faults hfault (by simp) (by simp [State.own])⟩
    case within =>
      rw [if_neg fun h => hwithin.elim (fun hn => hn h.1) (fun hle => absurd h.2 (not_lt.mpr hle))] at hfar
      rw [hfar]
      refine ⟨by simp [hstate], by simp [horder], ?_⟩
      rw [← hp, ← hnow, ← hcfg, ← stallMoved_eq]
      simp

end Sys2Proof.Machine
end

section
/-! What every command keeps: the timed flag, the bounded lists and the store's form. -/

namespace Sys2Proof.Machine

/-- A change of state that keeps each of the invariants on the blocks (R10, R48, R128, R130, R157). -/
def State.KeepsBlocks (s t : State) : Prop :=
  (s.linkTimely → t.linkTimely) ∧ (s.listsBounded → t.listsBounded) ∧ (s.memoryCanonical → t.memoryCanonical)

theorem State.KeepsBlocks.refl (s : State) : s.KeepsBlocks s := ⟨id, id, id⟩

theorem State.KeepsBlocks.trans {s t u : State} (h : s.KeepsBlocks t) (k : t.KeepsBlocks u) : s.KeepsBlocks u :=
  ⟨k.1 ∘ h.1, k.2.1 ∘ h.2.1, k.2.2 ∘ h.2.2⟩

theorem keepsBlocks_advance (dt : Time) (s : State) : s.KeepsBlocks (advance dt s) := by
  simp [State.KeepsBlocks]

/-- A command acts on the state `dt` later (log entry 2). -/
theorem keepsBlocks_next {dt : Time} {s u : State} (h : (advance dt s).KeepsBlocks u) :
    ∃ t, (.next u : Host.Outcome State Fault Refusal) = .next t ∧ s.KeepsBlocks t :=
  ⟨u, rfl, (keepsBlocks_advance dt s).trans h⟩

/-- Where its guard fails a command lets the time pass alone (log entry 3). -/
theorem keepsBlocks_guarded {dt : Time} {s u : State} {c : Bool} (h : (advance dt s).KeepsBlocks u) :
    ∃ t, (.next (if c then u else advance dt s) : Host.Outcome State Fault Refusal) = .next t ∧ s.KeepsBlocks t := by
  cases c
  · exact keepsBlocks_next (.refl _)
  · exact keepsBlocks_next h

/-- A request keeps what its decision keeps: the length check, the opening and the response reach none of the blocks
the invariants speak of (R200, R201). -/
theorem keepsBlocks_request {dt : Time} {s : State} (keepsKey : Bool) (n : Nat) (ps : List Byte) {d : State → Reply}
    (h : ∀ x : State, x.KeepsBlocks (d x).state) :
    ∃ t, (.next (answerRequest keepsKey n ps d (advance dt s)) : Host.Outcome State Fault Refusal) = .next t ∧
      s.KeepsBlocks t := by
  refine keepsBlocks_next (dt := dt) ?_
  have close : ∀ r : Reply, r.state.KeepsBlocks (closeRequest r) := fun r => by simp [State.KeepsBlocks, closeRequest]
  have opened : (advance dt s).KeepsBlocks (openRequest keepsKey (advance dt s)) := by simp [State.KeepsBlocks]
  simp only [answerRequest]
  split
  · refine opened.trans (.trans ?_ (close _))
    split
    · exact h _
    · exact .refl _
  · exact .refl _

/-- Every command completes and keeps the invariants: each by the rule of its form and what its operation keeps. -/
theorem exec_keepsBlocks (c : Instr) (s : State) : ∃ t, exec c s = .next t ∧ s.KeepsBlocks t := by
  cases c
  case configure | planClear | planStep | planSeal | join | status | peers | position | order | faults | calRead
      | journalRead | faultClear | abandon | survey | trim | calCommit | resume | restart | lockoutClear | shutdown
      | reset | unknownRequestCode =>
    refine keepsBlocks_request _ _ _ fun x => ⟨fun h => ?_, fun h => ?_, fun h => ?_⟩ <;> simp [h, Reply.refuse]
  case nresetAssert dt =>
    refine keepsBlocks_next (dt := dt) ?_
    split
    · exact .refl _
    · exact ⟨assertReset_timely _, assertReset_bounded _, by simp⟩
  case indexEdge | beatEnd =>
    refine keepsBlocks_guarded ?_
    split
    · refine ⟨fun h => ?_, fun h => ?_, fun h => ?_⟩ <;> simp [h]
    · exact .refl _
  case retryTimerEnd => exact keepsBlocks_guarded ⟨id, id, id⟩
  all_goals
    refine keepsBlocks_guarded ⟨fun h => ?_, fun h => ?_, fun h => ?_⟩ <;> simp [h]

/-- Settles O59: a step executes the front command, and every command keeps each clause. -/
theorem everyStepKeepsTheBlocksWellFormed : Obligations.EveryStepKeepsTheBlocksWellFormed := by
  intro s t ht
  unfold step at ht
  split at ht
  · injection ht with ht
    subst ht
    exact State.KeepsBlocks.refl s
  · rename_i c rest _
    obtain ⟨u, hu, hkeeps⟩ := exec_keepsBlocks c (s.setPending rest)
    rw [ht] at hu
    injection hu with hu
    exact hu ▸ hkeeps

end Sys2Proof.Machine
end

section
/-! The commands of the link's time: their guards, the cycle start, and its mark latch. -/

namespace Sys2Proof.Machine

/-! ### The guards of the link's time (R47, R48) -/

@[simp] theorem advance_now (dt : Time) (s : State) : (advance dt s).now = s.now + dt := rfl

/-- In OFF and LISTENING, and before the instant, a command of the link's time is not due. -/
theorem linkDue_false {s : State} {t now : Rat}
    (h : s.link.state = .off ∨ s.link.state = .listening ∨ now < t) : (s.linkTimed && decide (t ≤ now)) = false := by
  rcases h with h | h | h
  · rw [linkTimed_off s (.inl h), Bool.false_and]
  · rw [linkTimed_off s (.inr h), Bool.false_and]
  · rw [decide_eq_false (not_le.mpr h), Bool.and_false]

/-- In SYNCED and ALONE it is due from its instant on. -/
theorem linkDue_true {s : State} {t now : Rat} (hr : s.running = true)
    (hl : s.link.state = .synced ∨ s.link.state = .alone) (h : t ≤ now) : (s.linkTimed && decide (t ≤ now)) = true := by
  rw [linkTimed_on s hr hl, decide_eq_true h, Bool.and_true]

/-! ### The mark latch (R93, R95) -/

/-- R93's comparison as the latch makes it, the runs compared the other way round. -/
theorem tagNewer_swap (a t : Tag) : tagNewer a t =
    (serialNewer a.run t.run || (decide (t.run = a.run) && serialNewer a.cycle t.cycle)) := by
  simp only [tagNewer, eq_comm]

/-- The latch's tag is that of the present run and cycle, where no tag has been latched or it is newer than the last
(R93). -/
theorem nextTag_now (s : State)
    (h : ∀ t, s.store.lastTag = some t → tagNewer ⟨s.coord.run.getD 0, s.link.cycle.getD 0⟩ t = true) :
    s.nextTag = ⟨s.coord.run.getD 0, s.link.cycle.getD 0⟩ := by
  simp only [State.nextTag]
  split
  · rfl
  · rename_i t ht
    exact if_pos ((tagNewer_swap _ t).symm.trans (h t ht))

/-- Else it is the cycle after the last tag's, in the present run (R93). -/
theorem nextTag_after (s : State) (t : Tag) (ht : s.store.lastTag = some t)
    (h : tagNewer ⟨s.coord.run.getD 0, s.link.cycle.getD 0⟩ t = false) :
    s.nextTag = ⟨s.coord.run.getD 0, t.cycle + 1⟩ := by
  simp only [State.nextTag, ht]
  exact if_neg (Bool.eq_false_iff.mp ((tagNewer_swap _ t).symm.trans h))

/-- The mark latch is due (R95, R96). -/
def State.markDue (s : State) : Prop :=
  s.coord.journalActive = true ∧ (s.link.cycle.getD 0).toNat % s.cfg.journalEvery = 0 ∧ s.sensing.pfail.level = false ∧
  s.store.finalOut = false ∧ s.store.busyWith .orderly = false ∧ s.store.closing = none

theorem markLatch_notDue (s : State) (h : ¬ s.markDue) : markLatch s = s :=
  if_neg (by simpa [State.markDue, and_assoc] using h)

theorem markLatch_due (s : State) (h : s.markDue) :
    markLatch s = postWrite (.routine (s.latchFrame .routine)) (noteLatch (s.latchFrame .routine) s) :=
  if_pos (by simpa [State.markDue, and_assoc] using h)

/-- A ROUTINE frame posted reaches the store alone: granted at a port that is IDLE with nothing pending, else pending
(R91, R94). -/
theorem postWrite_routine (f : JournalFrame) (s : State) : ∃ x, postWrite (.routine f) s = s.setStore x ∧
    (s.store.port = none → (∀ k : WriteKind, s.store.isPending k = false) →
      x = { s.store with port := some ⟨.routine f, .ring s.store.pointer, 0, false⟩ }) ∧
    ((s.store.port ≠ none ∨ ∃ k : WriteKind, s.store.isPending k = true) →
      x = { s.store with pending := vput s.store.pending 7 (some (.routine f)) }) := by
  have hidle : (s.store.port.isNone && s.store.nextPending.isNone) = true ↔
      s.store.port = none ∧ ∀ k : WriteKind, s.store.isPending k = false := by
    simp [← nextPending_none]
  by_cases h : s.store.port = none ∧ ∀ k : WriteKind, s.store.isPending k = false
  · refine ⟨_, if_pos (hidle.mpr h), fun _ _ => rfl, fun hbusy => ?_⟩
    rcases hbusy with hp | ⟨k, hk⟩
    · exact absurd h.1 hp
    · exact absurd (hk.symm.trans (h.2 k)) (by simp)
  · exact ⟨_, if_neg (mt hidle.mp h), fun hp hk => absurd ⟨hp, hk⟩ h, fun _ => rfl⟩

/-! ### The cycle start (R48, R52, R95) -/

theorem exec_linkCycleStart (dt : Time) (s : State) : exec (.linkCycleStart dt) s = .next
    (if s.linkTimed && decide (s.link.cycleStart + (s.cfg.cyclePeriod * 1000000 : Nat) + s.link.correction
      ≤ ((s.now + dt : Nat) : Rat)) then startCycle (advance dt s) else s.later dt) := rfl

/-- Settles O46: by the guard, and by whether the mark latch is due in the new cycle. -/
theorem cycleStartCountsAndLatches : Obligations.CycleStartCountsAndLatches := by
  intro dt s start l n hr hstart hl hn
  rw [exec_linkCycleStart, ← hstart]
  refine ⟨fun h => by rw [linkDue_false h]; rfl, fun hs ht => ?_⟩
  rw [linkDue_true hr hs ht, if_pos rfl]
  obtain ⟨u, hu⟩ : ∃ u : State, u = { s.later dt with link := l } := ⟨_, rfl⟩
  have hcycle : startCycle (advance dt s) = markLatch u := by rw [hu, hl, hstart]; rfl
  have hdue : u.markDue ↔ s.coord.journalActive = true ∧ n = 0 ∧ s.sensing.pfail.level = false ∧
      s.store.finalOut = false ∧ s.store.busyWith .orderly = false ∧ s.store.closing = none := by
    rw [hu, hn]; rfl
  rw [hcycle]
  refine ⟨fun hnot => ?_, fun h1 h2 h3 h4 h5 h6 => ?_⟩
  · rw [markLatch_notDue u, hu]
    rw [hdue]
    rintro ⟨h1, h2, h3, h4, h5, h6⟩
    simp [h1, h2, h3, h4, h5, h6] at hnot
  · obtain ⟨f, hf⟩ : ∃ f, f = u.latchFrame .routine := ⟨_, rfl⟩
    obtain ⟨x, hx, hgranted, hpending⟩ := postWrite_routine f (noteLatch f u)
    rw [markLatch_due u (hdue.mpr ⟨h1, h2, h3, h4, h5, h6⟩), ← hf, hx]
    have htag : f.tag = u.nextTag := by rw [hf]; rfl
    subst hf hu hl
    refine ⟨_, x, rfl, rfl, rfl, rfl, rfl, rfl, rfl, rfl, rfl, rfl, rfl, rfl, rfl, rfl, rfl, fun ht => ?_, fun t ht hnew => ?_,
      fun t ht hold => ?_, hgranted, hpending⟩
    · exact htag.trans (nextTag_now _ fun t ht' => absurd (ht.symm.trans ht') (by simp))
    · exact htag.trans (nextTag_now _ fun t' ht' => by cases ht.symm.trans ht'; exact hnew)
    · exact htag.trans (nextTag_after _ t ht hold)

end Sys2Proof.Machine
end

section
/-! A transmission of the own frame: its readback mismatches and its end. -/

namespace Sys2Proof.Machine

/-- The station transmits while the link is timed and its frame has begun, and not else (R53, R58). -/
theorem sending_true {s : State} {dt : Time} {x : Transmission} (hr : s.running = true)
    (hl : s.link.state = .synced ∨ s.link.state = .alone) (hx : s.link.tx = some x)
    (ht : x.start ≤ ((s.now + dt : Nat) : Rat)) : (s.linkTimed && (advance dt s).transmitting) = true := by
  rw [linkTimed_on s hr hl, (transmitting_iff (advance dt s)).mpr ⟨x, hx, ht⟩, Bool.and_true]

theorem sending_false {s : State} {dt : Time}
    (h : (∀ x, s.link.tx = some x → ((s.now + dt : Nat) : Rat) < x.start) ∨ s.link.state = .off ∨
      s.link.state = .listening) : (s.linkTimed && (advance dt s).transmitting) = false := by
  rcases h with h | h
  · rw [transmitting_not (advance dt s) h, Bool.and_false]
  · rw [linkTimed_off s h, Bool.false_and]

theorem exec_readbackMismatch (dt : Time) (s : State) : exec (.readbackMismatch dt) s =
    .next (if s.linkTimed && (advance dt s).transmitting then abandonFrame (advance dt s) else s.later dt) := rfl

theorem exec_frameTransmitEnd (dt : Time) (s : State) : exec (.frameTransmitEnd dt) s =
    .next (if s.linkTimed && (advance dt s).transmitting then
      { s.later dt with link := { s.link with mismatches := 0, tx := none } } else s.later dt) := rfl

/-- An ABORT fault halts a station that has joined (R85). -/
theorem raiseAbort_phase (code : FaultCode) (d : Int) (s : State)
    (h : s.coord.phase = .gathering ∨ s.coord.phase = .recovering ∨ s.coord.phase = .homing ∨ s.coord.phase = .ready) :
    (raiseAbort code d s).coord.phase = .halted := by
  obtain ⟨x, hcoord, hhalted, -⟩ := raiseAbort_halts code d s h
  rw [hhalted]
  exact (setPhase_halted x (by rw [hcoord]; rcases h with h | h | h | h <;> rw [h] <;> decide)).1

/-- LISTENING with the mismatch count it goes there with (R48, R58, R74). -/
def State.abandoned (s : State) (count : Nat) : State := enterListening (s.setLink { s.link with mismatches := count })

/-- Below three mismatches the station counts one more and listens (R58). -/
theorem abandonFrame_counted (s : State) (h : s.link.mismatches + 1 < 3) :
    abandonFrame s = s.abandoned (s.link.mismatches + 1) :=
  if_neg (not_le.mpr h)

/-- The state at the third mismatch, before its fault (R59). -/
def State.silenced (s : State) : State :=
  (s.abandoned (s.link.mismatches + 1)).setLink
    { (s.abandoned (s.link.mismatches + 1)).link with mismatches := 0, muted := true }

theorem silenced_spec (s : State) : s.silenced.link.mismatches = 0 ∧ s.silenced.link.muted = true ∧
    s.silenced.link.state = .listening ∧ s.silenced.link.timed = false ∧ s.silenced.link.tx = none ∧
    s.silenced.link.cycle = s.link.cycle ∧ s.silenced.coord.phase = s.coord.phase :=
  ⟨rfl, rfl, rfl, rfl, rfl, rfl, rfl⟩

/-- At the third it is muted as well, and DUPLICATE_STATION is raised with its own number (R59). -/
theorem abandonFrame_muted (s : State) (h : 3 ≤ s.link.mismatches + 1) :
    abandonFrame s = raiseAbort .duplicateStation (s.own.val : Int) s.silenced :=
  if_pos h

/-- Settles O48: by whether the station transmits, and by the count. -/
theorem readbackCountsAndMutes : Obligations.ReadbackCountsAndMutes := by
  intro dt s hr
  rw [exec_readbackMismatch, exec_frameTransmitEnd]
  refine ⟨fun h => ?_, fun x hx ht hl => ?_⟩
  · rw [sending_false h]
    exact ⟨rfl, rfl⟩
  · rw [sending_true hr hl hx ht, if_pos rfl, if_pos rfl]
    refine ⟨rfl, fun hcount => ?_, fun hcount => ⟨_, rfl, ?_⟩⟩
    · rw [abandonFrame_counted (advance dt s) hcount]
      rfl
    · rw [abandonFrame_muted (advance dt s) hcount]
      obtain ⟨hmismatches, hmuted, hstate, htimed, htx, hcycle, hphase⟩ := silenced_spec (advance dt s)
      refine ⟨by simp [hmismatches], by simp [hmuted], by simp [hstate], by simp [htimed], by simp [htx], by simp [hcycle],
        raiseFault_hasFault .duplicateStation .abort none _ _,
        fun hp => raiseAbort_phase _ _ _ (by rw [hphase]; exact hp), ?_⟩
      simp [State.silenced, State.abandoned]

end Sys2Proof.Machine
end

section
/-! Silent and foreign cycles, and the end of the listening wait: how a station goes ALONE or to LISTENING. -/

namespace Sys2Proof.Machine

/-! ### The end of slot 7 (R52, R54, R56) -/

/-- Slot 7 ends a CYCLE_PERIOD after the cycle start (R47). -/
theorem slotStart_eight (s : State) :
    s.slotStart 8 = s.link.cycleStart + (s.cfg.cyclePeriod * 1000000 : Nat) := by
  have hslot : s.slotLength = ((s.cfg.cyclePeriod * 1000000 : Nat) : Rat) / 8 := rfl
  rw [State.slotStart, hslot]
  push_cast
  ring

theorem exec_cycleEndEval (dt : Time) (s : State) : exec (.cycleEndEval dt) s = .next
    (if s.linkTimed && decide (s.link.cycleStart + (s.cfg.cyclePeriod * 1000000 : Nat) ≤ ((s.now + dt : Nat) : Rat)) then
      cycleEnd (advance dt s) else s.later dt) := by
  rw [← slotStart_eight]
  rfl

/-- With no offset in the cycle there is no correction (R52). -/
theorem meanCorrection_nil : meanCorrection [] = 0 := rfl

/-- Else it is the offsets' mean, within 2 us either way (R52). -/
theorem meanCorrection_mean (l : List Rat) (h : l ≠ []) :
    meanCorrection l = max (-2000) (min 2000 (l.sum / l.length)) := by
  rw [meanCorrection, if_neg (by simpa using h), sumOf_sum]

/-- The correction the cycle gives: the mean of its offsets in SYNCED alone (R52). -/
def State.cycleCorrection (s : State) : Rat :=
  if s.link.state = .synced then meanCorrection s.link.offsets else 0

/-- The silent-cycle count after the cycle, kept in SYNCED (R54). -/
def State.silentAfter (s : State) : Nat := if s.link.state = .synced then s.link.nextSilent else s.link.silentCycles

/-- The state with the cycle's correction and counts (R52, R54, R56). -/
def State.cycleCounted (s : State) : State := s.setLink { s.link with
  correction := s.cycleCorrection, silentCycles := s.silentAfter, foreignCycles := s.link.nextForeign }

theorem cycleEnd_eq (s : State) : cycleEnd s =
    if s.cfg.peerLossLimit ≤ s.link.nextForeign then enterListening s.cycleCounted
    else if s.link.state = .synced ∧ 4 ≤ s.silentAfter then
      raiseLinkAlone 2 (s.cycleCounted.setLink { s.cycleCounted.link with state := .alone, foreignCycles := 0 })
    else s.cycleCounted := by
  simp only [cycleEnd, Bool.and_eq_true, decide_eq_true_eq]
  rfl

/-! ### The listening wait (R51) -/

theorem exec_listenTimeout (dt : Time) (s : State) : exec (.listenTimeout dt) s = .next
    (if s.running && decide (s.link.state = .listening) &&
      decide (s.link.listenSince + (2 + s.own.val) * (s.cfg.cyclePeriod * 1000000) ≤ s.now + dt) then
      timeItself (advance dt s) else s.later dt) := rfl

/-- The state in which LINK_ALONE meets a station that times itself (R51). -/
def State.selfTimed (s : State) : State := s.setLink { s.link with
  state := .alone, timed := true, cycle := some 0, cycleStart := (s.now : Rat), correction := 0, heard := [],
  offsets := [], acceptedInCycle := false, foreignInCycle := false, foreignCycles := 0 }

theorem selfTimed_link (s : State) : s.selfTimed.link.state = .alone ∧ s.selfTimed.link.timed = true ∧
    s.selfTimed.link.cycle = some 0 ∧ s.selfTimed.link.cycleStart = (s.now : Rat) :=
  ⟨rfl, rfl, rfl, rfl⟩

/-- LINK_ALONE with its detail in HOMING, READY and HALTED, and the hold left in the other phases (R51, R54). -/
theorem raiseLinkAlone_outcome (d : Int) (s : State) :
    ((s.coord.phase = .homing ∨ s.coord.phase = .ready ∨ s.coord.phase = .halted) →
      (raiseLinkAlone d s).hasFault .linkAlone .hold none d) ∧
    ((s.coord.phase = .isolated ∨ s.coord.phase = .gathering ∨ s.coord.phase = .recovering) →
      (raiseLinkAlone d s).hold = s.hold) := by
  obtain ⟨hraised, hsame, -⟩ := raiseLinkAlone_spec d s
  refine ⟨fun hp => ?_, fun hp => by rw [hsame hp]⟩
  obtain ⟨r, hr, hcode, hcls, horigin, hstep, hdetail⟩ := hraised hp
  exact ⟨r, recentFault_mem hr, hcode, hcls, by simp [horigin, State.own], hstep, hdetail⟩

/-- Settles O51: by the branches of the evaluation at the end of slot 7, and by the wait. -/
theorem stationGoesAloneOrListening : Obligations.StationGoesAloneOrListening := by
  constructor
  · intro dt s silent foreign hr hsilent hforeign
    have hsilent' : (advance dt s).silentAfter = silent := hsilent.symm
    have hforeign' : (advance dt s).link.nextForeign = foreign := hforeign.symm
    have hlimit : (advance dt s).cfg.peerLossLimit = s.cfg.peerLossLimit := rfl
    rw [exec_cycleEndEval]
    refine ⟨fun h => by rw [linkDue_false h]; rfl, fun hl ht => ?_⟩
    rw [linkDue_true hr hl ht, if_pos rfl, cycleEnd_eq, hsilent', hforeign', hlimit]
    refine ⟨fun hfew hheard => ?stays, fun hmany => ?listening, fun hfew hs hsil => ?alone⟩
    case stays =>
      have hstays : ¬((advance dt s).link.state = .synced ∧ 4 ≤ silent) := by
        rintro ⟨hs, hsil⟩
        rcases hheard with ha | hlt
        · cases hs.symm.trans ha
        · omega
      rw [if_neg (not_le.mpr hfew), if_neg hstays]
      refine ⟨(advance dt s).cycleCorrection, ?_, fun hnone => ?_, fun hs hoff => ?_⟩
      · rw [State.cycleCounted, hsilent', hforeign']
        rfl
      · rcases hnone with ha | hoff
        · exact if_neg (by simp [ha])
        · simp [State.cycleCorrection, hoff, meanCorrection_nil]
      · exact (if_pos hs).trans (meanCorrection_mean s.link.offsets hoff)
    case listening =>
      rw [if_pos hmany]
      exact ⟨_, rfl, rfl, rfl, rfl, rfl, rfl, rfl, rfl, rfl, rfl⟩
    case alone =>
      rw [if_neg (not_le.mpr hfew), if_pos ⟨hs, hsil⟩]
      obtain ⟨hfault, hhold⟩ := raiseLinkAlone_outcome 2 ((advance dt s).cycleCounted.setLink
        { (advance dt s).cycleCounted.link with state := .alone, foreignCycles := 0 })
      refine ⟨_, rfl, ?_, ?_, ?_, ?_, hfault, hhold, ?_⟩ <;> simp [State.cycleCounted]
  · intro dt s hr
    rw [exec_listenTimeout]
    refine ⟨fun hnot => ?_, fun hl ht => ?_⟩
    · rw [if_neg]
      rintro h
      simp only [Bool.and_eq_true, decide_eq_true_eq] at h
      exact hnot.elim (absurd h.1.2) (absurd h.2 ∘ not_le.mpr)
    · have htimes : timeItself (advance dt s) = markLatch (raiseLinkAlone 1 (advance dt s).selfTimed) := rfl
      obtain ⟨hfault, hhold⟩ := raiseLinkAlone_outcome 1 (advance dt s).selfTimed
      rw [if_pos (by simp [hr, hl, ht]), htimes]
      obtain ⟨hstate, htimed, hcycle, hstart⟩ := selfTimed_link (advance dt s)
      refine ⟨_, rfl, by simp [hstate], by simp [htimed], by simp [hcycle], by simp [hstart], fun hp => ?fault,
        fun hp => ?hold, ?rest⟩
      case fault => exact hasFault_of_faults (hfault hp) (by simp) (by simp [State.own])
      case hold =>
        have hkept : ∀ x : State, (markLatch x).hold = x.hold := fun x => by simp
        exact (hkept _).trans (hhold hp)
      case rest => simp [State.selfTimed]

end Sys2Proof.Machine
end

section
/-! The layouts another party sees: each read back from the bytes it is written as. -/

namespace Sys2Proof.Machine

/-! ### Codes packed in one byte (R64, R92) -/

theorem bits_byteOf {n : Nat} (h : n < 256) (lo w : Nat) : bits (byteOf n) lo w = n / 2 ^ lo % 2 ^ w := by
  rw [bits, byteOf, BitVec.toNat_ofNat, Nat.mod_eq_of_lt h]

theorem JournalKind.ofCode_code (k : JournalKind) : JournalKind.ofCode k.code = some k := by cases k <;> rfl
theorem JournalKind.code_range (k : JournalKind) : 0 < k.code ∧ k.code < 4 := by cases k <;> decide
theorem RefState.ofCode_code (x : RefState) : RefState.ofCode x.code = some x := by cases x <;> rfl
theorem RefState.code_lt (x : RefState) : x.code < 8 := by cases x <;> decide
theorem Confidence.ofCode_code (x : Confidence) : Confidence.ofCode x.code = some x := by cases x <;> rfl
theorem Confidence.code_lt (x : Confidence) : x.code < 8 := by cases x <;> decide
theorem HoldLevel.ofCode_code (x : HoldLevel) : HoldLevel.ofCode x.code = some x := by cases x <;> rfl
theorem HoldLevel.code_lt (x : HoldLevel) : x.code < 4 := by cases x <;> decide
theorem ArmPhase.ofCode_code (x : ArmPhase) : ArmPhase.ofCode x.code = some x := by cases x <;> rfl
theorem ArmPhase.code_lt (x : ArmPhase) : x.code < 8 := by cases x <;> decide

/-- The four flags of a journal frame's second byte (R92). -/
theorem flags_getLsbD (a b c d : Bool) :
    (byteOf (flag 0 a + flag 1 b + flag 2 c + flag 3 d)).getLsbD 0 = a ∧
    (byteOf (flag 0 a + flag 1 b + flag 2 c + flag 3 d)).getLsbD 1 = b ∧
    (byteOf (flag 0 a + flag 1 b + flag 2 c + flag 3 d)).getLsbD 2 = c ∧
    (byteOf (flag 0 a + flag 1 b + flag 2 c + flag 3 d)).getLsbD 3 = d := by
  revert a b c d
  decide

/-- A station number with the present flag of a lockout record (R107). -/
theorem originByte_reads (o : Station) (p : Bool) :
    (byteOf (o.val + flag 7 p)).getLsbD 7 = p ∧ stationOf (bits (byteOf (o.val + flag 7 p)) 0 3) = o := by
  revert o p
  decide

/-! ### The frame of a record (R47, R64, R65) -/

theorem StatusRecord.frame_length (r : StatusRecord) : r.frame.length = 40 := by
  simp [StatusRecord.frame, StatusRecord.pack_length]

theorem StatusRecord.frameBody_frame (r : StatusRecord) : frameBody r.frame = r.pack := by
  simp [frameBody, StatusRecord.frame, StatusRecord.pack_length]

theorem StatusRecord.parseFrame_frame (r : StatusRecord) (h : r.link ≠ .off) : parseFrame r.frame = some r := by
  have hcrc : rd r.frame 38 2 = (crc16 r.pack).toNat :=
    rd_last16 ([0x96, 0x4B] ++ r.pack) 38 _ (by simp [StatusRecord.pack_length])
  rw [parseFrame, if_neg (by simp [StatusRecord.frame_length]), StatusRecord.frameBody_frame, if_neg (not_not.mpr hcrc),
    StatusRecord.unpack_pack r h]

/-! ### Journal frames (R92) -/

theorem JournalFrame.body_length (f : JournalFrame) : f.body.length = 28 := rfl

/-- The seal of a frame is that of its body (R92). -/
theorem JournalFrame.sealed (f : JournalFrame) : frameSealed f.encode = true := by
  have hkind : bits (byteAt f.encode 0) 0 2 ≠ 0 := by
    have h0 : byteAt f.encode 0 = byteOf (f.kind.code + 4 * f.refState.code + 32 * f.confidence.code) := rfl
    have := f.kind.code_range
    have := f.refState.code_lt
    have := f.confidence.code_lt
    rw [h0, bits_byteOf (by omega)]
    omega
  have htake : f.encode.take 28 = f.body := List.take_left' f.body_length
  have hseal : rd f.encode 28 4 = (crc32 f.body).toNat := rd_last32 f.body 28 _ f.body_length
  rw [frameSealed, htake, hseal, decide_eq_true hkind, decide_eq_true rfl, Bool.and_self]

theorem JournalFrame.decode_encode (f : JournalFrame) : JournalFrame.decode f.encode = some f := by
  have hsealed := f.sealed
  have hkind := f.kind.code_range
  have hrefState := f.refState.code_lt
  have hconfidence := f.confidence.code_lt
  have hlevel := f.level.code_lt
  have hphase := f.phase.code_lt
  obtain ⟨b, hb⟩ : ∃ b, b = f.encode := ⟨_, rfl⟩
  have h0 : byteAt b 0 = byteOf (f.kind.code + 4 * f.refState.code + 32 * f.confidence.code) := by rw [hb]; rfl
  have h1 : byteAt b 1 = byteOf (flag 0 f.brake + flag 1 f.moving + flag 2 f.load + flag 3 f.parked) := by rw [hb]; rfl
  have h14 : byteAt b 14 = byteOf (f.level.code + 16 * f.phase.code) := by rw [hb]; rfl
  have hk : bits (byteAt b 0) 0 2 = f.kind.code := by rw [h0, bits_byteOf (by omega)]; omega
  have hr : bits (byteAt b 0) 2 3 = f.refState.code := by rw [h0, bits_byteOf (by omega)]; omega
  have hc : bits (byteAt b 0) 5 3 = f.confidence.code := by rw [h0, bits_byteOf (by omega)]; omega
  have hl : bits (byteAt b 14) 0 2 = f.level.code := by rw [h14, bits_byteOf (by omega)]; omega
  have hp : bits (byteAt b 14) 4 3 = f.phase.code := by rw [h14, bits_byteOf (by omega)]; omega
  obtain ⟨q0, q1, q2, q3⟩ := flags_getLsbD f.brake f.moving f.load f.parked
  have hs : byteAt b 13 = f.sector := by rw [hb]; rfl
  rw [← hb] at hsealed ⊢
  simp only [JournalFrame.decode, hk, hr, hc, hl, hp, h1, hs, q0, q1, q2, q3, hsealed, JournalKind.ofCode_code,
    RefState.ofCode_code, Confidence.ofCode_code, HoldLevel.ofCode_code, ArmPhase.ofCode_code, Option.getD_some, if_true,
    ofNat_rd_be16 f.tag.run b 2 (by rw [hb]; rfl), ofNat_rd_be32 f.tag.cycle b 4 (by rw [hb]; rfl),
    rdPosition_be40 f.position b 8 (by rw [hb]; rfl), ofNat_rd_be16 f.generation b 15 (by rw [hb]; rfl),
    ofNat_rd_be16 f.holdSeq b 17 (by rw [hb]; rfl), ofNat_rd_be32 f.trim b 19 (by rw [hb]; rfl)]

/-! ### Calibration and lockout records (R107, R181) -/

theorem CalRecord.decode_encode (c : CalRecord) : CalRecord.decode c.encode = c := by
  obtain ⟨b, hb⟩ : ∃ b, b = c.encode := ⟨_, rfl⟩
  rw [← hb, CalRecord.decode, ofNat_rd_be16 c.generation b 8 (by rw [hb]; rfl), ofNat_rd_be32 c.trim b 10 (by rw [hb]; rfl),
    ofNat_rd_be32 c.backlash b 14 (by rw [hb]; rfl), ofNat_rd_be16 c.run b 18 (by rw [hb]; rfl),
    ofNat_rd_be32 c.cycle b 20 (by rw [hb]; rfl)]

/-- A record is sealed where its generation is not 0 (R181). -/
theorem CalRecord.sealed (c : CalRecord) (h : c.generation ≠ 0) : calSealed c.encode = true := by
  have hgeneration : rd c.encode 8 2 = c.generation.toNat := rd_be16 c.generation _ 8 rfl
  have hnonzero : c.generation.toNat ≠ 0 := fun h0 => h (BitVec.eq_of_toNat_eq h0)
  have hbody : (c.encode.take 28).drop 8 = c.body := rfl
  have hseal : rd c.encode 28 4 = (crc32 c.body).toNat := rd_last32 (calStateBeat calStagedByte ++ c.body) 28 _ rfl
  rw [calSealed, hgeneration, hbody, hseal, decide_eq_true hnonzero, decide_eq_true rfl, Bool.and_self]

theorem LockRecord.sealed (l : LockRecord) : lockSealed l.encode = true := by
  have hbody : l.encode.take 6 = l.body := rfl
  have hseal : rd l.encode 6 2 = (crc16 l.body).toNat := rd_last16 l.body 6 _ rfl
  rw [lockSealed, hbody, hseal, decide_eq_true rfl]

theorem LockRecord.decode_encode (l : LockRecord) : LockRecord.decode l.encode = l := by
  obtain ⟨hpresent, horigin⟩ := originByte_reads l.origin l.present
  obtain ⟨b, hb⟩ : ∃ b, b = l.encode := ⟨_, rfl⟩
  have h0 : byteAt b 0 = byteOf (l.origin.val + flag 7 l.present) := by rw [hb]; rfl
  have h1 : byteAt b 1 = l.cause := by rw [hb]; rfl
  rw [← hb, LockRecord.decode, h0, h1, hpresent, horigin, ofNat_rd_be16 l.run b 2 (by rw [hb]; rfl),
    ofNat_rd_be16 l.cycle b 4 (by rw [hb]; rfl)]

/-! ### The response record (R200, R202) -/

theorem Response.record_length (r : Response) : r.record.length = 4 + r.data.length := by
  simp only [Response.record, List.length_append, List.length_cons, List.length_nil, be16_length]

/-- A record of fewer than 65536 data bytes carries their number (R200). -/
theorem Response.record_count (r : Response) (h : r.data.length < 65536) : rd r.record 2 2 = r.data.length := by
  rw [rd_be16 (BitVec.ofNat 16 r.data.length) r.record 2 rfl, BitVec.toNat_ofNat, Nat.mod_eq_of_lt h]

/-- SDO carries a response between two idle bytes and FFh (R200). -/
theorem Port.sends_response (p : Port) (r : Response) (k : Nat) (h : p.response = some r) :
    (k < 2 → p.sends k = 0xFF) ∧ (2 ≤ k → k < 6 + r.data.length → some (p.sends k) = r.record[k - 2]?) ∧
    (6 + r.data.length ≤ k → p.sends k = 0xFF) := by
  have hsends : p.sends k = ([0xFF, 0xFF] ++ r.record)[k]?.getD 0xFF := by simp only [Port.sends, h]
  have hlength := r.record_length
  rw [hsends]
  refine ⟨fun hk => ?_, fun hk hend => ?_, fun hend => ?_⟩
  · obtain rfl | rfl : k = 0 ∨ k = 1 := by omega
    · rfl
    · rfl
  · have hin : k - 2 < r.record.length := by omega
    rw [List.getElem?_append_right (by simpa using hk)]
    simp [List.getElem?_eq_getElem hin]
  · rw [List.getElem?_eq_none (by simp [hlength]; omega)]
    rfl

/-- Settles O55: layout by layout. -/
theorem writtenLayoutsReadBack : Obligations.WrittenLayoutsReadBack :=
  ⟨fun r hr => ⟨r.pack_length, r.frame_length, rfl, r.parseFrame_frame hr⟩,
    fun f => ⟨rfl, f.sealed, f.decode_encode⟩,
    fun c hc => ⟨rfl, c.sealed hc, rfl, c.decode_encode⟩,
    fun l => ⟨rfl, l.sealed, l.decode_encode⟩,
    fun r hr => ⟨r.record_length, rfl, rfl, r.record_count hr, rfl⟩,
    rfl,
    fun p k => ⟨fun hnone => by simp only [Port.sends, hnone], fun r hr => p.sends_response r k hr⟩⟩

end Sys2Proof.Machine
end

section
/-! The own slot: the frame it sends, the restart flag's packings, and the record it packs. -/

namespace Sys2Proof.Machine

/-- The evaluation leaves the slots' starts (R47). -/
theorem slotEvaluation_slotStart (s : State) (k : Nat) : (slotEvaluation s).slotStart k = s.slotStart k := by
  simp [State.slotStart, State.slotLength, State.period, State.cfg]

/-- The frame of the packed record is sent 4 us after the slot's start, unless the station is muted (R47, R57, R59). -/
theorem ownSlot_tx (s : State) : (ownSlot s).link.tx = if s.link.muted = true then s.link.tx else
    some ⟨s.slotStart s.own.val + 4000, (slotEvaluation s).packRecord.frame⟩ := by
  have hmuted : (slotEvaluation s).link.muted = s.link.muted := by simp
  have hown : (slotEvaluation s).own = s.own := by simp [State.own]
  rw [ownSlot_parts, hmuted, slotEvaluation_slotStart, hown]
  split
  · simp [slotPacked]
  · rfl

/-- The packing of the own slot takes one packing from the restart flag (R86). -/
theorem ownSlot_restart (s : State) :
    (s.coord.restart = true → (ownSlot s).coord.restartLeft = s.coord.restartLeft - 1 ∧
      (ownSlot s).coord.restart = decide (1 < s.coord.restartLeft)) ∧
    (s.coord.restart = false → (ownSlot s).coord.restart = false) := by
  have hcoord : (ownSlot s).coord = (slotPacked s.claimKept (slotEvaluation s)).coord := by
    rw [ownSlot_parts]
    split <;> rfl
  obtain ⟨-, hset, hclear⟩ := packAndRefresh_spec (noteClaimSent s.claimKept (slotEvaluation s))
  rw [hcoord, slotPacked]
  simpa using And.intro hset hclear

/-- In ISOLATED, READY and HALTED the own slot makes no evaluation (R74, R82, R136). -/
theorem slotEvaluation_idle (s : State)
    (h : s.coord.phase = .isolated ∨ s.coord.phase = .ready ∨ s.coord.phase = .halted) : slotEvaluation s = s := by
  rcases h with h | h | h <;> simp only [slotEvaluation, h]

/-- Outside GATHERING a record shows the agreed run (R64). -/
theorem packRecord_run (s : State) (h : s.coord.phase ≠ .gathering) : s.packRecord.run = s.coord.run.getD 0 := by
  simp only [State.packRecord]

/-- Settles O47: the evaluation keeps what the statement speaks of, and the packing follows it. -/
theorem ownSlotSendsThePackedRecord : Obligations.OwnSlotSendsThePackedRecord := by
  intro dt s start hr hstart
  subst hstart
  refine ⟨fun hnot => ?idle, fun hl ht => ?due⟩
  case idle =>
    have hexec : exec (.ownSlotStart dt) s = .next (if s.linkTimed && decide (s.link.cycleStart + (s.own.val : Rat)
        * ((s.cfg.cyclePeriod * 1000000 : Nat) / 8) ≤ ((s.now + dt : Nat) : Rat)) then ownSlot (advance dt s)
        else s.later dt) := rfl
    rw [hexec, linkDue_false hnot]
    rfl
  case due =>
    obtain ⟨u, hu⟩ : ∃ u, u = advance dt s := ⟨_, rfl⟩
    obtain ⟨v, hv⟩ : ∃ v, slotEvaluation u = v := ⟨_, rfl⟩
    obtain ⟨hpeers, -, hstandby, -, -, -, -, -, -, -, -, hcoord⟩ := ownSlot_after u v hv
    have hpacked : v.peers = s.peers ∧ v.own = s.own ∧ v.link.state = s.link.state ∧ v.link.cycle = s.link.cycle := by
      rw [← hv, hu]
      simp [State.own]
    obtain ⟨hvpeers, hvown, hvstate, hvcycle⟩ := hpacked
    have htx := ownSlot_tx u
    rw [hv] at htx
    obtain ⟨hset, hclear⟩ := ownSlot_restart u
    rw [hvpeers, hvown] at hpeers
    refine ⟨ownSlot u, v.packRecord, hu ▸ exec_ownSlotStart dt s hr hl ht, ?_, fun j hj => ?_, fun hm => ?_, fun hm => ?_,
      hvown, hvstate, congrArg (Option.getD · 0) hvcycle, fun hp => ?_, ?_, ?_, ?_⟩
    · rw [hpeers, vput_get, if_pos rfl]
    · rw [hpeers, vput_get, if_neg (Ne.symm hj)]
    · rw [htx, if_neg (by simp [hu, hm]), hu]
      rfl
    · rw [htx, if_pos (by simp [hu, hm]), hu]
      rfl
    · have hsame : v = advance dt s := by rw [← hv, hu]; exact slotEvaluation_idle _ hp
      rw [hsame] at hstandby hcoord ⊢
      refine ⟨rfl, packRecord_run _ ?_, rfl, rfl, rfl, rfl, rfl, rfl, rfl, rfl, rfl, rfl, rfl, rfl, rfl, rfl, rfl, rfl,
        rfl, rfl, rfl, rfl, hstandby, ?_⟩
      · rcases hp with h | h | h <;> simp [h]
      · rw [hcoord]
        rfl
    · rw [hu] at hset ⊢; exact hset
    · rw [hu] at hclear ⊢; exact hclear
    · simp [hu]

end Sys2Proof.Machine
end

section
/-! A received frame: discarded, attributed to a slot, or accepted. -/

namespace Sys2Proof.Machine

/-! ### The first checks (R60) -/

theorem exec_frameReceived (dt ago : Time) (bytes : List Byte) (s : State) (hr : s.running = true) :
    exec (.frameReceived dt ago bytes) s = .next (receiveFrame ago bytes (advance dt s)) :=
  congrArg Host.Outcome.next (if_pos hr)

theorem parseFrame_short {bytes : List Byte} (h : bytes.length < 40) : parseFrame bytes = none := if_pos h

theorem parseFrame_badCrc {bytes : List Byte} (h : rd bytes 38 2 ≠ (crc16 ((bytes.drop 2).take 36)).toNat) :
    parseFrame bytes = none := by
  rw [parseFrame, frameBody, if_pos h, ite_self]

/-- A frame without a record, and one with the own number, has no effect (R60). -/
theorem receiveFrame_discarded (ago : Time) (bytes : List Byte) (s : State)
    (h : ∀ r, parseFrame bytes = some r → r.station = s.own) : receiveFrame ago bytes s = s := by
  unfold receiveFrame
  split
  · rfl
  · rename_i r hr
    exact if_pos (h r hr)

/-- A frame that survives the first checks is examined with the instant it began (R60). -/
theorem receiveFrame_examined (ago : Time) (bytes : List Byte) (s : State) (r : StatusRecord)
    (hr : parseFrame bytes = some r) (hother : r.station ≠ s.own) :
    receiveFrame ago bytes s = examineFrame r ((s.now : Rat) - (ago : Rat)) s := by
  simp only [receiveFrame, hr, if_neg hother]

/-! ### The link state's treatment (R50, R55, R61) -/

theorem examineFrame_off (r : StatusRecord) (start : Rat) (s : State) (h : s.link.state = .off) :
    examineFrame r start s = s := by
  simp only [examineFrame, h]

/-- A frame that is not adopted is attributed (R55, R60). -/
theorem examineFrame_attributed (r : StatusRecord) (start : Rat) (s : State)
    (h : s.link.state = .synced ∨ (s.link.state = .alone ∧ (s.cfg.armSize ≤ r.station.val ∨
      (r.link ≠ .synced ∧ (r.link = .alone → s.own.val ≤ r.station.val))))) :
    examineFrame r start s = attributeFrame r.station r start s := by
  rcases h with h | ⟨h, hkept⟩
  · simp only [examineFrame, h]
  · simp only [examineFrame, h]
    refine if_neg ?_
    rintro ⟨hin, hsynced | ⟨halone, hlower⟩⟩ <;> rcases hkept with hout | ⟨hns, hna⟩
    · omega
    · exact hns hsynced
    · omega
    · exact absurd hlower (not_lt.mpr (hna halone))

/-- A LISTENING station adopts a frame of the arm, and an ALONE one that of a SYNCED or lower station (R50, R55). -/
theorem examineFrame_adopted (r : StatusRecord) (start : Rat) (s : State)
    (h : s.link.state = .listening ∨ (s.link.state = .alone ∧
      (r.link = .synced ∨ (r.link = .alone ∧ r.station.val < s.own.val)))) (hin : r.station.val < s.cfg.armSize) :
    examineFrame r start s = adoptFrame r.station r start s := by
  rcases h with h | ⟨h, hadopt⟩
  · simp only [examineFrame, h, if_pos hin]
  · simp only [examineFrame, h]
    exact if_pos ⟨hin, hadopt⟩

theorem examineFrame_stranger (r : StatusRecord) (start : Rat) (s : State) (h : s.link.state = .listening)
    (hout : s.cfg.armSize ≤ r.station.val) : examineFrame r start s = reportStranger r.station s := by
  simp only [examineFrame, h, if_neg (not_lt.mpr hout)]

/-! ### A slot of ARM_SIZE or more (R61) -/

theorem reportStranger_again (j : Station) (s : State) (h : j ∈ s.link.outOfArm) : reportStranger j s = s :=
  if_pos (by simpa using h)

/-- The first report of a slot raises CONFIG_MISMATCH with its number, and the slot joins the set (R61; log entry 49). -/
theorem reportStranger_first (j : Station) (s : State) (h : j ∉ s.link.outOfArm) :
    j ∈ (reportStranger j s).link.outOfArm ∧ (reportStranger j s).hasFault .configMismatch .abort none (j.val : Int) := by
  have heq : reportStranger j s = (raiseAbort .configMismatch (j.val : Int) s).setLink
      { (raiseAbort .configMismatch (j.val : Int) s).link with
        outOfArm := (raiseAbort .configMismatch (j.val : Int) s).link.outOfArm ++ [j] } := if_neg (by simpa using h)
  rw [heq]
  exact ⟨by simp, hasFault_of_faults (raiseFault_hasFault .configMismatch .abort none (j.val : Int) s) rfl rfl⟩

/-! ### An attributed frame (R53, R61, R62) -/

theorem attributeFrame_elsewhere {j : Station} (r : StatusRecord) {start : Rat} {s : State} (h : s.attributed start ≠ j) :
    attributeFrame j r start s = s := if_pos h

theorem attributeFrame_stranger {j : Station} (r : StatusRecord) {start : Rat} {s : State} (h : s.attributed start = j)
    (hout : s.cfg.armSize ≤ j.val) : attributeFrame j r start s = reportStranger j s := by
  rw [attributeFrame, if_neg (not_not.mpr h), if_pos hout]

/-- In the arm, a frame of another cycle is foreign (R62). -/
theorem attributeFrame_foreign {j : Station} (r : StatusRecord) {start : Rat} {s : State} (h : s.attributed start = j)
    (hin : j.val < s.cfg.armSize) (hcycle : s.link.cycle ≠ some r.cycle) :
    attributeFrame j r start s = s.setLink { s.link with foreignInCycle := true } := by
  rw [attributeFrame, if_neg (not_not.mpr h), if_neg (not_le.mpr hin), if_pos hcycle]

/-- One of this cycle but off time takes a station that does not transmit to LISTENING (R53). -/
theorem attributeFrame_offTime {j : Station} (r : StatusRecord) {start : Rat} {s : State} (h : s.attributed start = j)
    (hin : j.val < s.cfg.armSize) (hcycle : s.link.cycle = some r.cycle)
    (hoff : s.offset start < -25000 ∨ 25000 < s.offset start) :
    attributeFrame j r start s = if s.transmitting = true then s else enterListening s := by
  rw [attributeFrame, if_neg (not_not.mpr h), if_neg (not_le.mpr hin), if_neg (not_not.mpr hcycle)]
  exact if_pos hoff

/-- The state with a frame's offset kept, in SYNCED alone (R52). -/
def State.keepOffset (s : State) (off : Rat) : State :=
  if s.link.state = .synced then s.setLink { s.link with offsets := s.link.offsets ++ [off] } else s

/-- One on time is accepted (R52, R62). -/
theorem attributeFrame_accepted {j : Station} (r : StatusRecord) {start : Rat} {s : State} (h : s.attributed start = j)
    (hin : j.val < s.cfg.armSize) (hcycle : s.link.cycle = some r.cycle) (hlow : -25000 ≤ s.offset start)
    (hhigh : s.offset start ≤ 25000) :
    attributeFrame j r start s = acceptRecord j r (s.keepOffset (s.offset start)) := by
  rw [attributeFrame, if_neg (not_not.mpr h), if_neg (not_le.mpr hin), if_neg (not_not.mpr hcycle)]
  exact if_neg (by rintro (h | h) <;> linarith)

/-- The offsets after it (R52). -/
theorem keepOffset_offsets (s : State) (off : Rat) : (s.keepOffset off).link.offsets =
    if s.link.state = .synced then s.link.offsets ++ [off] else s.link.offsets := by
  unfold State.keepOffset
  split <;> rfl

/-- What keeping an offset leaves. -/
theorem keepOffset_keeps (s : State) (off : Rat) : (s.keepOffset off).peers = s.peers ∧
    (s.keepOffset off).link.state = s.link.state ∧ (s.keepOffset off).link.cycle = s.link.cycle ∧
    (s.keepOffset off).link.cycleStart = s.link.cycleStart ∧ (s.keepOffset off).standby = s.standby ∧
    (s.keepOffset off).sensing = s.sensing ∧ (s.keepOffset off).mem = s.mem ∧ (s.keepOffset off).plan = s.plan ∧
    (s.keepOffset off).port = s.port := by
  unfold State.keepOffset
  split <;> exact ⟨rfl, rfl, rfl, rfl, rfl, rfl, rfl, rfl, rfl⟩

/-- An acceptance gives the station's entry its record and touches no other (R62, R67). -/
theorem acceptRecord_peers (j : Station) (r : StatusRecord) (s : State) :
    (acceptRecord j r s).peers = vput s.peers j ⟨.active, 0, some r⟩ := by
  simp [acceptRecord]

theorem acceptRecord_accepted (j : Station) (r : StatusRecord) (s : State) :
    (acceptRecord j r s).link.acceptedInCycle = true := by
  simp [acceptRecord]

/-- Settles O49: by the first checks, and for an attributed frame by each of its treatments. -/
theorem receivedFrameIsDiscardedOrAccepted : Obligations.ReceivedFrameIsDiscardedOrAccepted := by
  intro dt ago bytes s hr
  have hexec := exec_frameReceived dt ago bytes s hr
  have hdiscarded : (∀ r, parseFrame bytes = some r → r.station = s.own) →
      exec (.frameReceived dt ago bytes) s = .next (s.later dt) := by
    intro h
    rw [hexec, receiveFrame_discarded ago bytes (advance dt s) h]
    rfl
  have hnone : parseFrame bytes = none → exec (.frameReceived dt ago bytes) s = .next (s.later dt) :=
    fun h => hdiscarded fun r hr' => absurd (h.symm.trans hr') (by simp)
  have hexamined : ∀ r, parseFrame bytes = some r → r.station ≠ s.own → exec (.frameReceived dt ago bytes) s =
      .next (examineFrame r (((s.now + dt : Nat) : Rat) - ago) (advance dt s)) := by
    intro r hp hother
    rw [hexec, receiveFrame_examined ago bytes (advance dt s) r hp hother]
    rfl
  refine ⟨fun h => hnone (parseFrame_short h), fun h => hnone (parseFrame_badCrc h), fun h => ?none,
    fun r hp hown => hdiscarded fun r' hp' => ?own, fun r k n slot off hp hother hstate hslot hpos hstart hlow hhigh => ?_⟩
  case none =>
    rcases h with h | h
    · exact hnone h
    · by_cases hother : ∀ r, parseFrame bytes = some r → r.station = s.own
      · exact hdiscarded hother
      · push Not at hother
        obtain ⟨r, hp, hother⟩ := hother
        rw [hexamined r hp hother, examineFrame_off r _ (advance dt s) h]
        rfl
  case own =>
    cases hp.symm.trans hp'
    exact hown
  have hlength : (advance dt s).slotLength = slot := hslot.symm
  obtain ⟨hslotOf, hoffset⟩ := attributed_near (advance dt s) k n (((s.now + dt : Nat) : Rat) - ago) off
    (by rw [hlength]; exact hpos) (by rw [hlength]; exact hstart) (by rw [hlength]; exact hlow)
    (by rw [hlength]; exact hhigh)
  rw [hexamined r hp hother, examineFrame_attributed r _ (advance dt s) hstate]
  generalize ((s.now + dt : Nat) : Rat) - ago = start at hslotOf hoffset ⊢
  refine ⟨fun hk => ?elsewhere, fun hk hout => ⟨fun hold => ?known, fun hnew => ?stranger⟩, fun hk hin hcycle => ?foreign,
    fun hk hin hcycle hoff => ⟨fun hsends => ?sending, fun hsends => ?listening⟩,
    fun hk hin hcycle hfrom hto => ?accepted⟩
  case elsewhere =>
    rw [attributeFrame_elsewhere r (by rw [hslotOf]; exact Ne.symm hk)]
    rfl
  case known =>
    rw [hk, attributeFrame_stranger r hslotOf hout, reportStranger_again k (advance dt s) hold]
    rfl
  case stranger =>
    rw [hk, attributeFrame_stranger r hslotOf hout]
    obtain ⟨hjoins, hfault⟩ := reportStranger_first k (advance dt s) hnew
    exact ⟨_, rfl, hjoins, hfault, by simp⟩
  case foreign =>
    rw [hk, attributeFrame_foreign r hslotOf hin hcycle]
    rfl
  case sending =>
    rw [hk, attributeFrame_offTime r hslotOf hin hcycle (by rw [hoffset]; exact hoff),
      if_pos ((transmitting_iff (advance dt s)).mpr hsends)]
    rfl
  case listening =>
    rw [hk, attributeFrame_offTime r hslotOf hin hcycle (by rw [hoffset]; exact hoff),
      transmitting_not (advance dt s) hsends]
    exact ⟨_, rfl, rfl, rfl, rfl, rfl, rfl, rfl, rfl, rfl, rfl⟩
  case accepted =>
    rw [hk, attributeFrame_accepted r hslotOf hin hcycle (by rw [hoffset]; exact hfrom) (by rw [hoffset]; exact hto),
      hoffset]
    obtain ⟨u, hu⟩ : ∃ u, u = (advance dt s).keepOffset off := ⟨_, rfl⟩
    have hkeeps := keepOffset_keeps (advance dt s) off
    have hoffsets := keepOffset_offsets (advance dt s) off
    rw [← hu] at hkeeps hoffsets ⊢
    obtain ⟨hpeers, hlink, hcycle', hstart', hstandby, hsensing, hmem, hplan, hport⟩ := hkeeps
    refine ⟨_, rfl, ?_, fun j hj => ?_, acceptRecord_accepted k r u, fun hs => ?_, fun hs => ?_, ?_⟩
    · rw [acceptRecord_peers, vput_get, if_pos rfl]
    · rw [acceptRecord_peers, vput_get, if_neg (Ne.symm hj), hpeers]
      rfl
    · simp [hoffsets, hs]
    · simp [hoffsets, hs]
    · simp [hlink, hcycle', hstart', hstandby, hsensing, hmem, hplan, hport]

end Sys2Proof.Machine
end

section
/-! The adoption of a frame's timing. -/

namespace Sys2Proof.Machine

/-- The state an adoption starts from: the listening period it ends has aged the peers (R68). -/
def State.periodEnded (s : State) : State := if s.link.state = .listening then ageAll s else s

/-- The link with a frame's timing (R50, R55). -/
def Link.adopting (l : Link) (cycle : BitVec 32) (cycleStart : Rat) : Link :=
  { l with
    state := .synced, timed := true, cycle := some cycle, silentCycles := 0, foreignCycles := 0, cycleStart := cycleStart
    correction := 0, heard := [], offsets := [0], acceptedInCycle := false, foreignInCycle := false }

/-- An adoption sets the link's time and accepts the record (R50, R55). -/
theorem adoptFrame_eq (j : Station) (r : StatusRecord) (start : Rat) (s : State) :
    adoptFrame j r start s = acceptRecord j r (s.periodEnded.setLink (s.periodEnded.link.adopting r.cycle
      (start - 4000 - (j.val : Rat) * s.periodEnded.slotLength))) := rfl

theorem periodEnded_slotLength (s : State) :
    s.periodEnded.slotLength = ((s.cfg.cyclePeriod * 1000000 : Nat) : Rat) / 8 := by
  have hconfig : s.periodEnded.port.config = s.port.config := by
    unfold State.periodEnded
    split <;> simp
  simp only [State.slotLength, State.period, State.cfg, hconfig, ms]

/-- What an adoption leaves of the link, and the entries of the peers (R50, R55, R62). -/
theorem adoptFrame_spec (j : Station) (r : StatusRecord) (start : Rat) (s : State) :
    (adoptFrame j r start s).link.state = .synced ∧ (adoptFrame j r start s).link.timed = true ∧
    (adoptFrame j r start s).link.cycle = some r.cycle ∧
    (adoptFrame j r start s).link.cycleStart + (j.val : Rat) * ((s.cfg.cyclePeriod * 1000000 : Nat) / 8) = start - 4000 ∧
    (adoptFrame j r start s).peers = vput s.periodEnded.peers j ⟨.active, 0, some r⟩ := by
  rw [adoptFrame_eq, acceptRecord_peers, periodEnded_slotLength]
  refine ⟨by simp [Link.adopting], by simp [Link.adopting], by simp [Link.adopting], ?_, rfl⟩
  simp only [acceptRecord_keeps, State.setLink_link, Link.adopting]
  ring

/-- Settles O50: by the adoption, and by the report of a stranger. -/
theorem frameIsAdopted : Obligations.FrameIsAdopted := by
  intro dt ago bytes s r hr hp hother
  have hexec : exec (.frameReceived dt ago bytes) s =
      .next (examineFrame r (((s.now + dt : Nat) : Rat) - ago) (advance dt s)) := by
    rw [exec_frameReceived dt ago bytes s hr, receiveFrame_examined ago bytes (advance dt s) r hp hother]
    rfl
  rw [hexec]
  generalize ((s.now + dt : Nat) : Rat) - ago = start
  refine ⟨fun hadopts hin => ?adopted, fun hl hout => ?_⟩
  case adopted =>
    rw [examineFrame_adopted r start (advance dt s) hadopts hin]
    obtain ⟨hstate, htimed, hcycle, hstart, hpeers⟩ := adoptFrame_spec r.station r start (advance dt s)
    refine ⟨_, rfl, hstate, htimed, hcycle, hstart, ?_, fun ha j hj => ?_, by simp⟩
    · rw [hpeers, vput_get, if_pos rfl]
    · have hkept : (advance dt s).periodEnded = advance dt s := if_neg (by simp [ha])
      rw [hpeers, vput_get, if_neg (Ne.symm hj), hkept]
      rfl
  · rw [examineFrame_stranger r start (advance dt s) hl hout]
    refine ⟨fun hold => ?_, fun hnew => ?_⟩
    · rw [reportStranger_again r.station (advance dt s) hold]
      rfl
    · obtain ⟨hjoins, hfault⟩ := reportStranger_first r.station (advance dt s) hnew
      exact ⟨_, rfl, hjoins, hfault, by simp [hl]⟩

end Sys2Proof.Machine
end

section
/-! Ageing and loss: the end of another station's slot, and the end of a listening period. -/

namespace Sys2Proof.Machine

/-! ### One entry (R68, R69) -/

/-- The entry of a station that has become LOST (R69). -/
def PeerEntry.gone (e : PeerEntry) : PeerEntry := { e with loss := .lost, silence := e.silence + 1 }

/-- Below 255 a silence count that rises stays in its byte (log entry 50). -/
theorem silence_rises {n : Nat} (h : n < 255) : min 255 (n + 1) = n + 1 := by omega

/-- NEVER_HEARD and LOST entries do not age (R68). -/
theorem agePeer_inactive (j : Station) (s : State) (h : (s.peers.get j).loss ≠ .active) : agePeer j s = s := if_neg h

/-- Below the limit an ACTIVE entry ages alone (R68). -/
theorem agePeer_silent (j : Station) (s : State) (h : (s.peers.get j).loss = .active)
    (hbyte : (s.peers.get j).silence < 255) (hlimit : (s.peers.get j).silence + 1 < s.cfg.peerLossLimit) :
    agePeer j s = s.setPeers (vput s.peers j { s.peers.get j with silence := (s.peers.get j).silence + 1 }) := by
  simp only [agePeer, if_pos h, silence_rises hbyte, if_neg (not_le.mpr hlimit)]

/-- At the limit it becomes LOST, and its loss is handed on (R69, R70). -/
theorem agePeer_lost (j : Station) (s : State) (h : (s.peers.get j).loss = .active)
    (hbyte : (s.peers.get j).silence < 255) (hlimit : s.cfg.peerLossLimit ≤ (s.peers.get j).silence + 1) :
    agePeer j s = peerLost j (s.peers.get j) (s.setPeers (vput s.peers j (s.peers.get j).gone)) := by
  simp only [agePeer, if_pos h, silence_rises hbyte, if_pos hlimit, PeerEntry.gone]

/-- The loss of a peer leaves the Coordinator (R69, R198). -/
theorem peerLost_coord (j : Station) (e : PeerEntry) (s : State) : (peerLost j e s).coord = s.coord := by
  simp only [peerLost]
  (repeat' split) <;> simp

/-- PEER_LOST stands in the fault list in HOMING, READY and HALTED, the closing flag not shown (R69). -/
theorem peerLost_hasFault (j : Station) (e : PeerEntry) (s : State)
    (hp : s.coord.phase = .homing ∨ s.coord.phase = .ready ∨ s.coord.phase = .halted)
    (hc : ∀ r, e.record = some r → r.closing = false) :
    (peerLost j e s).hasFault .peerLost .hold none (j.val : Int) := by
  obtain ⟨r, hroom, hcode, hcls, horigin, hstep, hdetail⟩ := room_lost j e s hp hc
  exact ⟨r, hroom.mem, hcode, hcls, by simp [horigin, State.own], hstep, hdetail⟩

/-! ### The end of another station's slot (R68) -/

theorem exec_slotEndAging (dt : Time) (k : Station) (s : State) : exec (.slotEndAging dt k) s = .next
    (if (s.linkTimed && decide (k ≠ s.own)) && decide (s.link.cycleStart + ((k.val + 1 : Nat) : Rat)
      * ((s.cfg.cyclePeriod * 1000000 : Nat) / 8) ≤ ((s.now + dt : Nat) : Rat)) then slotEnd k (advance dt s)
      else s.later dt) := rfl

theorem slotEnd_heard (k : Station) (s : State) (h : k ∈ s.link.heard) : slotEnd k s =
    s.setLink { s.link with heard := s.link.heard.filter fun j => decide (j ≠ k) } := if_pos (by simpa using h)

theorem slotEnd_unheard (k : Station) (s : State) (h : k ∉ s.link.heard) : slotEnd k s = agePeer k s :=
  if_neg (by simpa using h)

/-! ### The end of a listening period (R67, R68) -/

theorem exec_listenPeriodEnd (dt : Time) (s : State) : exec (.listenPeriodEnd dt) s = .next
    (if s.running && decide (s.link.state = .listening) &&
      decide (s.link.listenSince + s.cfg.cyclePeriod * 1000000 ≤ s.now + dt) then listenPeriod (advance dt s)
      else s.later dt) := rfl

/-- Settles O52: by ageing one entry, and by ageing all after the own entry is refreshed. -/
theorem unheardPeersAgeAndAreLost : Obligations.UnheardPeersAgeAndAreLost := by
  refine ⟨fun dt k s e hr he hl hother ht => ?slot, fun dt k s hr hnot => ?idle, fun dt s hr => ⟨fun hnot => ?wait,
    fun hl ht => ?period⟩⟩
  case slot =>
    subst he
    have hexec : exec (.slotEndAging dt k) s = .next (slotEnd k (advance dt s)) := by
      rw [exec_slotEndAging, linkTimed_on s hr hl, decide_eq_true hother, decide_eq_true ht]
      rfl
    rw [hexec]
    refine ⟨fun hk => ?_, fun hk ha => ?_, fun hk ha hbyte hlimit => ?_, fun hk ha hbyte hlimit => ?_⟩
    · rw [slotEnd_heard k (advance dt s) hk]
      rfl
    · rw [slotEnd_unheard k (advance dt s) hk, agePeer_inactive k (advance dt s) ha]
      rfl
    · rw [slotEnd_unheard k (advance dt s) hk, agePeer_silent k (advance dt s) ha hbyte hlimit]
      rfl
    · rw [slotEnd_unheard k (advance dt s) hk, agePeer_lost k (advance dt s) ha hbyte hlimit]
      refine ⟨_, rfl, ?_, fun hp hc => peerLost_hasFault k _ _ hp hc, peerLost_coord k _ _, ?_⟩
      · simp [PeerEntry.gone]
      · simp
  case idle =>
    have hguard : ((s.linkTimed && decide (k ≠ s.own)) && decide (s.link.cycleStart + ((k.val + 1 : Nat) : Rat)
      * ((s.cfg.cyclePeriod * 1000000 : Nat) / 8) ≤ ((s.now + dt : Nat) : Rat))) = false := by
      rcases hnot with h | h | h | h
      · rw [linkTimed_off s (.inl h), Bool.false_and, Bool.false_and]
      · rw [linkTimed_off s (.inr h), Bool.false_and, Bool.false_and]
      · rw [decide_eq_false (not_not.mpr h), Bool.and_false, Bool.false_and]
      · rw [decide_eq_false (not_le.mpr h), Bool.and_false]
    rw [exec_slotEndAging, hguard]
    rfl
  case wait =>
    rw [exec_listenPeriodEnd, if_neg]
    intro h
    simp only [Bool.and_eq_true, decide_eq_true_eq] at h
    exact hnot.elim (absurd h.1.2) (absurd h.2 ∘ not_le.mpr)
  case period =>
    obtain ⟨u, hu⟩ : ∃ u, u = packAndRefresh (advance dt s) := ⟨_, rfl⟩
    have hexec : exec (.listenPeriodEnd dt) s = .next (ageAll u) := by
      rw [exec_listenPeriodEnd, if_pos (by simp [hr, hl, ht]), hu]
      rfl
    have hown : u.own = s.own := by simp [hu, State.own]
    have hcfg : u.cfg = s.cfg := by simp [hu, State.cfg]
    have hphase : u.coord.phase = s.coord.phase := by simp [hu]
    have hpeers : u.peers = vput s.peers s.own ⟨.active, 0, some (advance dt s).packRecord⟩ := by
      rw [hu, (packAndRefresh_spec (advance dt s)).1]
      rfl
    have hentry : ∀ j, j ≠ s.own → u.peers.get j = s.peers.get j := fun j hj => by
      rw [hpeers, vput_get, if_neg (Ne.symm hj)]
    have hage : ∀ j, j ≠ s.own → (ageAll u).peers.get j = (s.peers.get j).aged s.cfg.peerLossLimit := fun j hj => by
      rw [ageAll_peers, hown, hcfg, if_pos hj, hentry j hj]
    refine ⟨ageAll u, (advance dt s).packRecord, hexec, ?_, rfl, hl, fun j hj ha => ?_,
      fun j hj ha hbyte => ⟨?_, fun hlimit hp hc => ?_⟩, ?_⟩
    · rw [ageAll_peers, hown, if_neg (not_not.mpr rfl), hpeers, vput_get, if_pos rfl]
    · rw [hage j hj]
      exact if_neg ha
    · rw [hage j hj, PeerEntry.aged, if_pos ha, silence_rises hbyte]
    · obtain ⟨r, hmem, hcode, hcls, horigin, hstep, hdetail⟩ := ageAll_lost u j (by rw [hown]; exact hj)
        (by rw [hentry j hj]; exact ha) (by rw [hentry j hj, hcfg, silence_rises hbyte]; exact hlimit) (by rw [hphase]; exact hp)
        (by rw [hentry j hj]; exact hc)
      exact ⟨r, hmem, hcode, hcls, by simp [horigin, State.own], hstep, hdetail⟩
    · simp [hu]

end Sys2Proof.Machine
end

section
/-! An accepted record at the Hold Unit: its sequence and level, the entry test after it, and a retained lockout. -/

namespace Sys2Proof.Machine

/-! ### The sequence part (R159, R162, R163) -/

theorem Hold.see_newest (h : Hold) (q : BitVec 16) :
    (h.see q).newest = if seqNewer q h.newest = true then q else h.newest := by
  unfold Hold.see
  split <;> rfl

/-- A sequence that is no news to the newest known one changes nothing (R159). -/
theorem Hold.see_known (h : Hold) (q : BitVec 16) (hq : seqNewer q h.newest = false) : h.see q = h :=
  if_neg (by simp [hq])

/-- No sequence is newer than itself (R159). -/
theorem seqNewer_self (q : BitVec 16) : seqNewer q q = false := by
  simp [seqNewer, serialNewer]

theorem ne_of_seqNewer {a b : BitVec 16} (h : seqNewer a b = true) : a ≠ b := by
  rintro rfl
  exact absurd (h.symm.trans (seqNewer_self a)) (by simp)

/-- A newer sequence with a level is adopted (R162). -/
theorem takeSequence_adopts (j : Station) (r : StatusRecord) (s : State) (hn : seqNewer r.holdSeq s.hold.seq = true)
    (hl : r.level ≠ .none) : takeSequence j r s = adoptHold j r (s.setHold (s.hold.see r.holdSeq)) := by
  simp only [takeSequence, hn, if_true, if_neg hl]

/-- An equal sequence raises the level and settles the origin (R163). -/
theorem takeSequence_equal (j : Station) (r : StatusRecord) (s : State) (hq : r.holdSeq = s.hold.seq) :
    takeSequence j r s = settleOrigin r (raiseToPeer r (s.setHold (s.hold.see r.holdSeq))) := by
  have hn : seqNewer r.holdSeq s.hold.seq = false := by rw [hq, seqNewer_self]
  simp only [takeSequence, hn, Bool.false_eq_true, if_false, State.setHold_hold, Hold.see_keeps, if_pos hq]

/-- Where the level does not rise, an equal sequence leaves it (R163). -/
theorem raiseToPeer_stays (r : StatusRecord) (s : State)
    (h : (s.hold.level = .stop ∨ s.hold.level = .drop) → r.level.rank ≤ s.hold.level.rank) : raiseToPeer r s = s := by
  refine if_neg ?_
  simp only [Bool.and_eq_true, decide_eq_true_eq, HoldLevel.entering, Bool.or_eq_true]
  rintro ⟨hlevel, hrank⟩
  exact absurd (h hlevel) (not_le.mpr hrank)

/-- With no adoption and no rise, the newest known sequence may follow, and a lower origin of an equal sequence gives its
cause and origin (R159, R163). -/
theorem takeSequence_stays (j : Station) (r : StatusRecord) (s : State)
    (hnone : seqNewer r.holdSeq s.hold.seq = true → r.level = .none)
    (hrise : r.holdSeq = s.hold.seq → (s.hold.level = .stop ∨ s.hold.level = .drop) → r.level.rank ≤ s.hold.level.rank) :
    ∃ c o, takeSequence j r s = s.setHold { s.hold.see r.holdSeq with cause := c, origin := o } ∧
      (r.holdSeq = s.hold.seq → r.level ≠ .none → s.hold.level ≠ .none → r.origin.val < s.hold.origin.val →
        c = r.cause ∧ o = r.origin) ∧
      ((r.holdSeq ≠ s.hold.seq ∨ r.level = .none ∨ s.hold.level = .none ∨ s.hold.origin.val ≤ r.origin.val) →
        c = s.hold.cause ∧ o = s.hold.origin) := by
  by_cases hq : r.holdSeq = s.hold.seq
  · rw [takeSequence_equal j r s hq, raiseToPeer_stays r _ (by simpa using hrise hq)]
    obtain ⟨c, o, heq, hlower, hkept⟩ := settleOrigin_spec r (s.setHold (s.hold.see r.holdSeq))
    simp only [State.setHold_hold, Hold.see_keeps] at hlower hkept
    exact ⟨c, o, heq, fun _ h1 h2 h3 => hlower ⟨h1, h2, h3⟩, fun h => hkept (h.resolve_left (not_not.mpr hq))⟩
  · refine ⟨s.hold.cause, s.hold.origin, ?_, fun h => absurd h hq, fun _ => ⟨rfl, rfl⟩⟩
    have hsee : { s.hold.see r.holdSeq with cause := s.hold.cause, origin := s.hold.origin } = s.hold.see r.holdSeq := by
      unfold Hold.see
      split <;> rfl
    rw [hsee]
    simp only [takeSequence, State.setHold_hold, Hold.see_keeps, if_neg hq]
    split
    · rename_i hn
      rw [if_pos (hnone hn)]
    · rfl

/-! ### The entry test (R170) -/

theorem entryTest_notEntering (s : State) (h : s.hold.level.entering = false) : entryTest s = s :=
  if_neg (by simp [h])

/-- Cause, origin, resume flag and newest known sequence are left by it (R170). -/
theorem entryTest_leaves (s : State) : (entryTest s).hold.cause = s.hold.cause ∧
    (entryTest s).hold.origin = s.hold.origin ∧ (entryTest s).hold.resume = s.hold.resume ∧
    (entryTest s).hold.newest = s.hold.newest := by
  rcases entryTest_hold s with h | h <;> rw [h] <;> exact ⟨rfl, rfl, rfl, rfl⟩

/-- A settled arm completes an entry, and its deadline is gone (R170). -/
theorem entryTest_settled (s : State) (h : s.hold.level.entering = true) (hs : s.entrySettled = true) :
    (entryTest s).hold.complete = true ∧ (s.hold.complete = false → (entryTest s).hold.deadline = none) := by
  cases hc : s.hold.complete
  · have hlatch : ∀ x : State, (orderlyLatch x).hold = x.hold := fun x => by simp
    simp only [entryTest, h, hc, hs, Bool.not_false, Bool.and_self, if_true]
    split <;> simp
  · rw [entryTest, if_neg (by simp [hc])]
    exact ⟨hc, fun h => by cases h⟩

/-! ### The acceptance of a record that brings nothing else -/

/-- The state after the sequence part and its entry test (R162, R163, R170; log entry 27). -/
def State.sequenced (s : State) (j : Station) (r : StatusRecord) : State := entryTest (takeSequence j r (takeEntry j r s))

theorem sequenced_keeps (s : State) (j : Station) (r : StatusRecord) : (s.sequenced j r).standby = s.standby ∧
    (s.sequenced j r).cfg = s.cfg := by
  simp [State.sequenced, State.cfg, takeEntry]

/-- After it comes the tail alone, the claim set aside, for a record that brings nothing else and a sequence part that
leaves the phase or halts the station (R162, R164, R175, R178). -/
theorem acceptRecord_flagsIdle {s : State} {j : Station} {r : StatusRecord} (h : r.flagsIdle s)
    (hlevel : s.hold.level ≠ .lockout → r.level ≠ .lockout → (s.sequenced j r).hold.level ≠ .lockout)
    (hphase : (s.sequenced j r).coord.phase = s.coord.phase ∨
      ((s.sequenced j r).coord.phase = .halted ∧ s.coord.phase ≠ .isolated ∧ r.phase ≠ .isolated ∧ r.phase ≠ .gathering)) :
    ∃ c : Coord, acceptRecord j r s = settleTail r ((s.sequenced j r).setCoord c) ∧
      c.phase = (s.sequenced j r).coord.phase := by
  obtain ⟨hresume, hclear, hrestart, hretained, hback, hdrift⟩ := h
  obtain ⟨hstandby, hcfg⟩ := sequenced_keeps s j r
  have clear : r.lockClear = true →
      (s.sequenced j r).hold.level ≠ .lockout ∨ (s.sequenced j r).coord.phase = .isolated := by
    intro hflag
    rcases hclear hflag with hiso | ⟨hs, hr⟩
    · exact .inr ((hphase.resolve_right fun k => k.2.1 hiso).trans hiso)
    · exact .inl (hlevel hs hr)
  have retained : ((s.sequenced j r).coord.phase = .gathering ∨ (s.sequenced j r).coord.phase = .recovering) →
      ∀ pd cd c, r.block ≠ .gather pd cd 1 c := by
    rcases hphase with he | ⟨he, -⟩ <;> rw [he]
    · exact hretained
    · simp
  have back : ((s.sequenced j r).coord.phase = .homing ∨ (s.sequenced j r).coord.phase = .ready ∨
      (s.sequenced j r).coord.phase = .halted) → r.phase ≠ .isolated ∧ r.phase ≠ .gathering := by
    rcases hphase with he | ⟨-, -, hr⟩
    · rw [he]
      exact hback
    · exact fun _ => hr
  have drift : (s.sequenced j r).coord.phase = .recovering →
      (s.sequenced j r).standby.excursion ≤ (s.sequenced j r).cfg.driftThreshold := by
    rw [hstandby, hcfg]
    rcases hphase with he | ⟨he, -⟩ <;> rw [he]
    · exact hdrift
    · simp
  obtain ⟨c, hc, hcphase, -⟩ := accept_rest j r (s.sequenced j r) hresume clear hrestart retained back drift
  exact ⟨c, by rw [acceptRecord_parts]; exact congrArg (settleTail r) hc, hcphase⟩

/-! ### What the sequence part leaves (R162, R163) -/

/-- The sequence part of an adoption (R85, R107, R156, R161, R162). -/
theorem sequenced_adopted {s y : State} {j : Station} {r : StatusRecord} (hy : s.sequenced j r = y)
    (hn : seqNewer r.holdSeq s.hold.seq = true) (hl : r.level ≠ .none) :
    y.hold.seq = r.holdSeq ∧ y.hold.cause = r.cause ∧ y.hold.origin = r.origin ∧ y.hold.resume = false ∧
    y.hold.level = s.hold.level.higher r.level ∧
    (s.hold.level ≠ .lockout → y.engine.order = .stop .hold) ∧
    (y.hold.level.dropped = true → s.hold.level ≠ .lockout → y.gate = .closed) ∧
    (s.hold.level ≠ .lockout → r.level = .lockout → y.store.busyWith .lockRecord = true) ∧
    (s.hold.level = .lockout → r.level = .lockout → y.hold.faults = s.hold.faults ∧ y.coord = s.coord) ∧
    ((s.hold.level ≠ .lockout ∨ r.level ≠ .lockout) →
      (∃ f ∈ y.hold.faults, f.code = r.cause ∧ f.cls = r.adoptedClass ∧ f.origin = r.origin ∧ f.step = none ∧
        f.detail = BitVec.ofNat 32 j.val) ∧
      (r.adoptedClass = .abort → s.coord.phase ≠ .isolated → y.coord.phase = .halted) ∧
      ((r.adoptedClass ≠ .abort ∨ s.coord.phase = .isolated) → y.coord = s.coord)) := by
  obtain ⟨w, hw⟩ : ∃ w, w = (takeEntry j r s).setHold (s.hold.see r.holdSeq) := ⟨_, rfl⟩
  have hhold : w.hold = s.hold.see r.holdSeq := by rw [hw]; rfl
  have hcoord : w.coord = s.coord := by rw [hw]; rfl
  obtain ⟨z, hz⟩ : ∃ z, z = adoptHold j r w := ⟨_, rfl⟩
  have hadopt : y = entryTest z := by
    rw [← hy, State.sequenced, takeSequence_adopts j r (takeEntry j r s) hn hl, hz, hw]
    rfl
  have hspec := adoptHold_spec j r w (by rw [hhold]; simpa using (ne_of_seqNewer hn).symm) hl
  rw [hhold, hcoord, ← hz] at hspec
  simp only [Hold.see_keeps] at hspec
  obtain ⟨hseq, hcause, horigin, hresume, hlevel, horder, hgate, hposted, hsame, hrecorded⟩ := hspec
  obtain ⟨hkcause, hkorigin, hkresume, -⟩ := entryTest_leaves z
  rw [hadopt]
  simp only [entryTest_keeps, hkcause, hkorigin, hkresume]
  exact ⟨hseq, hcause, horigin, hresume, hlevel, horder, hgate, fun h1 h2 => entryTest_busy _ _ (by simp) (hposted h1 h2),
    hsame, hrecorded⟩

/-- The sequence part of a rise (R107, R161, R163). -/
theorem sequenced_risen {s y : State} {j : Station} {r : StatusRecord} (hy : s.sequenced j r = y)
    (hq : r.holdSeq = s.hold.seq) (hl : s.hold.level = .stop ∨ s.hold.level = .drop)
    (hr : s.hold.level.rank < r.level.rank) :
    y.hold.level = r.level ∧ y.hold.seq = s.hold.seq ∧
    (r.origin.val < s.hold.origin.val → y.hold.cause = r.cause ∧ y.hold.origin = r.origin) ∧
    (s.hold.origin.val ≤ r.origin.val → y.hold.cause = s.hold.cause ∧ y.hold.origin = s.hold.origin) ∧
    y.engine.order = .stop .hold ∧ y.gate = .closed ∧
    (r.level = .lockout → y.store.busyWith .lockRecord = true ∧ y.hold.deadline = none ∧ y.hold.complete = false) ∧
    (r.level = .drop → y.hold.deadline =
      if y.hold.complete = true then none else some (s.now + s.cfg.dropLimit * 1000000)) ∧
    (s.cal.proposal = none → y.hold.faults = s.hold.faults) ∧ y.coord = s.coord := by
  obtain ⟨w, hw⟩ : ∃ w, w = (takeEntry j r s).setHold (s.hold.see r.holdSeq) := ⟨_, rfl⟩
  have hhold : w.hold = s.hold.see r.holdSeq := by rw [hw]; rfl
  have hrest : w.coord = s.coord ∧ w.now = s.now ∧ w.cfg = s.cfg ∧ w.cal = s.cal := by rw [hw]; exact ⟨rfl, rfl, rfl, rfl⟩
  obtain ⟨hcoord, hnow, hcfg, hcal⟩ := hrest
  obtain ⟨z, hz⟩ : ∃ z, z = settleOrigin r (raiseToPeer r w) := ⟨_, rfl⟩
  have hequal : y = entryTest z := by
    rw [← hy, State.sequenced, takeSequence_equal j r (takeEntry j r s) hq, hz, hw]
    rfl
  have hspec := raiseSettle_spec r w (by rw [hhold]; simpa using hl) (by rw [hhold]; simpa using hr)
  rw [hhold, hcoord, hnow, hcfg, hcal, ← hz] at hspec
  simp only [Hold.see_keeps] at hspec
  obtain ⟨hlevel, hseq, hlower, hkept, horder, hgate, hlockout, hdrop, hfaults, hphase⟩ := hspec
  obtain ⟨hkcause, hkorigin, -⟩ := entryTest_leaves z
  rw [hequal]
  simp only [entryTest_keeps, hkcause, hkorigin]
  refine ⟨hlevel, hseq, hlower, hkept, horder, hgate, fun h => ?_, fun h => ?_, hfaults, hphase⟩
  · rw [entryTest_notEntering z (by rw [hlevel, h]; rfl)]
    exact hlockout h
  · rcases entryTest_hold z with he | he <;> rw [he]
    · exact hdrop h
    · rfl

/-- The sequence part without adoption or rise: the newest known sequence, cause and origin, and then the entry test
(R159, R163, R170). -/
theorem sequenced_stays {s y : State} {j : Station} {r : StatusRecord} (hy : s.sequenced j r = y) (hj : j ≠ s.own)
    (hnone : seqNewer r.holdSeq s.hold.seq = true → r.level = .none)
    (hrise : r.holdSeq = s.hold.seq → (s.hold.level = .stop ∨ s.hold.level = .drop) → r.level.rank ≤ s.hold.level.rank) :
    y.hold.level = s.hold.level ∧ y.hold.seq = s.hold.seq ∧ y.hold.faults = s.hold.faults ∧
    y.hold.newest = (if seqNewer r.holdSeq s.hold.newest = true then r.holdSeq else s.hold.newest) ∧
    (r.holdSeq = s.hold.seq → r.level ≠ .none → s.hold.level ≠ .none → r.origin.val < s.hold.origin.val →
      y.hold.cause = r.cause ∧ y.hold.origin = r.origin) ∧
    ((r.holdSeq ≠ s.hold.seq ∨ r.level = .none ∨ s.hold.level = .none ∨ s.hold.origin.val ≤ r.origin.val) →
      y.hold.cause = s.hold.cause ∧ y.hold.origin = s.hold.origin) ∧
    ((s.hold.level = .stop ∨ s.hold.level = .drop) → s.settled = true → r.settledFor s.hold.seq = true →
      (∀ x ∈ s.peerRecords, x.1 ≠ j → x.2.settledFor s.hold.seq = true) →
      y.hold.complete = true ∧ (s.hold.complete = false → y.hold.deadline = none)) ∧
    y.gate = s.gate ∧ y.engine = s.engine ∧ y.plan = s.plan ∧ y.coord = s.coord ∧ y.cal = s.cal := by
  obtain ⟨c, o, heq, hlower, hkept⟩ := takeSequence_stays j r (takeEntry j r s) hnone hrise
  obtain ⟨z, hz⟩ : ∃ z, z = takeSequence j r (takeEntry j r s) := ⟨_, rfl⟩
  rw [← hz] at heq
  have hhold : z.hold = { s.hold.see r.holdSeq with cause := c, origin := o } := by rw [heq]; rfl
  have hnewest := s.hold.see_newest r.holdSeq
  obtain ⟨hcause, horigin, -, hnew⟩ := entryTest_leaves z
  rw [← hy, State.sequenced, ← hz, hcause, horigin, hnew, hhold]
  refine ⟨by simp [hhold], by simp [hhold], by simp [hhold], hnewest, hlower, hkept, fun hl hs hr hpeers => ?settled,
    by simp [heq, takeEntry], by simp [heq, takeEntry], by simp [heq, takeEntry], by simp [heq, takeEntry],
    by simp [heq, takeEntry]⟩
  case settled =>
    have hseq : z.hold.seq = s.hold.seq := by simp [hhold]
    have hcomplete : z.hold.complete = s.hold.complete := by simp [hhold]
    have hentering : z.hold.level.entering = true := by
      rcases hl with h | h <;> simp [hhold, h, HoldLevel.entering]
    have hall : z.entrySettled = true := by
      have hsettled : z.settled = s.settled := by rw [heq]; rfl
      have hrecords : z.peerRecords = (takeEntry j r s).peerRecords := by
        rw [heq]; exact peerRecords_congr rfl rfl
      rw [State.entrySettled, hsettled, hs, hseq, hrecords, Bool.true_and, List.all_eq_true]
      intro x hx
      rcases (takeEntry_records j r s hj x).mp hx with rfl | ⟨hold, hne⟩
      · exact hr
      · exact hpeers x hold hne
    rw [← hcomplete]
    exact entryTest_settled z hentering hall

/-! ### The acceptance as a whole -/

/-- An adoption (R85, R107, R156, R161, R162). -/
theorem acceptRecord_adopts {s t : State} {j : Station} {r : StatusRecord} (ht : acceptRecord j r s = t)
    (hidle : r.flagsIdle s) (hn : seqNewer r.holdSeq s.hold.seq = true) (hl : r.level ≠ .none)
    (habort : r.adoptedClass = .abort → r.phase ≠ .isolated ∧ r.phase ≠ .gathering) :
    t.hold.seq = r.holdSeq ∧ t.hold.cause = r.cause ∧ t.hold.origin = r.origin ∧ t.hold.resume = false ∧
    t.hold.level = s.hold.level.higher r.level ∧
    (s.hold.level ≠ .lockout → t.engine.order = .stop .hold) ∧
    ((t.hold.level = .drop ∨ t.hold.level = .lockout) → s.hold.level ≠ .lockout → t.gate = .closed) ∧
    (s.hold.level ≠ .lockout → r.level = .lockout → t.store.busyWith .lockRecord = true) ∧
    (s.hold.level = .lockout → r.level = .lockout → t.hold.faults = s.hold.faults) ∧
    ((s.hold.level ≠ .lockout ∨ r.level ≠ .lockout) → ∃ f ∈ t.hold.faults, f.code = r.cause ∧ f.cls = r.adoptedClass ∧
      f.origin = r.origin ∧ f.step = none ∧ f.detail = BitVec.ofNat 32 j.val) ∧
    (r.adoptedClass = .abort → s.coord.phase ≠ .isolated → t.coord.phase = .halted) ∧
    ((r.adoptedClass ≠ .abort ∨ s.coord.phase = .isolated) → t.coord.phase = s.coord.phase) := by
  obtain ⟨y, hy⟩ : ∃ y, s.sequenced j r = y := ⟨_, rfl⟩
  obtain ⟨hseq, hcause, horigin, hresume, hlevel, horder, hclosed, hposted, hsame, hrecorded⟩ := sequenced_adopted hy hn hl
  have hnot : r.adoptedClass = .abort → r.level ≠ .lockout := by
    intro h hlock
    rw [StatusRecord.adoptedClass, if_pos hlock] at h
    cases h
  have hhalts : r.adoptedClass = .abort → s.coord.phase ≠ .isolated → y.coord.phase = .halted :=
    fun h => (hrecorded (.inr (hnot h))).2.1 h
  have hstays : (r.adoptedClass ≠ .abort ∨ s.coord.phase = .isolated) → y.coord.phase = s.coord.phase := by
    intro h
    by_cases hboth : s.hold.level = .lockout ∧ r.level = .lockout
    · rw [(hsame hboth.1 hboth.2).2]
    · rw [(hrecorded (not_and_or.mp hboth)).2.2 h]
  have hphase : y.coord.phase = s.coord.phase ∨
      (y.coord.phase = .halted ∧ s.coord.phase ≠ .isolated ∧ r.phase ≠ .isolated ∧ r.phase ≠ .gathering) := by
    by_cases h : r.adoptedClass ≠ .abort ∨ s.coord.phase = .isolated
    · exact .inl (hstays h)
    · push Not at h
      exact .inr ⟨hhalts h.1 h.2, h.2, habort h.1⟩
  have hunlocked : s.hold.level ≠ .lockout → r.level ≠ .lockout → y.hold.level ≠ .lockout := by
    intro hs hr
    rw [hlevel, HoldLevel.higher]
    split
    · exact hr
    · exact hs
  obtain ⟨c, haccept, hc⟩ := acceptRecord_flagsIdle hidle (hy ▸ hunlocked) (hy ▸ hphase)
  rw [hy] at haccept hc
  rw [haccept] at ht
  subst ht
  obtain ⟨tlevel, tseq, tcause, torigin, -, tfaults, -, -, tresume, -⟩ := settleTail_final r (y.setCoord c)
  obtain ⟨tengine, -, tgate, tcoord, -⟩ := settleTail_keeps r (y.setCoord c)
  have tphase : (settleTail r (y.setCoord c)).coord.phase = y.coord.phase := by rw [tcoord]; exact hc
  refine ⟨tseq.trans hseq, tcause.trans hcause, torigin.trans horigin, tresume hresume, tlevel.trans hlevel,
    fun h => tengine ▸ horder h, fun h hs => ?gate, fun h hr => settleTail_busy _ r _ (hposted h hr) (by simp),
    fun h hr => tfaults.trans (hsame h hr).1, fun h => tfaults ▸ (hrecorded h).1,
    fun h hiso => tphase.trans (hhalts h hiso), fun h => tphase.trans (hstays h)⟩
  case gate =>
    rw [tlevel] at h
    rw [tgate]
    exact hclosed (by simpa [HoldLevel.dropped] using h) hs

/-- A rise (R107, R161, R163). -/
theorem acceptRecord_rises {s t : State} {j : Station} {r : StatusRecord} (ht : acceptRecord j r s = t)
    (hidle : r.flagsIdle s) (hq : r.holdSeq = s.hold.seq) (hl : s.hold.level = .stop ∨ s.hold.level = .drop)
    (hr : s.hold.level.rank < r.level.rank) :
    t.hold.level = r.level ∧ t.hold.seq = s.hold.seq ∧
    (r.origin.val < s.hold.origin.val → t.hold.cause = r.cause ∧ t.hold.origin = r.origin) ∧
    (s.hold.origin.val ≤ r.origin.val → t.hold.cause = s.hold.cause ∧ t.hold.origin = s.hold.origin) ∧
    t.engine.order = .stop .hold ∧ t.gate = .closed ∧
    (r.level = .lockout → t.store.busyWith .lockRecord = true ∧ t.hold.deadline = none ∧ t.hold.complete = false) ∧
    (r.level = .drop → t.hold.deadline =
      if t.hold.complete = true then none else some (s.now + s.cfg.dropLimit * 1000000)) ∧
    (s.cal.proposal = none → t.hold.faults = s.hold.faults) ∧ t.coord.phase = s.coord.phase := by
  obtain ⟨y, hy⟩ : ∃ y, s.sequenced j r = y := ⟨_, rfl⟩
  obtain ⟨hlevel, hseq, hlower, hkept, horder, hclosed, hlockout, hdrop, hfaults, hsame⟩ := sequenced_risen hy hq hl hr
  obtain ⟨c, haccept, hc⟩ := acceptRecord_flagsIdle (j := j) hidle (fun _ h => by rw [hy, hlevel]; exact h)
    (.inl (by rw [hy, hsame]))
  rw [hy] at haccept hc
  rw [haccept] at ht
  subst ht
  obtain ⟨tlevel, tseq, tcause, torigin, -, tfaults, -, -, -, tentry, tcomplete, tdeadline⟩ :=
    settleTail_final r (y.setCoord c)
  obtain ⟨tengine, -, tgate, tcoord, -⟩ := settleTail_keeps r (y.setCoord c)
  refine ⟨tlevel.trans hlevel, tseq.trans hseq, fun h => ?_, fun h => ?_, tengine ▸ horder, tgate.trans hclosed,
    fun h => ?lockout, fun h => ?drop, fun h => tfaults.trans (hfaults h), ?phase⟩
  · rw [tcause, torigin]; exact hlower h
  · rw [tcause, torigin]; exact hkept h
  case lockout =>
    obtain ⟨hposted, hnone, hincomplete⟩ := hlockout h
    have hnotest : entryTest (y.setCoord c) = y.setCoord c :=
      entryTest_notEntering _ (by rw [State.setCoord_hold, hlevel, h]; rfl)
    rw [tcomplete, tdeadline, hnotest]
    exact ⟨settleTail_busy _ r _ hposted (by simp), hnone, hincomplete⟩
  case drop =>
    rcases tentry with ⟨he, hd⟩ | ⟨he, hd⟩ <;> rw [he, hd]
    · exact hdrop h
    · rfl
  case phase =>
    rw [tcoord, ← hsame]
    exact hc

/-- Neither adoption nor rise (R159, R163, R170). -/
theorem acceptRecord_stays {s t : State} {j : Station} {r : StatusRecord} (ht : acceptRecord j r s = t) (hj : j ≠ s.own)
    (hidle : r.flagsIdle s) (hnone : seqNewer r.holdSeq s.hold.seq = true → r.level = .none)
    (hrise : r.holdSeq = s.hold.seq → (s.hold.level = .stop ∨ s.hold.level = .drop) → r.level.rank ≤ s.hold.level.rank) :
    t.hold.level = s.hold.level ∧ t.hold.seq = s.hold.seq ∧ t.hold.faults = s.hold.faults ∧
    t.hold.newest = (if seqNewer r.holdSeq s.hold.newest = true then r.holdSeq else s.hold.newest) ∧
    (r.holdSeq = s.hold.seq → r.level ≠ .none → s.hold.level ≠ .none → r.origin.val < s.hold.origin.val →
      t.hold.cause = r.cause ∧ t.hold.origin = r.origin) ∧
    ((r.holdSeq ≠ s.hold.seq ∨ r.level = .none ∨ s.hold.level = .none ∨ s.hold.origin.val ≤ r.origin.val) →
      t.hold.cause = s.hold.cause ∧ t.hold.origin = s.hold.origin) ∧
    ((s.hold.level = .stop ∨ s.hold.level = .drop) → s.settled = true → r.settledFor s.hold.seq = true →
      (∀ x ∈ s.peerRecords, x.1 ≠ j → x.2.settledFor s.hold.seq = true) →
      t.hold.complete = true ∧ (s.hold.complete = false → t.hold.deadline = none)) ∧
    t.gate = s.gate ∧ t.engine = s.engine ∧ t.plan = s.plan ∧ t.coord.phase = s.coord.phase := by
  obtain ⟨y, hy⟩ : ∃ y, s.sequenced j r = y := ⟨_, rfl⟩
  obtain ⟨hlevel, hseq, hfaults, hnewest, hlower, hkept, hcompletes, hgate, hengine, hplan, hsame, -⟩ :=
    sequenced_stays hy hj hnone hrise
  obtain ⟨c, haccept, hc⟩ := acceptRecord_flagsIdle (j := j) hidle (fun h _ => by rw [hy, hlevel]; exact h)
    (.inl (by rw [hy, hsame]))
  rw [hy] at haccept hc
  rw [haccept] at ht
  subst ht
  obtain ⟨tlevel, tseq, tcause, torigin, tnewest, tfaults, -, -, -, tentry, -⟩ := settleTail_final r (y.setCoord c)
  obtain ⟨tengine, tplan, tgate, tcoord, -⟩ := settleTail_keeps r (y.setCoord c)
  refine ⟨tlevel.trans hlevel, tseq.trans hseq, tfaults.trans hfaults, tnewest.trans hnewest, fun h1 h2 h3 h4 => ?_,
    fun h => ?_, fun h1 h2 h3 h4 => ?complete, tgate.trans hgate, tengine.trans hengine, tplan.trans hplan, ?phase⟩
  · rw [tcause, torigin]; exact hlower h1 h2 h3 h4
  · rw [tcause, torigin]; exact hkept h
  case complete =>
    obtain ⟨hcomplete, hdeadline⟩ := hcompletes h1 h2 h3 h4
    rcases tentry with ⟨he, hd⟩ | ⟨he, hd⟩ <;> rw [he, hd]
    · exact ⟨hcomplete, hdeadline⟩
    · exact ⟨rfl, fun _ => rfl⟩
  case phase =>
    rw [tcoord, ← hsame]
    exact hc

/-! ### A retained lockout (R81, R164) -/

/-- LOCKOUT records nothing at a station with no proposal of its own (R161, R198). -/
theorem enterLockout_faults (s : State) (h : s.cal.proposal = none) :
    (enterLockout true s).hold.faults = s.hold.faults := by
  have hposted : ∀ x : State, (postLockRecord x).hold.faults = x.hold.faults := fun x => by simp
  rw [enterLockout, if_pos rfl, hposted, holdReaches_faults _ (by simp [h])]
  simp

/-- The state that enters LOCKOUT for a retained one: a fresh sequence, the record's cause, the sender as origin
(R164). -/
def State.lockedBy (s : State) (j : Station) (c : Byte) : State :=
  setCause c j (setLevel .lockout (changeSeq s.hold.freshSeq s))

theorem lockedBy_hold (s : State) (j : Station) (c : Byte) : (s.lockedBy j c).hold.level = .lockout ∧
    (s.lockedBy j c).hold.seq = s.hold.freshSeq ∧ (s.lockedBy j c).hold.cause = c ∧ (s.lockedBy j c).hold.origin = j ∧
    (s.lockedBy j c).hold.faults = s.hold.faults ∧ (s.lockedBy j c).coord = s.coord ∧ (s.lockedBy j c).cal = s.cal := by
  simp [State.lockedBy]

theorem takeRetained_locks (j : Station) (r : StatusRecord) (s : State) (pd : BitVec 32) (cd : BitVec 16) (c : Byte)
    (hb : r.block = .gather pd cd 1 c) (hp : s.coord.phase = .gathering ∨ s.coord.phase = .recovering)
    (hl : s.hold.level ≠ .lockout) : takeRetained j r s = enterLockout true (s.lockedBy j c) := by
  have hshown : r.retained = some c := by simp [StatusRecord.retained, hb]
  simp only [takeRetained, hshown]
  exact if_pos (by simpa [hl] using hp)

/-- A GATHER record reaches no claim set (R117). -/
theorem claimFromPeer_gather (j : Station) (r : StatusRecord) (s : State) (pd : BitVec 32) (cd : BitVec 16) (f c : Byte)
    (hb : r.block = .gather pd cd f c) : claimFromPeer j r s = s := by
  have hempty : r.claimEntry = .empty := by simp [StatusRecord.claimEntry, hb]
  simp [claimFromPeer, hempty]

/-- A record that is no news to sequence and level but shows a retained lockout (R81, R107, R161, R164; log entry 27). -/
theorem acceptRecord_retained {s t : State} {j : Station} {r : StatusRecord} {pd : BitVec 32} {cd : BitVec 16} {c : Byte}
    (ht : acceptRecord j r s = t) (hj : j ≠ s.own) (hb : r.block = .gather pd cd 1 c)
    (hp : s.coord.phase = .gathering ∨ s.coord.phase = .recovering) (hl : s.hold.level ≠ .lockout)
    (hidle : r.sequenceIdle s) (hknown : seqNewer r.holdSeq s.hold.newest = false) (hresume : r.resume = false) :
    t.hold.level = .lockout ∧ t.hold.seq = s.hold.freshSeq ∧ t.hold.cause = c ∧ t.hold.origin = j ∧
    t.store.busyWith .lockRecord = true ∧ t.engine.order = .stop .hold ∧ t.gate = .closed ∧
    t.coord.phase = s.coord.phase ∧ (s.cal.proposal = none → t.hold.faults = s.hold.faults) := by
  obtain ⟨hnone, hrise, -⟩ := hidle
  obtain ⟨y, hy⟩ : ∃ y, s.sequenced j r = y := ⟨_, rfl⟩
  obtain ⟨hlevel, -, hfaults, hnewest, -, -, -, -, -, -, hcoord, hcal⟩ := sequenced_stays hy hj hnone hrise
  rw [hknown, if_neg (by simp)] at hnewest
  obtain ⟨klevel, kseq, kcause, korigin, kfaults, kcoord, kcal⟩ := lockedBy_hold y j c
  have hphase : (enterLockout true (y.lockedBy j c)).coord.phase = s.coord.phase := by
    simp [kcoord, hcoord]
  have haccept : acceptRecord j r s = settleTail r (enterLockout true (y.lockedBy j c)) := by
    rw [acceptRecord_parts]
    change settleTail r (claimFromPeer j r (takeRestarted j r (takeRestart r (takeRetained j r (takeLockClear r
      (takeResume r (s.sequenced j r))))))) = _
    rw [hy, takeResume_id r y hresume, takeLockClear_id r y (fun _ => .inl (hlevel ▸ hl)),
      takeRetained_locks j r y pd cd c hb (hcoord ▸ hp) (hlevel ▸ hl),
      takeRestart_id r _ (fun _ hh => by rw [hphase] at hh; rcases hp with h | h <;> simp [h] at hh),
      takeRestarted_id j r _ (fun hh => by rw [hphase] at hh; rcases hp with h | h <;> simp [h] at hh),
      claimFromPeer_gather j r _ pd cd 1 c hb]
  rw [haccept] at ht
  subst ht
  obtain ⟨elevel, egate, eseq, ecause, eorigin, -, -, eorder, eposted⟩ := enterLockout_spec (y.lockedBy j c) klevel
  obtain ⟨tlevel, tseq, tcause, torigin, -, tfaults, -⟩ := settleTail_final r (enterLockout true (y.lockedBy j c))
  obtain ⟨tengine, -, tgate, tcoord, -⟩ := settleTail_keeps r (enterLockout true (y.lockedBy j c))
  refine ⟨tlevel.trans elevel, ?_, by rw [tcause, ecause, kcause], by rw [torigin, eorigin, korigin],
    settleTail_busy _ r _ eposted (by simp), tengine ▸ eorder, tgate.trans egate, ?_, fun hnoproposal => ?_⟩
  · rw [tseq, eseq, kseq, Hold.freshSeq, hnewest, ← Hold.freshSeq]
  · rw [tcoord, hphase]
  · rw [tfaults, enterLockout_faults _ (by rw [kcal, hcal]; exact hnoproposal), kfaults, hfaults]

/-- Settles O5: a frame the station hears is accepted, and the acceptance adopts, raises or leaves, or takes the retained
lockout. -/
theorem acceptedRecordActsOnTheHold : Obligations.AcceptedRecordActsOnTheHold := by
  intro dt ago bytes s r hears
  obtain ⟨l, hexec, hstation, -⟩ := exec_hears hears
  obtain ⟨-, -, hother, -⟩ := hears
  obtain ⟨u, hu⟩ : ∃ u : State, u = { s.later dt with link := l } := ⟨_, rfl⟩
  obtain ⟨t, ht⟩ : ∃ t, acceptRecord r.station r u = t := ⟨_, rfl⟩
  rw [← hu, ht] at hexec
  have hj : r.station ≠ u.own := by rw [hu, State.own]; exact hstation.symm ▸ hother
  have hrecords : u.peerRecords = s.peerRecords := by rw [hu]; exact peerRecords_congr rfl hstation
  have hkeeps : t.standby = s.standby ∧ t.sensing = s.sensing ∧ t.mem = s.mem ∧ t.plan.steps = s.plan.steps ∧
      t.port.config = s.port.config := by
    simp [← ht, hu, State.later]
  obtain ⟨hstandby, hsensing, hmem, hsteps, hconfig⟩ := hkeeps
  refine ⟨fun hidle => ⟨fun cls hcls hn hl habort => ?adopts, fun hq hl hr => ?rises, fun hnone hrise => ?stays⟩,
    fun pd cd c hb hp hl hidle hknown hresume => ?retained⟩
  case adopts =>
    subst hcls
    obtain ⟨h1, h2, h3, h4, h5, h6, h7, h8, h9, h10, h11, h12⟩ :=
      acceptRecord_adopts ht (by rw [hu]; exact hidle) (by rw [hu]; exact hn) hl habort
    subst hu
    exact ⟨t, hexec, h1, h2, h3, h4, h5, h6, h7, h8, h9, h10, h11, h12, hstandby, hsensing, hmem, hsteps, hconfig⟩
  case rises =>
    obtain ⟨h1, h2, h3, h4, h5, h6, h7, h8, h9, h10⟩ :=
      acceptRecord_rises ht (by rw [hu]; exact hidle) (by rw [hu]; exact hq) (by rw [hu]; exact hl) (by rw [hu]; exact hr)
    subst hu
    exact ⟨t, hexec, h1, h2, h3, h4, h5, h6, h7, h8, h9, h10, hstandby, hsensing, hmem, hsteps, hconfig⟩
  case stays =>
    obtain ⟨h1, h2, h3, h4, h5, h6, h7, h8, h9, h10, h11⟩ :=
      acceptRecord_stays ht hj (by rw [hu]; exact hidle) (by rw [hu]; exact hnone) (by rw [hu]; exact hrise)
    rw [hrecords] at h7
    subst hu
    exact ⟨t, hexec, h1, h2, h3, h4, h5, h6, h7, h8, h9, h10, h11, hstandby, hsensing, hmem, hconfig⟩
  case retained =>
    obtain ⟨h1, h2, h3, h4, h5, h6, h7, h8, h9⟩ :=
      acceptRecord_retained ht hj hb (by rw [hu]; exact hp) (by rw [hu]; exact hl) (by rw [hu]; exact hidle)
        (by rw [hu]; exact hknown) hresume
    subst hu
    exact ⟨t, hexec, h1, h2, h3, h4, h5, h6, h7, h8, h9, hstandby, hsensing, hmem, hsteps⟩

end Sys2Proof.Machine
end

section
/-! Gathering that runs out of time. -/

namespace Sys2Proof.Machine

theorem exec_gatherTimeout (dt : Time) (s : State) : exec (.gatherTimeout dt) s = .next
    (if s.running && (decide (s.coord.phase = .gathering) || decide (s.coord.phase = .recovering)) &&
      (advance dt s).passed s.coord.deadline then
      raiseAbort .gatherTimeout (stationSet (advance dt s).failingStations) (advance dt s) else s.later dt) := rfl

/-- The detail of GATHER_TIMEOUT has the bits of the stations that fail the phase's condition (R79, R154). -/
theorem failingStations_bits (s : State) : ∃ b : Nat, b < 256 ∧ stationSet s.failingStations = (b : Int) ∧
    ∀ j : Station, b.testBit j.val = decide (j ∈ s.failingStations) := by
  obtain ⟨b, hb, hset, hbits⟩ := stationSet_bits (fun j => decide (j ∈ s.failingStations))
  have hfilter : stations.filter (fun j => decide (j ∈ s.failingStations)) = s.failingStations := by
    have hall : ∀ j : Station, j ∈ stations := by decide
    simp only [State.failingStations, State.arm, List.filter_filter, List.mem_filter, hall, true_and]
    exact List.filter_congr fun j _ => by simp
  exact ⟨b, hb, hfilter ▸ hset, hbits⟩

theorem failingStations_outside (s : State) (j : Station) (h : s.cfg.armSize ≤ j.val) : j ∉ s.failingStations := by
  simp [State.failingStations, mem_arm, Nat.not_lt.mpr h]

theorem failingStations_unheard (s : State) (j : Station) (hj : j.val < s.cfg.armSize) (h : s.heardRecord j = none) :
    j ∈ s.failingStations := by
  simp [State.failingStations, mem_arm, hj, h]

theorem failingStations_recovering (s : State) (j : Station) (r : StatusRecord) (hp : s.coord.phase = .recovering)
    (hj : j.val < s.cfg.armSize) (h : s.heardRecord j = some r) :
    decide (j ∈ s.failingStations) = !(r.movedOn && decide (r.confidence ≠ .none)) := by
  simp [State.failingStations, mem_arm, hj, h, hp, StatusRecord.recovered]

/-- An ABORT fault ends gathering and recovering with no phase deadline and no agreement (R72, R85). -/
theorem raiseAbort_gathered (code : FaultCode) (d : Int) (s : State)
    (h : s.coord.phase = .gathering ∨ s.coord.phase = .recovering) :
    (raiseAbort code d s).coord.phase = .halted ∧ (raiseAbort code d s).coord.deadline = none ∧
    (raiseAbort code d s).coord.agreement = 0 ∧
    (s.hold.level = .none → (raiseAbort code d s).hold.level = .stop ∧ (raiseAbort code d s).hold.seq = s.hold.freshSeq ∧
      (raiseAbort code d s).hold.cause = code.byte ∧ (raiseAbort code d s).hold.origin = s.own) := by
  obtain ⟨x, hcoord, hhalted, hhold⟩ := raiseAbort_halts code d s (by tauto)
  have hp : x.coord.phase ≠ .halted := by rw [hcoord]; rcases h with h | h <;> simp [h]
  obtain ⟨faults, hkept⟩ := setPhase_hold .halted x
  rw [hhalted, setPhase_coord .halted x hp, hkept]
  exact ⟨rfl, rfl, rfl, hhold⟩

/-- Settles O44: by the phases in which the deadline runs, and by what puts a station among the failing ones. -/
theorem gatherTimeoutHaltsTheStation : Obligations.GatherTimeoutHaltsTheStation := by
  intro dt s hr
  rw [exec_gatherTimeout]
  refine ⟨fun hquiet => ?quiet, fun d hp hd hpassed => ?raised⟩
  case quiet =>
    refine congrArg Host.Outcome.next (if_neg ?_)
    rcases hquiet with ⟨hg, hv⟩ | hnone | ⟨d, hd, hlt⟩
    · simp [hg, hv]
    · simp [hnone, State.passed]
    · simp [hd, State.passed, advance, Nat.not_le.mpr hlt]
  case raised =>
    have hdue : (s.running && (decide (s.coord.phase = .gathering) || decide (s.coord.phase = .recovering)) &&
        (advance dt s).passed s.coord.deadline) = true := by
      simpa [hr, hd, State.passed, advance, hpassed] using hp
    rw [if_pos hdue]
    obtain ⟨b, hb, hset, hbits⟩ := failingStations_bits (advance dt s)
    obtain ⟨hphase, hdeadline, hagreement, hhold⟩ := raiseAbort_gathered .gatherTimeout b (advance dt s) hp
    rw [hset]
    refine ⟨_, b, rfl, hphase, hdeadline, hagreement, ?_, hb, fun j hj => ?_, fun j hj hnone => ?_,
      fun hrec j r hj hrecord => ?_, hhold, ?_⟩
    · exact raiseFault_hasFault .gatherTimeout .abort none b (advance dt s)
    · rw [hbits, decide_eq_false (failingStations_outside (advance dt s) j hj)]
    · rw [hbits, decide_eq_true (failingStations_unheard (advance dt s) j hj hnone)]
    · rw [hbits, failingStations_recovering (advance dt s) j r hrec hj hrecord]
    · simp [raiseAbort, advance]

end Sys2Proof.Machine
end

section
/-! A restart. -/

namespace Sys2Proof.Machine

/-- The hold as a restart ends it (R86, R176). -/
def State.holdCleared (s : State) : State := if s.hold.level = .none then clearHoldOrder s else levelToNone s

@[simp] theorem holdCleared_keeps (s : State) :
    s.holdCleared.now = s.now ∧ s.holdCleared.power = s.power ∧ s.holdCleared.standby = s.standby ∧
    s.holdCleared.decoder = s.decoder ∧ s.holdCleared.sensing = s.sensing ∧ s.holdCleared.link = s.link ∧
    s.holdCleared.peers = s.peers ∧ s.holdCleared.coord = s.coord ∧ s.holdCleared.plan = s.plan ∧
    s.holdCleared.cal = s.cal ∧ s.holdCleared.mem = s.mem ∧ s.holdCleared.port.config = s.port.config ∧
    s.holdCleared.port.response = s.port.response := by
  simp only [State.holdCleared]; split <;> simp

theorem holdCleared_engine (s : State) : s.holdCleared.engine =
    { s.engine with order := if s.engine.order.reason = some .hold then .none else s.engine.order } := by
  simp only [State.holdCleared]
  split
  · exact clearHoldOrder_engine s
  · exact (levelToNone_spec s).2.1

theorem holdCleared_hold (s : State) : s.holdCleared.hold.level = .none ∧ s.holdCleared.hold.seq = s.hold.seq ∧
    s.holdCleared.hold.cause = s.hold.cause ∧ s.holdCleared.hold.origin = s.hold.origin ∧
    s.holdCleared.hold.faults = s.hold.faults := by
  simp only [State.holdCleared]
  split
  case isTrue hnone => simp [hnone]
  case isFalse => simp [(levelToNone_spec s).1]

/-- The Coordinator of a station that has restarted (R72, R86). -/
def State.restartCoord (s : State) : Coord := { s.coord with
  lastRunClaim := (match s.coord.run with | some r => some r | none => s.coord.lastRunClaim)
  restart := true, restartLeft := s.cfg.peerLossLimit, phase := .gathering, agreement := 0, restartedReported := []
  verdictTested := false, deadline := some (s.now + ms (s.cfg.gatherLimit * 1000)) }

theorem restartStation_eq (s : State) (h : s.coord.phase = .halted) : restartStation s =
    gateUpdate (addCause .phaseChanged (((s.holdCleared.setHold
      { s.holdCleared.hold with resume := false, resumeFor := 0 }).setCoord s.restartCoord).setLink
      { s.link with outOfArm := [] })) := by
  obtain ⟨x, hx⟩ : ∃ x, x = s.holdCleared.setHold { s.holdCleared.hold with resume := false, resumeFor := 0 } := ⟨_, rfl⟩
  have hcoord : x.coord = s.coord := by simp [hx]
  have hlink : x.link = s.link := by simp [hx]
  have hdeadline : x.phaseDeadline .gathering = some (s.now + ms (s.cfg.gatherLimit * 1000)) := by
    simp [hx, State.phaseDeadline, State.cfg]
  have hflagged : restartStation s = setPhase .gathering (x.setCoord { x.coord with
      lastRunClaim := (match x.coord.run with | some r => some r | none => x.coord.lastRunClaim)
      restart := true, restartLeft := x.cfg.peerLossLimit }) := by rw [hx]; rfl
  have hlimit : x.cfg.peerLossLimit = s.cfg.peerLossLimit := by simp [hx, State.cfg]
  rw [hflagged, setPhase_plain _ _ (by simp [hcoord, h]) (by simp [hcoord, h]) (by decide) (by decide), ← hx]
  simp only [State.restartCoord, ← hdeadline, ← hlimit, ← hcoord, ← hlink]
  rfl

/-- What a HALTED station that restarts is left with (R86, R176). -/
theorem restartStation_spec (s : State) (h : s.coord.phase = .halted) :
    (restartStation s).coord = s.restartCoord ∧ (restartStation s).hold.level = .none ∧
    (restartStation s).hold.seq = s.hold.seq ∧ (restartStation s).hold.cause = s.hold.cause ∧
    (restartStation s).hold.origin = s.hold.origin ∧ (restartStation s).hold.faults = s.hold.faults ∧
    (restartStation s).hold.resume = false ∧ (restartStation s).engine = { s.engine with
      order := if s.engine.order.reason = some .hold then .none else s.engine.order } ∧
    (restartStation s).link = { s.link with outOfArm := [] } ∧ (restartStation s).plan = s.plan ∧
    (restartStation s).cal = s.cal := by
  obtain ⟨hlevel, hseq, hcause, horigin, hfaults⟩ := holdCleared_hold s
  rw [restartStation_eq s h]
  simp [hlevel, hseq, hcause, horigin, hfaults, holdCleared_engine]

theorem exec_restart (dt : Time) (s : State) (h : s.portReady = true) :
    exec (.restart dt []) s = .next (closeRequest (decideRestart (s.opened dt))) :=
  congrArg Host.Outcome.next (answerRequest_taken 0 [] decideRestart dt s h rfl)

/-- Settles O18: by the conditions of the table, and by the parts of a HALTED station that restarts. -/
theorem restartReturnsToGathering : Obligations.RestartReturnsToGathering := by
  intro dt s hready
  rw [exec_restart dt s hready]
  refine ⟨fun hp => ?phase, fun hp hl => ?held, fun hp hl => ?taken⟩
  case phase =>
    have hd : decideRestart (s.opened dt) = .refuse .refusedPhase (s.opened dt) := by simp [decideRestart, hp]
    rw [hd]; rfl
  case held =>
    have hno : (s.opened dt).mayRestart = false := by
      rcases hl with hl | hl | ⟨hl, hc⟩
      · simp [State.mayRestart, hl]
      · simp [State.mayRestart, hl]
      · simp [State.mayRestart, hl, hc]
    have hd : decideRestart (s.opened dt) = .refuse .refusedHold (s.opened dt) := by simp [decideRestart, hp, hno]
    rw [hd]; rfl
  case taken =>
    have hmay : (s.opened dt).mayRestart = true := by
      rcases hl with hl | ⟨hl, hc⟩
      · simp [State.mayRestart, hl]
      · simp [State.mayRestart, hl, hc]
    have hd : decideRestart (s.opened dt) = .ok [] (restartStation (s.opened dt)) := by simp [decideRestart, hp, hmay]
    rw [hd, closeRequest_ok]
    obtain ⟨hcoord, hlevel, -, hcause, horigin, hfaults, hresume, hengine, hlink, hplan, hcal⟩ :=
      restartStation_spec (s.opened dt) (by simp [hp])
    have hhold : (s.opened dt).hold = { s.hold with keyCount := 0 } := rfl
    have hkept : (s.opened dt).restartCoord = { s.restartCoord with deadline := some (s.now + dt + ms (s.cfg.gatherLimit * 1000)) } := rfl
    refine ⟨_, rfl, ?_⟩
    simp [hcoord, hlevel, hcause, horigin, hfaults, hresume, hengine, hlink, hplan, hcal, hhold, hkept]
    cases hrun : s.coord.run <;> simp [State.restartCoord, hrun]

end Sys2Proof.Machine
end

section
/-! Joining. -/

namespace Sys2Proof.Machine

theorem exec_join (dt : Time) (s : State) (h : s.portReady = true) :
    exec (.join dt []) s = .next (closeRequest (decideJoin (s.opened dt))) :=
  congrArg Host.Outcome.next (answerRequest_taken 0 [] decideJoin dt s h rfl)

/-- A station that joins, before its entry is refreshed: it gathers, and listens (R49, R73). -/
def State.joined (s : State) : State :=
  enterListening (setPhase .gathering (s.setCoord { s.coord with verdict := s.joinVerdict }))

theorem joinArm_eq (s : State) : joinArm s = handOff (refreshOwn s.joined) := rfl

/-- What a station that joins is left with (R49, R72, R73). -/
theorem joined_spec (s : State) (h : s.coord.phase = .isolated) :
    s.joined.coord = { s.coord with
      verdict := s.joinVerdict, phase := .gathering, agreement := 0, restartedReported := [], verdictTested := false
      deadline := some (s.now + ms (s.cfg.gatherLimit * 1000)) } ∧
    s.joined.link.state = .listening ∧ s.joined.link.timed = false ∧ s.joined.link.cycle = s.link.cycle ∧
    s.joined.own = s.own ∧ s.joined.plan = s.plan ∧ s.joined.store = s.store ∧
    s.joined.port.attention.has .phaseChanged = true := by
  simp only [State.joined]
  rw [setPhase_plain _ _ (by simp [h]) (by simp [h]) (by decide) (by decide)]
  simp [enterListening, State.phaseDeadline, State.cfg, State.own]

/-- The record a station packs as it joins (R64, R65). -/
theorem joined_record (s : State) (h : s.coord.phase = .isolated) :
    s.joined.packRecord.station = s.own ∧ s.joined.packRecord.phase = .gathering ∧
    s.joined.packRecord.link = .listening ∧
    s.joined.packRecord.block = .gather (s.plan.digest.getD 0) (s.port.configDigest.getD 0)
      (boolByte s.store.retainedLockout) s.retainedCause := by
  obtain ⟨hcoord, hlink, -, -, hown, hplan, hstore, -⟩ := joined_spec s h
  have hdigest : s.joined.port.configDigest = s.port.configDigest := by simp [State.joined]
  have hmem : s.joined.mem = s.mem := by simp [State.joined]
  have hblock : s.joined.packBlock = .gather (s.plan.digest.getD 0) (s.port.configDigest.getD 0)
      (boolByte s.store.retainedLockout) s.retainedCause := by
    simp [State.packBlock, hcoord, hplan, hdigest, hstore, State.retainedCause, State.lockBeat, hmem]
  exact ⟨hown, by simp [State.packRecord, hcoord], hlink, hblock⟩

/-- The peer table of a station that joins: its own entry alone is renewed (R67, R73). -/
theorem joinArm_peers (s : State) : (joinArm s).peers = vput s.peers s.own ⟨.active, 0, some s.joined.packRecord⟩ := by
  simp [joinArm_eq, refreshOwn, State.joined, State.own]

/-- Settles O12: by the conditions of the answer, and by the parts of the station that joins. -/
theorem joinStartsGathering : Obligations.JoinStartsGathering := by
  intro dt s hready
  rw [exec_join dt s hready]
  refine ⟨fun hp => ?phase, fun hp hl => ?invalid, fun c hp hc hsealed => ⟨fun hscan => ?busy, fun hscan => ?taken⟩⟩
  case phase =>
    have hd : decideJoin (s.opened dt) = .refuse .refusedPhase (s.opened dt) := by simp [decideJoin, hp]
    rw [hd]; rfl
  case invalid =>
    have hd : decideJoin (s.opened dt) = .refuse .invalid (s.opened dt) := by
      rcases hl with hl | hl <;> simp [decideJoin, hp, hl]
    rw [hd]; rfl
  case busy =>
    have hd : decideJoin (s.opened dt) = .refuse .busy (s.opened dt) := by simp [decideJoin, hp, hc, hsealed, hscan]
    rw [hd]; rfl
  case taken =>
    have hd : decideJoin (s.opened dt) = .ok [] (joinArm (s.opened dt)) := by simp [decideJoin, hp, hc, hsealed, hscan]
    have hcfg : s.cfg = c := by simp [State.cfg, hc]
    have hverdict : (s.opened dt).joinVerdict =
        (s.plan.steps.find? fun r => decide (r.owner = s.own) && r.failsAtJoin c).map (·.index) := by rw [← hcfg]; rfl
    have hdeadline : (s.opened dt).now + ms ((s.opened dt).cfg.gatherLimit * 1000) =
        s.now + dt + ms (c.gatherLimit * 1000) := by rw [← hcfg]; rfl
    obtain ⟨hcoord, hlink, htimed, hcycle, -, hplan, -, hchanged⟩ := joined_spec (s.opened dt) hp
    have hpeers := joinArm_peers (s.opened dt)
    have hattention : (joinArm (s.opened dt)).port.attention.has .phaseChanged = true := by
      rw [joinArm_eq]; exact handOff_has _ _ (by simpa using hchanged)
    rw [hd, closeRequest_ok]
    have hkeeps : (joinArm (s.opened dt)).coord = (s.opened dt).joined.coord ∧
        (joinArm (s.opened dt)).link.state = .listening ∧ (joinArm (s.opened dt)).link.timed = false ∧
        (joinArm (s.opened dt)).link.cycle = s.link.cycle ∧ (joinArm (s.opened dt)).plan = s.plan := by
      rw [joinArm_eq]; simp [hlink, htimed, hcycle, hplan]
    obtain ⟨kcoord, klink, ktimed, kcycle, kplan⟩ := hkeeps
    rw [hverdict, hdeadline] at hcoord
    refine ⟨_, rfl, rfl, ?_, ?_, ?_, ?_, klink, ktimed, kcycle, ⟨(s.opened dt).joined.packRecord, ?_, ?_⟩, fun j hj => ?_,
      hattention, ?_⟩
    · simp [kcoord, hcoord]
    · simp [kcoord, hcoord]
    · simp [kcoord, hcoord]
    · simp [kcoord, hcoord]
    · simp [hpeers, State.own]
    · exact joined_record (s.opened dt) hp
    · have hother : s.link.station ≠ j := Ne.symm hj
      simp [hpeers, State.own, hother]
    · simp [kcoord, hcoord, kplan]

end Sys2Proof.Machine
end

section
/-! The evaluations of the own slot in GATHERING and RECOVERING. -/

namespace Sys2Proof.Machine

theorem slotEvaluation_gathering (s : State) (h : s.coord.phase = .gathering) :
    slotEvaluation s = gatheringEvaluation s := by rw [slotEvaluation, h]

theorem slotEvaluation_recovering (s : State) (h : s.coord.phase = .recovering) :
    slotEvaluation s = recoveryEvaluation s := by rw [slotEvaluation, h]

/-- The agreement count after an evaluation whose condition holds or not (R74, R82). -/
def State.agreementAfter (s : State) (ok : Bool) : Nat := if ok then s.coord.agreement + 1 else 0

/-- The state a gathering evaluation leaves with a count (R74, R78). -/
def State.gathered (s : State) (n : Nat) : State :=
  s.setCoord { s.coord with verdictTested := true, agreement := n }

/-- The state a recovery evaluation leaves with a count (R82). -/
def State.recounted (s : State) (n : Nat) : State := s.setCoord { s.coord with agreement := n }

/-! ### Gathering -/

theorem gatheringEvaluation_eq (s : State) (h : s.gatherFault = none) : gatheringEvaluation s =
    if 2 ≤ s.agreementAfter s.agreement then completeGathering (s.gathered (s.agreementAfter s.agreement))
    else s.gathered (s.agreementAfter s.agreement) := by
  simp only [gatheringEvaluation, h]
  rfl

/-- A step that failed the checks at JOIN ends the evaluation with its fault (R78, R156). -/
theorem gatheringEvaluation_invalid (s : State) (i : Nat) (hv : s.coord.verdict = some i)
    (h : s.gatherFault = some (.planInvalid, (i : Int))) : gatheringEvaluation s =
      raiseFault .planInvalid .abort (some i) (i : Int) (s.setCoord { s.coord with verdictTested := true }) := by
  simp only [gatheringEvaluation, h, if_true, State.setCoord_coord, hv]

theorem journalClaim_kind (s : State) : s.journalClaim.kind = .journal := by
  simp only [State.journalClaim]; split <;> rfl

/-- What the end of gathering leaves: the agreed run, a new phase with its deadline, the claim built, and CAL_DISCARD for
a staged record (R80). -/
theorem completeGathering_spec (s : State) (h : s.coord.phase = .gathering) :
    (completeGathering s).coord.phase = .recovering ∧ (completeGathering s).coord.agreement = 0 ∧
    (completeGathering s).coord.deadline = some (s.now + ms (s.cfg.gatherLimit * 1000)) ∧
    (completeGathering s).coord.run = some s.agreedRun ∧
    (∃ c, (completeGathering s).coord.ownClaim = some c ∧
      c.kind = if s.coord.journalActive = true then .live else .journal) ∧
    (s.cal.staged.isSome = true → (completeGathering s).store.busyWith .calDiscard = true) := by
  obtain ⟨y, hy⟩ : ∃ y, y = (if s.cal.staged.isSome then
      postWrite .calDiscard (s.setCoord { s.coord with run := some s.agreedRun })
      else s.setCoord { s.coord with run := some s.agreedRun }) := ⟨_, rfl⟩
  have hcomplete : completeGathering s = setPhase .recovering (buildClaim y) := by rw [hy]; rfl
  have hkept : y.coord = { s.coord with run := some s.agreedRun } ∧ y.now = s.now ∧ y.port.config = s.port.config := by
    rw [hy]; split <;> simp
  obtain ⟨hcoord, hnow, hconfig⟩ := hkept
  obtain ⟨hclaim, hphase⟩ := buildClaim_own y
  have hother : (buildClaim y).coord.phase ≠ .recovering := by rw [hphase, hcoord]; simp [h]
  rw [hcomplete, setPhase_coord _ _ hother]
  refine ⟨rfl, rfl, ?_, ?_, ⟨_, hclaim, ?_⟩, fun hstaged => ?_⟩
  · simp [State.phaseDeadline, hnow, State.cfg, hconfig]
  · simp [hcoord]
  · rw [hcoord]
    split
    · rfl
    · exact journalClaim_kind y
  · have hposted : y.store.busyWith .calDiscard = true := by
      rw [hy, if_pos hstaged]
      exact postWrite_busy .calDiscard _ (by simp [WriteRequest.kind])
    exact busy_of (buildClaim_busy .calDiscard y hposted (by decide) (by decide)) (by simp) (by simp)

/-- The block of the record a RECOVERING station packs (R65). -/
theorem packBlock_recovering (s : State) (c : Claim) (hp : s.coord.phase = .recovering) (hc : s.coord.ownClaim = some c) :
    s.packRecord.block = .recover c := by
  simp [State.packRecord, State.packBlock, hp, hc]

theorem packRecord_gathering_run (s : State) (hp : s.coord.phase = .gathering) :
    s.packRecord.run = s.coord.lastRunClaim.getD 0 := by
  simp [State.packRecord, hp]

/-! ### Recovering -/

theorem recoveryEvaluation_eq (s : State) : recoveryEvaluation s =
    if 2 ≤ s.agreementAfter s.recoveryMet then completeRecovery (s.recounted (s.agreementAfter s.recoveryMet))
    else s.recounted (s.agreementAfter s.recoveryMet) := rfl

/-- The recovery condition by the arm's records (R82). -/
theorem recoveryMet_iff (s : State) : s.recoveryMet = true ↔
    ∀ j : Station, j.val < s.cfg.armSize → ∃ x, s.armRecord j = some x ∧ x.movedOn = true ∧ x.confidence ≠ .none := by
  simp only [State.recoveryMet, List.all_eq_true, mem_arm]
  refine forall_congr' fun j => imp_congr_right fun _ => ?_
  cases s.armRecord j with
  | none => simp
  | some x => simp [StatusRecord.recovered]

/-- What the end of recovering leaves to the Coordinator and the engine (R82). -/
theorem completeRecovery_spec (s : State) (h : s.coord.phase = .recovering) :
    (completeRecovery s).coord.phase = (if s.hold.level = .lockout then .halted else .homing) ∧
    (completeRecovery s).coord.agreement = 0 ∧ (completeRecovery s).coord.journalActive = true ∧
    (completeRecovery s).engine = (initialStateClaim s).engine ∧
    (completeRecovery s).standby = (initialStateClaim s).standby := by
  obtain ⟨p, hp⟩ : ∃ p : ArmPhase, p = if s.hold.level = .lockout then .halted else .homing := ⟨_, rfl⟩
  have hcomplete : completeRecovery s = setPhase p ((initialStateClaim s).setCoord
      { s.coord with journalActive := true }) := by
    have hcoord : (initialStateClaim s).coord = s.coord := by simp
    have hhold : (initialStateClaim s).hold = s.hold := by simp
    rw [hp, ← hcoord, ← hhold]; rfl
  have hother : ((initialStateClaim s).setCoord { s.coord with journalActive := true }).coord.phase ≠ p := by
    rw [hp, State.setCoord_coord, h]; split <;> decide
  rw [hcomplete, ← hp, setPhase_coord p _ hother]
  exact ⟨rfl, rfl, rfl, by simp, by simp⟩

/-! ### The own slot -/

/-- The peer table after an own slot: the own entry alone is renewed (R67). -/
theorem ownSlot_peers (s v : State) (hv : slotEvaluation s = v) :
    (ownSlot s).peers.get s.own = ⟨.active, 0, some v.packRecord⟩ ∧
    ∀ j, j ≠ s.own → (ownSlot s).peers.get j = s.peers.get j := by
  obtain ⟨hpeers, -⟩ := ownSlot_after s v hv
  have hkept : v.peers = s.peers ∧ v.own = s.own := by rw [← hv]; simp [State.own]
  rw [hpeers, hkept.1, hkept.2]
  exact ⟨by simp, fun j hj => by simp [Ne.symm hj]⟩

/-- At the own slot a GATHERING station with a step that failed the checks at JOIN halts with PLAN_INVALID (R78). -/
theorem ownSlot_planInvalid (s : State) (i : Nat) (hp : s.coord.phase = .gathering) (hshow : s.showAgreement)
    (hown : s.own.val < s.cfg.armSize) (htested : s.coord.verdictTested = false) (hv : s.coord.verdict = some i) :
    (ownSlot s).hasFault .planInvalid .abort (some i) (i : Int) ∧ (ownSlot s).coord.phase = .halted ∧
    (ownSlot s).coord.run = s.coord.run := by
  obtain ⟨x, hx⟩ : ∃ x, x = s.setCoord { s.coord with verdictTested := true } := ⟨_, rfl⟩
  have heval : slotEvaluation s = raiseFault .planInvalid .abort (some i) (i : Int) x := by
    rw [slotEvaluation_gathering s hp, hx]
    exact gatheringEvaluation_invalid s i hv (by rw [gatherFault_of s hshow hown]; simp [htested, hv])
  have hphase : x.coord.phase = .gathering := by rw [hx]; exact hp
  obtain ⟨y, hycoord, hhalted, -⟩ := raiseFault_halts .planInvalid (some i) (i : Int) x (.inl hphase)
  obtain ⟨-, -, -, -, -, -, -, hfaults, -, -, hstation, hcoord⟩ := ownSlot_after s _ heval
  refine ⟨hasFault_of_faults (raiseFault_hasFault _ _ _ _ x) hfaults hstation, ?_, ?_⟩
  · rw [hcoord, hhalted]
    exact (setPhase_halted y (by rw [hycoord, hphase]; decide)).1
  · rw [hcoord]
    simp [hx]

/-- Over records that show agreement the evaluation counts, or ends gathering (R74, R80). -/
theorem slotEvaluation_agreeing (s : State) (hp : s.coord.phase = .gathering) (hshow : s.showAgreement)
    (hown : s.own.val < s.cfg.armSize) (hv : s.coord.verdictTested = true ∨ s.coord.verdict = none) :
    slotEvaluation s = if 2 ≤ s.agreementAfter s.agreement then completeGathering (s.gathered (s.agreementAfter s.agreement))
      else s.gathered (s.agreementAfter s.agreement) := by
  rw [slotEvaluation_gathering s hp]
  refine gatheringEvaluation_eq s ?_
  rw [gatherFault_of s hshow hown]
  rcases hv with hv | hv <;> simp [hv]

/-- An entry of the arm that is not ACTIVE takes the count to 0 (R74). -/
theorem ownSlot_unheard (s : State) (hp : s.coord.phase = .gathering) (hshow : s.showAgreement)
    (hown : s.own.val < s.cfg.armSize) (hv : s.coord.verdictTested = true ∨ s.coord.verdict = none)
    (hmissing : ∃ j : Station, j.val < s.cfg.armSize ∧ s.armRecord j = none) :
    (ownSlot s).coord.phase = .gathering ∧ (ownSlot s).coord.agreement = 0 ∧
    (ownSlot s).coord.run = s.coord.run ∧ (ownSlot s).hold.faults = s.hold.faults := by
  have hno : s.agreement = false := by
    rw [Bool.eq_false_iff, Ne, agreement_of s hshow]
    obtain ⟨j, hj, hnone⟩ := hmissing
    exact fun hall => hall j hj hnone
  have heval : slotEvaluation s = s.gathered 0 := by
    rw [slotEvaluation_agreeing s hp hshow hown hv, hno]; rfl
  obtain ⟨-, -, -, -, -, -, -, hfaults, -, -, -, hcoord⟩ := ownSlot_after s _ heval
  rw [hcoord]
  exact ⟨hp, rfl, rfl, hfaults⟩

/-- The evaluation of an arm that is ACTIVE and agrees (R74, R80). -/
theorem slotEvaluation_agreed (s : State) (hp : s.coord.phase = .gathering) (hshow : s.showAgreement)
    (hown : s.own.val < s.cfg.armSize) (hv : s.coord.verdictTested = true ∨ s.coord.verdict = none)
    (hactive : ∀ j : Station, j.val < s.cfg.armSize → s.armRecord j ≠ none) :
    (s.coord.agreement = 0 → slotEvaluation s = s.gathered 1) ∧
    (1 ≤ s.coord.agreement → slotEvaluation s = completeGathering (s.gathered (s.coord.agreement + 1))) := by
  have heval := slotEvaluation_agreeing s hp hshow hown hv
  rw [(agreement_of s hshow).2 hactive] at heval
  refine ⟨fun hzero => ?_, fun hone => ?_⟩
  · rw [heval]; simp [State.agreementAfter, hzero]
  · rw [heval, State.agreementAfter, if_pos rfl, if_pos (by omega)]

/-- An own slot in GATHERING leaves the counter, the sensors, the store and the plan steps (R74). -/
theorem ownSlot_gathering_keeps (s : State) (hp : s.coord.phase = .gathering) :
    (ownSlot s).standby = s.standby ∧ (ownSlot s).sensing = s.sensing ∧ (ownSlot s).mem = s.mem ∧
    (ownSlot s).plan.steps = s.plan.steps ∧ (ownSlot s).port.config = s.port.config := by
  obtain ⟨-, -, hstandby, hsensing, -⟩ := ownSlot_after s _ (slotEvaluation_gathering s hp)
  rw [hstandby, hsensing]
  simp

/-- The first agreeing own slot counts 1 (R74). -/
theorem ownSlot_counted (s : State) (hp : s.coord.phase = .gathering) (heval : slotEvaluation s = s.gathered 1) :
    (ownSlot s).coord.phase = .gathering ∧ (ownSlot s).coord.agreement = 1 ∧ (ownSlot s).coord.run = s.coord.run ∧
    (slotEvaluation s).packRecord.run = s.coord.lastRunClaim.getD 0 := by
  obtain ⟨-, -, -, -, -, -, -, -, -, -, -, hcoord⟩ := ownSlot_after s _ heval
  rw [hcoord, heval]
  exact ⟨hp, rfl, rfl, packRecord_gathering_run (s.gathered 1) hp⟩

/-- The second agreeing own slot agrees the run (R80). -/
theorem ownSlot_agreed (s : State) (n : Nat) (hp : s.coord.phase = .gathering)
    (heval : slotEvaluation s = completeGathering (s.gathered n)) :
    (ownSlot s).coord.phase = .recovering ∧ (ownSlot s).coord.agreement = 0 ∧
    (ownSlot s).coord.deadline = some (s.now + ms (s.cfg.gatherLimit * 1000)) ∧
    (s.cal.staged.isSome = true → (ownSlot s).store.busyWith .calDiscard = true) ∧
    (slotEvaluation s).packRecord.phase = .recovering ∧
    (∃ c, (ownSlot s).coord.ownClaim = some c ∧ (slotEvaluation s).packRecord.block = .recover c ∧
      c.kind = if s.coord.journalActive = true then .live else .journal) ∧
    (ownSlot s).coord.run = some s.agreedRun ∧ (slotEvaluation s).packRecord.run = s.agreedRun := by
  obtain ⟨hphase, hagreement, hdeadline, hrun, ⟨c, hclaim, hkind⟩, hposted⟩ := completeGathering_spec (s.gathered n) hp
  have hagreed : (s.gathered n).agreedRun = s.agreedRun := rfl
  rw [hagreed] at hrun
  obtain ⟨-, -, -, -, -, -, -, -, -, -, -, hcoord⟩ := ownSlot_after s _ heval
  have hbusy : s.cal.staged.isSome = true → (ownSlot s).store.busyWith .calDiscard = true := fun hstaged =>
    ownSlot_busy .calDiscard s (heval ▸ hposted hstaged) (by decide)
  rw [hcoord, heval]
  refine ⟨hphase, hagreement, hdeadline, hbusy, hphase, ⟨c, hclaim, packBlock_recovering _ c hphase hclaim, hkind⟩, hrun, ?_⟩
  rw [packRecord_run _ (by rw [hphase]; decide), hrun, Option.getD_some]

/-- A recovery evaluation that finds the condition unmet takes the count to 0 (R82). -/
theorem ownSlot_unrecovered (s : State) (hp : s.coord.phase = .recovering) (hno : s.recoveryMet = false) :
    (ownSlot s).coord.phase = .recovering ∧ (ownSlot s).coord.agreement = 0 ∧ (ownSlot s).standby = s.standby ∧
    (ownSlot s).engine = s.engine := by
  have heval : slotEvaluation s = s.recounted 0 := by
    rw [slotEvaluation_recovering s hp, recoveryEvaluation_eq, hno]; rfl
  obtain ⟨-, hengine, hstandby, -, -, -, -, -, -, -, -, hcoord⟩ := ownSlot_after s _ heval
  rw [hcoord]
  exact ⟨hp, rfl, hstandby, hengine⟩

/-- The first recovery evaluation that finds the condition met counts 1 (R82). -/
theorem ownSlot_recovered_first (s : State) (hp : s.coord.phase = .recovering) (hmet : s.recoveryMet = true)
    (hzero : s.coord.agreement = 0) :
    (ownSlot s).coord.phase = .recovering ∧ (ownSlot s).coord.agreement = 1 ∧ (ownSlot s).standby = s.standby ∧
    (ownSlot s).engine = s.engine := by
  have heval : slotEvaluation s = s.recounted 1 := by
    rw [slotEvaluation_recovering s hp, recoveryEvaluation_eq, hmet]; simp [State.agreementAfter, hzero]
  obtain ⟨-, hengine, hstandby, -, -, -, -, -, -, -, -, hcoord⟩ := ownSlot_after s _ heval
  rw [hcoord]
  exact ⟨hp, rfl, hstandby, hengine⟩

/-- The second recovery evaluation that finds the condition met ends recovering (R21, R82). -/
theorem ownSlot_recovered_second (s : State) (hp : s.coord.phase = .recovering) (hmet : s.recoveryMet = true)
    (hone : 1 ≤ s.coord.agreement) :
    (ownSlot s).coord.journalActive = true ∧ (ownSlot s).coord.agreement = 0 ∧
    (ownSlot s).coord.phase = (if s.hold.level = .lockout then .halted else .homing) ∧
    (ownSlot s).engine = (initialStateClaim (s.recounted (s.coord.agreement + 1))).engine ∧
    (ownSlot s).standby = (initialStateClaim (s.recounted (s.coord.agreement + 1))).standby := by
  have heval : slotEvaluation s = completeRecovery (s.recounted (s.coord.agreement + 1)) := by
    rw [slotEvaluation_recovering s hp, recoveryEvaluation_eq, hmet, State.agreementAfter, if_pos rfl, if_pos (by omega)]
  obtain ⟨hphase, hagreement, hactive, kengine, kstandby⟩ :=
    completeRecovery_spec (s.recounted (s.coord.agreement + 1)) hp
  obtain ⟨-, hengine, hstandby, -, -, -, -, -, -, -, -, hcoord⟩ := ownSlot_after s _ heval
  rw [hcoord]
  exact ⟨hactive, hagreement, hphase, hengine.trans kengine, hstandby.trans kstandby⟩

/-- Settles O7: by what the arm's records make of the count, in GATHERING and in RECOVERING. -/
theorem ownSlotAgreesTheRunAndEndsRecovery : Obligations.OwnSlotAgreesTheRunAndEndsRecovery := by
  intro dt s hr hl ht hown
  rw [exec_ownSlotStart dt s hr hl ht]
  refine ⟨fun hp hshow => ⟨fun i htested hverdict => ?invalid, fun hv => ⟨fun hmissing => ?unheard, fun view hview => ?agreed⟩⟩,
    fun hp => ⟨fun hunmet => ?unrecovered, fun hmet => ?recovered⟩⟩
  case invalid =>
    exact ⟨_, rfl, ownSlot_planInvalid (advance dt s) i hp hshow hown htested hverdict⟩
  case unheard =>
    exact ⟨_, rfl, ownSlot_unheard (advance dt s) hp hshow hown hv hmissing⟩
  case agreed =>
    have hactive : ∀ j : Station, j.val < s.cfg.armSize → (advance dt s).armRecord j ≠ none := fun j hj hnone =>
      Option.some_ne_none (view j) ((hview j hj).symm.trans hnone)
    obtain ⟨hfirst, hsecond⟩ := slotEvaluation_agreed (advance dt s) hp hshow hown hv hactive
    obtain ⟨hpeer, hpeers⟩ := ownSlot_peers (advance dt s) _ rfl
    obtain ⟨hstandby, hsensing, hmem, hsteps, hconfig⟩ := ownSlot_gathering_keeps (advance dt s) hp
    refine ⟨_, (slotEvaluation (advance dt s)).packRecord, rfl, hpeer, fun hzero => ?_, fun hone => ?_,
      hstandby, hsensing, hmem, hsteps, hconfig, hpeers⟩
    · exact ownSlot_counted (advance dt s) hp (hfirst hzero)
    · obtain ⟨hphase, hagreement, hdeadline, hposted, hrecord, hclaim, hrun, hshown⟩ :=
        ownSlot_agreed (advance dt s) _ hp (hsecond hone)
      exact ⟨hphase, hagreement, hdeadline, hposted, hrecord, hclaim, _, hrun, hshown,
        agreedRun_spec (advance dt s) view hview⟩
  case unrecovered =>
    have hno : (advance dt s).recoveryMet = false := by
      rw [Bool.eq_false_iff, Ne, recoveryMet_iff]
      intro hall
      obtain ⟨j, hj, hbad⟩ := hunmet
      obtain ⟨x, hx, hmoved, hclass⟩ := hall j hj
      rcases hbad x hx with hm | hc
      · simp [hm] at hmoved
      · exact hclass hc
    exact ⟨_, rfl, ownSlot_unrecovered (advance dt s) hp hno⟩
  case recovered =>
    have hyes : (advance dt s).recoveryMet = true := (recoveryMet_iff (advance dt s)).2 hmet
    have hkeeps : (ownSlot (advance dt s)).mem = s.mem ∧ (ownSlot (advance dt s)).plan.steps = s.plan.steps ∧
        (ownSlot (advance dt s)).port.config = s.port.config ∧ (ownSlot (advance dt s)).coord.run = s.coord.run := by
      obtain ⟨-, -, -, -, -, -, -, -, -, -, -, hcoord⟩ := ownSlot_after (advance dt s) _ rfl
      refine ⟨by simp, by simp, by simp, ?_⟩
      rw [hcoord, slotEvaluation_recovering (advance dt s) hp]
      simp
    obtain ⟨hmem, hsteps, hconfig, hrun⟩ := hkeeps
    obtain ⟨-, hpeers⟩ := ownSlot_peers (advance dt s) _ rfl
    refine ⟨_, rfl, hrun, fun hzero => ?_, fun hone => ?_, hmem, hsteps, hconfig, hpeers⟩
    · exact ownSlot_recovered_first (advance dt s) hp hyes hzero
    · obtain ⟨hactive, hagreement, hphase, hengine, hstandby⟩ := ownSlot_recovered_second (advance dt s) hp hyes hone
      rw [hengine, hstandby]
      exact ⟨hactive, hagreement, hphase, initialStateClaim_spec _⟩

end Sys2Proof.Machine
end

section
/-! The ends of a hold, and the changes of phase an accepted record brings. -/

namespace Sys2Proof.Machine

/-! ### The Coordinator after a change of phase (R72) -/

/-- The Coordinator as a phase begins (R72). -/
def Coord.begun (c : Coord) (p : ArmPhase) (deadline : Option Time) : Coord := { c with
  phase := p, agreement := 0, restartedReported := [], verdictTested := false, deadline := deadline }

theorem setPhase_begun (p : ArmPhase) (s : State) (h : s.coord.phase ≠ p) :
    (setPhase p s).coord = s.coord.begun p (s.phaseDeadline p) := setPhase_coord p s h

/-- The phase is HALTED from the phases in which a station has joined, and left in the others (R85). -/
theorem haltPhase_coord (s : State) : (haltPhase s).coord =
    if s.coord.phase = .isolated ∨ s.coord.phase = .halted then s.coord else s.coord.begun .halted none := by
  have halts : ∀ p, s.coord.phase = p → p ≠ .halted → (setPhase .halted s).coord = s.coord.begun .halted none :=
    fun p hp hne => setPhase_begun .halted s (hp ▸ hne)
  unfold haltPhase
  cases hp : s.coord.phase
  case isolated | halted => simp
  case gathering | recovering | homing | ready => simpa using halts _ hp (by decide)

theorem setPhase_halted_coord (s : State) : (setPhase .halted s).coord =
    if s.coord.phase = .halted then s.coord else s.coord.begun .halted none := by
  split
  case isTrue h => rw [setPhase, if_pos h]
  case isFalse h => exact setPhase_begun .halted s h

/-- The sequence part leaves the Coordinator, or halts a station that has joined (R85, R162). -/
theorem takeSequence_coord (j : Station) (r : StatusRecord) (s : State) : (takeSequence j r s).coord = s.coord ∨
    s.coord.phase ≠ .isolated ∧ (takeSequence j r s).coord = s.coord.begun .halted none := by
  have halt : ∀ x : State, x.coord = s.coord → (haltPhase x).coord = s.coord ∨
      s.coord.phase ≠ .isolated ∧ (haltPhase x).coord = s.coord.begun .halted none := by
    intro x hx
    rw [haltPhase_coord, hx]
    split
    · exact .inl rfl
    · rename_i h
      exact .inr ⟨fun hi => h (.inl hi), rfl⟩
  have entry : ∀ (o : HoldLevel) (x : State), (adoptionEntry o x).coord = x.coord := fun o x => by simp
  unfold takeSequence
  simp only [adoptHold]
  split
  · split
    · exact .inl (by simp)
    · split
      · exact .inl (by simp)
      · split
        · exact halt _ (by rw [entry]; simp)
        · exact .inl (by rw [entry]; simp)
  · split <;> exact .inl (by simp)

/-! ### A resume (R176) -/

/-- A resume before its tests of the gate and of staging (R84, R151). -/
def State.resumed (s : State) : State :=
  if s.hold.level = .drop then
    match (useDropMotion (levelToNone s)).coord.phase with
    | .ready => setPhase .homing (useDropMotion (levelToNone s))
    | .homing => planReset (useDropMotion (levelToNone s))
    | _ => useDropMotion (levelToNone s)
  else levelToNone s

theorem resumeHold_eq (s : State) : resumeHold s = stageTest (gateUpdate s.resumed) := rfl

/-- What holds at each end of a resume holds of the resume (R84, R151, R176). -/
theorem resumed_of (P : State → Prop) (s : State) (hstop : P (levelToNone s)) (hdrop : P (useDropMotion (levelToNone s)))
    (hhoming : P (planReset (useDropMotion (levelToNone s))))
    (hready : P (setPhase .homing (useDropMotion (levelToNone s)))) : P s.resumed := by
  unfold State.resumed
  (repeat' split) <;> assumption

/-- A resume leaves the hold but for its level, its entry and the fault list (R176). -/
theorem resumed_hold (s : State) : s.resumed.hold =
    { s.hold with level := .none, complete := false, deadline := none, faults := s.resumed.hold.faults } := by
  have hnone := (levelToNone_spec s).1
  refine resumed_of (fun x => x.hold = { s.hold with
    level := .none, complete := false, deadline := none, faults := x.hold.faults }) s ?_ ?_ ?_ ?_
  · simp [hnone]
  · simp [hnone]
  · simp [hnone]
  · obtain ⟨l, hl⟩ := setPhase_hold .homing (useDropMotion (levelToNone s))
    rw [hl, (useDropMotion_spec (levelToNone s)).2.1, hnone]

/-- A resume clears an order of reason HOLD (R176). -/
theorem resumed_order (s : State) : s.resumed.engine.order =
    if s.engine.order.reason = some .hold then .none else s.engine.order := by
  have horder : (levelToNone s).engine.order = if s.engine.order.reason = some .hold then .none else s.engine.order := by
    rw [(levelToNone_spec s).2.1]
  refine resumed_of (fun x => x.engine.order = _) s horder ?_ ?_ ?_ <;> simpa using horder

/-- A resume adds HOLD_CHANGED (R211). -/
theorem resumed_changed (s : State) (h : s.hold.level ≠ .none) : s.resumed.port.attention.has .holdChanged = true := by
  have hchanged := levelToNone_changed s h
  exact resumed_of (fun x => x.port.attention.has .holdChanged = true) s hchanged (by simpa using hchanged)
    (by simpa using hchanged) (setPhase_has _ _ _ (by simpa using hchanged))

/-- The phase after a resume: READY gives way to HOMING after a DROP (R84). -/
theorem resumed_coord (s : State) : s.resumed.coord =
    if s.hold.level = .drop ∧ s.coord.phase = .ready then s.coord.begun .homing none else s.coord := by
  have hcoord : (useDropMotion (levelToNone s)).coord = s.coord := by simp
  unfold State.resumed
  rw [hcoord]
  by_cases hdrop : s.hold.level = .drop
  case neg => simp [hdrop]
  case pos =>
    rw [if_pos hdrop]
    cases hp : s.coord.phase
    case ready =>
      rw [if_pos ⟨hdrop, rfl⟩, setPhase_begun _ _ (by simp [hp]), hcoord]
      rfl
    all_goals simp

/-- What a resume leaves (R84, R151, R165, R176). -/
theorem resumeHold_spec (s : State) :
    ((resumeHold s).hold.level = .none ∧ (resumeHold s).hold.complete = false ∧ (resumeHold s).hold.deadline = none) ∧
    ((resumeHold s).hold.seq = s.hold.seq ∧ (resumeHold s).hold.cause = s.hold.cause ∧
      (resumeHold s).hold.origin = s.hold.origin ∧ (resumeHold s).hold.resume = s.hold.resume) ∧
    (resumeHold s).engine.order = (if s.engine.order.reason = some .hold then .none else s.engine.order) ∧
    (resumeHold s).coord =
      (if s.hold.level = .drop ∧ s.coord.phase = .ready then s.coord.begun .homing none else s.coord) ∧
    ((resumeHold s).permitted = true → (resumeHold s).gate = .opened) ∧
    (s.hold.level ≠ .none → (resumeHold s).port.attention.has .holdChanged = true) := by
  have hhold : (resumeHold s).hold = s.resumed.hold := by rw [resumeHold_eq]; simp
  rw [hhold, resumeHold_eq, resumed_hold s]
  refine ⟨⟨rfl, rfl, rfl⟩, ⟨rfl, rfl, rfl, rfl⟩, by simpa using resumed_order s, by simpa using resumed_coord s, fun h => ?_,
    fun h => by simpa using resumed_changed s h⟩
  have hpermitted : s.resumed.permitted = true := by
    rw [stageTest_permitted] at h
    simpa [State.permitted, State.moveRequested] using h
  simpa using gateUpdate_permitted s.resumed hpermitted

/-- The resume of a STOP keeps the fault list and the rest of the engine (R176). -/
theorem resumeHold_stop (s : State) (h : s.hold.level = .stop) : (resumeHold s).hold.faults = s.hold.faults ∧
    (resumeHold s).engine.refState = s.engine.refState := by
  have hresumed : s.resumed = levelToNone s := by
    unfold State.resumed
    rw [if_neg (by simp [h])]
  rw [resumeHold_eq, hresumed]
  simp

/-! ### A lockout cleared (R178) -/

/-- What a lockout cleared leaves (R107, R108, R176, R178). -/
theorem clearLockout_spec (s : State) : (clearLockout s).hold.level = .none ∧ (clearLockout s).hold.complete = false ∧
    (clearLockout s).hold.deadline = none ∧ (clearLockout s).hold.lockClear = true ∧
    (clearLockout s).hold.lockClearLeft = s.cfg.peerLossLimit ∧
    (clearLockout s).store.busyWith .lockClear = true ∧
    (clearLockout s).engine.order = (if s.engine.order.reason = some .hold then .none else s.engine.order) ∧
    (clearLockout s).coord = if s.coord.phase = .halted then s.coord else s.coord.begun .halted none := by
  obtain ⟨p, hp⟩ : ∃ p, p = (postLockClear s).setHold { s.hold with lockClear := true, lockClearLeft := s.cfg.peerLossLimit } :=
    ⟨_, rfl⟩
  have hcleared : clearLockout s = gateUpdate (useDropMotion (levelToNone (setPhase .halted p))) := by
    have hhold : (postLockClear s).hold = s.hold := by simp
    have hcfg : (postLockClear s).cfg = s.cfg := by simp [State.cfg]
    rw [hp, ← hhold, ← hcfg]; rfl
  obtain ⟨l, hhalted⟩ := setPhase_hold .halted p
  obtain ⟨hhold, hengine, hstore⟩ := levelToNone_spec (setPhase .halted p)
  have hbusy : p.store.busyWith .lockClear = true := by rw [hp]; exact (postLockClear_store s).1
  have hcoord : p.coord = s.coord := by simp [hp]
  have hpengine : p.engine = s.engine := by simp [hp]
  rw [hhalted] at hhold
  rw [hcleared]
  refine ⟨by simp [hhold], by simp [hhold], by simp [hhold], by simp [hp], by simp [hp],
    busy_of hbusy (by simp [hstore]) (by simp [hstore]), by simp [hengine, hpengine], ?_⟩
  rw [← hcoord, ← setPhase_halted_coord p]
  simp

end Sys2Proof.Machine
end

section
/-! An accepted record's flags and phase, at the Hold Unit and the Coordinator. -/

namespace Sys2Proof.Machine

/-! ### The parts of an acceptance -/

theorem acceptRecord_sequenced (j : Station) (r : StatusRecord) (s : State) : acceptRecord j r s =
    settleTail r (claimFromPeer j r (takeRestarted j r (takeRestart r (takeRetained j r (takeLockClear r (takeResume r
      (s.sequenced j r))))))) := acceptRecord_parts j r s

/-- The tail of an acceptance keeps the attention causes (R211). -/
theorem settleTail_has (d : Cause) (r : StatusRecord) (s : State) (h : s.port.attention.has d = true) :
    (settleTail r s).port.attention.has d = true := by
  rw [settleTail]
  exact handOff_has d _ (by simpa using h)

/-- With the own station not settled no entry completes (R169, R170). -/
theorem entryTest_unsettled (s : State) (h : s.settled = false) : entryTest s = s :=
  if_neg (by simp [State.entrySettled, h])

theorem Hold.see_resume (h : Hold) (q : BitVec 16) : (h.see q).resume = h.resume := by
  unfold Hold.see
  split <;> rfl

/-- A record that is no news to sequence and level leaves the hold but for the newest known sequence and the entry test
(R159, R163, R170). -/
theorem sequenced_idle {s y : State} {j : Station} {r : StatusRecord} (hy : s.sequenced j r = y) (h : r.sequenceIdle s) :
    (y.hold.level = s.hold.level ∧ y.hold.seq = s.hold.seq ∧ y.hold.cause = s.hold.cause ∧ y.hold.origin = s.hold.origin ∧
      y.hold.resume = s.hold.resume ∧ y.hold.faults = s.hold.faults) ∧
    (s.hold.complete = true → y.hold.complete = true) ∧ (s.settled = false → y.hold.complete = s.hold.complete) ∧
    y.coord = s.coord ∧ y.engine = s.engine ∧ y.gate = s.gate ∧ y.plan = s.plan ∧ y.settled = s.settled ∧ y.cfg = s.cfg ∧
    y.now = s.now ∧ y.standby = s.standby := by
  obtain ⟨x, hx⟩ : ∃ x, x = (takeEntry j r s).setHold (s.hold.see r.holdSeq) := ⟨_, rfl⟩
  have htested : y = entryTest x := by
    rw [← hy, State.sequenced, takeSequence_idle j r (takeEntry j r s) h, hx]; rfl
  have hhold : x.hold = s.hold.see r.holdSeq := by rw [hx]; rfl
  have hrest : x.coord = s.coord ∧ x.engine = s.engine ∧ x.gate = s.gate ∧ x.plan = s.plan ∧ x.settled = s.settled ∧
      x.cfg = s.cfg ∧ x.now = s.now ∧ x.standby = s.standby := by rw [hx]; exact ⟨rfl, rfl, rfl, rfl, rfl, rfl, rfl, rfl⟩
  obtain ⟨hcoord, hengine, hgate, hplan, hsettled, hcfg, hnow, hstandby⟩ := hrest
  obtain ⟨hcause, horigin, hresume, -⟩ := entryTest_leaves x
  have hkept : (entryTest x).settled = x.settled := by simp [State.settled, State.still, State.braked]
  have hconfig : (entryTest x).cfg = x.cfg := by simp [State.cfg]
  rw [htested, hcause, horigin, hresume, hkept, hconfig]
  refine ⟨by simp [hhold, Hold.see_resume], fun hc => ?_, fun hs => ?_, by simp [hcoord], by simp [hengine], by simp [hgate], by simp [hplan],
    hsettled, hcfg, by simp [hnow], by simp [hstandby]⟩
  · rcases entryTest_hold x with he | he <;> rw [he]
    simpa [hhold] using hc
  · rw [entryTest_unsettled x (hsettled.trans hs), hhold]
    simp

/-- A resume that names another sequence, or meets no complete entry, is seen alone (R159, R175). -/
theorem takeResume_sees (r : StatusRecord) (s : State) (hr : r.resume = true)
    (h : r.resumeFor ≠ s.hold.seq ∨ s.hold.complete = false ∨ s.hold.level.entering = false) :
    takeResume r s = s.setHold (s.hold.see r.resumeFor) := by
  simp only [takeResume, hr, if_true]
  refine if_neg ?_
  rcases h with h | h | h <;> simp [h]

/-- A resume naming the own sequence ends a complete entry (R175, R176). -/
theorem takeResume_ends (r : StatusRecord) (s : State) (hr : r.resume = true) (hfor : r.resumeFor = s.hold.seq)
    (hl : s.hold.level.entering = true) (hc : s.hold.complete = true) :
    takeResume r s = resumeHold (s.setHold (s.hold.see r.resumeFor)) := by
  simp only [takeResume, hr, if_true]
  exact if_pos (by simp [hfor, hl, hc])

/-- After the resume part nothing acts for a record that brings nothing else, the claim set aside. -/
theorem rest_idle (j : Station) (r : StatusRecord) (z : State)
    (hclear : r.lockClear = true → z.hold.level ≠ .lockout ∨ z.coord.phase = .isolated) (hrestart : r.restart = false)
    (hretained : (z.coord.phase = .gathering ∨ z.coord.phase = .recovering) → ∀ pd cd c, r.block ≠ .gather pd cd 1 c)
    (hback : (z.coord.phase = .homing ∨ z.coord.phase = .ready ∨ z.coord.phase = .halted) →
      r.phase ≠ .isolated ∧ r.phase ≠ .gathering)
    (hdrift : z.coord.phase = .recovering → z.standby.excursion ≤ z.cfg.driftThreshold) :
    ∃ c : Coord, claimFromPeer j r (takeRestarted j r (takeRestart r (takeRetained j r (takeLockClear r z)))) =
      z.setCoord c ∧ c.phase = z.coord.phase := by
  rw [takeLockClear_id r z hclear, takeRetained_id j r z (fun hp _ => hretained hp),
    takeRestart_id r z (fun h => by simp [hrestart] at h),
    takeRestarted_id j r z (fun hp hb => hb.elim (fun h => absurd h (hback hp).1) (fun h => absurd h (hback hp).2))]
  obtain ⟨c, hc, hphase, -⟩ := claimFromPeer_reach j r z hdrift
  exact ⟨c, hc, hphase⟩

/-! ### The resume flag (R175, R176) -/

/-- A resume that names the own sequence at a complete entry (R84, R165, R175, R176). -/
theorem acceptRecord_resumes {s t : State} {j : Station} {r : StatusRecord} (ht : acceptRecord j r s = t)
    (hidle : r.sequenceIdle s) (hrest : r.restIdle s) (hr : r.resume = true)
    (hl : s.hold.level = .stop ∨ s.hold.level = .drop) (hfor : r.resumeFor = s.hold.seq) (hc : s.hold.complete = true) :
    t.hold.level = .none ∧ t.hold.complete = false ∧ t.hold.deadline = none ∧
    t.hold.seq = s.hold.seq ∧ t.hold.cause = s.hold.cause ∧ t.hold.origin = s.hold.origin ∧
    (s.hold.resume = false → t.hold.resume = false) ∧
    t.engine.order = (if s.engine.order.reason = some .hold then .none else s.engine.order) ∧
    (t.permitted = true → t.gate = .opened) ∧ t.port.attention.has .holdChanged = true ∧
    t.coord.phase = (if s.hold.level = .drop ∧ s.coord.phase = .ready then .homing else s.coord.phase) := by
  obtain ⟨y, hy⟩ : ∃ y, s.sequenced j r = y := ⟨_, rfl⟩
  obtain ⟨⟨ylevel, yseq, ycause, yorigin, yresume, -⟩, ycomplete, -, ycoord, yengine, -, -, -, ycfg, -, ystandby⟩ :=
    sequenced_idle hy hidle
  have hentering : y.hold.level.entering = true := by rw [ylevel]; rcases hl with h | h <;> rw [h] <;> rfl
  obtain ⟨w, hw⟩ : ∃ w, w = y.setHold (y.hold.see r.resumeFor) := ⟨_, rfl⟩
  obtain ⟨z, hz⟩ : ∃ z, z = resumeHold w := ⟨_, rfl⟩
  have hends : takeResume r y = z := by
    rw [hz, hw, takeResume_ends r y hr (hfor.trans yseq.symm) hentering (ycomplete hc)]
  have whold : w.hold = y.hold.see r.resumeFor := by rw [hw]; rfl
  have wrest : w.coord = s.coord ∧ w.engine = s.engine ∧ w.cfg = s.cfg ∧ w.standby = s.standby := by
    rw [hw]; exact ⟨ycoord, yengine, ycfg, ystandby⟩
  obtain ⟨wcoord, wengine, wcfg, wstandby⟩ := wrest
  have wlevel : w.hold.level = s.hold.level := by simp [whold, ylevel]
  obtain ⟨⟨zlevel, zcomplete, zdeadline⟩, ⟨zseq, zcause, zorigin, zresume⟩, zorder, zcoord, zgate, zchanged⟩ := resumeHold_spec w
  rw [← hz, wlevel, wcoord] at zcoord
  rw [← hz, wengine] at zorder
  rw [← hz] at zlevel zcomplete zdeadline zseq zcause zorigin zresume zgate zchanged
  have zphase : z.coord.phase = if s.hold.level = .drop ∧ s.coord.phase = .ready then .homing else s.coord.phase := by
    rw [zcoord]; split <;> rfl
  have zwas : z.coord.phase = .homing ∧ s.coord.phase = .ready ∨ z.coord.phase = s.coord.phase := by
    rw [zphase]
    split
    · rename_i h
      exact .inl ⟨rfl, h.2⟩
    · exact .inr rfl
  obtain ⟨hrestart, hretained, hback, hdrift⟩ := hrest
  obtain ⟨c, hparts, cphase⟩ := rest_idle j r z (fun _ => .inl (by rw [zlevel]; decide)) hrestart
    (fun hp => by
      rcases zwas with ⟨hh, -⟩ | he
      · simp [hh] at hp
      · exact hretained (he ▸ hp))
    (fun hp => by
      rcases zwas with ⟨-, hh⟩ | he
      · exact hback (.inr (.inl hh))
      · exact hback (he ▸ hp))
    (fun hp => by
      have hexcursion : z.standby.excursion = s.standby.excursion ∧ z.cfg = s.cfg := by
        rw [hz, ← wstandby, ← wcfg]; simp [State.cfg]
      rw [hexcursion.1, hexcursion.2]
      rcases zwas with ⟨hh, -⟩ | he
      · simp [hh] at hp
      · exact hdrift (he ▸ hp))
  rw [acceptRecord_sequenced, hy, hends, hparts] at ht
  subst ht
  obtain ⟨tlevel, tseq, tcause, torigin, -, -, -, -, tresume, -, tcomplete, tdeadline⟩ := settleTail_final r (z.setCoord c)
  obtain ⟨tengine, tplan, tgate, tcoord, -⟩ := settleTail_keeps r (z.setCoord c)
  have hnotest : entryTest (z.setCoord c) = z.setCoord c := entryTest_notEntering _ (by simp [zlevel, HoldLevel.entering])
  rw [tlevel, tseq, tcause, torigin, tcomplete, tdeadline, hnotest, tengine, tgate, tcoord, State.setCoord_coord, cphase]
  refine ⟨zlevel, zcomplete, zdeadline, by simp [zseq, whold, yseq], by simp [zcause, whold, ycause],
    by simp [zorigin, whold, yorigin], fun h => tresume (by simp [zresume, whold, Hold.see_resume, yresume, h]), zorder, fun h => zgate ?_,
    settleTail_has _ r _ (zchanged ?_), zphase⟩
  · simpa [State.permitted, State.moveRequested, tengine, tplan, tlevel, tcoord, cphase] using h
  · rw [wlevel]; rcases hl with h | h <;> simp [h]

/-- A resume that names another sequence, or meets an entry whose station has not settled (R169, R175). -/
theorem acceptRecord_notResumed {s t : State} {j : Station} {r : StatusRecord} (ht : acceptRecord j r s = t)
    (hidle : r.sequenceIdle s) (hrest : r.restIdle s) (hr : r.resume = true)
    (hl : s.hold.level = .stop ∨ s.hold.level = .drop)
    (hno : r.resumeFor ≠ s.hold.seq ∨ (s.hold.complete = false ∧ s.settled = false)) :
    t.hold.level = s.hold.level ∧ t.hold.seq = s.hold.seq ∧ t.hold.faults = s.hold.faults ∧
    (s.settled = false → t.hold.complete = s.hold.complete) ∧ t.coord.phase = s.coord.phase ∧
    t.gate = s.gate ∧ t.engine = s.engine ∧ t.plan = s.plan := by
  obtain ⟨y, hy⟩ : ∃ y, s.sequenced j r = y := ⟨_, rfl⟩
  obtain ⟨⟨ylevel, yseq, -, -, -, yfaults⟩, -, yunsettled, ycoord, yengine, ygate, yplan, ysettled, ycfg, -, ystandby⟩ :=
    sequenced_idle hy hidle
  obtain ⟨z, hz⟩ : ∃ z, z = y.setHold (y.hold.see r.resumeFor) := ⟨_, rfl⟩
  have hsees : takeResume r y = z := by
    rw [hz]
    refine takeResume_sees r y hr ?_
    rcases hno with h | ⟨hc, hs⟩
    · exact .inl (yseq ▸ h)
    · exact .inr (.inl ((yunsettled hs).trans hc))
  have zhold : z.hold = y.hold.see r.resumeFor := by rw [hz]; rfl
  have zrest : z.coord = s.coord ∧ z.engine = s.engine ∧ z.gate = s.gate ∧ z.plan = s.plan ∧ z.settled = s.settled ∧
      z.cfg = s.cfg ∧ z.standby = s.standby := by
    rw [hz]; exact ⟨ycoord, yengine, ygate, yplan, ysettled, ycfg, ystandby⟩
  obtain ⟨zcoord, zengine, zgate, zplan, zsettled, zcfg, zstandby⟩ := zrest
  obtain ⟨hrestart, hretained, hback, hdrift⟩ := hrest
  obtain ⟨c, hparts, cphase⟩ := rest_idle j r z
    (fun _ => .inl (by rcases hl with h | h <;> simp [zhold, ylevel, h])) hrestart
    (by rw [zcoord]; exact hretained) (by rw [zcoord]; exact hback) (by rw [zcoord, zstandby, zcfg]; exact hdrift)
  rw [acceptRecord_sequenced, hy, hsees, hparts] at ht
  subst ht
  obtain ⟨tlevel, tseq, -, -, -, tfaults, -, -, -, -, tcomplete, -⟩ := settleTail_final r (z.setCoord c)
  obtain ⟨tengine, tplan, tgate, tcoord, -⟩ := settleTail_keeps r (z.setCoord c)
  rw [tlevel, tseq, tfaults, tcomplete, tcoord, tgate, tengine, tplan, State.setCoord_coord, cphase]
  refine ⟨by simp [zhold, ylevel], by simp [zhold, yseq], by simp [zhold, yfaults], fun hs => ?_, by rw [zcoord],
    zgate, zengine, zplan⟩
  have hnotest : entryTest (z.setCoord c) = z.setCoord c := entryTest_unsettled _ (zsettled.trans hs)
  rw [hnotest]
  simp [zhold, yunsettled hs]

/-! ### The lockout-clear flag (R87, R178) -/

/-- A claim set belongs to RECOVERING (R117). -/
theorem claimFromPeer_notRecovering (j : Station) (r : StatusRecord) (s : State) (h : s.coord.phase ≠ .recovering) :
    claimFromPeer j r s = s := if_neg h

theorem higher_lockout (l : HoldLevel) : HoldLevel.lockout.higher l = .lockout := by cases l <;> rfl

/-- An adoption at LOCKOUT leaves the level and the engine (R161, R162). -/
theorem adoptHold_lockout (j : Station) (r : StatusRecord) (s : State) (h : s.hold.level = .lockout) :
    (adoptHold j r s).hold.level = .lockout ∧ (adoptHold j r s).hold.seq = r.holdSeq ∧
    (adoptHold j r s).engine = s.engine := by
  obtain ⟨a, ha⟩ : ∃ a, a = setCause r.cause r.origin (setLevel (HoldLevel.lockout.higher r.level) (changeSeq r.holdSeq s)) :=
    ⟨_, rfl⟩
  obtain ⟨b, hb⟩ : ∃ b, b = recordFault r.cause r.adoptedClass r.origin none (BitVec.ofNat 32 j.val) a := ⟨_, rfl⟩
  have halevel : a.hold.level = .lockout := by simp [ha, higher_lockout]
  have haseq : a.hold.seq = r.holdSeq := by simp [ha]
  have haengine : a.engine = s.engine := by simp [ha]
  have hblevel : b.hold.level = .lockout := by simp [hb, halevel]
  have hentry : adoptionEntry .lockout b = b := by simp [adoptionEntry, hblevel]
  have hadopts : adoptHold j r s = if r.level = .lockout then a else if r.adoptedClass = .abort then haltPhase b else b := by
    simp only [adoptHold, h, true_and, ← ha, ← hb, hentry]
  rw [hadopts]
  split
  · exact ⟨halevel, haseq, haengine⟩
  · split
    · simp [hb, halevel, haseq, haengine]
    · simp [hb, halevel, haseq, haengine]

/-- The sequence part at LOCKOUT: a newer sequence with a level is taken, the level stays (R159, R161, R162). -/
theorem sequenced_lockout {s y : State} {j : Station} {r : StatusRecord} (hy : s.sequenced j r = y)
    (h : s.hold.level = .lockout) : y.hold.level = .lockout ∧
    y.hold.seq = (if seqNewer r.holdSeq s.hold.seq = true ∧ r.level ≠ .none then r.holdSeq else s.hold.seq) ∧
    y.engine = s.engine := by
  obtain ⟨x, hx⟩ : ∃ x, x = takeSequence j r (takeEntry j r s) := ⟨_, rfl⟩
  have key : x.hold.level = .lockout ∧
      x.hold.seq = (if seqNewer r.holdSeq s.hold.seq = true ∧ r.level ≠ .none then r.holdSeq else s.hold.seq) ∧
      x.engine = s.engine := by
    by_cases hadopts : seqNewer r.holdSeq s.hold.seq = true ∧ r.level ≠ .none
    · obtain ⟨hlevel, hseq, hengine⟩ := adoptHold_lockout j r ((takeEntry j r s).setHold (s.hold.see r.holdSeq)) (by simp [h])
      rw [if_pos hadopts, hx, takeSequence_adopts j r (takeEntry j r s) hadopts.1 hadopts.2]
      exact ⟨hlevel, hseq, hengine⟩
    · obtain ⟨c, o, hstays, -⟩ := takeSequence_stays j r (takeEntry j r s)
        (fun hn => not_not.mp fun hl => hadopts ⟨hn, hl⟩) (fun _ hl => by simp [takeEntry, h] at hl)
      rw [if_neg hadopts, hx, hstays]
      simp [takeEntry, h]
  rw [← hy, State.sequenced, ← hx]
  simpa using key

/-- The sequence part with its entry test leaves the Coordinator, or halts a station that has joined (R85, R162). -/
theorem sequenced_coord (s : State) (j : Station) (r : StatusRecord) : (s.sequenced j r).coord = s.coord ∨
    s.coord.phase ≠ .isolated ∧ (s.sequenced j r).coord = s.coord.begun .halted none := by
  have hentry : (s.sequenced j r).coord = (takeSequence j r (takeEntry j r s)).coord := by simp [State.sequenced]
  rw [hentry]
  exact takeSequence_coord j r (takeEntry j r s)

/-- A resume meets no entry at NONE and LOCKOUT (R175). -/
theorem takeResume_notEntering (r : StatusRecord) (s : State) (h : s.hold.level.entering = false) :
    (takeResume r s).hold.level = s.hold.level ∧ (takeResume r s).hold.faults = s.hold.faults ∧
    (takeResume r s).hold.cause = s.hold.cause ∧ (takeResume r s).hold.origin = s.hold.origin ∧
    (takeResume r s).engine = s.engine ∧ (takeResume r s).coord = s.coord := by
  cases hr : r.resume
  case false => simp [takeResume_id r s hr]
  case true => simp [takeResume_sees r s hr (.inr (.inr h))]

/-- A station at NONE that restarts keeps its hold but for the resume flag, and its store (R86). -/
theorem restartStation_unheld (s : State) (h : s.coord.phase = .halted) (hl : s.hold.level = .none) :
    (restartStation s).hold = { s.hold with resume := false, resumeFor := 0 } ∧ (restartStation s).store = s.store := by
  have hcleared : s.holdCleared = clearHoldOrder s := if_pos hl
  rw [restartStation_eq s h, hcleared]
  simp

/-- The order record as the end of a hold leaves it (R176). -/
def MotionOrder.cleared (o : MotionOrder) : MotionOrder := if o.reason = some .hold then .none else o

/-- An order cleared twice is an order cleared once (R176). -/
theorem MotionOrder.cleared_cleared (o : MotionOrder) : o.cleared.cleared = o.cleared := by
  by_cases h : o.reason = some .hold
  · have hnone : o.cleared = .none := if_pos h
    rw [hnone]; rfl
  · have hkept : o.cleared = o := if_neg h
    rw [hkept, hkept]

/-- The lockout-clear flag at LOCKOUT, and the restart flag that acts after it (R87, R107, R108, R178). -/
theorem acceptRecord_clearsLockout {s t : State} {j : Station} {r : StatusRecord} (ht : acceptRecord j r s = t)
    (hclear : r.lockClear = true) (hl : s.hold.level = .lockout) (hp : s.coord.phase ≠ .isolated)
    (hback : r.restart = true ∨ (r.phase ≠ .isolated ∧ r.phase ≠ .gathering)) :
    t.hold.level = .none ∧ t.hold.complete = false ∧ t.hold.deadline = none ∧
    t.hold.lockClear = true ∧ t.hold.lockClearLeft = s.cfg.peerLossLimit ∧
    t.hold.seq = (if seqNewer r.holdSeq s.hold.seq = true ∧ r.level ≠ .none then r.holdSeq else s.hold.seq) ∧
    t.store.busyWith .lockClear = true ∧
    t.engine.order = (if s.engine.order.reason = some .hold then .none else s.engine.order) ∧
    t.coord.phase = (if r.restart = true then .gathering else .halted) := by
  obtain ⟨y, hy⟩ : ∃ y, s.sequenced j r = y := ⟨_, rfl⟩
  obtain ⟨ylevel, yseq, yengine⟩ := sequenced_lockout hy hl
  have yphase : y.coord.phase ≠ .isolated := by
    rcases sequenced_coord s j r with h | ⟨-, h⟩ <;> rw [← hy, h]
    · exact hp
    · simp [Coord.begun]
  obtain ⟨z, hz⟩ : ∃ z, z = takeResume r y := ⟨_, rfl⟩
  obtain ⟨zlevel, -, -, -, zengine, zcoord⟩ := takeResume_notEntering r y (by rw [ylevel]; rfl)
  rw [← hz] at zlevel zengine zcoord
  have zseq : z.hold.seq = y.hold.seq := by simp [hz]
  have zcfg : z.cfg = s.cfg := by rw [hz, ← hy]; simp [State.cfg, State.sequenced, takeEntry]
  obtain ⟨w, hw⟩ : ∃ w, w = clearLockout z := ⟨_, rfl⟩
  have hcleared : takeLockClear r z = w := by
    rw [hw, takeLockClear, if_pos (by simp [hclear, zlevel, ylevel, zcoord, yphase])]
  obtain ⟨wlevel, wcomplete, wdeadline, wflag, wleft, wbusy, worder, wcoord⟩ := clearLockout_spec z
  rw [← hw] at wlevel wcomplete wdeadline wflag wleft wbusy worder wcoord
  rw [zengine, yengine] at worder
  have wseq : w.hold.seq = z.hold.seq := by simp [hw]
  have wphase : w.coord.phase = .halted := by
    rw [wcoord]
    split
    · assumption
    · rfl
  obtain ⟨x, hx⟩ : ∃ x, x = takeRestart r w := ⟨_, rfl⟩
  have xspec : (x.hold.level = .none ∧ x.hold.complete = false ∧ x.hold.deadline = none ∧ x.hold.lockClear = true ∧
      x.hold.lockClearLeft = z.cfg.peerLossLimit ∧ x.hold.seq = z.hold.seq) ∧ x.store.busyWith .lockClear = true ∧
      x.engine.order = (if s.engine.order.reason = some .hold then .none else s.engine.order) ∧
      x.coord.phase = (if r.restart = true then .gathering else .halted) := by
    cases hr : r.restart
    case true =>
      have hrestarts : x = restartStation w := by
        rw [hx, takeRestart, if_pos (by simp [hr, wphase, State.mayRestart, wlevel])]
      obtain ⟨xhold, xstore⟩ := restartStation_unheld w wphase wlevel
      obtain ⟨xcoord, -, -, -, -, -, -, xengine, -⟩ := restartStation_spec w wphase
      rw [hrestarts, xhold, xstore, xcoord, xengine, worder]
      exact ⟨⟨wlevel, wcomplete, wdeadline, wflag, wleft, wseq⟩, wbusy, MotionOrder.cleared_cleared _, rfl⟩
    case false =>
      rw [hx, takeRestart_id r w (fun h => by simp [hr] at h)]
      exact ⟨⟨wlevel, wcomplete, wdeadline, wflag, wleft, wseq⟩, wbusy, worder, by simpa using wphase⟩
  obtain ⟨⟨xlevel, xcomplete, xdeadline, xflag, xleft, xseq⟩, xbusy, xorder, xphase⟩ := xspec
  have haccept : acceptRecord j r s = settleTail r x := by
    rw [acceptRecord_sequenced, hy, ← hz, hcleared, takeRetained_id j r w (fun h => by simp [wphase] at h), ← hx,
      takeRestarted_id j r x (fun _ hb hr => by
        rcases hback with h | h
        · simp [hr] at h
        · exact hb.elim (fun k => absurd k h.1) (fun k => absurd k h.2)),
      claimFromPeer_notRecovering j r x (by rw [xphase]; split <;> decide)]
  rw [haccept] at ht
  subst ht
  obtain ⟨tlevel, tseq, -, -, -, -, tflag, tleft, -, -, tcomplete, tdeadline⟩ := settleTail_final r x
  obtain ⟨tengine, -, -, tcoord, -⟩ := settleTail_keeps r x
  rw [tlevel, tseq, tflag, tleft, tcomplete, tdeadline, tengine, tcoord,
    entryTest_notEntering x (by rw [xlevel]; rfl), ← yseq, ← zseq, ← zcfg]
  exact ⟨xlevel, xcomplete, xdeadline, xflag, xleft, xseq, settleTail_busy _ r x xbusy (by simp), xorder, xphase⟩

/-! ### The restart flag (R86, R87) -/

/-- A resume leaves a station that may restart able to, by itself or after the end of a STOP (R86, R175, R176). -/
theorem takeResume_mayRestart (r : StatusRecord) (s : State) (h : s.mayRestart = true) :
    (takeResume r s).mayRestart = true ∧ (takeResume r s).coord = s.coord ∧
    ((takeResume r s).hold.cause = s.hold.cause ∧ (takeResume r s).hold.origin = s.hold.origin ∧
      (takeResume r s).hold.faults = s.hold.faults) ∧ (takeResume r s).engine.refState = s.engine.refState ∧
    (takeResume r s).engine.order.cleared = s.engine.order.cleared := by
  by_cases hends : r.resume = true ∧ r.resumeFor = s.hold.seq ∧ s.hold.level.entering = true ∧ s.hold.complete = true
  case pos =>
    obtain ⟨hr, hfor, hl, hc⟩ := hends
    have hstop : s.hold.level = .stop := by
      revert h hl
      cases hlevel : s.hold.level <;> simp [State.mayRestart, hlevel, HoldLevel.entering]
    obtain ⟨w, hw⟩ : ∃ w, w = s.setHold (s.hold.see r.resumeFor) := ⟨_, rfl⟩
    have wlevel : w.hold.level = .stop := by simp [hw, hstop]
    obtain ⟨⟨zlevel, -, -⟩, ⟨-, zcause, zorigin, -⟩, zorder, zcoord, -⟩ := resumeHold_spec w
    obtain ⟨zfaults, zref⟩ := resumeHold_stop w wlevel
    rw [if_neg (by simp [wlevel])] at zcoord
    rw [takeResume_ends r s hr hfor hl hc, ← hw, zcoord, zcause, zorigin, zfaults, zref, zorder]
    refine ⟨by simp [State.mayRestart, zlevel], by simp [hw], by simp [hw], by simp [hw], ?_⟩
    rw [hw]
    exact MotionOrder.cleared_cleared s.engine.order
  case neg =>
    cases hr : r.resume
    case false => simp [takeResume_id r s hr, h]
    case true =>
      have hsees : r.resumeFor ≠ s.hold.seq ∨ s.hold.complete = false ∨ s.hold.level.entering = false := by
        simp only [hr, true_and, not_and_or, Bool.not_eq_true] at hends
        tauto
      rw [takeResume_sees r s hr hsees]
      simpa [State.mayRestart] using h

/-- A restart flag at a HALTED station at NONE or at a complete STOP (R86, R87). -/
theorem acceptRecord_restarts {s t : State} {j : Station} {r : StatusRecord} (ht : acceptRecord j r s = t)
    (hr : r.restart = true) (hidle : r.sequenceIdle s) (hp : s.coord.phase = .halted)
    (hl : s.hold.level = .none ∨ (s.hold.level = .stop ∧ s.hold.complete = true)) :
    t.coord = s.restartCoord ∧ t.hold.level = .none ∧ t.hold.resume = false ∧ t.hold.seq = s.hold.seq ∧
    t.hold.cause = s.hold.cause ∧ t.hold.origin = s.hold.origin ∧ t.hold.faults = s.hold.faults ∧
    t.engine.order = (if s.engine.order.reason = some .hold then .none else s.engine.order) ∧
    t.engine.refState = s.engine.refState := by
  obtain ⟨y, hy⟩ : ∃ y, s.sequenced j r = y := ⟨_, rfl⟩
  obtain ⟨⟨ylevel, yseq, ycause, yorigin, -, yfaults⟩, ycomplete, -, ycoord, yengine, -, -, -, ycfg, ynow, -⟩ :=
    sequenced_idle hy hidle
  have ymay : y.mayRestart = true := by
    rcases hl with h | ⟨h, hc⟩
    · simp [State.mayRestart, ylevel, h]
    · simp [State.mayRestart, ylevel, h, ycomplete hc]
  obtain ⟨z, hz⟩ : ∃ z, z = takeResume r y := ⟨_, rfl⟩
  obtain ⟨zmay, zcoord, ⟨zcause, zorigin, zfaults⟩, zref, zorder⟩ := takeResume_mayRestart r y ymay
  rw [← hz] at zmay zcoord zcause zorigin zfaults zref zorder
  have zrest : z.hold.seq = y.hold.seq ∧ z.cfg = y.cfg ∧ z.now = y.now := by rw [hz]; simp [State.cfg]
  obtain ⟨zseq, zcfg, znow⟩ := zrest
  have zphase : z.coord.phase = .halted := by rw [zcoord, ycoord, hp]
  have zlevel : z.hold.level ≠ .lockout := by
    intro h
    simp [State.mayRestart, h] at zmay
  obtain ⟨x, hx⟩ : ∃ x, x = restartStation z := ⟨_, rfl⟩
  obtain ⟨xcoord, xlevel, xseq, xcause, xorigin, xfaults, xresume, xengine, -⟩ := restartStation_spec z zphase
  rw [← hx] at xcoord xlevel xseq xcause xorigin xfaults xresume xengine
  have xrestarted : x.coord = s.restartCoord := by
    rw [xcoord, State.restartCoord, State.restartCoord, zcoord, zcfg, znow, ycoord, ycfg, ynow]
  have xphase : x.coord.phase = .gathering := by rw [xrestarted]; rfl
  have haccept : acceptRecord j r s = settleTail r x := by
    rw [acceptRecord_sequenced, hy, ← hz, takeLockClear_id r z (fun _ => .inl zlevel),
      takeRetained_id j r z (fun h => by simp [zphase] at h), takeRestart, if_pos (by simp [hr, zphase, zmay]), ← hx,
      takeRestarted_id j r x (fun h => by simp [xphase] at h),
      claimFromPeer_notRecovering j r x (by rw [xphase]; decide)]
  rw [haccept] at ht
  subst ht
  obtain ⟨tlevel, tseq, tcause, torigin, -, tfaults, -, -, tresume, -⟩ := settleTail_final r x
  obtain ⟨tengine, -, -, tcoord, -⟩ := settleTail_keeps r x
  refine ⟨tcoord.trans xrestarted, tlevel.trans xlevel, tresume xresume, ?_, ?_, ?_, ?_, ?_, ?_⟩
  · rw [tseq, xseq, zseq, yseq]
  · rw [tcause, xcause, zcause, ycause]
  · rw [torigin, xorigin, zorigin, yorigin]
  · rw [tfaults, xfaults, zfaults, yfaults]
  · rw [tengine, xengine, ← yengine]
    exact zorder
  · rw [tengine, xengine, ← yengine, ← zref]

/-- Out of GATHERING and RECOVERING a record that is no news, with no resume, no lockout to clear, no restart the hold
permits and no unreported restarted peer, reaches neither the Coordinator nor the hold (R87, R88, R175, R178). -/
theorem acceptRecord_quiet {s t : State} {j : Station} {r : StatusRecord} (ht : acceptRecord j r s = t)
    (hidle : r.sequenceIdle s) (hresume : r.resume = false)
    (hclear : r.lockClear = true → s.hold.level ≠ .lockout ∨ s.coord.phase = .isolated)
    (hp : s.coord.phase ≠ .gathering ∧ s.coord.phase ≠ .recovering)
    (hrestart : r.restart = true → s.coord.phase = .halted → s.hold.level = .drop ∨ s.hold.level = .lockout ∨
      (s.hold.level = .stop ∧ s.hold.complete = false ∧ s.settled = false))
    (hback : (r.phase = .isolated ∨ r.phase = .gathering) → r.restart = false → j ∈ s.coord.restartedReported) :
    t.coord = s.coord ∧ t.hold.level = s.hold.level ∧ t.hold.seq = s.hold.seq ∧ t.hold.faults = s.hold.faults := by
  obtain ⟨y, hy⟩ : ∃ y, s.sequenced j r = y := ⟨_, rfl⟩
  obtain ⟨⟨ylevel, yseq, -, -, -, yfaults⟩, -, yunsettled, ycoord, -⟩ := sequenced_idle hy hidle
  have hmay : r.restart = true → y.coord.phase = .halted → y.mayRestart = false := by
    intro hr hh
    rcases hrestart hr (ycoord ▸ hh) with h | h | ⟨h, hc, hs⟩
    · simp [State.mayRestart, ylevel, h]
    · simp [State.mayRestart, ylevel, h]
    · simp [State.mayRestart, ylevel, h, yunsettled hs, hc]
  have haccept : acceptRecord j r s = settleTail r y := by
    rw [acceptRecord_sequenced, hy, takeResume_id r y hresume, takeLockClear_id r y (by rw [ylevel, ycoord]; exact hclear),
      takeRetained_id j r y (fun h => by rw [ycoord] at h; exact h.elim (absurd · hp.1) (absurd · hp.2)),
      takeRestart_id r y hmay, takeRestarted_id j r y (fun _ => by rw [ycoord]; exact hback),
      claimFromPeer_notRecovering j r y (by rw [ycoord]; exact hp.2)]
  rw [haccept] at ht
  subst ht
  obtain ⟨tlevel, tseq, -, -, -, tfaults, -⟩ := settleTail_final r y
  obtain ⟨-, -, -, tcoord, -⟩ := settleTail_keeps r y
  exact ⟨tcoord.trans ycoord, tlevel.trans ylevel, tseq.trans yseq, tfaults.trans yfaults⟩

/-- A resume leaves the Coordinator, or returns READY to HOMING (R84, R176). -/
theorem takeResume_coord (r : StatusRecord) (s : State) : (takeResume r s).coord = s.coord ∨
    s.coord.phase = .ready ∧ (takeResume r s).coord = s.coord.begun .homing none := by
  obtain ⟨-, -, -, hcoord, -⟩ := resumeHold_spec (s.setHold (s.hold.see r.resumeFor))
  unfold takeResume
  split
  · dsimp only
    split
    · rw [hcoord]
      split
      · rename_i h
        exact .inr ⟨h.2, rfl⟩
      · exact .inl rfl
    · exact .inl rfl
  · exact .inl rfl

/-- A resume leaves the level, or makes it NONE (R176). -/
theorem takeResume_level (r : StatusRecord) (s : State) : (takeResume r s).hold.level = s.hold.level ∨
    (takeResume r s).hold.level = .none := by
  obtain ⟨⟨hlevel, -⟩, -⟩ := resumeHold_spec (s.setHold (s.hold.see r.resumeFor))
  unfold takeResume
  split
  · dsimp only
    split
    · exact .inr hlevel
    · exact .inl (by simp)
  · exact .inl rfl

/-- A claim set leaves the phase, its DRIFT no ABORT (R117, R124, R155). -/
theorem claimFromPeer_phase (j : Station) (r : StatusRecord) (s : State) :
    (claimFromPeer j r s).coord.phase = s.coord.phase := by
  have hput : ∀ e, (putClaim j e s).coord.phase = s.coord.phase := fun e => by
    simp only [putClaim]
    (repeat' split) <;> simp
  simp only [claimFromPeer]
  (repeat' split) <;> first | rfl | exact hput _

/-- A restart flag at a station that gathers or recovers (R87). -/
theorem acceptRecord_joining {s t : State} {j : Station} {r : StatusRecord} (ht : acceptRecord j r s = t)
    (hr : r.restart = true) (hidle : r.sequenceIdle s) (hp : s.coord.phase = .gathering ∨ s.coord.phase = .recovering)
    (hclear : r.lockClear = true → s.hold.level ≠ .lockout) :
    t.coord.phase = s.coord.phase ∧ t.coord.restart = s.coord.restart ∧ t.coord.run = s.coord.run := by
  obtain ⟨y, hy⟩ : ∃ y, s.sequenced j r = y := ⟨_, rfl⟩
  obtain ⟨⟨ylevel, -⟩, -, -, ycoord, -⟩ := sequenced_idle hy hidle
  obtain ⟨z, hz⟩ : ∃ z, z = takeResume r y := ⟨_, rfl⟩
  have zcoord : z.coord = s.coord := by
    rcases takeResume_coord r y with h | ⟨h, -⟩
    · rw [hz, h, ycoord]
    · rw [ycoord] at h
      rcases hp with hp | hp <;> simp [hp] at h
  have zclear : r.lockClear = true → z.hold.level ≠ .lockout := by
    intro hflag
    rcases takeResume_level r y with h | h <;> rw [hz, h]
    · rw [ylevel]
      exact hclear hflag
    · decide
  obtain ⟨x, hx⟩ : ∃ x, x = takeRetained j r z := ⟨_, rfl⟩
  have xcoord : x.coord = s.coord := by rw [hx, ← zcoord]; simp
  have haccept : acceptRecord j r s = settleTail r (claimFromPeer j r x) := by
    rw [acceptRecord_sequenced, hy, ← hz, takeLockClear_id r z (fun h => .inl (zclear h)), ← hx,
      takeRestart_id r x (fun _ hh => by rw [xcoord] at hh; rcases hp with h | h <;> simp [h] at hh),
      takeRestarted_id j r x (fun _ _ h => by simp [hr] at h)]
  rw [haccept] at ht
  subst ht
  obtain ⟨-, -, -, tcoord, -⟩ := settleTail_keeps r (claimFromPeer j r x)
  rw [tcoord, claimFromPeer_phase, xcoord]
  simp [xcoord]

/-! ### A restarted peer (R88) -/

/-- A station at work that has not reported the restart of station `j` in the phase (R88). -/
def Coord.unreported (c : Coord) (j : Station) : Prop := c.phase.working = true ∧ j ∉ c.restartedReported

/-- A phase that begins has reported no restart (R72, R88). -/
theorem begun_unreported (c : Coord) (p : ArmPhase) (d : Option Time) (j : Station) (h : p.working = true) :
    (c.begun p d).unreported j := ⟨h, by simp [Coord.begun]⟩

/-- An ABORT fault halts a station at work (R85). -/
theorem raiseAbort_working (code : FaultCode) (d : Int) (s : State) (h : s.coord.phase.working = true) :
    (raiseAbort code d s).coord.phase = .halted := by
  by_cases hp : s.coord.phase = .halted
  case neg =>
    refine raiseAbort_phase code d s ?_
    revert h hp
    cases s.coord.phase <;> simp [ArmPhase.working]
  case pos =>
    have hhalt : ∀ x : State, x.coord = s.coord → (haltPhase x).coord.phase = .halted := fun x hx => by
      rw [haltPhase_coord, hx, if_pos (.inr hp)]
      exact hp
    simp only [raiseAbort, raiseFault, if_true]
    apply hhalt
    (repeat' split) <;> simp [newHold]

/-- The parts before it leave a restart of station `j` unreported (R85, R162, R176, R178). -/
theorem unreported_before {s : State} {j : Station} (k : Station) (r : StatusRecord) (h : s.coord.unreported j) :
    (takeRetained k r (takeLockClear r (takeResume r (s.sequenced k r)))).coord.unreported j := by
  have hsequenced : (s.sequenced k r).coord.unreported j := by
    rcases sequenced_coord s k r with e | ⟨-, e⟩ <;> rw [e]
    · exact h
    · exact begun_unreported _ _ _ _ rfl
  have hresumed : (takeResume r (s.sequenced k r)).coord.unreported j := by
    rcases takeResume_coord r (s.sequenced k r) with e | ⟨-, e⟩ <;> rw [e]
    · exact hsequenced
    · exact begun_unreported _ _ _ _ rfl
  have hcleared : (takeLockClear r (takeResume r (s.sequenced k r))).coord.unreported j := by
    obtain ⟨-, -, -, -, -, -, -, hcoord⟩ := clearLockout_spec (takeResume r (s.sequenced k r))
    unfold takeLockClear
    split
    · rw [hcoord]
      split
      · exact hresumed
      · exact begun_unreported _ _ _ _ rfl
    · exact hresumed
  simpa using hcleared

/-- The report of a restarted peer (R85, R88, R156). -/
theorem takeRestarted_reports (j : Station) (r : StatusRecord) (s : State) (h : s.coord.unreported j)
    (hback : r.phase = .isolated ∨ r.phase = .gathering) (hr : r.restart = false) :
    (takeRestarted j r s).hasFault .peerRestarted .abort none (j.val : Int) ∧
    (takeRestarted j r s).coord.phase = .halted ∧ j ∈ (takeRestarted j r s).coord.restartedReported := by
  obtain ⟨hworking, hnew⟩ := h
  have hraises : takeRestarted j r s = (raiseAbort .peerRestarted (j.val : Int) s).setCoord
      { (raiseAbort .peerRestarted (j.val : Int) s).coord with restartedReported :=
        (raiseAbort .peerRestarted (j.val : Int) s).coord.restartedReported ++ [j] } :=
    if_pos (by simpa [hworking, hr, hnew] using hback)
  rw [hraises]
  exact ⟨hasFault_of_faults (raiseFault_hasFault .peerRestarted .abort none (j.val : Int) s) rfl rfl,
    raiseAbort_working .peerRestarted (j.val : Int) s hworking, by simp⟩

/-- A record in ISOLATED or GATHERING without the restart flag, not yet reported in the phase (R85, R88). -/
theorem acceptRecord_reports {s t : State} {j : Station} {r : StatusRecord} (ht : acceptRecord j r s = t)
    (h : s.coord.unreported j) (hback : r.phase = .isolated ∨ r.phase = .gathering) (hr : r.restart = false) :
    t.hasFault .peerRestarted .abort none (j.val : Int) ∧ t.coord.phase = .halted ∧ j ∈ t.coord.restartedReported := by
  obtain ⟨x, hx⟩ : ∃ x, x = takeRetained j r (takeLockClear r (takeResume r (s.sequenced j r))) := ⟨_, rfl⟩
  obtain ⟨hfault, hphase, hreported⟩ := takeRestarted_reports j r x (hx ▸ unreported_before j r h) hback hr
  have haccept : acceptRecord j r s = settleTail r (takeRestarted j r x) := by
    rw [acceptRecord_sequenced, ← hx, takeRestart_id r x (fun h => by simp [hr] at h),
      claimFromPeer_notRecovering j r _ (by rw [hphase]; decide)]
  rw [haccept] at ht
  subst ht
  obtain ⟨-, -, -, -, -, tfaults, -⟩ := settleTail_final r (takeRestarted j r x)
  obtain ⟨-, -, -, tcoord, -, -, -, -, -, tstation, -⟩ := settleTail_keeps r (takeRestarted j r x)
  rw [tcoord]
  exact ⟨hasFault_of_faults hfault tfaults tstation, hphase, hreported⟩

/-- Settles O22: by the part of the acceptance each flag reaches, the other parts left. -/
theorem acceptedRecordEndsHoldsAndRestarts : Obligations.AcceptedRecordEndsHoldsAndRestarts := by
  intro dt ago bytes s r hears
  obtain ⟨l, hexec, -, -⟩ := exec_hears hears
  obtain ⟨u, hu⟩ : ∃ u : State, u = { s.later dt with link := l } := ⟨_, rfl⟩
  obtain ⟨t, ht⟩ : ∃ t, acceptRecord r.station r u = t := ⟨_, rfl⟩
  rw [← hu, ht] at hexec
  have hkeeps : t.standby = s.standby ∧ t.sensing = s.sensing ∧ t.mem = s.mem ∧ t.plan.steps = s.plan.steps := by
    simp [← ht, hu, State.later]
  refine ⟨fun hidle hrest hr hl => ⟨fun hfor hc => ?resumed, fun hno => ?notResumed⟩, fun hclear hl hp hback => ?cleared,
    fun hr hidle => ⟨fun hp => ⟨fun hl => ?restarted, fun hl hresume hclear => ?held⟩, fun hp hresume hclear => ?left,
      fun hp hclear => ?joining⟩, fun hp hback hr => ⟨fun hnew => ?reported, fun hold hidle hresume hclear => ?known⟩⟩
  case resumed =>
    obtain ⟨hlevel, hcomplete, hdeadline, hseq, hcause, horigin, hflag, horder, hgate, hchanged, hphase⟩ :=
      acceptRecord_resumes ht (by rw [hu]; exact hidle) (by rw [hu]; exact hrest) hr (by rw [hu]; exact hl)
        (by rw [hu]; exact hfor) (by rw [hu]; exact hc)
    subst hu
    exact ⟨t, hexec, hlevel, hcomplete, hdeadline, hseq, hcause, horigin, hflag, horder, hgate, hchanged, hphase, hkeeps⟩
  case notResumed =>
    have h := acceptRecord_notResumed ht (by rw [hu]; exact hidle) (by rw [hu]; exact hrest) hr (by rw [hu]; exact hl)
      (by rw [hu]; exact hno)
    subst hu
    exact ⟨t, hexec, h⟩
  case cleared =>
    obtain ⟨hlevel, hcomplete, hdeadline, hflag, hleft, hseq, hposted, horder, hphase⟩ :=
      acceptRecord_clearsLockout ht hclear (by rw [hu]; exact hl) (by rw [hu]; exact hp) hback
    subst hu
    exact ⟨t, hexec, hlevel, hcomplete, hdeadline, hflag, hleft, hseq, hposted, horder, hphase, hkeeps⟩
  case restarted =>
    obtain ⟨hcoord, hlevel, hflag, hseq, hcause, horigin, hfaults, horder, href⟩ :=
      acceptRecord_restarts ht hr (by rw [hu]; exact hidle) (by rw [hu]; exact hp) (by rw [hu]; exact hl)
    subst hu
    refine ⟨t, hexec, ?_⟩
    rw [hcoord, hlevel, hflag, hseq, hcause, horigin, hfaults, horder, href]
    exact ⟨rfl, rfl, rfl, rfl, rfl, rfl, rfl, rfl, rfl, rfl, rfl, rfl, rfl, rfl, rfl, rfl, hkeeps⟩
  case held =>
    have h := acceptRecord_quiet ht (by rw [hu]; exact hidle) hresume (fun h => by simp [hclear] at h)
      (by rw [hu]; exact ⟨by simp [State.later, hp], by simp [State.later, hp]⟩) (fun _ _ => by rw [hu]; exact hl)
      (fun _ h => by simp [hr] at h)
    subst hu
    exact ⟨t, hexec, h⟩
  case left =>
    have h := acceptRecord_quiet ht (by rw [hu]; exact hidle) hresume
      (fun hflag => by rw [hu]; exact or_iff_not_imp_left.2 fun hl => hclear hflag (not_not.1 hl))
      (by rw [hu]; rcases hp with h | h | h <;> simp [State.later, h])
      (fun _ hh => by rw [hu] at hh; rcases hp with h | h | h <;> simp [State.later, h] at hh) (fun _ h => by simp [hr] at h)
    subst hu
    exact ⟨t, hexec, h⟩
  case joining =>
    have h := acceptRecord_joining ht hr (by rw [hu]; exact hidle) (by rw [hu]; exact hp) (by rw [hu]; exact hclear)
    subst hu
    exact ⟨t, hexec, h⟩
  case reported =>
    have hworking : s.coord.phase.working = true := by rcases hp with h | h | h <;> rw [h] <;> rfl
    obtain ⟨hfault, hphase, hreported⟩ := acceptRecord_reports ht (by rw [hu]; exact ⟨hworking, hnew⟩) hback hr
    exact ⟨t, hexec, hfault, hphase, hreported, hkeeps⟩
  case known =>
    have h := acceptRecord_quiet ht (by rw [hu]; exact hidle) hresume (fun h => by simp [hclear] at h)
      (by rw [hu]; rcases hp with h | h | h <;> simp [State.later, h]) (fun h => by simp [hr] at h)
      (fun _ _ => by rw [hu]; exact hold)
    subst hu
    exact ⟨t, hexec, h⟩

end Sys2Proof.Machine
end

section
/-! Every step and the retained store: only a beat in progress writes, and within its target alone. -/

namespace Sys2Proof.Machine

/-! ### Where a beat writes (R89, R90) -/

/-- A write's target and its four beats lie below the unused area (R89). -/
theorem WriteTarget.base_le (t : WriteTarget) : t.base + 32 ≤ 0xC60 := by
  rcases t with i | (_ | _) | _
  case ring =>
    have := i.isLt
    simp only [WriteTarget.base]
    omega
  all_goals decide

/-- No beat reaches the unused area (R89). -/
theorem InFlight.address_le (f : InFlight) : f.address + 8 ≤ 0xC60 := by
  have htarget := f.target.base_le
  have hbeat := f.beat.isLt
  simp only [InFlight.address]
  omega

/-! ### Changes of the store -/

/-- A change of state that leaves every byte of the store, or writes in the eight bytes of the beat in progress alone
(R90). -/
def State.WritesBeat (s t : State) : Prop :=
  t.mem = s.mem ∨ ∃ f bs, s.store.port = some f ∧ bs.length ≤ 8 ∧ t.mem = Memory.writeBytes s.mem f.address bs

/-- With no beat in progress no byte changes. -/
theorem State.WritesBeat.idle {s t : State} (h : s.WritesBeat t) (hport : s.store.port = none) : t.mem = s.mem := by
  obtain hkept | ⟨f, _, hf, -, -⟩ := h
  · exact hkept
  · exact absurd (hport.symm.trans hf) nofun

/-- No byte outside the beat in progress changes. -/
theorem State.WritesBeat.outside {s t : State} (h : s.WritesBeat t) (hmem : s.memoryCanonical) (a : Nat)
    (ha : ∀ f, s.store.port = some f → a < f.address ∨ f.address + 8 ≤ a) : Memory.read t.mem a = Memory.read s.mem a := by
  obtain hkept | ⟨f, bs, hf, hlength, hwritten⟩ := h
  · rw [hkept]
  · have := ha f hf
    rw [hwritten]
    exact Memory.read_writeBytes_outside bs s.mem f.address a hmem (by omega)

/-! ### The two operations that write -/

/-- The end of a beat writes the eight bytes read back (R90). -/
theorem endBeat_writesBeat {f : InFlight} {s : State} (rb : Vector Byte 8) (h : s.store.port = some f) :
    s.WritesBeat (endBeat f rb.toList s) :=
  .inr ⟨f, rb.toList, h, by simp, endBeat_mem f _ s⟩

/-- A beat that a supply loss stops is left a mix of at most its eight bytes (R90; log entry 7). -/
theorem stopBeat_writesBeat (s : State) : s.WritesBeat (stopBeat s) := by
  unfold stopBeat
  split
  · exact .inl rfl
  · rename_i f hf
    exact .inr ⟨f, _, hf, by simpa using beatBytes_length f, rfl⟩

/-- The loss of the main supply writes what the beat it stops does (R14, R90). -/
theorem loseMainSupply_writesBeat (s : State) : s.WritesBeat (loseMainSupply s) := by
  rw [State.WritesBeat, loseMainSupply_mem]
  split
  · exact stopBeat_writesBeat s
  · exact .inl rfl

/-! ### Every command -/

/-- A command acts on the state `dt` later, its guard met or not (log entries 2 and 3). -/
theorem writesBeat_guarded {dt : Time} {s u : State} {c : Bool} (h : (advance dt s).WritesBeat u) :
    ∃ t, (.next (if c then u else advance dt s) : Host.Outcome State Fault Refusal) = .next t ∧ s.WritesBeat t := by
  cases c
  · exact ⟨_, rfl, .inl rfl⟩
  · exact ⟨_, rfl, h⟩

/-- A request writes nothing where its decision writes nothing. -/
theorem writesBeat_request {dt : Time} {s : State} (keepsKey : Bool) (n : Nat) (ps : List Byte) {d : State → Reply}
    (h : ∀ x : State, (d x).state.mem = x.mem) :
    ∃ t, (.next (answerRequest keepsKey n ps d (advance dt s)) : Host.Outcome State Fault Refusal) = .next t ∧
      s.WritesBeat t :=
  ⟨_, rfl, .inl (answerRequest_property (fun t => t.mem = s.mem) _ _ _ _ _ (fun _ _ => id) (fun _ => id)
    (fun x hx => (h x).trans hx) rfl)⟩

/-- Every command completes, and BEAT_END and MAIN_SUPPLY_LOSS alone write, in the beat in progress. -/
theorem exec_writesBeat (c : Instr) (s : State) : ∃ t, exec c s = .next t ∧ s.WritesBeat t := by
  cases c
  case configure | planClear | planStep | planSeal | join | status | peers | position | order | faults | calRead
      | journalRead | faultClear | abandon | survey | trim | calCommit | resume | restart | lockoutClear | shutdown
      | reset | unknownRequestCode =>
    exact writesBeat_request _ _ _ fun x => by simp [Reply.refuse]
  case beatEnd =>
    refine writesBeat_guarded ?_
    split
    · exact endBeat_writesBeat _ ‹_›
    · exact .inl rfl
  case mainSupplyLoss => exact writesBeat_guarded (loseMainSupply_writesBeat _)
  case nresetAssert =>
    refine ⟨_, rfl, .inl ?_⟩
    split <;> simp
  case indexEdge =>
    refine writesBeat_guarded (.inl ?_)
    split <;> simp
  all_goals
    exact writesBeat_guarded (.inl (by simp))

/-- Settles O60: a step executes the front command, and every command writes in the beat in progress alone, which lies
below the unused area. -/
theorem everyStepWritesOnlyTheBeatInProgress : Obligations.EveryStepWritesOnlyTheBeatInProgress := by
  intro s t ht
  have hwrites : s.WritesBeat t := by
    unfold step at ht
    split at ht
    · injection ht with ht
      exact .inl (ht ▸ rfl)
    · rename_i c rest _
      obtain ⟨u, hu, hwrites⟩ := exec_writesBeat c (s.setPending rest)
      injection ht.symm.trans hu with htu
      exact htu ▸ hwrites
  refine ⟨hwrites.idle, fun f hf hmem a ha => hwrites.outside hmem a fun g hg => ?_,
    fun hmem a ha => hwrites.outside hmem a fun f _ => .inr (f.address_le.trans ha)⟩
  obtain rfl : f = g := Option.some.inj (hf.symm.trans hg)
  exact ha

end Sys2Proof.Machine
end

section
/-! The start-up scan: the ring, the calibration slots and the lockout record, each found in the store as it stands. -/

namespace Sys2Proof.Machine

/-! ### The tail (R105, R111) -/

/-- With no sealed frame the scan leaves no tail (R105, R111). -/
theorem scanJournal_noTail {s : State} (h : ∀ i, JournalFrame.decode (s.ringSlot i) = none) :
    (scanJournal s).store.tail = none ∧ (scanJournal s).store.pointer = 0 ∧ (scanJournal s).store.lastTag = none
      ∧ (scanJournal s).coord.lastRunClaim = some 0 ∧ (scanJournal s).coord.start.tailKind = none := by
  simp [scanJournal, scanJournal_none s h]

/-- The sealed frame newer than every other becomes the tail (R105, R111). -/
theorem scanJournal_tail {s : State} {i : Fin 96} {f : JournalFrame} (h : JournalFrame.decode (s.ringSlot i) = some f)
    (hnewest : ∀ j g, j ≠ i → JournalFrame.decode (s.ringSlot j) = some g → tagNewer f.tag g.tag = true) :
    (scanJournal s).store.tail = some ⟨i, f⟩ ∧ (scanJournal s).store.pointer = i + 1
      ∧ (scanJournal s).store.lastTag = some f.tag ∧ (scanJournal s).coord.lastRunClaim = some f.tag.run
      ∧ (scanJournal s).coord.start.tailKind = some f.kind := by
  simp [scanJournal, chooseTail_newest s i f h hnewest, nextSlot]

/-! ### The committed record (R106, R182) -/

/-- With no slot sealed COMMITTED there is no committed record, and the values in use are 0 (R106, R182). -/
theorem takeValues_uncommitted {s : State} (h : s.chosenCommitted = none) :
    (takeValues (chooseCal s)).cal.committed = none ∧ (takeValues (chooseCal s)).cal.generation = 0
      ∧ (takeValues (chooseCal s)).cal.trim = 0 ∧ (takeValues (chooseCal s)).cal.backlash = 0 := by
  simp [takeValues, chooseCal, h, Cal.generation, Cal.committedTrim, Cal.committedBacklash]

/-- The chosen slot's record is committed and its values are in use, the other slot being spare (R106, R182). -/
theorem takeValues_committed {s : State} {c : CalSlot} {x : CalRecord} (h : s.chosenCommitted = some (c, x)) :
    (takeValues (chooseCal s)).cal.committed = some (c, x) ∧ (takeValues (chooseCal s)).cal.spare = c.other
      ∧ (takeValues (chooseCal s)).cal.trim = x.trim.toInt
      ∧ (takeValues (chooseCal s)).cal.backlash = (x.backlash.toNat : Int) := by
  simp [takeValues, chooseCal, h, State.chosenSpare, Cal.committedTrim, Cal.committedBacklash]

/-- Slot A is chosen when it is sealed COMMITTED and slot B holds no higher generation (R182). -/
theorem chosenCommitted_a {s : State} {x : CalRecord} (h : calRecordWith calCommittedByte (s.calSlot .a) = some x)
    (hb : ∀ y, calRecordWith calCommittedByte (s.calSlot .b) = some y → y.generation.toNat ≤ x.generation.toNat) :
    s.chosenCommitted = some (.a, x) := by
  rw [State.chosenCommitted, h]
  cases hy : calRecordWith calCommittedByte (s.calSlot .b) with
  | none => rfl
  | some y => exact if_neg (not_lt.2 (hb y hy))

/-- Slot B is chosen when it is sealed COMMITTED and slot A holds lower generations alone (R182). -/
theorem chosenCommitted_b {s : State} {y : CalRecord} (h : calRecordWith calCommittedByte (s.calSlot .b) = some y)
    (ha : ∀ x, calRecordWith calCommittedByte (s.calSlot .a) = some x → x.generation.toNat < y.generation.toNat) :
    s.chosenCommitted = some (.b, y) := by
  rw [State.chosenCommitted, h]
  cases hx : calRecordWith calCommittedByte (s.calSlot .a) with
  | none => rfl
  | some x => exact if_pos (ha x hx)

/-! ### The scan as a whole -/

/-- SCAN_DONE ends the scan, once (R105). -/
theorem exec_scanDone (dt : Time) {s : State} (hrun : s.running = true) :
    exec (.scanDone dt) s = .next (if s.store.scanDone = true then s.later dt else endScan (s.later dt)) := by
  have hrun' : (advance dt s).running = true := hrun
  show Host.Outcome.next _ = _
  rw [hrun', show (advance dt s).store.scanDone = s.store.scanDone from rfl]
  cases s.store.scanDone <;> rfl

/-- What the scan leaves of the ring's state and the Coordinator is what its journal part leaves (R105, R111). -/
theorem endScan_journal (s : State) :
    (endScan s).store.tail = (scanJournal s).store.tail ∧ (endScan s).store.pointer = (scanJournal s).store.pointer
      ∧ (endScan s).store.lastTag = (scanJournal s).store.lastTag ∧ (endScan s).store.scanDone = true
      ∧ (endScan s).coord = (scanJournal s).coord := by
  simp [endScan, show (scanJournal s).store.scanDone = true from rfl]

/-- What the scan leaves of the calibration state is what the choice of the slots leaves (R106). -/
theorem endScan_cal (s : State) :
    (endScan s).cal.committed = (takeValues (chooseCal s)).cal.committed
      ∧ (endScan s).cal.generation = (takeValues (chooseCal s)).cal.generation
      ∧ (endScan s).cal.spare = (takeValues (chooseCal s)).cal.spare
      ∧ (endScan s).cal.trim = (takeValues (chooseCal s)).cal.trim
      ∧ (endScan s).cal.backlash = (takeValues (chooseCal s)).cal.backlash := by
  obtain ⟨-, -, -, -, -, -, -, hcommitted, hspare, htrim, hbacklash, hgeneration⟩ :=
    scanLockout_spec (takeValues (chooseCal (scanJournal s)))
  exact ⟨hcommitted, hgeneration, hspare, htrim, hbacklash⟩

/-- Settles O54: the three parts of the scan, each by what it finds. -/
theorem scanFindsTailCalibrationAndLockout : Obligations.ScanFindsTailCalibrationAndLockout := by
  intro dt s hrun
  rw [exec_scanDone dt hrun]
  refine ⟨fun hdone => by rw [if_pos hdone], fun hdone => ?_⟩
  rw [if_neg (by simp [hdone])]
  obtain ⟨htail, hpointer, htag, hscan, hcoord⟩ := endScan_journal (s.later dt)
  obtain ⟨hcommitted, hgeneration, hspare, htrim, hbacklash⟩ := endScan_cal (s.later dt)
  obtain ⟨hclear, hlockout, -⟩ := scanLockout_spec (takeValues (chooseCal (scanJournal (s.later dt))))
  refine ⟨_, rfl, hscan, by simp [State.later], ?ring, ?tail, ?uncommitted, ?slotA, ?slotB, hclear, hlockout, ?kept⟩
  case ring =>
    intro hring
    rw [htail, hpointer, htag, hcoord]
    exact scanJournal_noTail hring
  case tail =>
    intro i f hframe hnewest
    rw [htail, hpointer, htag, hcoord]
    exact scanJournal_tail hframe hnewest
  case uncommitted =>
    intro ha hb
    rw [hcommitted, hgeneration, htrim, hbacklash]
    exact takeValues_uncommitted (congrArg₂ chooseCommitted ha hb)
  case slotA =>
    intro x ha hb
    rw [hcommitted, hspare, htrim, hbacklash]
    exact takeValues_committed (chosenCommitted_a ha hb)
  case slotB =>
    intro y hb ha
    rw [hcommitted, hspare, htrim, hbacklash]
    exact takeValues_committed (chosenCommitted_b hb ha)
  case kept => simp [State.later]

end Sys2Proof.Machine
end

section
/-! The end of a beat: the next beat, or the end of its write, completed, cut or failed, and the next grant. -/

namespace Sys2Proof.Machine

/-! ### How a beat ends (R90) -/

/-- The node with the eight bytes of a beat as they read back and the port idle, as the end of its write finds it (R90). -/
def State.beatStored (s : State) (f : InFlight) (rb : List Byte) : State :=
  idlePort (s.setMem (Memory.writeBytes s.mem f.address rb))

/-- The end of a write finds the store controller as it stood but for the port, and every other block as it stood. -/
@[simp] theorem State.beatStored_keeps (s : State) (f : InFlight) (rb : List Byte) :
    (s.beatStored f rb).store = { s.store with port := none } ∧ (s.beatStored f rb).cal = s.cal
      ∧ (s.beatStored f rb).standby = s.standby ∧ (s.beatStored f rb).engine = s.engine
      ∧ (s.beatStored f rb).coord = s.coord ∧ (s.beatStored f rb).hold = s.hold ∧ (s.beatStored f rb).peers = s.peers :=
  ⟨rfl, rfl, rfl, rfl, rfl, rfl, rfl⟩

section
variable {f : InFlight} {rb : List Byte} (s : State)

/-- A beat that reads back as written is followed by the next (R90). -/
theorem endBeat_continues (hread : rb = f.beatBytes) (hlast : f.beat.val + 1 < f.request.kind.beats)
    (hcut : f.isCut = false) :
    endBeat f rb s = { s with mem := Memory.writeBytes s.mem f.address rb,
                              store := { s.store with port := some { f with beat := f.beat + 1 } } } := by
  simp only [endBeat, hread, ne_eq, not_true_eq_false, if_false, if_neg hlast.ne, hcut, Bool.false_eq_true]
  rfl

/-- A beat that reads back otherwise has failed its write (R90). -/
theorem endBeat_fails (hread : rb ≠ f.beatBytes) :
    endBeat f rb s = grantNext (writeFailed f (s.beatStored f rb)) := by
  simp only [endBeat, if_pos hread, State.beatStored]

/-- The last beat completes its write (R90; log entry 34). -/
theorem endBeat_completes (hread : rb = f.beatBytes) (hlast : f.beat.val + 1 = f.request.kind.beats) :
    endBeat f rb s = grantNext (writeCompleted f (s.beatStored f rb)) := by
  simp only [endBeat, if_neg (not_not.2 hread), if_pos hlast, State.beatStored]

/-- A cut write ends with the beat it was cut in, short of its last (R90, R98). -/
theorem endBeat_cuts (hread : rb = f.beatBytes) (hlast : f.beat.val + 1 < f.request.kind.beats) (hcut : f.isCut = true) :
    endBeat f rb s = grantNext (writeCut f (s.beatStored f rb)) := by
  simp only [endBeat, if_neg (not_not.2 hread), if_neg hlast.ne, if_pos hcut, State.beatStored]

end

/-- BEAT_END with no beat in progress lets the time pass alone (log entry 3). -/
theorem exec_beatEnd_idle (dt : Time) (rb : Vector Byte 8) {s : State} (hrun : s.running = true)
    (hport : s.store.port = none) : exec (.beatEnd dt rb) s = .next (s.later dt) := by
  have hrun' : (advance dt s).running = true := hrun
  simp only [exec, execBeatEnd, hrun', advance_keeps, hport, if_true]
  rfl

/-- BEAT_END ends the beat in progress (R90). -/
theorem exec_beatEnd_busy (dt : Time) (rb : Vector Byte 8) {s : State} {f : InFlight} (hrun : s.running = true)
    (hport : s.store.port = some f) : exec (.beatEnd dt rb) s = .next (endBeat f rb.toList (s.later dt)) := by
  have hrun' : (advance dt s).running = true := hrun
  simp only [exec, execBeatEnd, hrun', advance_keeps, hport, if_true]
  rfl

/-! ### The eight bytes (R89, R90) -/

/-- Bytes written read back one by one. -/
theorem Memory.read_writeBytes_inside (bs : List Byte) (m : Memory) (x i : Nat) (h : Memory.wf m = true)
    (hi : i < bs.length) : Memory.read (Memory.writeBytes m x bs) (x + i) = bs[i] := by
  induction bs generalizing m x i with
  | nil => exact absurd hi (Nat.not_lt_zero _)
  | cons b bs ih =>
    have hw := Memory.wf_write m x b h
    cases i with
    | zero => simp [Memory.writeBytes, Memory.read_writeBytes_outside bs _ (x + 1) x hw, Memory.read_write m x x b h]
    | succ i =>
      rw [← Nat.add_assoc, Nat.add_right_comm]
      exact ih _ _ _ hw (Nat.lt_of_succ_lt_succ hi)

/-- The eight bytes of the beat read back as the hardware holds them (R90). -/
theorem endBeat_reads (f : InFlight) (rb : Vector Byte 8) {s : State} (h : s.memoryCanonical) (i : Fin 8) :
    Memory.read (endBeat f rb.toList s).mem (f.address + i.val) = rb.get i := by
  rw [endBeat_mem, Memory.read_writeBytes_inside _ _ _ _ h (by simp)]
  simp [Vector.get_eq_getElem]

/-! ### The grant that follows (R91) -/

/-- With nothing pending nothing is granted, and the grant looks for no other write (R91). -/
theorem grantNext_nothing {s : State} (h : ∀ k : WriteKind, s.store.isPending k = false) : grantNext s = s := by
  unfold grantNext
  rw [(nextPending_none s.store).2 h]
  split <;> rfl

/-- Where requests go, by the write pointer and the spare slot alone (R94, R182). -/
theorem State.targetOf_congr {s t : State} (hpointer : s.store.pointer = t.store.pointer) (hspare : s.cal.spare = t.cal.spare) :
    s.targetOf = t.targetOf := by
  funext r
  cases r <;> simp [State.targetOf, hpointer, hspare]

/-- A grant leaves the spare slot (R192). -/
@[simp] theorem grantNext_spare (s : State) : (grantNext s).cal.spare = s.cal.spare := by
  have hgrant : ∀ (r : WriteRequest) (x : State), (grant r x).cal.spare = x.cal.spare := fun r x => by cases r <;> rfl
  unfold grantNext
  split
  · rfl
  · split
    · rfl
    · rw [hgrant]
      rfl

/-- A grant moves no write's target (R91). -/
theorem grantNext_targetOf (s : State) : (grantNext s).targetOf = s.targetOf :=
  State.targetOf_congr (by simp) (by simp)

/-- What a store controller's pending set has granted at an idle port: nothing, or its first request in grant order, at
a target (R91). -/
def Store.grants (st : Store) (target : WriteRequest → WriteTarget) (t : Store) : Prop :=
  ((∀ k : WriteKind, st.isPending k = false) → t.port = none)
  ∧ ∀ (k : WriteKind) (r : WriteRequest), st.pending.get k.place = some r → r.kind = k →
      (∀ k' : WriteKind, k'.place < k.place → st.isPending k' = false) →
      t.port = some ⟨r, target r, 0, false⟩ ∧ t.isPending k = false

/-- At an idle port the pending request first in grant order is granted (R91). -/
theorem grantNext_grants {s : State} {st : Store} (hport : s.store.port = none) (hpending : s.store.pending = st.pending) :
    st.grants s.targetOf (grantNext s).store := by
  have hkinds : ∀ k, s.store.isPending k = st.isPending k := fun k => by simp only [Store.isPending, hpending]
  refine ⟨fun hnone => ?_, fun k r hr hkind hfirst => ?_⟩
  · rw [grantNext_nothing fun k => (hkinds k).trans (hnone k), hport]
  · exact grantNext_first s k r hport (hpending ▸ hr) hkind fun k' hk => (hkinds k').trans (hfirst k' hk)

/-- The standby domain, the engine, the Coordinator, the hold state and the peer table are as they stood. -/
def State.keepsBesideStore (s t : State) : Prop :=
  t.standby = s.standby ∧ t.engine = s.engine ∧ t.coord = s.coord ∧ t.hold = s.hold ∧ t.peers = s.peers

/-- The end of a write that reaches the store controller alone, and the grant that follows, keep the other blocks (R91). -/
theorem keepsBesideStore_grantNext (s : State) (f : InFlight) (rb : List Byte) (st : Store) :
    s.keepsBesideStore (grantNext ((s.beatStored f rb).setStore st)) := by
  simp [State.keepsBesideStore]

/-! ### Journal writes (R94, R99) -/

/-- A write of a journal frame (R91, R92). -/
def WriteRequest.journals (r : WriteRequest) (j : JournalFrame) : Prop :=
  r = .final j ∨ r = .routine j ∨ ∃ q, r = .orderly j q

/-- A write pointer that has moved one slot on, one further past the tail (R94). -/
def Store.pointerMoved (st t : Store) : Prop :=
  ((∀ u, st.tail = some u → u.slot ≠ st.pointer + 1) → t.pointer = st.pointer + 1)
  ∧ ∀ u, st.tail = some u → u.slot = st.pointer + 1 → t.pointer = st.pointer + 2

/-- FINAL outstanding after the end of a write: clear after a FINAL, as it stood after another (R99). -/
def Store.finalEnded (r : WriteRequest) (j : JournalFrame) (st t : Store) : Prop :=
  (r = .final j → t.finalOut = false) ∧ (r ≠ .final j → t.finalOut = st.finalOut)

/-- The advanced write pointer has moved on (R94). -/
theorem pointerMoved_of_advanced {st t : Store} {s : State} (hs : s.store = st) (h : t.pointer = st.advanced) :
    st.pointerMoved t := by
  subst hs
  obtain ⟨hpast, hon⟩ := advancePointer_spec s
  exact ⟨fun htail => h.trans (hon htail), fun u hu hslot => h.trans (hpast u hu hslot)⟩

/-- A failed journal write leaves the tail, moves the write pointer on and ends a FINAL (R90, R94, R99). -/
theorem endBeat_fails_journal {f : InFlight} {rb : List Byte} {j : JournalFrame} (s : State) (hread : rb ≠ f.beatBytes)
    (h : f.request.journals j) :
    (endBeat f rb s).store.tail = s.store.tail ∧ s.store.pointerMoved (endBeat f rb s).store
      ∧ s.store.finalEnded f.request j (endBeat f rb s).store := by
  obtain ⟨-, hpointer, hfinal⟩ := writeFailed_journal f j (s.beatStored f rb) h
  rw [endBeat_fails s hread]
  refine ⟨by simp, pointerMoved_of_advanced rfl (.trans (by simp) hpointer), fun hf => ?_, fun hf => ?_⟩
  · simpa [hf] using hfinal
  · simpa [hf] using hfinal

/-- A cut ROUTINE leaves the tail and moves the write pointer on (R94, R98). -/
theorem endBeat_cuts_routine {f : InFlight} {rb : List Byte} {j : JournalFrame} (s : State) (hread : rb = f.beatBytes)
    (hlast : f.beat.val + 1 < f.request.kind.beats) (hcut : f.isCut = true) (h : f.request = .routine j) :
    (endBeat f rb s).store.tail = s.store.tail ∧ s.store.pointerMoved (endBeat f rb s).store
      ∧ s.keepsBesideStore (endBeat f rb s) := by
  have hwrite : writeCut f (s.beatStored f rb) = advancePointer (s.beatStored f rb) := by rw [writeCut, h]
  rw [endBeat_cuts s hread hlast hcut, hwrite]
  exact ⟨by simp, pointerMoved_of_advanced rfl (by simp; rfl), keepsBesideStore_grantNext _ _ _ _⟩

/-- A frame sealed at the write pointer becomes the tail, and the write pointer stands one slot on (R94). -/
theorem advancePointer_takeTail (j : JournalFrame) (s : State) :
    advancePointer (takeTail s.store.pointer j s) =
      s.setStore { s.store with tail := some ⟨s.store.pointer, j⟩, pointer := s.store.pointer + 1 } := by
  have hslot : s.store.pointer ≠ nextSlot s.store.pointer := by
    simp only [nextSlot]
    omega
  have hadvanced : (takeTail s.store.pointer j s).store.advanced = s.store.pointer + 1 := if_neg hslot
  rw [advancePointer, hadvanced]
  rfl

/-- What a completed journal write leaves: its frame the tail, the write pointer one slot on, a FINAL ended, and nothing
else of the node but the closing flag (R94, R99, R102). -/
theorem writeCompleted_journal {f : InFlight} {j : JournalFrame} (s : State) (h : f.request.journals j)
    (htarget : f.target = .ring s.store.pointer) :
    ∃ final closing, writeCompleted f s = s.setStore { s.store with
        tail := some ⟨s.store.pointer, j⟩, pointer := s.store.pointer + 1, finalOut := final, closing := closing }
      ∧ (f.request = .final j → final = false) ∧ (f.request ≠ .final j → final = s.store.finalOut) := by
  have hslot : f.target.slot = s.store.pointer := by rw [htarget, WriteTarget.slot]
  unfold writeCompleted
  rcases h with h | h | ⟨q, h⟩ <;> simp only [h, hslot, advancePointer_takeTail]
  · exact ⟨false, s.store.closing, rfl, fun _ => rfl, fun hne => absurd rfl hne⟩
  · exact ⟨s.store.finalOut, s.store.closing, rfl, nofun, fun _ => rfl⟩
  · unfold orderlySealed
    split
    · exact ⟨s.store.finalOut, some q, rfl, nofun, fun _ => rfl⟩
    · exact ⟨s.store.finalOut, s.store.closing, rfl, nofun, fun _ => rfl⟩

/-- A completed journal write makes its frame the tail, moves the write pointer on, ends a FINAL and grants the next
request (R91, R94, R99). -/
theorem endBeat_completes_journal {f : InFlight} {rb : List Byte} {j : JournalFrame} {s : State} (hread : rb = f.beatBytes)
    (hlast : f.beat.val + 1 = f.request.kind.beats) (h : f.request.journals j) (htarget : f.target = .ring s.store.pointer) :
    (endBeat f rb s).store.tail = some ⟨s.store.pointer, j⟩ ∧ (endBeat f rb s).store.pointer = s.store.pointer + 1
      ∧ s.store.finalEnded f.request j (endBeat f rb s).store ∧ s.keepsBesideStore (endBeat f rb s)
      ∧ s.store.grants (endBeat f rb s).targetOf (endBeat f rb s).store := by
  obtain ⟨final, closing, heq, hfinal⟩ := writeCompleted_journal (s.beatStored f rb) h htarget
  rw [endBeat_completes s hread hlast, heq]
  refine ⟨by simp, by simp, by simpa [Store.finalEnded] using hfinal,
    keepsBesideStore_grantNext _ _ _ _, ?_⟩
  rw [grantNext_targetOf]
  exact grantNext_grants rfl rfl

/-! ### Writes of the lockout record (R107, R108) -/

/-- A completed lockout write reaches the retained-lockout flag alone: a LOCK_RECORD sets it, a LOCK_CLEAR clears it
(R107, R108). -/
theorem writeCompleted_lockout {f : InFlight} {l : LockRecord} (h : f.request = .lockRecord l ∨ f.request = .lockClear l) :
    ∃ flag, (∀ x : State, writeCompleted f x = x.setStore { x.store with retainedLockout := flag })
      ∧ (f.request = .lockRecord l → flag = true) ∧ (f.request = .lockClear l → flag = false) := by
  rcases h with h | h
  · exact ⟨true, fun x => by rw [writeCompleted, h], fun _ => rfl, fun h' => absurd (h.symm.trans h') nofun⟩
  · exact ⟨false, fun x => by rw [writeCompleted, h], fun h' => absurd (h.symm.trans h') nofun, fun _ => rfl⟩

/-- A completed lockout write sets or clears the retained-lockout flag and grants the next request (R91, R107, R108). -/
theorem endBeat_completes_lockout {f : InFlight} {rb : List Byte} {flag : Bool} (s : State) (hread : rb = f.beatBytes)
    (hlast : f.beat.val + 1 = f.request.kind.beats)
    (h : ∀ x : State, writeCompleted f x = x.setStore { x.store with retainedLockout := flag }) :
    (endBeat f rb s).store.retainedLockout = flag ∧ (endBeat f rb s).store.tail = s.store.tail
      ∧ (endBeat f rb s).store.pointer = s.store.pointer ∧ s.keepsBesideStore (endBeat f rb s)
      ∧ s.store.grants s.targetOf (endBeat f rb s).store := by
  rw [endBeat_completes s hread hlast, h]
  refine ⟨by simp, by simp, by simp, keepsBesideStore_grantNext _ _ _ _, ?_⟩
  rw [State.targetOf_congr (s := s) (t := (s.beatStored f rb).setStore _) rfl rfl]
  exact grantNext_grants rfl rfl

/-! ### A failed write's fault (R90) -/

/-- A failed write raises STORE_WRITE_FAILED with the kind's number x 256 + the beat's (R90). -/
theorem endBeat_fails_hasFault {f : InFlight} {rb : List Byte} (s : State) (hread : rb ≠ f.beatBytes) :
    (endBeat f rb s).hasFault .storeWriteFailed .hold none ((f.request.kind.num * 256 + (f.beat.val + 1) : Nat) : Int) := by
  rw [endBeat_fails s hread]
  exact hasFault_of_faults (raiseFault_hasFault _ _ _ _ (failedEffect f (s.beatStored f rb)))
    (by simp [writeFailed, raiseWriteFailed, raiseHold]) (by simp [writeFailed, raiseWriteFailed, raiseHold, State.own])

/-! ### A completed CAL_FLIP (R196) -/

/-- The changes of the calibration waiting for a commit (R180). -/
def Cal.changes (c : Cal) : Option Int × Option Int := (c.pendTrim, c.pendBacklash)

/-- A grant leaves the pending changes. -/
@[simp] theorem grant_changes (r : WriteRequest) (s : State) : (grant r s).cal.changes = s.cal.changes := by
  cases r <;> rfl

/-- The next grant leaves the pending changes. -/
@[simp] theorem grantNext_changes (s : State) : (grantNext s).cal.changes = s.cal.changes := by
  unfold grantNext
  (repeat' split) <;> simp [dropPending]

/-- A posted write leaves the pending changes. -/
@[simp] theorem postWrite_changes (r : WriteRequest) (s : State) : (postWrite r s).cal.changes = s.cal.changes := by
  unfold postWrite
  (repeat' split) <;> simp [addPending]

/-- A sighting that begins or ends leaves the pending changes. -/
@[simp] theorem sightingUpdate_changes (s : State) : (sightingUpdate s).cal.changes = s.cal.changes := by
  unfold sightingUpdate
  split <;> rfl

/-- A posted CAL_FLIP leaves the pending changes. -/
@[simp] theorem postFlip_changes (s : State) : (postFlip s).cal.changes = s.cal.changes :=
  postWrite_changes _ _

/-- The tests at the end of a calibration write leave the pending changes. -/
@[simp] theorem calWriteTests_changes (s : State) : (calWriteTests s).cal.changes = s.cal.changes := by
  have hflip : ∀ x : State, (flipTest x).cal.changes = x.cal.changes := fun x => by
    rcases flipTest_or x with e | ⟨e, -⟩ <;> rw [e]
    exact postFlip_changes x
  have hroll : ∀ x : State, (rollForwardTable x).cal.changes = x.cal.changes := fun x => by
    unfold rollForwardTable
    split <;> simp
  have hstage : ∀ x : State, (stageTest x).cal.changes = x.cal.changes := fun x => by
    unfold stageTest
    split
    · rfl
    · split
      · exact postWrite_changes _ _
      · rfl
  rw [calWriteTests, hstage, hroll, hflip]

/-- A completed flip empties the pending changes and adds CAL_CHANGED (R196). -/
theorem flipDone_changes (s : State) :
    (flipDone s).cal.changes = (none, none) ∧ (flipDone s).port.attention.calChanged = true := by
  rw [flipDone, sightingUpdate_changes]
  refine ⟨by simp [Cal.changes], ?_⟩
  have hport : ∀ x : State, (sightingUpdate x).port = x.port := fun x => by simp
  rw [hport]
  exact addCause_self .calChanged _

/-- The end of a CAL_FLIP that reads back leaves no pending change, and CAL_CHANGED added (R196). -/
theorem endBeat_completes_flip {f : InFlight} {rb : List Byte} (s : State) (hread : rb = f.beatBytes)
    (hlast : f.beat.val + 1 = f.request.kind.beats) (h : f.request = .calFlip) :
    (endBeat f rb s).cal.changes = (none, none) ∧ (endBeat f rb s).port.attention.calChanged = true := by
  have hwrite : ∀ x : State, writeCompleted f x = calWriteTests (flipDone x) := fun x => by rw [writeCompleted, h]
  rw [endBeat_completes s hread hlast, hwrite]
  simpa using flipDone_changes (s.beatStored f rb)

/-! ### BEAT_END -/

/-- Settles O53: each clause by how the beat ends and what its write leaves. -/
theorem beatEndWritesChecksAndGrants : Obligations.BeatEndWritesChecksAndGrants := by
  intro dt rb s hrun
  have hexec : ∀ {f}, s.store.port = some f → exec (.beatEnd dt rb) s = .next (endBeat f rb.toList (s.later dt)) :=
    exec_beatEnd_busy dt rb hrun
  refine ⟨?idle, ?written, ?continues, ?failed, ?sealed, ?cut, ?lockout, ?flip, ?granted⟩
  case idle => exact exec_beatEnd_idle dt rb hrun
  case written =>
    intro f hport hmem
    refine ⟨_, hexec hport, endBeat_reads f rb hmem, fun a ha => ?_, ?_⟩
    · exact (endBeat_writesBeat (s := s.later dt) rb hport).outside hmem a fun g hg => by
        obtain rfl : f = g := Option.some.inj (hport.symm.trans hg)
        exact ha
    · simp [State.later]
  case continues =>
    intro f hport hread hlast hcut
    exact ⟨_, (hexec hport).trans (congrArg _ (endBeat_continues _ hread hlast hcut))⟩
  case failed =>
    intro f hport hread
    refine ⟨_, hexec hport, endBeat_fails_hasFault _ hread, fun j hj => ?_⟩
    obtain ⟨htail, ⟨hon, hpast⟩, hfinal⟩ := endBeat_fails_journal (s.later dt) hread hj
    exact ⟨htail, hon, hpast, hfinal⟩
  case sealed =>
    intro f j hport hread hlast hj htarget
    obtain ⟨htail, hpointer, ⟨hended, hother⟩, ⟨hstandby, hengine, hcoord, hhold, hpeers⟩, hgrants⟩ :=
      endBeat_completes_journal (s := s.later dt) hread hlast hj htarget
    exact ⟨_, hexec hport, htail, hpointer, hended, hother, hstandby, hengine, hcoord, hhold, hpeers, hgrants⟩
  case cut =>
    intro f j hport hread hlast hj hcut
    obtain ⟨htail, ⟨hon, hpast⟩, hkeeps⟩ := endBeat_cuts_routine (s.later dt) hread hlast hcut hj
    exact ⟨_, hexec hport, htail, hon, hpast, hkeeps⟩
  case lockout =>
    intro f l hport hread hbeat hlock
    have hlast : f.beat.val + 1 = f.request.kind.beats := by
      rcases hlock with h | h <;> rw [hbeat, h] <;> rfl
    obtain ⟨flag, hflag, hset, hclear⟩ := writeCompleted_lockout hlock
    obtain ⟨hretained, htail, hpointer, ⟨hstandby, hengine, hcoord, hhold, hpeers⟩, hgrants⟩ :=
      endBeat_completes_lockout (s.later dt) hread hlast hflag
    exact ⟨_, hexec hport, fun h => hretained.trans (hset h), fun h => hretained.trans (hclear h), htail, hpointer,
      hstandby, hengine, hcoord, hhold, hpeers, hgrants⟩
  case flip =>
    intro f hport hread hbeat hflip
    obtain ⟨hchanges, hcause⟩ := endBeat_completes_flip (s.later dt) hread (by rw [hbeat, hflip]; rfl) hflip
    obtain ⟨htrim, hbacklash⟩ := Prod.mk.inj hchanges
    exact ⟨_, hexec hport, htrim, hbacklash, hcause⟩
  case granted =>
    intro f k r hport hends hr hkind hfirst
    obtain ⟨g, hg⟩ := endBeat_grants f rb.toList (s.later dt) k r hends hr hkind hfirst
    exact ⟨_, g, hexec hport, hg⟩

end Sys2Proof.Machine
end

section
/-! The classification of the own recovery claim: the tests in their order, and the agreed stop they read. -/

namespace Sys2Proof.Machine

/-! ### The agreed stop (R119) -/

/-- With no JOURNAL claim of a tail there is no stop run (R119). -/
theorem stopRunOf_none (l : List Claim) (h : ∀ d ∈ l, d.kind = .journal → d.tailKind = none) : stopRunOf l = none := by
  have hempty : (l.filterMap fun c => if c.kind = .journal ∧ c.tailKind ≠ none then some c.tailRun else none) = [] := by
    simpa [List.filterMap_eq_nil_iff] using h
  simp [stopRunOf, newest16, hempty]

/-- The stop run is the newest run of a tail (R119). -/
theorem stopRunOf_newest {l : List Claim} {d : Claim} (hd : d ∈ l) (hkind : d.kind = .journal) (htail : d.tailKind ≠ none)
    (h : ∀ e ∈ l, e.kind = .journal → e.tailKind ≠ none →
      e.tailRun = d.tailRun ∨ serialNewer d.tailRun e.tailRun = true) : stopRunOf l = some d.tailRun := by
  refine newest16_of _ _ (List.mem_filterMap.mpr ⟨d, hd, if_pos ⟨hkind, htail⟩⟩) fun b hb => ?_
  obtain ⟨e, he, hrun⟩ := List.mem_filterMap.mp hb
  obtain ⟨⟨hekind, hetail⟩, hbe⟩ := Option.ite_none_right_eq_some.mp hrun
  obtain rfl := Option.some.inj hbe
  exact h e he hekind hetail

/-- The latest final is the newest cycle of a tail that closed the run (R119). -/
theorem latestFinalOf_newest {l : List Claim} {run : Option (BitVec 16)} {d : Claim} (hd : d ∈ l) (hcloses : d.closesIn run)
    (h : ∀ e ∈ l, e.closesIn run → e.tailCycle = d.tailCycle ∨ serialNewer d.tailCycle e.tailCycle = true) :
    latestFinalOf l run = some d.tailCycle := by
  refine newest32_of _ _ (List.mem_filterMap.mpr ⟨d, hd, if_pos hcloses⟩) fun b hb => ?_
  obtain ⟨e, he, hcycle⟩ := List.mem_filterMap.mp hb
  obtain ⟨hecloses, hbe⟩ := Option.ite_none_right_eq_some.mp hcycle
  obtain rfl := Option.some.inj hbe
  exact h e he hecloses

/-! ### The tests (R121, R122) -/

/-- A tail's reference state has standing REFERENCED (R121). -/
def tailStands (tail : Option TailParticulars) : Bool := tail.any (·.refState.isReferenced)

theorem tailStands_iff (s : State) : tailStands s.coord.tailParts = true ↔ s.tailReferenced := by
  simp [tailStands, State.tailReferenced, Option.any_eq_true, RefState.isReferenced, or_assoc]

theorem classify_live (spread : Nat) {c : Claim} (tail : Option TailParticulars) (stop : AgreedStop) (h : c.kind = .live) :
    classify spread c tail stop = (.live, .restarted) := by
  simp [classify, h]

theorem classify_noTail (spread : Nat) {c : Claim} (tail : Option TailParticulars) (stop : AgreedStop)
    (h : c.kind = .journal) (hk : c.tailKind = none) : classify spread c tail stop = (.doubtful, .noTail) := by
  simp [classify, h, hk]

section
variable {spread : Nat} {c : Claim} {k : JournalKind} {tail : Option TailParticulars} {stop : AgreedStop}
  (h : c.kind = .journal) (hk : c.tailKind = some k)
include h hk

/-- The tests of a JOURNAL claim with a tail, in their order (R121, R122). -/
theorem classify_journal : classify spread c tail stop =
    if c.continuity && tailStands tail then (.kept, .continuity)
    else if !tailStands tail then (.doubtful, .tailNotReferenced)
    else if k = .routine then (.doubtful, .routineTail)
    else if stop.run ≠ some c.tailRun then (.doubtful, .oldRun)
    else if spread < (stop.latestFinal.getD c.tailCycle - c.tailCycle).toNat then (.doubtful, .spread)
    else if !c.sectorAgree then (.doubtful, .sector)
    else (.journalled, if k = .final then .finalTail else .orderlyTail) := by
  simp only [classify, h, hk]
  cases tail <;> rfl

theorem classify_kept (hc : c.continuity = true) (ht : tailStands tail = true) :
    classify spread c tail stop = (.kept, .continuity) := by
  simp [classify_journal h hk, hc, ht]

theorem classify_notReferenced (ht : tailStands tail = false) :
    classify spread c tail stop = (.doubtful, .tailNotReferenced) := by
  simp [classify_journal h hk, ht]

variable (hc : c.continuity = false) (ht : tailStands tail = true)
include hc ht

theorem classify_routine (hr : k = .routine) : classify spread c tail stop = (.doubtful, .routineTail) := by
  simp [classify_journal h hk, hc, ht, hr]

variable (hr : k ≠ .routine)
include hr

theorem classify_oldRun (hrun : stop.run ≠ some c.tailRun) : classify spread c tail stop = (.doubtful, .oldRun) := by
  simp [classify_journal h hk, hc, ht, hr, hrun]

variable (hrun : stop.run = some c.tailRun)
include hrun

/-- A closed tail of the stop run is settled by the spread and the sector (R122). -/
theorem classify_closed : classify spread c tail stop =
    if spread < (stop.latestFinal.getD c.tailCycle - c.tailCycle).toNat then (.doubtful, .spread)
    else if !c.sectorAgree then (.doubtful, .sector)
    else (.journalled, if k = .final then .finalTail else .orderlyTail) := by
  rw [classify_journal h hk, if_neg (by simp [hc]), if_neg (by simp [ht]), if_neg hr, if_neg (not_not.mpr hrun)]

theorem classify_spread {l : BitVec 32} (hl : stop.latestFinal = some l) (hfar : spread < (l - c.tailCycle).toNat) :
    classify spread c tail stop = (.doubtful, .spread) := by
  rw [classify_closed h hk hc ht hr hrun, hl, Option.getD_some, if_pos hfar]

variable (hnear : ∀ l, stop.latestFinal = some l → (l - c.tailCycle).toNat ≤ spread)
include hnear

/-- Within the spread the sector settles the class (R122). -/
theorem classify_near : classify spread c tail stop =
    if !c.sectorAgree then (.doubtful, .sector)
    else (.journalled, if k = .final then .finalTail else .orderlyTail) := by
  rw [classify_closed h hk hc ht hr hrun]
  refine if_neg ?_
  cases hl : stop.latestFinal with
  | none => simp
  | some l => exact not_lt.mpr (hnear l hl)

theorem classify_sector (hsector : c.sectorAgree = false) : classify spread c tail stop = (.doubtful, .sector) := by
  simp [classify_near h hk hc ht hr hrun hnear, hsector]

theorem classify_journalled (hsector : c.sectorAgree = true) :
    classify spread c tail stop = (.journalled, if k = .final then .finalTail else .orderlyTail) := by
  simp [classify_near h hk hc ht hr hrun hnear, hsector]

end

/-! ### The station's classification (R118) -/

/-- The class of a claim as the station's own, with its reason (R118). -/
def State.classOf (s : State) (c : Claim) : Confidence × ClassReason :=
  classify s.cfg.pfailSpread c s.coord.tailParts s.agreedStop

/-- A classification reaches the Coordinator at the agreed stop and the class alone: DRIFT is no ABORT (R118, R124). -/
theorem reclassify_coord (s : State) {c : Claim} (h : s.coord.ownClaim = some c) : (reclassify s).coord =
    { s.coord with stop := some s.agreedStop, confidence := (s.classOf c).1, reason := some (s.classOf c).2 } := by
  simp only [reclassify, h, raiseDrift]
  split
  · rw [raiseFault_coord _ _ _ _ _ (dispositionClass_ne _)]
    rfl
  · rfl

/-- Settles O56: by the tests in their order, and by what the newest run and cycle of the claims held are. -/
theorem ownClaimIsClassified : Obligations.OwnClaimIsClassified := by
  intro s c hown
  have hcoord := reclassify_coord s hown
  obtain ⟨⟨k, r⟩, hclass⟩ : ∃ p, p = s.classOf c := ⟨_, rfl⟩
  rw [← hclass] at hcoord
  have class_is : ∀ {k' r'}, s.classOf c = (k', r') → k = k' ∧ r = r' := fun h => Prod.mk.inj (hclass.trans h)
  refine ⟨_, k, r, s.agreedStop, rfl, by rw [hcoord], rfl, by rw [hcoord], by rw [hcoord],
    fun hlive => class_is (classify_live _ _ _ hlive), fun hj hc hk ht => ?kept, fun hj hno => ⟨fun hk => ?noTail,
      fun hk ht => ?notReferenced, fun hk ht => ?routine, fun hk ht => ?closed⟩,
    stopRunOf_none _, fun d hd hkind htail h => stopRunOf_newest hd hkind htail h,
    fun d hd hcloses h => latestFinalOf_newest hd hcloses h⟩
  case kept =>
    obtain ⟨kind, hkind⟩ := Option.ne_none_iff_exists'.mp hk
    exact class_is (classify_kept hj hkind hc ((tailStands_iff s).mpr ht))
  case noTail => exact class_is (classify_noTail _ _ _ hj hk)
  case notReferenced =>
    obtain ⟨kind, hkind⟩ := Option.ne_none_iff_exists'.mp hk
    exact class_is (classify_notReferenced hj hkind (Bool.eq_false_iff.mpr fun h => ht ((tailStands_iff s).mp h)))
  case routine =>
    have hc : c.continuity = false := Bool.eq_false_iff.mpr fun h => hno ⟨h, by simp [hk], ht⟩
    exact class_is (classify_routine hj hk hc ((tailStands_iff s).mpr ht) rfl)
  case closed =>
    obtain ⟨kind, hkind, hr⟩ : ∃ kind, c.tailKind = some kind ∧ kind ≠ .routine := by
      rcases hk with hk | hk <;> exact ⟨_, hk, by decide⟩
    have hc : c.continuity = false := Bool.eq_false_iff.mpr fun h => hno ⟨h, by simp [hkind], ht⟩
    have hstands := (tailStands_iff s).mpr ht
    refine ⟨fun hrun => class_is (classify_oldRun hj hkind hc hstands hr hrun), fun hrun =>
      ⟨fun l hl hfar => class_is (classify_spread hj hkind hc hstands hr hrun hl hfar), fun hnear =>
        ⟨fun hsector => class_is (classify_sector hj hkind hc hstands hr hrun hnear hsector), fun hsector => ?_⟩⟩⟩
    obtain ⟨hclass', hreason⟩ := class_is (classify_journalled hj hkind hc hstands hr hrun hnear hsector)
    refine ⟨hclass', fun hfinal => ?_, fun horderly => ?_⟩
    · rw [hreason, if_pos (Option.some.inj (hkind.symm.trans hfinal))]
    · rw [hreason, if_neg (by simp [Option.some.inj (hkind.symm.trans horderly)])]

end Sys2Proof.Machine
end

section
/-! An accepted record at the claim set and at calibration. -/

namespace Sys2Proof.Machine

/-! ### The claim set (R117, R118) -/

/-- The own class and the agreed stop follow from the Coordinator, the configuration and the own station (R118). -/
theorem reclassify_coord_congr {x y : State} (hcoord : x.coord = y.coord) (hconfig : x.port.config = y.port.config)
    (hstation : x.link.station = y.link.station) : (reclassify x).coord = (reclassify y).coord := by
  have hcfg : x.cfg = y.cfg := by simp only [State.cfg, hconfig]
  have hown : x.own = y.own := hstation
  have hheld : x.heldClaims = y.heldClaims := by simp only [State.heldClaims, State.arm, hcoord, hcfg]
  have hstop : x.agreedStop = y.agreedStop := by
    simp only [State.agreedStop, State.stopLoad, hheld, hcoord, hcfg, hown]
  cases h : y.coord.ownClaim with
  | none =>
    simp only [reclassify, hcoord, h]
  | some c => rw [reclassify_coord x (hcoord ▸ h), reclassify_coord y h, State.classOf, State.classOf, hstop, hcfg, hcoord]

theorem reclassify_claims (s : State) : (reclassify s).coord.claims = s.coord.claims := by
  cases h : s.coord.ownClaim with
  | none => simp only [reclassify, h]
  | some c => rw [reclassify_coord s h]

theorem claimsComplete_iff (s : State) :
    s.claimsComplete = true ↔ ∀ k : Station, k.val < s.cfg.armSize → s.coord.claims.get k ≠ .empty := by
  simp only [State.claimsComplete, List.all_eq_true, mem_arm, decide_eq_true_eq]

/-- The state with a station's entry of the claim set replaced (R117). -/
def State.withClaim (s : State) (j : Station) (e : ClaimEntry) : State :=
  s.setCoord { s.coord with claims := vput s.coord.claims j e }

theorem withClaim_get_self (s : State) (j : Station) (e : ClaimEntry) : (s.withClaim j e).coord.claims.get j = e := by
  simp [State.withClaim]

theorem withClaim_get_other (s : State) {j k : Station} (e : ClaimEntry) (h : k ≠ j) :
    (s.withClaim j e).coord.claims.get k = s.coord.claims.get k := by
  simp [State.withClaim, Ne.symm h]

theorem putClaim_changed (s : State) {j : Station} {e : ClaimEntry} (h : s.coord.claims.get j ≠ e) :
    putClaim j e s = if (s.withClaim j e).claimsComplete then reclassify (s.withClaim j e) else s.withClaim j e := by
  rw [putClaim, if_neg h]
  rfl

/-- Whether the set is complete or not, the entry is the one put (R117, R118). -/
theorem putClaim_claims (s : State) {j : Station} {e : ClaimEntry} (h : s.coord.claims.get j ≠ e) :
    (putClaim j e s).coord.claims = (s.withClaim j e).coord.claims := by
  rw [putClaim_changed s h]
  split
  · exact reclassify_claims _
  · rfl

/-- A change with every other entry of the arm filled makes the station classify (R118). -/
theorem putClaim_completes (s : State) {j : Station} {e : ClaimEntry} (h : s.coord.claims.get j ≠ e) (he : e ≠ .empty)
    (hothers : ∀ k : Station, k.val < s.cfg.armSize → k ≠ j → s.coord.claims.get k ≠ .empty) :
    putClaim j e s = reclassify (s.withClaim j e) := by
  rw [putClaim_changed s h, if_pos]
  refine (claimsComplete_iff _).mpr fun k hk => ?_
  by_cases hkj : k = j
  · rw [hkj, withClaim_get_self]; exact he
  · rw [withClaim_get_other s e hkj]; exact hothers k hk hkj

/-- A change that leaves an entry of the arm empty classifies nothing (R118). -/
theorem putClaim_waits (s : State) {j : Station} {e : ClaimEntry} (h : s.coord.claims.get j ≠ e)
    (hempty : ∃ k : Station, k.val < s.cfg.armSize ∧ k ≠ j ∧ s.coord.claims.get k = .empty) :
    putClaim j e s = s.withClaim j e := by
  obtain ⟨k, hk, hkj, hnone⟩ := hempty
  rw [putClaim_changed s h, if_neg]
  exact fun hall => (claimsComplete_iff _).mp hall k hk (by rw [withClaim_get_other s e hkj, hnone])

/-- What a record can put into an entry of the claim set: its claim from a RECOVER record, MOVED_ON into an empty entry
from a RUN record in HOMING or READY (R117). -/
def StatusRecord.fills (r : StatusRecord) (old e : ClaimEntry) : Prop :=
  (∃ c, r.block = .recover c ∧ e = .held c)
  ∨ (∃ a b d f g, r.block = .run a b d f g) ∧ (r.phase = .homing ∨ r.phase = .ready) ∧ e = .movedOn ∧ old = .empty

theorem StatusRecord.fills_nonempty {r : StatusRecord} {old e : ClaimEntry} (h : r.fills old e) : e ≠ .empty := by
  rcases h with ⟨c, -, rfl⟩ | ⟨-, -, rfl, -⟩ <;> nofun

theorem claimFromPeer_fills (j : Station) (r : StatusRecord) (s : State) {e : ClaimEntry} (hp : s.coord.phase = .recovering)
    (h : r.fills (s.coord.claims.get j) e) : claimFromPeer j r s = putClaim j e s := by
  rcases h with ⟨c, hblock, rfl⟩ | ⟨⟨a, b, d, f, g, hblock⟩, hphase, rfl, hold⟩
  · have hentry : r.claimEntry = .held c := by simp [StatusRecord.claimEntry, hblock]
    simp [claimFromPeer, hp, hentry]
  · have hentry : r.claimEntry = .movedOn := by simp [StatusRecord.claimEntry, hblock, hphase]
    simp [claimFromPeer, hp, hentry, hold]

/-- A RUN record gives nothing to an entry that is filled, nor outside HOMING and READY (R117). -/
theorem claimFromPeer_run (j : Station) (r : StatusRecord) (s : State) (hrun : ∃ a b d f g, r.block = .run a b d f g)
    (h : s.coord.claims.get j ≠ .empty ∨ (r.phase ≠ .homing ∧ r.phase ≠ .ready)) : claimFromPeer j r s = s := by
  obtain ⟨a, b, d, f, g, hblock⟩ := hrun
  rcases h with hfilled | ⟨hhoming, hready⟩
  · have hentry : r.claimEntry = .movedOn ∨ r.claimEntry = .empty := by
      simp only [StatusRecord.claimEntry, hblock]
      split <;> simp
    rcases hentry with hentry | hentry <;> simp [claimFromPeer, hentry, hfilled]
  · have hentry : r.claimEntry = .empty := by simp [StatusRecord.claimEntry, hblock, hhoming, hready]
    simp [claimFromPeer, hentry]

/-! ### The state the claim set and calibration meet -/

/-- The state after the Hold Unit's parts and those of restarts (log entry 27). -/
def State.heldTaken (s : State) (j : Station) (r : StatusRecord) : State :=
  takeRestarted j r (takeRestart r (takeRetained j r (takeLockClear r (takeResume r (s.sequenced j r)))))

theorem acceptRecord_heldTaken (j : Station) (r : StatusRecord) (s : State) :
    acceptRecord j r s = settleTail r (claimFromPeer j r (s.heldTaken j r)) := acceptRecord_sequenced j r s

theorem heldTaken_keeps (s : State) (j : Station) (r : StatusRecord) :
    (s.heldTaken j r).peers = (takeEntry j r s).peers ∧ (s.heldTaken j r).link.station = s.link.station ∧
    (s.heldTaken j r).cal.committed = s.cal.committed ∧ (s.heldTaken j r).port.config = s.port.config ∧
    (s.cal.proposal = none → (s.heldTaken j r).cal.proposal = none) := by
  refine ⟨?_, ?_, ?_, ?_, fun h => ?proposal⟩
  case proposal =>
    have hsequenced : (s.sequenced j r).cal.proposal = none := by
      rw [State.sequenced, entryTest_cal]
      exact takeSequence_none j r _ h
    exact takeRestarted_none j r _ (takeRestart_none r _ (takeRetained_none j r _ (takeLockClear_none r _
      (takeResume_none r _ hsequenced))))
  all_goals simp [State.heldTaken, State.sequenced, takeEntry]

/-- In RECOVERING a record that is no news, with no lockout to clear, reaches the Coordinator by the claim set alone
(R87, R88, R164, R175, R178). -/
theorem heldTaken_recovering {s : State} {j : Station} {r : StatusRecord} (hp : s.coord.phase = .recovering)
    (hidle : r.sequenceIdle s) (hclear : r.lockClear = true → s.hold.level ≠ .lockout) :
    (s.heldTaken j r).coord = s.coord := by
  obtain ⟨y, hy⟩ : ∃ y, s.sequenced j r = y := ⟨_, rfl⟩
  obtain ⟨⟨ylevel, -⟩, -, -, ycoord, -⟩ := sequenced_idle hy hidle
  obtain ⟨z, hz⟩ : ∃ z, z = takeResume r y := ⟨_, rfl⟩
  have zcoord : z.coord = s.coord := by
    rcases takeResume_coord r y with h | ⟨h, -⟩
    · rw [hz, h, ycoord]
    · simp [ycoord, hp] at h
  have zclear : r.lockClear = true → z.hold.level ≠ .lockout := by
    intro hflag
    rcases takeResume_level r y with h | h <;> rw [hz, h]
    · rw [ylevel]; exact hclear hflag
    · decide
  obtain ⟨x, hx⟩ : ∃ x, x = takeRetained j r z := ⟨_, rfl⟩
  have xcoord : x.coord = s.coord := by rw [hx, ← zcoord]; simp
  rw [State.heldTaken, hy, ← hz, takeLockClear_id r z (fun h => .inl (zclear h)), ← hx,
    takeRestart_id r x (fun _ h => by simp [xcoord, hp] at h), takeRestarted_id j r x (fun h => by simp [xcoord, hp] at h),
    xcoord]

/-- A record that fills the sender's entry (R117, R118). -/
theorem acceptRecord_fills {s t u : State} {j : Station} {r : StatusRecord} {e : ClaimEntry} (ht : acceptRecord j r s = t)
    (hp : s.coord.phase = .recovering) (hidle : r.sequenceIdle s)
    (hclear : r.lockClear = true → s.hold.level ≠ .lockout) (hfills : r.fills (s.coord.claims.get j) e)
    (hnew : s.coord.claims.get j ≠ e) (hu : u.coord = { s.coord with claims := t.coord.claims })
    (hconfig : u.port.config = s.port.config) (hstation : u.link.station = s.link.station) :
    t.coord.claims.get j = e ∧ (∀ k, k ≠ j → t.coord.claims.get k = s.coord.claims.get k) ∧
    ((∀ k : Station, k.val < s.cfg.armSize → k ≠ j → s.coord.claims.get k ≠ .empty) → t.coord = (reclassify u).coord) ∧
    ((∃ k : Station, k.val < s.cfg.armSize ∧ k ≠ j ∧ s.coord.claims.get k = .empty) → t.coord = u.coord) := by
  obtain ⟨x, hx⟩ : ∃ x, s.heldTaken j r = x := ⟨_, rfl⟩
  have xcoord : x.coord = s.coord := hx ▸ heldTaken_recovering hp hidle hclear
  obtain ⟨-, xstation, -, xconfig, -⟩ := heldTaken_keeps s j r
  rw [hx] at xstation xconfig
  have xcfg : x.cfg = s.cfg := by simp only [State.cfg, xconfig]
  have tcoord : t.coord = (putClaim j e x).coord := by
    rw [← ht, acceptRecord_heldTaken, hx, claimFromPeer_fills j r x (xcoord ▸ hp) (xcoord ▸ hfills)]
    obtain ⟨-, -, -, hcoord, -⟩ := settleTail_keeps r (putClaim j e x)
    exact hcoord
  have xnew : x.coord.claims.get j ≠ e := xcoord ▸ hnew
  have tclaims : t.coord.claims = (x.withClaim j e).coord.claims := by rw [tcoord, putClaim_claims x xnew]
  have ucoord : u.coord = (x.withClaim j e).coord := by
    rw [hu, tclaims, State.withClaim, State.setCoord_coord, xcoord]
  refine ⟨by rw [tclaims, withClaim_get_self], fun k hk => by rw [tclaims, withClaim_get_other x e hk, xcoord],
    fun hothers => ?_, fun hempty => ?_⟩
  · rw [tcoord, putClaim_completes x xnew (StatusRecord.fills_nonempty hfills) (by rw [xcfg, xcoord]; exact hothers)]
    exact reclassify_coord_congr ucoord.symm (xconfig.trans hconfig.symm) (xstation.trans hstation.symm)
  · rw [tcoord, putClaim_waits x xnew (by rw [xcfg, xcoord]; exact hempty), ucoord]

/-- A record that fills nothing leaves the Coordinator (R117). -/
theorem acceptRecord_fillsNothing {s t : State} {j : Station} {r : StatusRecord} (ht : acceptRecord j r s = t)
    (hp : s.coord.phase = .recovering) (hidle : r.sequenceIdle s)
    (hclear : r.lockClear = true → s.hold.level ≠ .lockout)
    (h : (∃ a b d f g, r.block = .run a b d f g) ∧
        (s.coord.claims.get j ≠ .empty ∨ (r.phase ≠ .homing ∧ r.phase ≠ .ready)) ∨
      ∃ pd cd f c, r.block = .gather pd cd f c) : t.coord = s.coord := by
  obtain ⟨x, hx⟩ : ∃ x, s.heldTaken j r = x := ⟨_, rfl⟩
  have xcoord : x.coord = s.coord := hx ▸ heldTaken_recovering hp hidle hclear
  have hnothing : claimFromPeer j r x = x := by
    rcases h with ⟨hrun, hno⟩ | ⟨pd, cd, f, c, hblock⟩
    · exact claimFromPeer_run j r x hrun (xcoord ▸ hno)
    · exact claimFromPeer_gather j r x pd cd f c hblock
  obtain ⟨-, -, -, tcoord, -⟩ := settleTail_keeps r x
  rw [← ht, acceptRecord_heldTaken, hx, hnothing, tcoord, xcoord]

/-! ### The sighting (R191) -/

/-- The record of a station after an acceptance: the one accepted, or the one heard before (R67). -/
theorem takeEntry_heardRecord (j : Station) (r : StatusRecord) (s : State) (k : Station) :
    (takeEntry j r s).heardRecord k = if j = k then some r else s.heardRecord k := by
  simp only [State.heardRecord, takeEntry, State.setLink_peers, State.setPeers_peers, vput_get]
  split <;> rfl

/-- Whatever else a record brings, the sighting after it is the one its peers' records show (R191). -/
theorem acceptRecord_sighting {s t : State} {j : Station} {r : StatusRecord} (ht : acceptRecord j r s = t) (hj : j ≠ s.own) :
    t.cal.committed = s.cal.committed ∧
    (s.cal.generation ≠ 0xFFFF → r.proposal = s.cal.generation + 1 → t.cal.sighting = some (s.cal.generation + 1)) ∧
    (r.proposal ≠ s.cal.generation + 1 → s.cal.proposal = none →
      (∀ y ∈ s.peerRecords, y.1 ≠ j → y.2.proposal ≠ s.cal.generation + 1) → t.cal.sighting = none) := by
  obtain ⟨x, hx⟩ : ∃ x, x = claimFromPeer j r (s.heldTaken j r) := ⟨_, rfl⟩
  obtain ⟨kpeers, kstation, kcommitted, -, kproposal⟩ := heldTaken_keeps s j r
  have xrecords : x.peerRecords = (takeEntry j r s).peerRecords :=
    peerRecords_congr (by rw [hx]; simpa using kpeers) (by rw [hx]; simpa [takeEntry] using kstation)
  have xgeneration : x.cal.generation = s.cal.generation := by
    simp only [Cal.generation, hx, claimFromPeer_keeps, kcommitted]
  have xproposal : s.cal.proposal = none → x.cal.proposal = none := fun h => by
    rw [hx]; exact claimFromPeer_none j r _ (kproposal h)
  obtain ⟨hshown, habsent⟩ := settleTail_sighting r x
  rw [xgeneration, xrecords] at hshown habsent
  refine ⟨by simp [← ht], fun hg hprop => ?_, fun hprop hnone hothers => ?_⟩
  · rw [← ht, acceptRecord_heldTaken, ← hx]
    exact hshown hg ⟨(j, r), (takeEntry_records j r s hj _).mpr (.inl rfl), hprop⟩
  · rw [← ht, acceptRecord_heldTaken, ← hx]
    refine habsent (xproposal hnone) fun y hy => ?_
    rcases (takeEntry_records j r s hj y).mp hy with rfl | ⟨hold, hne⟩
    · exact hprop
    · exact hothers y hold hne

/-! ### Staging, the flip and the roll-forward (R193, R194, R197) -/

/-- The state `x` the calibration part of an acceptance at `s` acts on, for a record that brings nothing else. -/
structure State.MetByTail (s : State) (j : Station) (r : StatusRecord) (x : State) : Prop where
  accepts : acceptRecord j r s = settleTail r x
  cal : x.cal = s.cal
  engine : x.engine = s.engine
  sensing : x.sensing = s.sensing
  level : x.hold.level = s.hold.level
  phase : x.coord.phase = s.coord.phase
  peers : x.peers = (takeEntry j r s).peers
  station : x.link.station = s.link.station
  config : x.port.config = s.port.config
  busy : ∀ k, k ≠ .routine → k ≠ .orderly → x.store.busyWith k = s.store.busyWith k

theorem metByTail_of_idle {s : State} {j : Station} {r : StatusRecord} (hj : j ≠ s.own) (hidle : r.sequenceIdle s)
    (hflags : r.flagsIdle s) : ∃ x, s.MetByTail j r x := by
  obtain ⟨y, hy⟩ : ∃ y, s.sequenced j r = y := ⟨_, rfl⟩
  obtain ⟨hlevel, -, -, -, -, -, -, -, hengine, -, hcoord, hcal⟩ := sequenced_stays hy hj hidle.1 hidle.2.1
  obtain ⟨c, haccept, hphase⟩ := acceptRecord_flagsIdle hflags (fun h _ => by rw [hy, hlevel]; exact h)
    (.inl (by rw [hy, hcoord]))
  rw [hy] at haccept hphase
  refine ⟨y.setCoord c, haccept, hcal, hengine, ?_, hlevel, hphase.trans (by rw [hcoord]), ?_, ?_, ?_, fun k h1 h2 => ?_⟩
  · simp [← hy, State.sequenced, takeEntry]
  · simp [← hy, State.sequenced, takeEntry]
  · simp [← hy, State.sequenced, takeEntry]
  · simp [← hy, State.sequenced, takeEntry]
  · change y.store.busyWith k = _
    rw [← hy, State.sequenced, entryTest_others k _ h1 h2, takeSequence_idle j r (takeEntry j r s) hidle]
    rfl

section
variable {s x : State} {j : Station} {r : StatusRecord} (h : s.MetByTail j r x) (hj : j ≠ s.own)
include h

theorem State.MetByTail.calBusy : x.store.calBusy = s.store.calBusy := by
  simp only [Store.calBusy, h.busy, ne_eq, reduceCtorEq, not_false_eq_true]

theorem State.MetByTail.heardRecord (k : Station) : x.heardRecord k = if j = k then some r else s.heardRecord k := by
  rw [← takeEntry_heardRecord]
  simp only [State.heardRecord, h.peers]

/-- A staged record of G + 1, no failed flip, no calibration write outstanding and a phase after ISOLATED (R194, R197). -/
theorem State.MetByTail.flipReady {c : CalRecord} (hstaged : s.cal.staged = some c) (hfailed : s.cal.flipFailed = false)
    (hbusy : s.store.calBusy = false) (hp : s.coord.phase ≠ .isolated) : x.flipReady = true := by
  simp [State.flipReady, h.cal, h.calBusy, h.phase, hstaged, hfailed, hbusy, hp]

include hj

theorem State.MetByTail.mem_peerRecords (y : Station × StatusRecord) :
    y ∈ x.peerRecords ↔ y = (j, r) ∨ (y ∈ s.peerRecords ∧ y.1 ≠ j) := by
  rw [← takeEntry_records j r s hj]
  exact iff_of_eq (congrArg (y ∈ ·) (peerRecords_congr h.peers h.station))

/-- A proposal of the next generation that the record, the station or another peer shows is in sight (R191). -/
theorem State.MetByTail.sighted (hg : s.cal.generation ≠ 0xFFFF)
    (hshown : r.proposal = s.cal.generation + 1 ∨ (∃ p, s.cal.proposal = some p ∧ p.generation = s.cal.generation + 1) ∨
      ∃ y ∈ s.peerRecords, y.1 ≠ j ∧ y.2.proposal = s.cal.generation + 1) :
    x.sightingNow = some (s.cal.generation + 1) := by
  rw [← h.cal] at hg hshown ⊢
  refine sightingNow_shown hg ?_
  rcases hshown with hr | ⟨p, hp, hgen⟩ | ⟨y, hy, hne, hgen⟩
  · exact proposed_of_peer ⟨(j, r), (h.mem_peerRecords hj _).mpr (.inl rfl), hr⟩
  · simp [State.proposed, hp, hgen]
  · exact proposed_of_peer ⟨y, (h.mem_peerRecords hj y).mpr (.inr ⟨hy, hne⟩), hgen⟩

/-- With no proposal of the next generation shown by any of them none is in sight (R191). -/
theorem State.MetByTail.unsighted (hr : r.proposal ≠ s.cal.generation + 1) (hnone : s.cal.proposal = none)
    (hothers : ∀ y ∈ s.peerRecords, y.1 ≠ j → y.2.proposal ≠ s.cal.generation + 1) : x.sightingNow = none := by
  rw [← h.cal] at hr hnone hothers
  refine sightingNow_absent hnone fun y hy => ?_
  rcases (h.mem_peerRecords hj y).mp hy with rfl | ⟨hold, hne⟩
  · exact hr
  · exact hothers y hold hne

/-- The staging of a station READY at NONE, not SURVEYING and without PFAIL (R191, R193). -/
theorem State.MetByTail.stages (hg : s.cal.generation ≠ 0xFFFF) (hr : r.proposal = s.cal.generation + 1)
    (hp : s.coord.phase = .ready) (hl : s.hold.level = .none) (hsurvey : s.engine.refState ≠ .surveying)
    (hpfail : s.sensing.pfail.level = false) :
    (settleTail r x).cal.stagedInSighting = true ∧
    ((s.cal.sighting ≠ some (s.cal.generation + 1) ∨ s.cal.stagedInSighting = false) →
      (settleTail r x).store.busyWith .calStage = true) ∧
    (s.cal.sighting = some (s.cal.generation + 1) → s.cal.stagedInSighting = true →
      (settleTail r x).store.busyWith .calStage = s.store.busyWith .calStage) := by
  have hstages := settleTail_stages r x (by rw [h.cal]; exact hg)
    ⟨(j, r), (h.mem_peerRecords hj _).mpr (.inl rfl), by rw [h.cal]; exact hr⟩ (h.phase.trans hp) (h.level.trans hl)
    (by rw [h.engine]; exact hsurvey) (by rw [h.sensing]; exact hpfail)
  rwa [h.cal, h.busy .calStage (by decide) (by decide)] at hstages

/-- The flip of a station that has sealed its staged record in the sighting, the arm having staged or committed it
(R194). -/
theorem State.MetByTail.flips {c : CalRecord} (hstaged : s.cal.staged = some c)
    (hgen : c.generation = s.cal.generation + 1) (hready : x.flipReady = true) (hg : s.cal.generation ≠ 0xFFFF)
    (hsighting : s.cal.sighting = some c.generation) (hsealed : s.cal.sealedInSighting = true)
    (honce : s.cal.stagedInSighting = true)
    (hshown : r.proposal = c.generation ∨ (∃ p, s.cal.proposal = some p ∧ p.generation = c.generation) ∨
      ∃ y ∈ s.peerRecords, y.1 ≠ j ∧ y.2.proposal = c.generation)
    (hsender : r.staged = c.generation ∨ r.committed = c.generation)
    (hothers : ∀ k : Station, k.val < s.cfg.armSize → k ≠ s.own → k ≠ j →
      ∃ y, s.heardRecord k = some y ∧ (y.staged = c.generation ∨ y.committed = c.generation)) :
    (settleTail r x).store.busyWith .calFlip = true ∧
    ∀ p, (settleTail r x).cal.proposal = some p → p.flipPosted = true := by
  have hnow : x.sightingNow = some c.generation := by
    rw [hgen]
    exact h.sighted hj hg (hgen ▸ hshown)
  have hstagedGen : x.cal.stagedGeneration = c.generation := by rw [h.cal, Cal.stagedGeneration, hstaged]
  refine settleTail_flips r x c.generation (by rw [h.cal]; exact hsighting) hnow (by rw [h.cal]; exact honce) hready
    (by rw [h.cal]; exact hsealed) fun k hk hown => ?_
  rw [hstagedGen, h.heardRecord]
  have hcfg : x.cfg = s.cfg := by simp only [State.cfg, h.config]
  by_cases hkj : j = k
  · exact ⟨r, if_pos hkj, hsender⟩
  · rw [if_neg hkj]
    exact hothers k (hcfg ▸ hk) (by rw [State.own, ← h.station]; exact hown) (Ne.symm hkj)

/-- The roll-forward to a committed generation of the staged record (R197). -/
theorem State.MetByTail.rolls {c : CalRecord} (hstaged : s.cal.staged = some c)
    (hgen : c.generation = s.cal.generation + 1) (hready : x.flipReady = true) (hcommitted : r.committed = c.generation)
    (hunseen : s.coord.phase = .ready → s.hold.level = .none → r.proposal ≠ c.generation ∧ s.cal.proposal = none ∧
      ∀ y ∈ s.peerRecords, y.1 ≠ j → y.2.proposal ≠ c.generation) :
    (settleTail r x).store.busyWith .calFlip = true := by
  refine settleTail_rolls r x hready (by rw [h.cal, Cal.stagedGeneration, hstaged]; exact hcommitted) fun hp hl => ?_
  obtain ⟨hr, hnone, hothers⟩ := hunseen (h.phase ▸ hp) (h.level ▸ hl)
  exact h.unsighted hj (hgen ▸ hr) hnone (hgen ▸ hothers)

end

/-! ### The acceptance as a whole -/

/-- Settles O23: by what the record fills in the claim set, and by the calibration part of the acceptance. -/
theorem acceptedRecordActsOnClaimsAndCalibration : Obligations.AcceptedRecordActsOnClaimsAndCalibration := by
  intro dt ago bytes s r hears
  obtain ⟨l, hexec, hstation, -⟩ := exec_hears hears
  obtain ⟨-, -, hother, -⟩ := hears
  obtain ⟨u, hu⟩ : ∃ u : State, u = { s.later dt with link := l } := ⟨_, rfl⟩
  obtain ⟨t, ht⟩ : ∃ t, acceptRecord r.station r u = t := ⟨_, rfl⟩
  rw [← hu, ht] at hexec
  have hj : r.station ≠ u.own := by rw [hu, State.own]; exact hstation.symm ▸ hother
  have hrecords : u.peerRecords = s.peerRecords := by rw [hu]; exact peerRecords_congr rfl hstation
  have huidle : r.sequenceIdle s → r.sequenceIdle u := by rw [hu]; exact id
  have huflags : r.flagsIdle s → r.flagsIdle u := by rw [hu]; exact id
  have hucoord : u.coord = s.coord := by rw [hu]; rfl
  have hucal : u.cal = s.cal := by rw [hu]; rfl
  have huhold : u.hold = s.hold := by rw [hu]; rfl
  have hustore : u.store = s.store := by rw [hu]; rfl
  refine ⟨fun hp hidle hclear => ⟨fun e hfills hnew => ?fills, fun hnothing => ?nothing⟩, fun hg => ⟨fun hr => ?sighted,
    fun hr hnone hothers => ?unsighted, fun c hidle hflags hstaged hgen hfailed hbusy hp => ?flips,
    fun hidle hflags hno => ?flipless⟩⟩
  case fills =>
    obtain ⟨v, hv⟩ : ∃ v : State, v = { s with coord := { s.coord with claims := t.coord.claims } } := ⟨_, rfl⟩
    have hfilled := acceptRecord_fills (u := v) (e := e) ht (hucoord ▸ hp) (huidle hidle) (huhold ▸ hclear)
      (hucoord ▸ hfills) (hucoord ▸ hnew) (by rw [hv, hucoord]) (by rw [hu, hv]; rfl)
      (by rw [hu, hv]; exact hstation.symm)
    have hkeeps : t.standby = s.standby ∧ t.sensing = s.sensing ∧ t.mem = s.mem := by simp [← ht, hu, State.later]
    have hucfg : u.cfg = s.cfg := by rw [hu]; rfl
    rw [hucoord, hucfg] at hfilled
    obtain ⟨hself, hkept, hcomplete, hwaits⟩ := hfilled
    exact ⟨t, v, hexec, hv, hself, hkept, hcomplete, hwaits, hkeeps⟩
  case nothing =>
    refine ⟨t, hexec, (acceptRecord_fillsNothing ht (hucoord ▸ hp) (huidle hidle) (huhold ▸ hclear) ?_).trans hucoord⟩
    rw [hucoord]
    rcases hnothing with ⟨hfilled, hrun⟩ | ⟨hrun, hphase⟩ | hgather
    · exact .inl ⟨hrun, .inl hfilled⟩
    · exact .inl ⟨hrun, .inr hphase⟩
    · exact .inr hgather
  case sighted =>
    obtain ⟨hcommitted, hsighted, -⟩ := acceptRecord_sighting ht hj
    rw [hucal] at hcommitted hsighted
    refine ⟨t, hexec, hsighted hg hr, hcommitted, fun hidle hflags hp hl hsurvey hpfail => ?_⟩
    obtain ⟨x, hx⟩ := metByTail_of_idle hj (huidle hidle) (huflags hflags)
    have hstages := hx.stages hj (hucal ▸ hg) (hucal ▸ hr) (hucoord ▸ hp) (huhold ▸ hl) (by rw [hu]; exact hsurvey)
      (by rw [hu]; exact hpfail)
    rwa [← hx.accepts, ht, hucal, hustore] at hstages
  case unsighted =>
    obtain ⟨-, -, hunsighted⟩ := acceptRecord_sighting ht hj
    rw [hrecords, hucal] at hunsighted
    exact ⟨t, hexec, hunsighted hr hnone hothers⟩
  case flips =>
    obtain ⟨x, hx⟩ := metByTail_of_idle hj (huidle hidle) (huflags hflags)
    have hready := hx.flipReady (hucal ▸ hstaged) (hucal ▸ hfailed) (hustore ▸ hbusy) (hucoord ▸ hp)
    refine ⟨fun hsighting hsealed honce hshown hsender hothers => ⟨t, hexec, ?_⟩,
      fun hcommitted hunseen => ⟨t, hexec, ?_⟩⟩
    · rw [← ht, hx.accepts]
      refine hx.flips hj (hucal ▸ hstaged) (hucal ▸ hgen) hready (hucal ▸ hg) (hucal ▸ hsighting) (hucal ▸ hsealed)
        (hucal ▸ honce) (by rw [hucal, hrecords]; exact hshown) hsender fun k hk hown => ?_
      rw [hu] at hk hown ⊢
      exact hothers k hk (by rw [State.own, ← hstation]; exact hown)
    · rw [← ht, hx.accepts]
      exact hx.rolls hj (hucal ▸ hstaged) (hucal ▸ hgen) hready hcommitted
        (by rw [hucoord, huhold, hucal, hrecords]; exact hunseen)
  case flipless =>
    obtain ⟨x, hx⟩ := metByTail_of_idle hj (huidle hidle) (huflags hflags)
    refine ⟨t, hexec, ?_⟩
    rw [← ht, hx.accepts, settleTail_flipless r x (by rw [hx.cal, hx.phase, hucal, hucoord]; exact hno),
      hx.busy .calFlip (by decide) (by decide), hustore]

end Sys2Proof.Machine
end

section
/-! The requests of the plan: PLAN_STEP, PLAN_CLEAR and PLAN_SEAL. -/

namespace Sys2Proof.Machine

theorem exec_planStep (dt : Time) (p : List Byte) (s : State) (h : s.portReady = true) (hp : p.length = 20) :
    exec (.planStep dt p) s = .next (closeRequest (decidePlanStep p (s.opened dt))) :=
  congrArg Host.Outcome.next (answerRequest_taken 20 p (decidePlanStep p) dt s h hp)

theorem exec_planClear (dt : Time) (s : State) (h : s.portReady = true) :
    exec (.planClear dt []) s = .next (closeRequest (decidePlanClear (s.opened dt))) :=
  congrArg Host.Outcome.next (answerRequest_taken 0 [] decidePlanClear dt s h rfl)

theorem exec_planSeal (dt : Time) (s : State) (h : s.portReady = true) :
    exec (.planSeal dt []) s = .next (closeRequest (decidePlanSeal (s.opened dt))) :=
  congrArg Host.Outcome.next (answerRequest_taken 0 [] decidePlanSeal dt s h rfl)

/-- A step names only stations of the arm when its owner and its guards' stations are of it (R130, R131). -/
theorem inArm_iff (r : StepRecord) (n : Nat) :
    r.inArm n = true ↔ r.owner.val < n ∧ ∀ g ∈ r.guards, g.1.val < n := by
  simp [StepRecord.inArm]

/-- A step names a station outside the arm when its owner or the station of a guard is outside it (R130, R131). -/
theorem inArm_false_iff (r : StepRecord) (n : Nat) :
    r.inArm n = false ↔ n ≤ r.owner.val ∨ ∃ g ∈ r.guards, n ≤ g.1.val := by
  rw [← Bool.not_eq_true, inArm_iff, not_and_or]
  simp

/-- PLAN_STEP at a station that is not configured, with an index out of order or with a record outside its encodings
(R130). -/
theorem decidePlanStep_invalid {p : List Byte} {s : State} (hp : s.coord.phase = .isolated)
    (hs : s.plan.isSealed = false) (hroom : s.plan.steps.length < 32)
    (hbad : s.port.config = none ∨ rd p 0 1 ≠ s.plan.steps.length ∨ parseStep p = none) :
    decidePlanStep p s = .refuse .invalid s := by
  have hroom' : ¬ 32 ≤ s.plan.steps.length := Nat.not_le.mpr hroom
  rcases hbad with hbad | hbad | hbad
  · simp [decidePlanStep, hp, hs, hroom', hbad]
  · simp [decidePlanStep, hp, hs, hroom', hbad]
  · simp [decidePlanStep, hp, hs, hroom', hbad]

/-- PLAN_STEP with a record that spells a step in its order (R130). -/
theorem decidePlanStep_parsed {p : List Byte} {s : State} {r : StepRecord} {c : Configuration}
    (hp : s.coord.phase = .isolated) (hs : s.plan.isSealed = false) (hroom : s.plan.steps.length < 32)
    (hc : s.port.config = some c) (hn : rd p 0 1 = s.plan.steps.length) (hr : parseStep p = some r) :
    decidePlanStep p s = if r.inArm c.armSize then
        .ok [] (s.setPlan { s.plan with steps := s.plan.steps ++ [r] })
      else .refuse .invalid s := by
  have hroom' : ¬ 32 ≤ s.plan.steps.length := Nat.not_le.mpr hroom
  have hcfg : s.cfg = c := cfg_of_config hc
  simp [decidePlanStep, hp, hs, hroom', hc, hn, hr, hcfg]

/-- PLAN_SEAL on a plan with steps, not sealed, at a configured station (R131). -/
theorem decidePlanSeal_open {s : State} {c : Configuration} (hp : s.coord.phase = .isolated)
    (hs : s.plan.isSealed = false) (hsteps : s.plan.steps ≠ []) (hc : s.port.config = some c) :
    decidePlanSeal s = if s.plan.steps.all (fun r => r.inArm c.armSize) then
        .ok (be32 (planDigest s.plan.steps)) (s.setPlan { s.plan with
          isSealed := true, digest := some (planDigest s.plan.steps)
          table := s.plan.steps.map fun _ => ⟨.pending, c.retryLimit, none⟩ })
      else .refuse .invalid s := by
  have hcfg : s.cfg = c := cfg_of_config hc
  simp only [decidePlanSeal, hp, hs, hc, hcfg, ne_eq, not_true, if_false, List.isEmpty_eq_false_iff.mpr hsteps,
    Option.isNone_some, Bool.false_or]
  cases s.plan.steps.all fun r => r.inArm c.armSize <;> rfl

/-- Settles O11: request by request, in the order of R130 and R131. -/
theorem planIsLoadedClearedAndSealed : Obligations.PlanIsLoadedClearedAndSealed := by
  refine ⟨fun dt p s hready hlength => ?step, fun dt s hready => ?others⟩
  case step =>
    rw [exec_planStep dt p s hready hlength]
    refine ⟨fun hp => ?_, fun hp hs => ?_, fun hp hs hfull => ?_, fun hp hs hroom hbad => ?_,
      fun r c hp hs hroom hc hn hr => ?_⟩
    · rw [show decidePlanStep p (s.opened dt) = .refuse .refusedPhase (s.opened dt) by simp [decidePlanStep, hp]]
      rfl
    · rw [show decidePlanStep p (s.opened dt) = .refuse .invalid (s.opened dt) by simp [decidePlanStep, hp, hs]]
      rfl
    · rw [show decidePlanStep p (s.opened dt) = .refuse .full (s.opened dt) by simp [decidePlanStep, hp, hs, hfull]]
      rfl
    · rw [decidePlanStep_invalid (s := s.opened dt) hp hs hroom hbad]
      rfl
    · rw [decidePlanStep_parsed (s := s.opened dt) hp hs hroom hc hn hr]
      refine ⟨fun hout => ?_, fun howner hguards => ?_⟩
      · rw [(inArm_false_iff r _).mpr hout]
        rfl
      · rw [(inArm_iff r _).mpr ⟨howner, hguards⟩]
        rfl
  case others =>
    rw [exec_planClear dt s hready, exec_planSeal dt s hready]
    refine ⟨fun hp => ⟨?_, ?_⟩, fun hp => ⟨?_, fun hbad => ?_, fun c hc hs hsteps => ⟨fun hout => ?_, fun hin => ?_⟩⟩⟩
    · rw [show decidePlanClear (s.opened dt) = .refuse .refusedPhase (s.opened dt) by simp [decidePlanClear, hp]]
      rfl
    · rw [show decidePlanSeal (s.opened dt) = .refuse .refusedPhase (s.opened dt) by simp [decidePlanSeal, hp]]
      rfl
    · rw [decidePlanClear, if_neg (by simp [hp])]
      rfl
    · have hd : decidePlanSeal (s.opened dt) = .refuse .invalid (s.opened dt) := by
        rcases hbad with hbad | hbad | hbad <;> simp [decidePlanSeal, hp, hbad]
      rw [hd]
      rfl
    · obtain ⟨r, hr, hout⟩ := hout
      have hall : (s.opened dt).plan.steps.all (fun r => r.inArm c.armSize) = false :=
        List.all_eq_false.mpr ⟨r, hr, by simp [(inArm_false_iff r _).mpr hout]⟩
      rw [decidePlanSeal_open (s := s.opened dt) hp hs hsteps hc, hall]
      rfl
    · have hall : (s.opened dt).plan.steps.all (fun r => r.inArm c.armSize) = true :=
        List.all_eq_true.mpr fun r hr => (inArm_iff r _).mpr (hin r hr)
      rw [decidePlanSeal_open (s := s.opened dt) hp hs hsteps hc, hall]
      rfl

end Sys2Proof.Machine
end

section
/-! The retry timer of a step, and the time an own proposal has for its flip. -/

namespace Sys2Proof.Machine

/-! ### The retry timer (R147) -/

theorem exec_retryTimerEnd (dt : Time) (i : Fin 32) {s : State} (hr : s.running = true) :
    exec (.retryTimerEnd dt i) s = .next (if (advance dt s).retryDue i.val then
      (advance dt s).setPlan (s.plan.modifyStep i.val (StepState.become .pending)) else advance dt s) := by
  simp only [exec, execRetryTimerEnd, running_advance, hr, Bool.true_and]
  rfl

/-- A retry timer has run out when its FAILED-WAIT step's instant has come (R147). -/
theorem retryDue_failedWait {s : State} {i k : Nat} {d : Time}
    (h : s.plan.table[i]? = some ⟨.failedWait, k, some d⟩) : s.retryDue i = decide (d ≤ s.now) := by
  simp [State.retryDue, h]

/-- No step but a FAILED-WAIT one has a retry timer that runs (R147). -/
theorem retryDue_other {s : State} {i : Nat} (h : ∀ x, s.plan.table[i]? = some x → x.status ≠ .failedWait) :
    s.retryDue i = false := by
  rw [State.retryDue]
  split
  · next x hx => simp [h x hx]
  · rfl

/-! ### The end of an own proposal (R198) -/

theorem exec_proposalTimeout (dt : Time) {s : State} (hr : s.running = true) :
    exec (.proposalTimeout dt) s = .next (if (advance dt s).passed (s.cal.proposal.map fun p => p.start + proposalLimit)
      then withdrawProposal 1 (advance dt s) else advance dt s) := by
  simp only [exec, execProposalTimeout, running_advance, hr, Bool.true_and]
  rfl

/-- An own proposal whose flip is not posted ends with CAL_ABORTED (R198). -/
theorem withdrawProposal_unflipped (d : Int) {s : State} {p : Proposal} (h : s.cal.proposal = some p)
    (hflip : p.flipPosted = false) : withdrawProposal d s = endProposal (some d) s := by
  simp [withdrawProposal, h, hflip]

/-- An own proposal whose flip has been posted goes on (R198). -/
theorem withdrawProposal_flipped (d : Int) {s : State} {p : Proposal} (h : s.cal.proposal = some p)
    (hflip : p.flipPosted = true) : withdrawProposal d s = s := by
  simp [withdrawProposal, h, hflip]

/-- The state without its own proposal, before the sighting follows (R198). -/
def State.unproposed (d : Int) (s : State) : State :=
  noteFault .calAborted .note none d (s.setCal { s.cal with proposal := none })

theorem endProposal_eq (d : Int) (s : State) : endProposal (some d) s = sightingUpdate (s.unproposed d) := rfl

theorem endProposal_hasFault (d : Int) (s : State) : (endProposal (some d) s).hasFault .calAborted .note none d := by
  have hnoted : (s.unproposed d).hasFault .calAborted .note none d := noteFault_hasFault .calAborted .note none d _
  rw [endProposal_eq]
  exact hasFault_of_faults hnoted (by simp) (by simp [State.own])

/-- An update of the sighting leaves the spare slot and the pending values (R191). -/
theorem sightingUpdate_slots (s : State) : (sightingUpdate s).cal.spare = s.cal.spare ∧
    (sightingUpdate s).cal.pendTrim = s.cal.pendTrim ∧ (sightingUpdate s).cal.pendBacklash = s.cal.pendBacklash := by
  rw [sightingUpdate]
  split <;> exact ⟨rfl, rfl, rfl⟩

/-- A proposal that ends leaves the records of the store and the pending values (R198). -/
theorem endProposal_cal (d : Int) (s : State) : (endProposal (some d) s).cal.proposal = none ∧
    (endProposal (some d) s).cal.committed = s.cal.committed ∧ (endProposal (some d) s).cal.staged = s.cal.staged ∧
    (endProposal (some d) s).cal.spare = s.cal.spare ∧ (endProposal (some d) s).cal.pendTrim = s.cal.pendTrim ∧
    (endProposal (some d) s).cal.pendBacklash = s.cal.pendBacklash := by
  obtain ⟨hspare, htrim, hbacklash⟩ := sightingUpdate_slots (s.unproposed d)
  rw [endProposal_eq, hspare, htrim, hbacklash]
  simp [State.unproposed]

/-- With no own proposal, a generation in sight is one that a peer's record proposes (R191). -/
theorem sightingNow_peer {s : State} {g : BitVec 16} (hnone : s.cal.proposal = none) (h : s.sightingNow = some g) :
    ∃ x ∈ s.peerRecords, x.2.proposal = g := by
  rw [State.sightingNow] at h
  split at h
  · cases h
  · split at h
    · next hp =>
      cases h
      simpa [State.proposed, hnone] using hp
    · cases h

/-- Once the own proposal has ended, its generation is in sight only by a peer's record (R191, R198). -/
theorem endProposal_unsighted (d : Int) (s : State) (g : BitVec 16) (h : ∀ x ∈ s.peerRecords, x.2.proposal ≠ g) :
    (endProposal (some d) s).cal.sighting ≠ some g := by
  rw [endProposal_eq, sightingUpdate_sighting]
  intro hsight
  obtain ⟨x, hx, hg⟩ := sightingNow_peer (by simp [State.unproposed]) hsight
  rw [peerRecords_congr (x := s) (by simp [State.unproposed]) (by simp [State.unproposed])] at hx
  exact h x hx hg

/-- Settles O42: by whether the timer has run out, and by whether the proposal can still end. -/
theorem retryTimerAndProposalTimeout : Obligations.RetryTimerAndProposalTimeout := by
  refine ⟨fun dt i s k d hr => ?retry, fun dt s hr => ?proposal⟩
  case retry =>
    rw [exec_retryTimerEnd dt i hr]
    refine ⟨fun h hd => ?_, fun h hd => ?_, fun h => ?_⟩
    · have hdue : (advance dt s).retryDue i.val = true := by
        rw [retryDue_failedWait (s := advance dt s) h]
        exact decide_eq_true hd
      rw [if_pos hdue]
      refine ⟨s.plan.table.modify i.val (StepState.become .pending), rfl, ?_, List.length_modify .., fun j hj => ?_⟩
      · rw [List.getElem?_modify_eq, h]
        rfl
      · exact List.getElem?_modify_ne _ _ (Ne.symm hj)
    · have hdue : (advance dt s).retryDue i.val = false := by
        rw [retryDue_failedWait (s := advance dt s) h]
        exact decide_eq_false (Nat.not_le.mpr hd)
      rw [hdue]
      rfl
    · rw [retryDue_other (s := advance dt s) h]
      rfl
  case proposal =>
    rw [exec_proposalTimeout dt hr]
    refine ⟨fun hquiet => ?_, fun p hp hflip hpassed => ?_⟩
    · refine congrArg Host.Outcome.next ?_
      rcases hquiet with hnone | ⟨p, hp, hflip | hearly⟩
      · rw [hnone]
        rfl
      · rw [withdrawProposal_flipped 1 (s := advance dt s) hp hflip, ite_self]
        rfl
      · have hnot : (advance dt s).passed (s.cal.proposal.map fun p => p.start + proposalLimit) = false := by
          rw [hp]
          exact decide_eq_false (Nat.not_le.mpr hearly)
        rw [hnot]
        rfl
    · have hdue : (advance dt s).passed (s.cal.proposal.map fun p => p.start + proposalLimit) = true := by
        rw [hp]
        exact decide_eq_true hpassed
      rw [if_pos hdue, withdrawProposal_unflipped 1 (s := advance dt s) hp hflip]
      obtain ⟨hnone, hcommitted, hstaged, hspare, htrim, hbacklash⟩ := endProposal_cal 1 (advance dt s)
      exact ⟨_, rfl, hnone, endProposal_hasFault 1 _, endProposal_unsighted 1 (advance dt s) p.generation, hcommitted, hstaged, hspare,
        htrim, hbacklash, by simp⟩

end Sys2Proof.Machine
end

section
/-! What an own slot in HOMING leaves, and what of a state its plan evaluation reads. -/

namespace Sys2Proof.Machine

/-! ### The own slot in HOMING -/

/-- The own slot of this state makes a plan evaluation (R136). -/
structure State.Evaluates (s : State) : Prop where
  phase : s.coord.phase = .homing
  level : s.hold.level = .none
  sends : s.link.state = .synced ∨ s.link.state = .alone

theorem State.Evaluates.planOpen {s : State} (h : s.Evaluates) : s.planOpen = true := by
  rcases h.sends with hs | hs <;> simp [State.planOpen, LinkState.sends, h.phase, h.level, hs]

theorem State.Evaluates.of_eq {s x : State} (h : s.Evaluates) (hphase : x.coord.phase = s.coord.phase)
    (hlevel : x.hold.level = s.hold.level) (hstate : x.link.state = s.link.state) : x.Evaluates :=
  ⟨hphase.trans h.phase, hlevel.trans h.level, hstate ▸ h.sends⟩

theorem planStage_open {s : State} (f : State → State) (h : s.planOpen = true) : planStage f s = f s := if_pos h

/-- In another phase than HOMING no stage of the evaluation is taken (R136). -/
theorem planStage_otherPhase {s : State} (f : State → State) (h : s.coord.phase ≠ .homing) : planStage f s = s := by
  refine if_neg ?_
  simp [State.planOpen, h]

/-- The evaluation of HOMING after its yield test (R136). -/
theorem State.Evaluates.afterYield {s x : State} (h : s.Evaluates) (hx : yieldTest s = x) :
    slotEvaluation s = planStage endFinding (planStage grantAndScan x) := by
  rw [slotEvaluation_homing s h.phase h.planOpen, hx]

/-- The evaluation of HOMING where the station yields nothing (R136). -/
theorem State.Evaluates.unyielding {s : State} (h : s.Evaluates) (hy : yieldTest s = s) :
    slotEvaluation s = planStage endFinding (grantAndScan s) := by
  rw [h.afterYield hy, planStage_open grantAndScan h.planOpen]

/-- What the own slot leaves in `t` of the state `v` its plan evaluation ends in. -/
structure State.LeftBySlot (s v t : State) : Prop where
  ownEntry : t.peers.get s.own = ⟨.active, 0, some v.packRecord⟩
  plan : t.plan = (noteClaimSent s.claimKept v).plan
  engine : t.engine = v.engine
  gate : t.gate = v.gate
  faults : t.hold.faults = v.hold.faults
  level : t.hold.level = v.hold.level
  phase : t.coord.phase = v.coord.phase
  station : t.own = v.own
  cycle : v.link.cycle = s.link.cycle
  keeps : t.standby = s.standby ∧ t.sensing = s.sensing ∧ t.mem = s.mem

theorem ownSlot_leaves {s v : State} (h : s.Evaluates) (hv : slotEvaluation s = v) : s.LeftBySlot v (ownSlot s) := by
  have hhoming : v = planEvaluation s := by rw [← hv, slotEvaluation, h.phase]
  obtain ⟨-, hengine, hstandby, hsensing, hmem, hgate, hplan, hfaults, hlevel, -, hstation, hcoord⟩ := ownSlot_after s v hv
  refine ⟨(ownSlot_peers s v hv).1, hplan, hengine, hgate, hfaults, hlevel, by rw [hcoord], hstation, by simp [hhoming], ?_⟩
  rw [hstandby, hsensing, hmem]
  simp [hhoming]

/-! ### The claim sent cycle at the packing (R145; log entry 26) -/

/-- The packing reaches the claim sent cycle of the plan alone. -/
theorem noteClaimSent_plan (kept : Bool) (s : State) : ∃ q, (noteClaimSent kept s).plan = { s.plan with claimSent := q } ∧
    (q = s.plan.claimSent ∨ q = s.link.cycle) := by
  rw [noteClaimSent]
  split
  · exact ⟨s.link.cycle, rfl, .inr rfl⟩
  · exact ⟨s.plan.claimSent, rfl, .inl rfl⟩

/-- Without a claim no claim sent cycle is noted. -/
theorem noteClaimSent_unclaimed (kept : Bool) {s : State} (h : s.plan.claim = none) : noteClaimSent kept s = s := by
  simp [noteClaimSent, State.claimKept, h]

namespace State.LeftBySlot

variable {s v t : State} (h : s.LeftBySlot v t)
include h

/-- The packing leaves the plan but for its claim sent cycle. -/
theorem planKept : t.plan.table = v.plan.table ∧ t.plan.claim = v.plan.claim ∧ t.plan.running = v.plan.running ∧
    t.plan.yieldReturn = v.plan.yieldReturn := by
  obtain ⟨q, hq, -⟩ := noteClaimSent_plan s.claimKept v
  rw [h.plan, hq]
  exact ⟨rfl, rfl, rfl, rfl⟩

theorem status (i : Nat) : t.plan.status i = v.plan.status i := by
  rw [Plan.status, h.planKept.1, Plan.status]

/-- A slot that begins without a kept claim leaves the plan of its evaluation. -/
theorem planUnkept (hkept : s.claimKept = false) : t.plan = v.plan := by
  rw [h.plan, hkept]
  rfl

theorem planUnclaimed (hclaim : v.plan.claim = none) : t.plan = v.plan := by
  rw [h.plan, noteClaimSent_unclaimed _ hclaim]

/-- A claim with this slot's cycle as its claim sent cycle keeps it. -/
theorem claimSent (hsent : v.plan.claimSent = s.link.cycle) : t.plan.claimSent = s.link.cycle := by
  obtain ⟨q, hq, hcycle⟩ := noteClaimSent_plan s.claimKept v
  rw [h.plan, hq]
  exact hcycle.elim (·.trans hsent) (·.trans h.cycle)

theorem hasFault {code : FaultCode} {cls : FaultClass} {step : Option Nat} {d : Int} (hf : v.hasFault code cls step d) :
    t.hasFault code cls step d := hasFault_of_faults hf h.faults h.station

end State.LeftBySlot

/-! ### The status of a step whose entry of the table has changed (R128) -/

section
variable {p q : Plan} {i : Nat}

theorem Plan.table_other {f : StepState → StepState} (hq : q.table = p.table.modify i f) {j : Nat} (hj : j ≠ i) :
    q.table[j]? = p.table[j]? := by
  rw [hq, List.getElem?_modify_ne _ _ (Ne.symm hj)]

theorem Plan.status_other {f : StepState → StepState} (hq : q.table = p.table.modify i f) {j : Nat} (hj : j ≠ i) :
    q.status j = p.status j := by
  rw [Plan.status, Plan.table_other hq hj, Plan.status]

theorem Plan.status_become {st a : StepStatus} (hq : q.table = p.table.modify i (StepState.become st))
    (h : p.status i = some a) : q.status i = some st := by
  obtain ⟨x, hx, -⟩ := Option.map_eq_some_iff.mp h
  rw [Plan.status, hq, List.getElem?_modify_eq, hx]
  rfl

/-- The step of index `i` has a status DONE or SKIPPED. -/
def Plan.resolvedAt (p : Plan) (i : Nat) : Bool := (p.status i).any (·.resolved)

theorem Plan.resolvedAt_eq {st : StepStatus} (h : p.status i = some st) : p.resolvedAt i = st.resolved := by
  rw [Plan.resolvedAt, h, Option.any_some]

/-- A step that goes from one status not resolved to another leaves which steps are resolved. -/
theorem Plan.resolvedAt_become {st a : StepStatus} (hq : q.table = p.table.modify i (StepState.become st))
    (h : p.status i = some a) (ha : a.resolved = false) (hst : st.resolved = false) : q.resolvedAt = p.resolvedAt := by
  funext j
  by_cases hj : j = i
  · rw [hj, Plan.resolvedAt_eq h, Plan.resolvedAt_eq (Plan.status_become hq h), ha, hst]
  · rw [Plan.resolvedAt, Plan.resolvedAt, Plan.status_other hq hj]

end

/-! ### What an evaluation reads (R133, R134, R135) -/

theorem stepResolved_own {s : State} {r : StepRecord} (h : r.owner = s.own) :
    s.stepResolved r = s.plan.resolvedAt r.index := by
  rw [State.stepResolved, if_pos h, Plan.resolvedAt]
  cases s.plan.status r.index <;> rfl

theorem stepResolved_remote {s : State} {r : StepRecord} (h : r.owner ≠ s.own) :
    s.stepResolved r = (s.heardRecord r.owner).any (·.showsResolved r.index) := by
  rw [State.stepResolved, if_neg h]
  cases s.heardRecord r.owner <;> rfl

theorem eligible_iff (s : State) (r : StepRecord) : s.eligible r = true ↔ (∀ n ∈ r.needs, s.indexResolved n = true) ∧
    (∀ g ∈ r.guards, s.guardMet g = true) ∧ (r.noLoad = true → s.loadFlag = false) := by
  simp only [State.eligible, Bool.and_eq_true, List.all_eq_true, and_assoc]
  cases r.noLoad <;> cases s.loadFlag <;> simp

theorem eligible_false_iff (s : State) (r : StepRecord) : s.eligible r = false ↔ (∃ n ∈ r.needs, s.indexResolved n = false) ∨
    (∃ g ∈ r.guards, s.guardMet g = false) ∨ r.noLoad = true ∧ s.loadFlag = true := by
  rw [← Bool.not_eq_true, eligible_iff, not_and_or, not_and_or]
  simp

/-- An evaluation reads the same of `x` as of `s`: the steps, which are resolved, the peers, the own standing and parked
flag, and the load flag. -/
structure State.ReadsAs (x s : State) : Prop where
  steps : x.plan.steps = s.plan.steps
  resolved : x.plan.resolvedAt = s.plan.resolvedAt
  peers : x.peers = s.peers
  station : x.link.station = s.link.station
  standing : x.engine.standing = s.engine.standing
  parked : x.engine.parked = s.engine.parked
  sensing : x.sensing = s.sensing
  config : x.port.config = s.port.config

namespace State.ReadsAs

variable {x s : State} (h : x.ReadsAs s)
include h

theorem own : x.own = s.own := h.station

theorem heardRecord (j : Station) : x.heardRecord j = s.heardRecord j := by
  simp only [State.heardRecord, h.peers]

theorem stepResolved (r : StepRecord) : x.stepResolved r = s.stepResolved r := by
  by_cases hr : r.owner = s.own
  · rw [stepResolved_own hr, stepResolved_own (hr.trans h.own.symm), h.resolved]
  · rw [stepResolved_remote hr, stepResolved_remote (h.own ▸ hr), h.heardRecord]

theorem indexResolved (n : Nat) : x.indexResolved n = s.indexResolved n := by
  simp only [State.indexResolved, h.steps, h.stepResolved]

theorem guardMet (g : Station × GuardMin) : x.guardMet g = s.guardMet g := by
  simp only [State.guardMet, h.own, h.standing, h.parked, h.heardRecord]

theorem loadFlag : x.loadFlag = s.loadFlag := by
  simp only [State.loadFlag, State.cfg, h.config, h.own, h.sensing, h.heardRecord]

theorem eligible (r : StepRecord) : x.eligible r = s.eligible r := by
  rw [State.eligible, State.eligible, funext h.indexResolved, funext h.guardMet, h.loadFlag]

end State.ReadsAs

/-! ### An own step of the plan -/

/-- The plan's step of index `i` is `r`, owned by this station. -/
structure State.OwnStep (s : State) (i : Nat) (r : StepRecord) : Prop where
  step : s.plan.steps[i]? = some r
  index : r.index = i
  owner : r.owner = s.own

namespace State.OwnStep

variable {s : State} {i : Nat} {r : StepRecord} (h : s.OwnStep i r)
include h

theorem of_eq {x : State} (hsteps : x.plan.steps = s.plan.steps) (hstation : x.link.station = s.link.station) :
    x.OwnStep i r :=
  ⟨hsteps ▸ h.step, h.index, h.owner.trans hstation.symm⟩

theorem claimedStep (hclaim : s.plan.claim = some i) : s.claimedStep = some r := by
  simp only [State.claimedStep, hclaim]
  exact h.step

/-- The end finding decides nothing while the step is unresolved (R152). -/
theorem endFinding {st : StepStatus} (hst : s.plan.status i = some st) (hno : st.resolved = false) :
    planStage Machine.endFinding s = s := by
  refine planStage_id _ _ (endFinding_none s i r h.step h.index h.owner fun st' hst' => ?_)
  rw [hst] at hst'
  cases hst'
  exact hno

end State.OwnStep

/-! ### The eligibility scan (R137, R138) -/

theorem steps_split {l : List StepRecord} {i : Nat} {r : StepRecord} (h : l[i]? = some r) :
    l = l.take i ++ r :: l.drop (i + 1) := by
  obtain ⟨hi, rfl⟩ := List.getElem?_eq_some_iff.mp h
  rw [List.getElem_cons_drop, List.take_append_drop]

/-- Where each step stands at its index, those after the one of index `i` have another index. -/
theorem index_ne_of_mem_drop {l : List StepRecord} {i : Nat} (h : ∀ (k : Nat) (x : StepRecord), l[k]? = some x → x.index = k)
    {x : StepRecord} (hx : x ∈ l.drop (i + 1)) : x.index ≠ i := by
  obtain ⟨k, hk⟩ := List.getElem?_of_mem hx
  rw [List.getElem?_drop] at hk
  have := h _ x hk
  omega

/-- The scan passes over steps that are not own, not PENDING or not eligible (R137). -/
theorem scanFrom_passes (s : State) (l l' : List StepRecord)
    (h : ∀ x ∈ l, x.owner = s.own → s.plan.status x.index = some .pending → s.eligible x = false) :
    scanFrom s (l ++ l') = scanFrom s l' := by
  induction l with
  | nil => rfl
  | cons a l ih =>
    have hpassed : (decide (a.owner = s.own) && decide (s.plan.status a.index = some .pending) && s.eligible a) = false := by
      rw [Bool.eq_false_iff]
      intro hall
      simp only [Bool.and_eq_true, decide_eq_true_eq] at hall
      obtain ⟨⟨howner, hpending⟩, heligible⟩ := hall
      simp [h a List.mem_cons_self howner hpending] at heligible
    rw [List.cons_append, scanFrom, hpassed]
    exact ih fun x hx => h x (List.mem_cons_of_mem _ hx)

/-- What holds of a state and is kept where a PENDING step takes another status or is claimed holds after a scan. -/
theorem scanFrom_induct (P : State → Prop)
    (hbecome : ∀ x i st, P x → x.plan.status i = some .pending →
      P (x.setPlan (x.plan.modifyStep i (StepState.become st))))
    (hclaim : ∀ x i, P x → x.plan.status i = some .pending → P (claimStep i x))
    (l : List StepRecord) (s : State) (h : P s) : P (scanFrom s l) := by
  induction l generalizing s with
  | nil => exact h
  | cons a l ih =>
    rw [scanFrom]
    split
    · next hall =>
      simp only [Bool.and_eq_true, decide_eq_true_eq] at hall
      obtain ⟨⟨-, hpending⟩, -⟩ := hall
      split
      · exact hclaim s _ h hpending
      · exact ih _ (hbecome s _ _ h hpending)
      · exact ih _ h
    · exact ih _ h

/-- A scan leaves a resolved step and does not claim it (R137, R138). -/
theorem scanFrom_leavesResolved {i : Nat} {st : StepStatus} (l : List StepRecord) (s : State) (h : s.isResolved i st)
    (hc : s.plan.claim ≠ some i) : (scanFrom s l).isResolved i st ∧ (scanFrom s l).plan.claim ≠ some i := by
  have hother : ∀ (x : State) (j : Nat), x.isResolved i st → x.plan.status j = some .pending → i ≠ j := by
    rintro x j ⟨hx, hr⟩ hj rfl
    rw [hx] at hj
    cases hj
    cases hr
  refine scanFrom_induct (fun x => x.isResolved i st ∧ x.plan.claim ≠ some i) ?_ ?_ l s ⟨h, hc⟩
  · rintro x j st' ⟨hx, hxc⟩ hj
    exact ⟨⟨(Plan.status_other rfl (hother x j hx hj)).trans hx.1, hx.2⟩, hxc⟩
  · rintro x j ⟨hx, hxc⟩ hj
    have hij := hother x j hx hj
    exact ⟨⟨(Plan.status_other rfl hij).trans hx.1, hx.2⟩, fun heq => hij (Option.some.inj heq).symm⟩

theorem planScan_unclaimed {s : State} (h : s.plan.claim = none) : planScan s = scanFrom s s.plan.steps := by
  simp [planScan, h]

theorem planScan_claimed {s : State} {i : Nat} (h : s.plan.claim = some i) : planScan s = s := by
  simp [planScan, h]

theorem grantAndScan_unclaimed {s : State} (h : s.plan.claim = none) : grantAndScan s = scanFrom s s.plan.steps := by
  simp only [grantAndScan, State.claimedStep, h, planScan_unclaimed h]

theorem yieldTest_unclaimed {s : State} (h : s.plan.claim = none) : yieldTest s = s := by
  simp only [yieldTest, State.claimedStep, h]

/-- The evaluation of HOMING with no own step CLAIMING or RUNNING: the scan and the end finding (R136). -/
theorem State.Evaluates.unclaimed {s : State} (h : s.Evaluates) (hc : s.plan.claim = none) :
    slotEvaluation s = planStage Machine.endFinding (scanFrom s s.plan.steps) := by
  rw [h.unyielding (yieldTest_unclaimed hc), grantAndScan_unclaimed hc]

/-! ### The end finding (R152) -/

/-- An unresolved step keeps the end finding from a decision (R152). -/
theorem endFinding_unresolved {s : State} {r : StepRecord} (hr : r ∈ s.plan.steps) (h : s.stepResolved r = false) :
    endFinding s = s := by
  have hall : s.plan.steps.all s.stepResolved = false := List.all_eq_false.mpr ⟨r, hr, by simp [h]⟩
  simp only [endFinding, hall, Bool.false_and, Bool.false_eq_true, if_false]

/-- An entry of the arm that is not ACTIVE keeps the end finding from a decision (R152). -/
theorem endFinding_unheard {s : State} {j : Station} (hj : j.val < s.cfg.armSize) (h : s.armState j = none) :
    endFinding s = s := by
  have hall : (s.arm.all fun j => (s.armState j).isSome) = false :=
    List.all_eq_false.mpr ⟨j, (mem_arm s j).mpr hj, by simp [h]⟩
  simp only [endFinding, hall, Bool.and_false, Bool.false_eq_true, if_false]

/-- With every step resolved and every entry of the arm ACTIVE the end finding decides (R152). -/
theorem endFinding_decides {s : State} (hsteps : ∀ x ∈ s.plan.steps, s.stepResolved x = true)
    (hheard : ∀ j : Station, j.val < s.cfg.armSize → s.armState j ≠ none) :
    (s.plan.steps.all s.stepResolved && s.arm.all fun j => (s.armState j).isSome) = true := by
  rw [Bool.and_eq_true, List.all_eq_true, List.all_eq_true]
  refine ⟨hsteps, fun j hj => ?_⟩
  exact Option.isSome_iff_ne_none.mpr (hheard j ((mem_arm s j).mp hj))

theorem endFinding_ready {s : State} (hsteps : ∀ x ∈ s.plan.steps, s.stepResolved x = true)
    (harm : ∀ j : Station, j.val < s.cfg.armSize → s.armState j = some .referenced) :
    endFinding s = stageTest (setPhase .ready s) := by
  have hall := endFinding_decides hsteps fun j hj => by simp [harm j hj]
  have hnone : (s.arm.find? fun j => decide (s.armState j ≠ some .referenced)) = none := by
    rw [List.find?_eq_none]
    intro j hj
    simp [harm j ((mem_arm s j).mp hj)]
  simp only [endFinding, hall, if_true, hnone]

/-- The lowest station of the arm that has a property is the first of the arm in the order of its numbers. -/
theorem find?_arm {s : State} {p : Station → Bool} {j : Station} (hj : j.val < s.cfg.armSize) (hp : p j = true)
    (hlow : ∀ k : Station, k.val < j.val → p k = false) : s.arm.find? p = some j := by
  have hsplit : ∀ j : Station, stations = stations.take j.val ++ j :: stations.drop (j.val + 1) := by decide
  have hbelow : ∀ j k : Station, k ∈ stations.take j.val → k.val < j.val := by decide
  rw [State.arm, List.find?_filter, List.find?_eq_some_iff_append]
  exact ⟨by simp [hp, hj], _, _, hsplit j, fun k hk => by simp [hlow k (hbelow j k hk)]⟩

theorem endFinding_incomplete {s : State} {j : Station} (hsteps : ∀ x ∈ s.plan.steps, s.stepResolved x = true)
    (hheard : ∀ k : Station, k.val < s.cfg.armSize → s.armState k ≠ none) (hj : j.val < s.cfg.armSize)
    (hno : s.armState j ≠ some .referenced) (hlow : ∀ k : Station, k.val < j.val → s.armState k = some .referenced) :
    endFinding s = raiseAbort .planIncomplete (j.val : Int) s := by
  have hfirst : (s.arm.find? fun j => decide (s.armState j ≠ some .referenced)) = some j :=
    find?_arm hj (by simp [hno]) fun k hk => by simp [hlow k hk]
  simp only [endFinding, endFinding_decides hsteps hheard, if_true, hfirst]

/-- What the end finding can do: nothing, READY, or PLAN_INCOMPLETE (R152). -/
theorem endFinding_cases (s : State) : endFinding s = s ∨ endFinding s = stageTest (setPhase .ready s) ∨
    ∃ j : Station, endFinding s = raiseAbort .planIncomplete (j.val : Int) s := by
  rw [endFinding]
  split
  · split
    · exact .inr (.inl rfl)
    · next j _ => exact .inr (.inr ⟨j, rfl⟩)
  · exact .inl rfl

/-- READY from HOMING: the gate is OPEN, and the plan and the engine stand (R84, R152, R166). -/
theorem setPhase_ready_homing {s : State} (h : s.Evaluates) : (setPhase .ready s).coord.phase = .ready ∧
    (setPhase .ready s).plan = s.plan ∧ (setPhase .ready s).gate = .opened := by
  have hparts := setPhase_plain .ready s (by simp [h.phase]) (by simp [h.phase]) (by decide) (by decide)
  refine ⟨by rw [setPhase_coord .ready s (by simp [h.phase])], by simp [hparts], ?_⟩
  rw [hparts]
  refine gateUpdate_permitted _ ?_
  simp [State.permitted, State.moveRequested, h.level]

/-- The end finding leaves the plan, or abandons it (R150, R152). -/
theorem endFinding_plan {s : State} (h : s.Evaluates) : (endFinding s).plan = s.plan ∨
    (endFinding s).plan.running = false ∧ (endFinding s).plan.claim = none := by
  rcases endFinding_cases s with hsame | hready | ⟨j, habort⟩
  · exact .inl (congrArg State.plan hsame)
  · rw [hready]
    have hplan := (setPhase_ready_homing h).2.1
    exact .inl (by simpa using hplan)
  · obtain ⟨x, hcoord, hhalted, -⟩ := raiseAbort_halts .planIncomplete (j.val : Int) s (.inr (.inr (.inl h.phase)))
    obtain ⟨-, hrunning, hclaim⟩ := setPhase_halted x (by simp [hcoord, h.phase])
    rw [habort, hhalted]
    exact .inr ⟨hrunning, hclaim⟩

/-- The entry of a hold leaves an engine without an operation, but for its order (R45, R161). -/
theorem beginEntry_idle {s : State} (h : s.engine.operation = .none) : (beginEntry s).engine.operation = .none ∧
    (beginEntry s).engine.parked = s.engine.parked := by
  have hreach : ∀ x : State, x.engine.operation = .none → (holdReaches x).engine = x.engine := fun x hx => by
    have hidle : engineHold x = x := by simp only [engineHold, hx]
    simp [holdReaches, hidle]
  simp only [beginEntry, entryTest_keeps]
  rw [hreach _ (by simpa [writeOrder_engine] using h)]
  simp [writeOrder_engine, h]

/-- The end finding leaves an engine without an operation, but for its order (R152). -/
theorem endFinding_idle {s : State} (hl : s.hold.level = .none) (h : s.engine.operation = .none) :
    (endFinding s).engine.operation = .none ∧ (endFinding s).engine.parked = s.engine.parked := by
  rcases endFinding_cases s with hsame | hready | ⟨j, habort⟩
  · rw [hsame]
    exact ⟨h, rfl⟩
  · rw [hready]
    simp [h]
  · have hraise : raiseAbort .planIncomplete (j.val : Int) s = haltPhase (beginEntry
        (noteFault .planIncomplete .abort none (j.val : Int) (newHold .stop (FaultCode.byte .planIncomplete) s))) := by
      simp only [raiseAbort, raiseFault, hl, if_true]
    have hhalt : ∀ x : State, (haltPhase x).engine = x.engine := fun x => by simp
    rw [habort, hraise, hhalt]
    have hidle := beginEntry_idle (s := noteFault .planIncomplete .abort none (j.val : Int)
      (newHold .stop (FaultCode.byte .planIncomplete) s)) (by simpa [newHold] using h)
    simpa [newHold] using hidle

/-- The end finding leaves a resolved step (R152). -/
theorem planStage_endFinding_resolved {s : State} {i : Nat} {st : StepStatus} (h : s.isResolved i st) :
    (planStage endFinding s).isResolved i st := by
  by_cases hp : s.coord.phase = .homing
  · rw [planStage]
    split
    · exact endFinding_resolved i st s hp h
    · exact h
  · rwa [planStage_otherPhase _ hp]

end Sys2Proof.Machine
end

section
/-! A step that runs at the own slot: it goes on, or it yields. -/

namespace Sys2Proof.Machine

/-! ### The yield test (R144) -/

theorem mustYield_iff (s : State) (i : Nat) : s.mustYield i = true ↔ s.cfg.concurrency < s.runningPeers.length + 1 ∧
    ∀ y ∈ s.runningPeers, ∀ q, y.claim = some q → q.toNat < i := by
  simp only [State.mustYield, Bool.and_eq_true, decide_eq_true_eq, List.all_eq_true]
  refine and_congr_right fun _ => forall₂_congr fun y _ => ?_
  cases y.claim <;> simp

/-- A running step goes on while CONCURRENCY allows it, or while a running peer claims no lower step (R144). -/
theorem mustYield_false {s : State} {i : Nat} (h : s.runningPeers.length + 1 ≤ s.cfg.concurrency ∨
    ∃ y ∈ s.runningPeers, ∃ q, y.claim = some q ∧ i ≤ q.toNat) : s.mustYield i = false := by
  rw [Bool.eq_false_iff, Ne, mustYield_iff]
  rintro ⟨hmany, hlower⟩
  rcases h with h | ⟨y, hy, q, hq, hi⟩
  · omega
  · have := hlower y hy q hq
    omega

/-- A station whose own step does not run yields nothing (R144). -/
theorem yieldTest_notRunning {s : State} (h : s.plan.running = false) : yieldTest s = s := by
  rw [yieldTest]
  split
  · rfl
  · simp [h]

/-- The state with YIELDED noted and yield return true, the operation withdrawn with its order (R144). -/
def State.yielding (s : State) (i : Nat) (o : Operation) (q : OrderReason) : State :=
  engineWrite (.stop q) ((noteYield i s).setEngine { s.engine with operation := o })

@[simp] theorem State.yielding_keeps (s : State) (i : Nat) (o : Operation) (q : OrderReason) :
    (s.yielding i o q).plan = { s.plan with yieldReturn := true } ∧ (s.yielding i o q).still = s.still ∧
    (s.yielding i o q).engine = { s.engine with
      operation := o, order := if s.engine.order.reason = some .hold then s.engine.order else .stop q } ∧
    (s.yielding i o q).standby = s.standby ∧ (s.yielding i o q).sensing = s.sensing ∧ (s.yielding i o q).mem = s.mem ∧
    (s.yielding i o q).peers = s.peers ∧ (s.yielding i o q).coord = s.coord ∧
    (s.yielding i o q).hold.level = s.hold.level ∧ (s.yielding i o q).link.state = s.link.state ∧
    (s.yielding i o q).link.station = s.link.station ∧ (s.yielding i o q).port.config = s.port.config := by
  refine ⟨by simp [State.yielding, noteYield], by simp [State.yielding, State.still], engineWrite_engine _ _, ?_⟩
  simp [State.yielding]

theorem yielding_hasFault (s : State) (i : Nat) (o : Operation) (q : OrderReason) :
    (s.yielding i o q).hasFault .yielded .note (some i) ((s.runningPeers.length + 1 : Nat) : Int) := by
  have hnoted := noteFault_hasFault .yielded .note (some i) ((s.runningPeers.length + 1 : Nat) : Int) s
  exact hasFault_of_faults hnoted (by simp [State.yielding, noteYield]) (by simp [State.yielding, State.own])

/-- The standing of a seek is that of the state it returns to (R20, R39). -/
theorem standing_seek {e : Engine} {k : SeekContext} (ho : e.operation = .seek k) (hs : e.refState = .seeking)
    (x : MotionOrder) : ({ e with refState := k.entry.state, operation := .none, order := x } : Engine).standing =
      e.standing := by
  simp only [Engine.standing, hs, ho]
  cases k.entry <;> rfl

/-- An end of a park leaves the standing (R20). -/
theorem standing_park {e : Engine} {p : ParkOperation} (ho : e.operation = .park p) (x : MotionOrder) :
    ({ e with refState := e.refState, operation := .none, order := x } : Engine).standing = e.standing := by
  simp only [Engine.standing, ho]

/-- The state with its operation over and its record NONE unless it holds reason HOLD (R39, R144). -/
def State.operationOver (s : State) (state : RefState) : State :=
  engineWrite .none (s.setEngine { s.engine with refState := state, operation := .none })

section
variable {s : State} {i : Nat} {r : StepRecord} (h : s.OwnStep i r) (hclaim : s.plan.claim = some i)
include h hclaim

/-- A station that need not yield goes on (R144). -/
theorem yieldTest_goesOn (hno : s.mustYield i = false) : yieldTest s = s := by
  simp only [yieldTest, h.claimedStep hclaim, h.index, hno, Bool.and_false, Bool.false_eq_true, if_false]

variable (hrun : s.plan.running = true) (hnot : s.plan.yieldReturn = false) (hmust : s.mustYield i = true)
include hrun hnot hmust

/-- A seek of the step that must yield gets end cause HOLD, and returns at once at standstill (R39, R144). -/
theorem yieldTest_seek {c : SeekContext} (ho : s.engine.operation = .seek c) (hs : s.engine.refState = .seeking)
    (hc : c.endCause = none) (hstep : c.step = some i) (hd : s.plan.demote = false ∨ s.still = false) :
    yieldTest s = if s.still = true then planHeld (some i)
        ((s.yielding i (.seek (c.ended .hold 0)) .seek).operationOver c.entry.state)
      else s.yielding i (.seek (c.ended .hold 0)) .seek := by
  have hended : yieldTest s = endSeek c .hold 0 (noteYield i s) := by
    simp only [yieldTest, h.claimedStep hclaim, h.index, hrun, hnot, hmust, ho, hs, hc, hstep, Bool.not_false,
      Bool.and_self, and_self, if_true]
  have hstill : (noteYield i s).still = s.still := by simp [State.still]
  have hending : (noteYield i s).seekEnding c .hold 0 = s.yielding i (.seek (c.ended .hold 0)) .seek := by
    have hengine : (noteYield i s).engine = s.engine := by simp
    rw [State.seekEnding, hengine]
    rfl
  rw [hended, endSeek_eq, hstill, hending]
  split
  · next hat =>
    have hdemote : s.plan.demote = false := hd.resolve_right (by simp [hat])
    rw [seekReturn_held _ _ _ (.inr rfl), seekFinish, (operationEnded_spec _).2 (by simp [hdemote])]
    exact congrArg (fun step => planHeld step _) hstep
  · rfl

/-- A park of the step that must yield is withdrawn, and ends at once at standstill (R144). -/
theorem yieldTest_park {p : ParkOperation} (ho : s.engine.operation = .park p) (hw : p.withdrawn = false)
    (hstep : p.step = some i) :
    yieldTest s = if s.still = true then planHeld (some i)
        ((s.yielding i (.park { p with withdrawn := true }) .park).operationOver s.engine.refState)
      else s.yielding i (.park { p with withdrawn := true }) .park := by
  have hwithdrawn : yieldTest s = withdrawPark p (noteYield i s) := by
    simp only [yieldTest, h.claimedStep hclaim, h.index, hrun, hnot, hmust, ho, hw, hstep, Bool.not_false,
      Bool.and_self, and_self, if_true]
  have hengine : (noteYield i s).engine = s.engine := by simp
  obtain ⟨-, hstill, hyielding, -⟩ := s.yielding_keeps i (.park { p with withdrawn := true }) .park
  have hstate : (s.yielding i (.park { p with withdrawn := true }) .park).engine.refState = s.engine.refState := by
    rw [hyielding]
  rw [hwithdrawn, withdrawPark, hengine, ← hstill, ← hstate, ← hstep]
  rfl

/-- What the operation of a step that must yield becomes, and the state its end returns to (R39, R144). -/
theorem yieldTest_withdraws (hop : (∃ k, s.engine.operation = .seek k ∧ s.engine.refState = .seeking ∧ k.endCause = none ∧
      k.step = some i) ∨ ∃ p, s.engine.operation = .park p ∧ p.withdrawn = false ∧ p.step = some i)
    (hd : s.plan.demote = false ∨ s.still = false) : ∃ o q state, q ≠ OrderReason.hold ∧
      yieldTest s = (if s.still = true then planHeld (some i) ((s.yielding i o q).operationOver state)
        else s.yielding i o q) ∧
      (∀ x, ({ s.engine with refState := state, operation := .none, order := x } : Engine).standing = s.engine.standing) ∧
      (∀ k, s.engine.operation = .seek k →
        o = .seek { k with endCause := some .hold, endDetail := 0 } ∧ q = .seek ∧ state = k.entry.state) ∧
      ∀ p, s.engine.operation = .park p →
        o = .park { p with withdrawn := true } ∧ q = .park ∧ state = s.engine.refState := by
  rcases hop with ⟨k, ho, hs, hend, hstep⟩ | ⟨p, ho, hw, hstep⟩
  · refine ⟨_, _, _, by decide, yieldTest_seek h hclaim hrun hnot hmust ho hs hend hstep hd, standing_seek ho hs,
      fun k' hk' => ?_, fun p hp => absurd (ho.symm.trans hp) (by simp)⟩
    cases ho.symm.trans hk'
    exact ⟨rfl, rfl, rfl⟩
  · refine ⟨_, _, _, by decide, yieldTest_park h hclaim hrun hnot hmust ho hw hstep, standing_park ho,
      fun k hk => absurd (ho.symm.trans hk) (by simp), fun p' hp' => ?_⟩
    cases ho.symm.trans hp'
    exact ⟨rfl, rfl, rfl⟩

end

/-! ### What follows the yield test (R136, R140) -/

/-- A CLAIMING step that stays eligible and whose claim is not heard yet, or not granted, waits (R140, R141). -/
theorem State.OwnStep.waits {s : State} {i : Nat} {r : StepRecord} (h : s.OwnStep i r) (hclaim : s.plan.claim = some i)
    (hst : s.plan.status i = some .claiming) (happlies : r.appliesTo s.engine.standing = true)
    (heligible : s.eligible r = true) (hno : s.claimHeard = false ∨ s.granted i = false) : grantAndScan s = s := by
  have hnot : (s.claimHeard && s.granted i) = false := by rcases hno with hno | hno <;> simp [hno]
  simp only [grantAndScan, h.claimedStep hclaim, h.index, hst, if_true, grantTest, happlies, heligible, hnot,
    Bool.not_true, Bool.false_eq_true, if_false]

theorem claimHeard_unsent {s : State} (h : s.plan.claimSent = none) : s.claimHeard = false := by
  rw [State.claimHeard, h]
  cases s.link.cycle <;> rfl

/-- A step that yields at standstill is CLAIMING again, its claim kept and its claim sent cycle empty (R145). -/
def State.yielded (s : State) (i : Nat) : State :=
  gateUpdate (s.setPlan { s.plan.modifyStep i (StepState.become .claiming) with
    running := false, claimSent := none, yieldReturn := false })

theorem planHeld_yielded {s : State} {i : Nat} (hst : s.plan.status i = some .running) (hy : s.plan.yieldReturn = true)
    (hl : s.hold.level = .none) : planHeld (some i) s = s.yielded i := by
  simp only [planHeld, hst, hy, hl, decide_true, Bool.and_self, if_true]
  rfl

/-- The state a yield at standstill ends in: the operation over, its step CLAIMING again (R144, R145). -/
def State.yieldOver (s : State) (i : Nat) (o : Operation) (q : OrderReason) (state : RefState) : State :=
  ((s.yielding i o q).operationOver state).yielded i

@[simp] theorem State.yieldOver_keeps (s : State) (i : Nat) (o : Operation) (q : OrderReason) (state : RefState) :
    (s.yieldOver i o q state).plan = { s.plan.modifyStep i (StepState.become .claiming) with
      running := false, claimSent := none, yieldReturn := false } ∧
    (s.yieldOver i o q state).standby = s.standby ∧ (s.yieldOver i o q state).sensing = s.sensing ∧
    (s.yieldOver i o q state).mem = s.mem ∧ (s.yieldOver i o q state).peers = s.peers ∧
    (s.yieldOver i o q state).coord = s.coord ∧ (s.yieldOver i o q state).hold.level = s.hold.level ∧
    (s.yieldOver i o q state).link.state = s.link.state ∧ (s.yieldOver i o q state).link.station = s.link.station ∧
    (s.yieldOver i o q state).port.config = s.port.config := by
  simp [State.yieldOver, State.operationOver, State.yielded, Plan.modifyStep]

/-- The engine after a yield at standstill, its record NONE unless it holds reason HOLD (R39, R144). -/
theorem yieldOver_engine (s : State) (i : Nat) (o : Operation) {q : OrderReason} (hq : q ≠ .hold) (state : RefState) :
    (s.yieldOver i o q state).engine = { s.engine with
      refState := state, operation := .none
      order := if s.engine.order.reason = some .hold then s.engine.order else .none } := by
  obtain ⟨-, -, hyielding, -⟩ := s.yielding_keeps i o q
  have hover : (s.yieldOver i o q state).engine = ((s.yielding i o q).operationOver state).engine := by
    simp [State.yieldOver, State.yielded]
  rw [hover, State.operationOver, engineWrite_engine, hyielding]
  by_cases hh : s.engine.order.reason = some .hold
  · simp only [State.setEngine_engine, if_pos hh]
  · have hstop : (MotionOrder.stop q).reason ≠ some .hold := fun h => hq (Option.some.inj h)
    simp only [State.setEngine_engine, if_neg hh, if_neg hstop]

theorem yieldOver_hasFault (s : State) (i : Nat) (o : Operation) (q : OrderReason) (state : RefState) :
    (s.yieldOver i o q state).hasFault .yielded .note (some i) ((s.runningPeers.length + 1 : Nat) : Int) :=
  hasFault_of_faults (yielding_hasFault s i o q)
    (by simp [State.yieldOver, State.operationOver, State.yielded])
    (by simp [State.yieldOver, State.operationOver, State.yielded, State.own])

/-! ### The own slot of a station whose step runs -/

theorem claimKept_running {s : State} (h : s.plan.running = true) : s.claimKept = false := by
  simp [State.claimKept, h]

section
variable {s : State} {i : Nat} {r : StepRecord} (he : s.Evaluates) (h : s.OwnStep i r) (hclaim : s.plan.claim = some i)
  (hst : s.plan.status i = some .running) (hrun : s.plan.running = true)
include he h hclaim hst hrun

/-- A step that runs on: nothing of the plan or the engine changes (R144). -/
theorem ownSlot_goesOn (hno : s.mustYield i = false) : s.LeftBySlot s (ownSlot s) ∧ (ownSlot s).plan = s.plan := by
  have heval : slotEvaluation s = s := by
    rw [he.afterYield (yieldTest_goesOn h hclaim hno), running_waits s i r hclaim h.step h.index h.owner hst]
  have hleft := ownSlot_leaves he heval
  exact ⟨hleft, hleft.planUnkept (claimKept_running hrun)⟩

variable {o : Operation} {q : OrderReason}

/-- A yield in motion: the step runs on until the standstill (R144). -/
theorem ownSlot_yieldsMoving (hy : yieldTest s = s.yielding i o q) :
    s.LeftBySlot (s.yielding i o q) (ownSlot s) ∧ (ownSlot s).plan = { s.plan with yieldReturn := true } ∧
    (ownSlot s).engine = { s.engine with
      operation := o, order := if s.engine.order.reason = some .hold then s.engine.order else .stop q } ∧
    (ownSlot s).coord.phase = .homing := by
  obtain ⟨hplan, -, hengine, -, -, -, -, hcoord, -, -, hstation, -⟩ := s.yielding_keeps i o q
  have hown : (s.yielding i o q).OwnStep i r := h.of_eq (by rw [hplan]) hstation
  have heval : slotEvaluation s = s.yielding i o q := by
    rw [he.afterYield hy]
    exact running_waits _ i r (by rw [hplan]; exact hclaim) hown.step hown.index hown.owner (by rw [hplan]; exact hst)
  have hleft := ownSlot_leaves he heval
  exact ⟨hleft, (hleft.planUnkept (claimKept_running hrun)).trans hplan, hleft.engine.trans hengine,
    hleft.phase.trans (hcoord ▸ he.phase)⟩

/-- A yield at standstill: the step is CLAIMING again, and is granted at a later own slot only (R144, R145). -/
theorem ownSlot_yieldsStanding (hq : q ≠ .hold) {state : RefState}
    (hy : yieldTest s = planHeld (some i) ((s.yielding i o q).operationOver state))
    (hstanding : ∀ x, ({ s.engine with refState := state, operation := .none, order := x } : Engine).standing =
      s.engine.standing)
    (happlies : r.appliesTo s.engine.standing = true) (heligible : s.eligible r = true) :
    s.LeftBySlot (s.yieldOver i o q state) (ownSlot s) ∧ (ownSlot s).plan =
      { s.plan.modifyStep i (StepState.become .claiming) with
        running := false, claimSent := none, yieldReturn := false } ∧
    (ownSlot s).engine = { s.engine with
      refState := state, operation := .none
      order := if s.engine.order.reason = some .hold then s.engine.order else .none } ∧
    (ownSlot s).coord.phase = .homing := by
  obtain ⟨hplan, -, hsensing, -, hpeers, hcoord, -, -, hstation, hconfig⟩ := s.yieldOver_keeps i o q state
  have hengine := yieldOver_engine s i o hq state
  have hclaiming : (s.yieldOver i o q state).plan.status i = some .claiming := by
    rw [hplan]
    exact Plan.status_become rfl hst
  have hreads : (s.yieldOver i o q state).ReadsAs s :=
    { steps := by rw [hplan]; rfl
      resolved := by rw [hplan]; exact Plan.resolvedAt_become rfl hst rfl rfl
      peers := hpeers
      station := hstation
      standing := by rw [hengine]; exact hstanding _
      parked := by rw [hengine]
      sensing := hsensing
      config := hconfig }
  have hown : (s.yieldOver i o q state).OwnStep i r := h.of_eq hreads.steps hstation
  have hheld : yieldTest s = s.yieldOver i o q state := by
    have hover : ((s.yielding i o q).operationOver state).plan = { s.plan with yieldReturn := true } := by
      simp [State.operationOver]
    rw [hy]
    refine planHeld_yielded ?_ ?_ ?_
    · rw [hover]
      exact hst
    · rw [hover]
    · simpa [State.operationOver] using he.level
  have hwaits : grantAndScan (s.yieldOver i o q state) = s.yieldOver i o q state :=
    hown.waits (by rw [hplan]; exact hclaim) hclaiming (by rw [hreads.standing]; exact happlies)
      (by rw [hreads.eligible]; exact heligible) (.inl (claimHeard_unsent (by rw [hplan])))
  have heval : slotEvaluation s = s.yieldOver i o q state := by
    rw [he.afterYield hheld, planStage_id _ _ hwaits, hown.endFinding hclaiming rfl]
  have hleft := ownSlot_leaves he heval
  exact ⟨hleft, (hleft.planUnkept (claimKept_running hrun)).trans hplan, hleft.engine.trans hengine,
    hleft.phase.trans (hcoord ▸ he.phase)⟩

end

end Sys2Proof.Machine
end

section
/-! The scan and the end of HOMING at an own slot with no own step CLAIMING or RUNNING. -/

namespace Sys2Proof.Machine

/-! ### What a scan deals an eligible step (R138) -/

theorem dealWith_skips {s : State} {r : StepRecord} (h : r.appliesTo s.engine.standing = false) :
    s.dealWith r = some .skipped := by
  simp [State.dealWith, h]

theorem dealWith_claims {s : State} {r : StepRecord} (h : r.appliesTo s.engine.standing = true) (ha : r.action ≠ .waitAll) :
    s.dealWith r = some .claiming := by
  simp [State.dealWith, h, ha]

/-- A WAIT_ALL is DONE when every lower step is resolved (R138). -/
theorem dealWith_waitAll {s : State} {r : StepRecord} (h : r.appliesTo s.engine.standing = true) (ha : r.action = .waitAll) :
    s.dealWith r = if (s.plan.steps.take r.index).all s.stepResolved then some .done else none := by
  simp [State.dealWith, h, ha]

/-- The scan comes to the first own PENDING step (R137). -/
theorem scanFrom_first {s : State} {i : Nat} {r : StepRecord} (h : s.OwnStep i r)
    (hfirst : ∀ x ∈ s.plan.steps.take i, x.owner = s.own → s.plan.status x.index ≠ some .pending) :
    scanFrom s s.plan.steps = scanFrom s (r :: s.plan.steps.drop (i + 1)) :=
  calc scanFrom s s.plan.steps
      = scanFrom s (s.plan.steps.take i ++ r :: s.plan.steps.drop (i + 1)) := congrArg (scanFrom s) (steps_split h.step)
    _ = scanFrom s (r :: s.plan.steps.drop (i + 1)) := scan_past s _ _ hfirst

section
variable {s : State} {i : Nat} {r : StepRecord} (h : s.OwnStep i r) (hst : s.plan.status i = some .pending)
  (heligible : s.eligible r = true)
include h hst heligible

theorem scanFrom_claims (l : List StepRecord) (hdeal : s.dealWith r = some .claiming) :
    scanFrom s (r :: l) = claimStep i s := by
  simp only [scanFrom, h.owner, h.index, hst, heligible, hdeal, decide_true, Bool.and_self, if_true]

/-- A step that is skipped or done lets the scan go on (R138). -/
theorem scanFrom_resolves (l : List StepRecord) {st : StepStatus} (hdeal : s.dealWith r = some st) (hr : st.resolved = true) :
    scanFrom s (r :: l) = scanFrom (s.setPlan (s.plan.modifyStep i (StepState.become st))) l := by
  rw [scanFrom, if_pos (by simp [h.owner, h.index, hst, heligible]), hdeal, h.index]
  cases st <;> simp_all [StepStatus.resolved]

/-- A WAIT_ALL that waits lets the scan go on (R138). -/
theorem scanFrom_waits (l : List StepRecord) (hdeal : s.dealWith r = none) : scanFrom s (r :: l) = scanFrom s l := by
  rw [scanFrom, if_pos (by simp [h.owner, h.index, hst, heligible]), hdeal]

end

/-! ### The own slot whose scan resolves a step, or leaves a WAIT_ALL (R138) -/

section
variable {s : State} {i : Nat} {r : StepRecord} (he : s.Evaluates) (hclaim : s.plan.claim = none) (h : s.OwnStep i r)
  (hst : s.plan.status i = some .pending)
  (hfirst : ∀ x ∈ s.plan.steps.take i, x.owner = s.own → s.plan.status x.index ≠ some .pending)
  (heligible : s.eligible r = true)
include he hclaim h hst hfirst heligible

theorem ownSlot_resolves {st : StepStatus} (hdeal : s.dealWith r = some st) (hr : st.resolved = true) :
    (ownSlot s).plan.status i = some st := by
  have heval := he.unclaimed hclaim
  rw [scanFrom_first h hfirst, scanFrom_resolves h hst heligible _ hdeal hr] at heval
  have hbecome : (s.setPlan (s.plan.modifyStep i (StepState.become st))).isResolved i st :=
    ⟨Plan.status_become rfl hst, hr⟩
  obtain ⟨hscanned, -⟩ := scanFrom_leavesResolved (s.plan.steps.drop (i + 1)) _ hbecome (by simp [hclaim])
  rw [(ownSlot_leaves he heval).status i]
  exact (planStage_endFinding_resolved hscanned).1

/-- A WAIT_ALL with a lower step not resolved stays PENDING (R138). -/
theorem ownSlot_waitsForAll (hindex : ∀ (k : Nat) (x : StepRecord), s.plan.steps[k]? = some x → x.index = k)
    (hdeal : s.dealWith r = none) : (ownSlot s).plan.status i = some .pending := by
  have heval := he.unclaimed hclaim
  rw [scanFrom_first h hfirst, scanFrom_waits h hst heligible _ hdeal] at heval
  obtain ⟨p, hscan, hsteps, hreach⟩ := scanFrom_reach (s.plan.steps.drop (i + 1)) s
  have hpending : p.status i = some .pending := by
    rw [Plan.status, hreach i fun x hx => index_ne_of_mem_drop hindex hx]
    exact hst
  have hown : (s.setPlan p).OwnStep i r := h.of_eq hsteps rfl
  rw [hscan, hown.endFinding hpending rfl] at heval
  rw [(ownSlot_leaves he heval).status i]
  exact hpending

end

/-! ### The end of HOMING at the own slot (R152) -/

section
variable {s : State} (he : s.Evaluates) (hclaim : s.plan.claim = none)
  (hno : ∀ x ∈ s.plan.steps, x.owner = s.own → s.plan.status x.index ≠ some .pending)
include he hclaim hno

/-- With nothing to scan the evaluation is the end finding (R136). -/
theorem slotEvaluation_nothingPending : slotEvaluation s = endFinding s := by
  have hscan : scanFrom s s.plan.steps = s := by
    have hpast := scan_past s s.plan.steps [] hno
    rwa [List.append_nil] at hpast
  rw [he.unclaimed hclaim, hscan, planStage_open _ he.planOpen]

/-- READY at the own slot: the gate is OPEN and the plan stands (R84, R152). -/
theorem ownSlot_ready (hsteps : ∀ x ∈ s.plan.steps, s.stepResolved x = true)
    (harm : ∀ j : Station, j.val < s.cfg.armSize → s.armState j = some .referenced) :
    ∃ v, s.LeftBySlot v (ownSlot s) ∧ (ownSlot s).plan = s.plan ∧ v.coord.phase = .ready ∧ v.gate = .opened ∧
      v.hold.level = .none ∧ v.engine = s.engine := by
  have hready := endFinding_ready hsteps harm
  have hleft := ownSlot_leaves he (slotEvaluation_nothingPending he hclaim hno)
  obtain ⟨hphase, hplan, hgate⟩ := setPhase_ready_homing he
  rw [hready] at hleft
  have hkept : (stageTest (setPhase .ready s)).plan = s.plan := by simpa using hplan
  exact ⟨_, hleft, (hleft.planUnclaimed (hkept ▸ hclaim)).trans hkept, by simpa using hphase, by simpa using hgate,
    by simp [he.level], by simp⟩

/-- PLAN_INCOMPLETE at the own slot halts the station (R152). -/
theorem ownSlot_incomplete {j : Station} (hsteps : ∀ x ∈ s.plan.steps, s.stepResolved x = true)
    (hheard : ∀ k : Station, k.val < s.cfg.armSize → s.armState k ≠ none) (hj : j.val < s.cfg.armSize)
    (hnot : s.armState j ≠ some .referenced) (hlow : ∀ k : Station, k.val < j.val → s.armState k = some .referenced) :
    (ownSlot s).hasFault .planIncomplete .abort none (j.val : Int) ∧ (ownSlot s).coord.phase = .halted := by
  have hleft := ownSlot_leaves he (slotEvaluation_nothingPending he hclaim hno)
  rw [endFinding_incomplete hsteps hheard hj hnot hlow] at hleft
  obtain ⟨x, hcoord, hhalted, -⟩ := raiseAbort_halts .planIncomplete (j.val : Int) s (.inr (.inr (.inl he.phase)))
  refine ⟨hleft.hasFault (raiseFault_hasFault _ _ _ _ s), ?_⟩
  rw [hleft.phase, hhalted]
  exact (setPhase_halted x (by simp [hcoord, he.phase])).1

end

/-- Settles O25: a running step by its yield test, the first PENDING step by what the scan deals it, and the end by the
decision of the end finding. -/
theorem ownSlotYieldsWaitsAndEndsHoming : Obligations.OwnSlotYieldsWaitsAndEndsHoming := by
  intro dt s hrunning hlink ht hphase hlevel
  have he : (advance dt s).Evaluates := ⟨hphase, hlevel, hlink⟩
  rw [exec_ownSlotStart dt s hrunning hlink ht]
  refine ⟨fun i r hclaim hstep hindex howner hst hrun hnot => ?running,
    fun i r hclaim hstep hindex howner hst hfirst hneeds hguards hload => ?scan, fun hclaim hno => ?ended⟩
  case running =>
    have h : (advance dt s).OwnStep i r := ⟨hstep, hindex, howner⟩
    refine ⟨fun hgoes => ?goes, fun hmany hlower hop => ?yields⟩
    case goes =>
      obtain ⟨hleft, hplan⟩ := ownSlot_goesOn he h hclaim hst hrun (mustYield_false hgoes)
      exact ⟨_, rfl, congrArg Plan.table hplan, (congrArg Plan.running hplan).trans hrun,
        (congrArg Plan.yieldReturn hplan).trans hnot, hleft.engine, hleft.faults, hleft.phase.trans hphase⟩
    case yields =>
      have hmust : (advance dt s).mustYield i = true := (mustYield_iff _ i).mpr ⟨hmany, hlower⟩
      refine ⟨fun hmoving => ?moving, fun hstill hdemote happlies hneeds hguards hload => ?standing⟩
      case moving =>
        obtain ⟨o, q, state, -, hyield, -, hseek, hpark⟩ :=
          yieldTest_withdraws h hclaim hrun hnot hmust hop (.inr hmoving)
        rw [if_neg (by simpa [State.still] using hmoving)] at hyield
        obtain ⟨hleft, hplan, hengine, hhoming⟩ := ownSlot_yieldsMoving he h hclaim hst hrun hyield
        obtain ⟨hstandby, -, hmem⟩ := hleft.keeps
        refine ⟨_, rfl, hleft.hasFault (yielding_hasFault _ i o q), ?_⟩
        rw [hplan, hengine]
        refine ⟨rfl, hrun, rfl, hclaim, fun k hk => ?_, fun p hp => ?_, rfl, hstandby, hmem, hhoming⟩
        · obtain ⟨rfl, rfl, -⟩ := hseek k hk
          exact ⟨rfl, rfl⟩
        · obtain ⟨rfl, rfl, -⟩ := hpark p hp
          exact ⟨rfl, rfl⟩
      case standing =>
        obtain ⟨o, q, state, hq, hyield, hstanding, hseek, hpark⟩ :=
          yieldTest_withdraws h hclaim hrun hnot hmust hop (.inl hdemote)
        rw [if_pos (by simpa [State.still] using hstill)] at hyield
        obtain ⟨hleft, hplan, hengine, hhoming⟩ := ownSlot_yieldsStanding he h hclaim hst hrun hq hyield hstanding happlies
          ((eligible_iff _ r).mpr ⟨hneeds, hguards, hload⟩)
        obtain ⟨hstandby, -, hmem⟩ := hleft.keeps
        refine ⟨_, rfl, hleft.hasFault (yieldOver_hasFault _ i o q state), ?_⟩
        rw [hplan, hengine]
        refine ⟨Plan.status_become rfl hst, hclaim, rfl, rfl, rfl, fun j hj => Plan.table_other rfl hj, rfl,
          fun k hk => (hseek k hk).2.2, fun p hp => ⟨(hpark p hp).2.2, rfl⟩, rfl, hstandby, hmem, hhoming⟩
  case scan =>
    have h : (advance dt s).OwnStep i r := ⟨hstep, hindex i r hstep, howner⟩
    have heligible : (advance dt s).eligible r = true := (eligible_iff _ r).mpr ⟨hneeds, hguards, hload⟩
    have hresolves := fun st => ownSlot_resolves he hclaim h hst hfirst heligible (st := st)
    refine ⟨_, rfl, fun hskip => hresolves _ (dealWith_skips hskip) rfl, fun happlies hwait => ⟨fun hall => ?_, fun hsome => ?_⟩,
      (ownSlot_leaves he rfl).keeps⟩
    · refine hresolves _ ((dealWith_waitAll happlies hwait).trans (if_pos ?_)) rfl
      rw [h.index]
      exact List.all_eq_true.mpr hall
    · refine ownSlot_waitsForAll he hclaim h hst hfirst heligible hindex ((dealWith_waitAll happlies hwait).trans (if_neg ?_))
      obtain ⟨x, hx, hunresolved⟩ := hsome
      rw [h.index, Bool.not_eq_true]
      exact List.all_eq_false.mpr ⟨x, hx, by simpa using hunresolved⟩
  case ended =>
    refine ⟨fun hsteps => ⟨fun harm => ?ready, fun j hj hnot hheard hlow => ?incomplete⟩, fun hopen => ?undecided⟩
    case ready =>
      obtain ⟨v, hleft, hplan, hready, hgate, hnone, hengine⟩ := ownSlot_ready he hclaim hno hsteps harm
      exact ⟨_, v.packRecord, rfl, hleft.phase.trans hready, hleft.gate.trans hgate, hplan, hleft.ownEntry, hready,
        hleft.level.trans hnone, hleft.engine.trans hengine, hleft.keeps⟩
    case incomplete =>
      obtain ⟨hfault, hhalted⟩ := ownSlot_incomplete he hclaim hno hsteps hheard hj hnot hlow
      exact ⟨_, rfl, hfault, hhalted, (ownSlot_leaves he rfl).keeps⟩
    case undecided =>
      have hsame : endFinding (advance dt s) = advance dt s := by
        rcases hopen with ⟨x, hx, hunresolved⟩ | ⟨j, hj, hunheard⟩
        · exact endFinding_unresolved hx hunresolved
        · exact endFinding_unheard hj hunheard
      have hleft := ownSlot_leaves he ((slotEvaluation_nothingPending he hclaim hno).trans hsame)
      exact ⟨_, rfl, hleft.phase.trans hphase, hleft.planUnclaimed hclaim, hleft.engine, hleft.faults, hleft.keeps⟩

end Sys2Proof.Machine
end

section
/-! Claims and grants at the own slot. -/

namespace Sys2Proof.Machine

/-! ### The answers of the engine (R29, R142) -/

/-- At level NONE the engine refuses no step's request for a hold (R29). -/
theorem stepAnswer_ne_refusedHold {s : State} (r : StepRecord) (h : s.hold.level = .none) :
    s.stepAnswer r ≠ .refusedHold := by
  have htaken : s.takeUnlessHeld = .taken := if_pos h
  have hseek : ∀ k, s.seekAnswer k ≠ .refusedHold := fun k => by
    rw [State.seekAnswer, htaken]
    (repeat' split) <;> decide
  have hpark : s.referencedAnswer ≠ .refusedHold := by
    rw [State.referencedAnswer, htaken]
    (repeat' split) <;> decide
  rw [State.stepAnswer]
  split
  · exact hseek .witness
  · exact hseek .index
  · exact hseek .switch
  · exact hpark
  · exact hpark

/-- The state with the step RUNNING and movement asked for, before the engine answers (R142). -/
def State.begun (s : State) (i : Nat) : State :=
  gateUpdate (s.setPlan { s.plan.modifyStep i (StepState.become .running) with running := true })

@[simp] theorem State.begun_keeps (s : State) (i : Nat) :
    (s.begun i).plan = { s.plan.modifyStep i (StepState.become .running) with running := true } ∧
    (s.begun i).engine = s.engine ∧ (s.begun i).standby = s.standby ∧ (s.begun i).sensing = s.sensing ∧
    (s.begun i).mem = s.mem ∧ (s.begun i).peers = s.peers ∧ (s.begun i).coord = s.coord ∧ (s.begun i).hold = s.hold ∧
    (s.begun i).link = s.link ∧ (s.begun i).port = s.port ∧ (s.begun i).now = s.now := by
  simp [State.begun]

/-- The movement request of a grant opens the gate (R142, R165, R166). -/
theorem begun_gate {s : State} (i : Nat) (h : s.Evaluates) : (s.begun i).gate = .opened := by
  refine gateUpdate_permitted _ ?_
  simp [State.permitted, State.moveRequested, h.level, h.phase]

theorem begun_stepAnswer (s : State) (i : Nat) (r : StepRecord) : (s.begun i).stepAnswer r = s.stepAnswer r := rfl

theorem grantStep_taken {s : State} {r : StepRecord} (h : s.stepAnswer r = .taken) :
    grantStep r s = startOperation r (s.begun r.index) := by
  rw [← begun_stepAnswer s r.index r] at h
  simp only [grantStep, ← State.begun.eq_def, h]

theorem grantStep_busy {s : State} {r : StepRecord} (h : s.stepAnswer r = .busy) :
    grantStep r s = gateUpdate (withdrawClaim r.index .pending (s.begun r.index)) := by
  rw [← begun_stepAnswer s r.index r] at h
  simp only [grantStep, ← State.begun.eq_def, h]

theorem grantStep_invalid {s : State} {r : StepRecord} (h : s.stepAnswer r = .invalid) :
    grantStep r s = raiseFault .planInvalid .abort (some r.index) (r.index : Int)
      (gateUpdate (withdrawClaim r.index .pending (s.begun r.index))) := by
  rw [← begun_stepAnswer s r.index r] at h
  simp only [grantStep, ← State.begun.eq_def, h]

/-! ### The start of a step's operation (R28, R30, R42) -/

/-- With neither limit active no order runs toward one (R28). -/
theorem limitMet_inactive {s : State} (o : MotionOrder) (hpos : s.sensing.limPos.level = false)
    (hneg : s.sensing.limNeg.level = false) : s.limitMet o = none := by
  simp only [State.limitMet, hpos, hneg, Bool.false_eq_true, if_false]
  split <;> rfl

section
variable {s : State} (hpos : s.sensing.limPos.level = false) (hneg : s.sensing.limNeg.level = false)
include hpos hneg

/-- An order toward no active limit, where the record does not hold reason HOLD, is written (R26, R27, R28). -/
theorem engineOrder_written (o : MotionOrder) {e : Engine} (ho : e.order.reason ≠ some .hold) :
    ∃ x : Port, engineOrder o (s.setEngine e) = (s.setEngine { e with order := o }).setPort x := by
  obtain ⟨x, hx⟩ := engineOrder_free o (s.setEngine e) (.inr (limitMet_inactive o hpos hneg))
  rw [if_neg (show (s.setEngine e).engine.order.reason ≠ some .hold from ho)] at hx
  exact ⟨_, hx⟩

variable (ho : s.engine.order.reason ≠ some .hold)
include ho

/-- A taken seek toward no active limit (R30). -/
theorem startSeek_started (k : SeekKind) (d : StepDir) (speed : SpeedClass) (limit : Nat) (step : Option Nat) :
    ∃ x : Port, startSeek k d speed limit step s = (s.setEngine { s.engine with
      refState := .seeking, parked := false, operation := .seek (s.seekContext k d speed limit step)
      order := .jog (s.seekContext k d speed limit step).dir
        (s.cfg.speedOf (if k = .witness then .creep else speed)) .seek }).setPort x :=
  engineOrder_written hpos hneg _ ho

/-- A taken PARK that is not over at once, toward no active limit (R42). -/
theorem startPark_started (step : Option Nat) (hfar : s.still = true → s.atPark = false) :
    ∃ x : Port, startPark step s = (s.setEngine { s.engine with
      operation := .park ⟨step, s.now, !s.still, false⟩
      order := .goto s.cfg.parkPosition s.cfg.slow .park }).setPort x := by
  have hnot : (s.still && s.atPark) = false := by
    cases hs : s.still
    · rfl
    · exact hfar hs
  rw [startPark, hnot, if_neg Bool.false_ne_true]
  exact engineOrder_written hpos hneg _ ho

end

/-- A PARK taken at standstill within PARK_TOLERANCE is over at once (R42). -/
theorem startPark_atOnce {s : State} (step : Option Nat) (hs : s.still = true) (ha : s.atPark = true) :
    startPark step s = planDone step (s.setEngine { s.engine with parked := true }) := by
  rw [startPark, hs, ha, Bool.and_self, if_pos rfl]

/-- The seek of a step's action (R142). -/
theorem startOperation_seek {r : StepRecord} (hpark : r.action ≠ .park) (hwait : r.action ≠ .waitAll) (s : State) :
    ∃ k : SeekKind, (k = .witness ↔ r.action = .witness) ∧ (k = .index ↔ r.action = .seekIndex) ∧
      startOperation r s = startSeek k r.dir (if r.action = .witness then .creep else r.speed) r.travelLimit
        (some r.index) s := by
  rw [startOperation]
  cases ha : r.action with
  | witness => exact ⟨.witness, by decide, by decide, rfl⟩
  | seekIndex => exact ⟨.index, by decide, by decide, rfl⟩
  | seekSwitch => exact ⟨.switch, by decide, by decide, rfl⟩
  | park => exact absurd ha hpark
  | waitAll => exact absurd ha hwait

theorem startOperation_park {r : StepRecord} (h : r.action = .park) (s : State) :
    startOperation r s = startPark (some r.index) s := by
  rw [startOperation, h]

/-! ### The first claim (R138) -/

theorem claimKept_unclaimed {s : State} (h : s.plan.claim = none) : s.claimKept = false := by
  simp [State.claimKept, h]

theorem claimKept_sent {s : State} {q : BitVec 32} (h : s.plan.claimSent = some q) : s.claimKept = false := by
  simp [State.claimKept, h]

/-- The first own PENDING step, eligible and no WAIT_ALL, is claimed with this slot's cycle (R137, R138). -/
theorem ownSlot_claims {s : State} {i : Nat} {r : StepRecord} (he : s.Evaluates) (h : s.OwnStep i r)
    (hclaim : s.plan.claim = none) (hst : s.plan.status i = some .pending)
    (hfirst : ∀ x ∈ s.plan.steps.take i, x.owner = s.own → s.plan.status x.index ≠ some .pending)
    (heligible : s.eligible r = true) (hdeal : s.dealWith r = some .claiming) :
    s.LeftBySlot (claimStep i s) (ownSlot s) ∧ (ownSlot s).plan = (claimStep i s).plan := by
  have hown : (claimStep i s).OwnStep i r := h.of_eq rfl rfl
  have hclaiming : (claimStep i s).plan.status i = some .claiming := Plan.status_become rfl hst
  have heval := he.unclaimed hclaim
  rw [scanFrom_first h hfirst, scanFrom_claims h hst heligible _ hdeal, hown.endFinding hclaiming rfl] at heval
  have hleft := ownSlot_leaves he heval
  exact ⟨hleft, hleft.planUnkept (claimKept_unclaimed hclaim)⟩

/-! ### A claim at the own slot (R140, R141, R142) -/

section
variable {s : State} {i : Nat} {r : StepRecord} (he : s.Evaluates) (h : s.OwnStep i r) (hclaim : s.plan.claim = some i)
  (hst : s.plan.status i = some .claiming) (hidle : s.plan.running = false)

section
include h hclaim hst

theorem grantAndScan_claiming : grantAndScan s = grantTest r s := by
  simp only [grantAndScan, h.claimedStep hclaim, h.index, hst, if_true]

/-- A claim whose applies-to set no longer holds the standing is withdrawn, its step SKIPPED (R140). -/
theorem grantAndScan_skips (hskip : r.appliesTo s.engine.standing = false) :
    grantAndScan s = planScan (withdrawClaim i .skipped s) := by
  rw [grantAndScan_claiming h hclaim hst, grantTest, hskip, Bool.not_false, if_pos rfl, h.index]

/-- A claim whose step is no longer eligible is withdrawn, its step PENDING (R140). -/
theorem grantAndScan_withdraws (happlies : r.appliesTo s.engine.standing = true) (hno : s.eligible r = false) :
    grantAndScan s = planScan (withdrawClaim i .pending s) := by
  rw [grantAndScan_claiming h hclaim hst, grantTest, happlies, hno, Bool.not_true, Bool.not_false, if_neg Bool.false_ne_true,
    if_pos rfl, h.index]

/-- A claim heard and granted: the grant, and the scan after one the engine takes (R141, R142; log entry 25). -/
theorem grantAndScan_grants (happlies : r.appliesTo s.engine.standing = true) (heligible : s.eligible r = true)
    (hheard : s.claimHeard = true) (hgranted : s.granted i = true) : grantAndScan s =
      if s.stepAnswer r = .taken then planStage planScan (grantStep r s) else grantStep r s := by
  have hboth : (s.claimHeard && s.granted i) = true := by rw [hheard, hgranted, Bool.and_self]
  rw [grantAndScan_claiming h hclaim hst]
  simp only [grantTest, happlies, heligible, h.index, hboth, Bool.not_true, Bool.false_eq_true, if_false, if_true,
    State.grantRefused, decide_eq_true_eq, ne_eq, ite_not]

end

include he h hclaim hst hidle

/-- A claim that is not heard yet, or not granted, stands (R140, R141, R145). -/
theorem ownSlot_claimStands (happlies : r.appliesTo s.engine.standing = true) (heligible : s.eligible r = true)
    (hno : s.claimHeard = false ∨ s.granted i = false) : s.LeftBySlot s (ownSlot s) := by
  have heval := he.unyielding (yieldTest_notRunning hidle)
  rw [h.waits hclaim hst happlies heligible hno, h.endFinding hst rfl] at heval
  exact ownSlot_leaves he heval

/-- A claim kept by a yield takes this slot's cycle (R145; log entry 26). -/
theorem ownSlot_claimKept (happlies : r.appliesTo s.engine.standing = true) (heligible : s.eligible r = true)
    (hunsent : s.plan.claimSent = none) :
    (ownSlot s).plan = { s.plan with claimSent := s.link.cycle } ∧ (ownSlot s).engine = s.engine := by
  have hleft := ownSlot_claimStands he h hclaim hst hidle happlies heligible (.inl (claimHeard_unsent hunsent))
  have hkept : s.claimKept = true := by simp [State.claimKept, hclaim, hunsent, hidle]
  refine ⟨hleft.plan.trans ?_, hleft.engine⟩
  rw [noteClaimSent, hkept, Bool.and_self, if_pos rfl]
  rfl

end

end Sys2Proof.Machine
end

section
/-! What the own slot makes of a granted claim, and of one whose step no longer meets its conditions. -/

namespace Sys2Proof.Machine

theorem claimKept_heard {s : State} (h : s.claimHeard = true) : s.claimKept = false := by
  cases hq : s.plan.claimSent with
  | none => simp [claimHeard_unsent hq] at h
  | some q => exact claimKept_sent hq

/-- The plan after a refused grant: the claim withdrawn, the step PENDING (R142). -/
def State.grantWithdrawn (s : State) (i : Nat) : State := gateUpdate (withdrawClaim i .pending (s.begun i))

@[simp] theorem State.grantWithdrawn_keeps (s : State) (i : Nat) :
    (s.grantWithdrawn i).plan = { (s.plan.modifyStep i (StepState.become .running)).modifyStep i
      (StepState.become .pending) with claim := none, claimSent := none, running := false } ∧
    (s.grantWithdrawn i).engine = s.engine ∧ (s.grantWithdrawn i).coord = s.coord ∧ (s.grantWithdrawn i).hold = s.hold ∧
    (s.grantWithdrawn i).link = s.link := by
  simp [State.grantWithdrawn, withdrawClaim, Plan.modifyStep]

/-- A park that is over as it is taken: its step DONE, parked true, no claim and no movement asked for (R42, R145). -/
def State.parkedAtOnce (s : State) (i : Nat) : State :=
  planDone (some i) ((s.begun i).setEngine { s.engine with parked := true })

section
variable {s : State} {i : Nat} {r : StepRecord} (h : s.OwnStep i r) (hst : s.plan.status i = some .claiming)

section
include hst

theorem begun_status : (s.begun i).plan.status i = some .running := by
  rw [(s.begun_keeps i).1]
  exact Plan.status_become rfl hst

theorem parkedAtOnce_eq : s.parkedAtOnce i = gateUpdate (((s.begun i).setEngine { s.engine with parked := true }).setPlan
    { (s.begun i).plan.modifyStep i (StepState.become .done) with
      running := false, claim := none, claimSent := none, yieldReturn := false }) := by
  simp only [State.parkedAtOnce, planDone, State.setEngine_plan, begun_status hst, if_true]

/-- What a park that is over at once leaves. -/
theorem parkedAtOnce_spec : (s.parkedAtOnce i).isResolved i .done ∧ (s.parkedAtOnce i).plan.claim = none ∧
    (s.parkedAtOnce i).plan.running = false ∧ (s.parkedAtOnce i).engine = { s.engine with parked := true } ∧
    (s.parkedAtOnce i).hold = s.hold ∧ (s.parkedAtOnce i).coord = s.coord ∧ (s.parkedAtOnce i).link = s.link ∧
    (s.parkedAtOnce i).peers = s.peers ∧ (s.parkedAtOnce i).plan.steps = s.plan.steps := by
  rw [parkedAtOnce_eq hst]
  refine ⟨⟨?_, rfl⟩, ?_⟩
  · exact Plan.status_become rfl (begun_status hst)
  · simp

end

variable (he : s.Evaluates) (hclaim : s.plan.claim = some i) (hidle : s.plan.running = false)
  (happlies : r.appliesTo s.engine.standing = true) (heligible : s.eligible r = true) (hheard : s.claimHeard = true)
  (hgranted : s.granted i = true)
include h hst he hclaim hidle happlies heligible hheard hgranted

/-- A granted step whose operation starts runs on: the claim stays, and the scan and the end finding do nothing
(R136, R142). -/
theorem ownSlot_runs {e : Engine} {x : Port} (htaken : s.stepAnswer r = .taken)
    (hstart : startOperation r (s.begun i) = ((s.begun i).setEngine e).setPort x) :
    s.LeftBySlot (((s.begun i).setEngine e).setPort x) (ownSlot s) ∧ (ownSlot s).plan = (s.begun i).plan := by
  obtain ⟨hplan, -, -, -, -, -, -, -, hlink, -⟩ := s.begun_keeps i
  have hclaimed : (((s.begun i).setEngine e).setPort x).plan.claim = some i := by
    rw [State.setPort_plan, State.setEngine_plan, hplan]
    exact hclaim
  have hown : (((s.begun i).setEngine e).setPort x).OwnStep i r := h.of_eq (by simp) (by simp)
  have heval := he.unyielding (yieldTest_notRunning hidle)
  rw [grantAndScan_grants h hclaim hst happlies heligible hheard hgranted, if_pos htaken, grantStep_taken htaken, h.index,
    hstart, planStage_id _ _ (planScan_claimed hclaimed), hown.endFinding (begun_status hst) rfl] at heval
  have hleft := ownSlot_leaves he heval
  exact ⟨hleft, hleft.planUnkept (claimKept_heard hheard)⟩

/-- A granted PARK that is over at once: the step is DONE, and the scan and the end finding may follow (R42, R136). -/
theorem ownSlot_parksAtOnce (htaken : s.stepAnswer r = .taken) (hpark : r.action = .park) (hs : s.still = true)
    (ha : s.atPark = true) : ∃ z : State, z.Evaluates ∧ s.LeftBySlot (endFinding z) (ownSlot s) ∧ z.isResolved i .done ∧
      z.plan.running = false ∧ z.engine = { s.engine with parked := true } ∧ z.hold = s.hold ∧ z.coord = s.coord ∧
      z.peers = s.peers ∧ z.link = s.link ∧ z.plan.steps = s.plan.steps := by
  obtain ⟨hdone, hnone, hmove, hengine, hhold, hcoord, hlink, hpeers, hsteps⟩ := parkedAtOnce_spec hst
  have hbs : (s.begun i).still = true := hs
  have hba : (s.begun i).atPark = true := ha
  have hstart : startOperation r (s.begun i) = s.parkedAtOnce i := by
    obtain ⟨-, hbegun, -⟩ := s.begun_keeps i
    rw [startOperation_park hpark, h.index, startPark_atOnce (s := s.begun i) (some i) hbs hba, State.parkedAtOnce, hbegun]
  have hopen : (s.parkedAtOnce i).Evaluates := he.of_eq (by rw [hcoord]) (by rw [hhold]) (by rw [hlink])
  have heval := he.unyielding (yieldTest_notRunning hidle)
  rw [grantAndScan_grants h hclaim hst happlies heligible hheard hgranted, if_pos htaken, grantStep_taken htaken, h.index,
    hstart, planStage_open _ hopen.planOpen, planScan_unclaimed hnone] at heval
  obtain ⟨z, hz⟩ : ∃ z, z = scanFrom (s.parkedAtOnce i) (s.parkedAtOnce i).plan.steps := ⟨_, rfl⟩
  have hkept : z.plan.running = false ∧ z.engine = { s.engine with parked := true } ∧ z.hold = s.hold ∧
      z.coord = s.coord ∧ z.peers = s.peers ∧ z.link = s.link ∧ z.plan.steps = s.plan.steps := by
    simp [hz, hmove, hengine, hhold, hcoord, hpeers, hlink, hsteps]
  obtain ⟨hzmove, hzengine, hzhold, hzcoord, hzpeers, hzlink, hzsteps⟩ := hkept
  have hzopen : z.Evaluates := he.of_eq (by rw [hzcoord]) (by rw [hzhold]) (by rw [hzlink])
  rw [← hz, planStage_open _ hzopen.planOpen] at heval
  refine ⟨z, hzopen, ownSlot_leaves he heval, ?_, hzmove, hzengine, hzhold, hzcoord, hzpeers, hzlink, hzsteps⟩
  rw [hz]
  exact (scanFrom_leavesResolved _ _ hdone (by simp [hnone])).1

/-- A grant answered BUSY leaves the step PENDING, and no scan follows (R142; log entry 25). -/
theorem ownSlot_grantBusy (hbusy : s.stepAnswer r = .busy) : s.LeftBySlot (s.grantWithdrawn i) (ownSlot s) ∧
    (ownSlot s).plan = (s.grantWithdrawn i).plan := by
  obtain ⟨hplan, -, -, -, hlink⟩ := s.grantWithdrawn_keeps i
  have hpending : (s.grantWithdrawn i).plan.status i = some .pending := by
    rw [hplan]
    exact Plan.status_become (p := s.plan.modifyStep i (StepState.become .running)) rfl (Plan.status_become rfl hst)
  have hown : (s.grantWithdrawn i).OwnStep i r := h.of_eq (by rw [hplan]; rfl) (by rw [hlink])
  have heval := he.unyielding (yieldTest_notRunning hidle)
  rw [grantAndScan_grants h hclaim hst happlies heligible hheard hgranted, if_neg (by rw [hbusy]; decide),
    grantStep_busy hbusy, h.index, ← State.grantWithdrawn.eq_def, hown.endFinding hpending rfl] at heval
  have hleft := ownSlot_leaves he heval
  exact ⟨hleft, hleft.planUnclaimed (by rw [hplan])⟩

/-- A grant answered INVALID halts the station with PLAN_INVALID in the step (R142, R156). -/
theorem ownSlot_grantInvalid (hinvalid : s.stepAnswer r = .invalid) :
    (ownSlot s).hasFault .planInvalid .abort (some i) (i : Int) ∧ (ownSlot s).coord.phase = .halted ∧
    (ownSlot s).plan.running = false ∧ (ownSlot s).plan.claim = none := by
  obtain ⟨-, -, hcoord, -⟩ := s.grantWithdrawn_keeps i
  obtain ⟨x, hx, hhalts, -⟩ := raiseFault_halts .planInvalid (some i) (i : Int) (s.grantWithdrawn i)
    (.inr (.inr (.inl (by rw [hcoord, he.phase]))))
  obtain ⟨hhalted, hrunning, hnone⟩ := setPhase_halted x (by rw [hx, hcoord, he.phase]; decide)
  rw [← hhalts] at hhalted hrunning hnone
  have heval := he.unyielding (yieldTest_notRunning hidle)
  rw [grantAndScan_grants h hclaim hst happlies heligible hheard hgranted, if_neg (by rw [hinvalid]; decide),
    grantStep_invalid hinvalid, h.index, ← State.grantWithdrawn.eq_def,
    planStage_otherPhase _ (by rw [hhalted]; decide)] at heval
  have hleft := ownSlot_leaves he heval
  obtain ⟨-, hkclaim, hkrunning, -⟩ := hleft.planKept
  exact ⟨hleft.hasFault (raiseFault_hasFault _ _ _ _ _), hleft.phase.trans hhalted, hkrunning.trans hrunning,
    hkclaim.trans hnone⟩

end

/-! ### A claim re-tested and withdrawn (R140) -/

section
variable {s : State} {i : Nat} {r : StepRecord} (he : s.Evaluates) (h : s.OwnStep i r) (hclaim : s.plan.claim = some i)
  (hst : s.plan.status i = some .claiming) (hidle : s.plan.running = false)
include he h hclaim hst hidle

/-- A claim whose applies-to set no longer holds the standing: its step is SKIPPED, whatever the scan makes of the others
(R140). -/
theorem ownSlot_skips (hskip : r.appliesTo s.engine.standing = false) : (ownSlot s).plan.status i = some .skipped ∧
    (ownSlot s).plan.claim ≠ some i ∧ (ownSlot s).plan.running = false := by
  obtain ⟨w, hw⟩ : ∃ w, w = withdrawClaim i .skipped s := ⟨_, rfl⟩
  have hwplan : w.plan = { s.plan.modifyStep i (StepState.become .skipped) with
      claim := none, claimSent := none, running := false } := hw ▸ rfl
  have hskipped : w.isResolved i .skipped := ⟨by rw [hwplan]; exact Plan.status_become rfl hst, rfl⟩
  obtain ⟨hresolved, hnot⟩ := scanFrom_leavesResolved w.plan.steps w hskipped (by simp [hwplan])
  obtain ⟨z, hz⟩ : ∃ z, z = scanFrom w w.plan.steps := ⟨_, rfl⟩
  have hmove : z.plan.running = false := by simp [hz, hwplan]
  have hopen : z.Evaluates := he.of_eq (by simp [hz, hw]) (by simp [hz, hw]) (by simp [hz, hw])
  have heval := he.unyielding (yieldTest_notRunning hidle)
  rw [grantAndScan_skips h hclaim hst hskip, ← hw, planScan_unclaimed (by rw [hwplan]), ← hz,
    planStage_open _ hopen.planOpen] at heval
  rw [← hz] at hresolved hnot
  have hleft := ownSlot_leaves he heval
  obtain ⟨-, hkclaim, hkrunning, -⟩ := hleft.planKept
  rw [hleft.status i, hkclaim, hkrunning]
  refine ⟨(endFinding_resolved i .skipped z hopen.phase hresolved).1, ?_⟩
  rcases endFinding_plan hopen with hplan | ⟨hrunning, hnone⟩
  · rw [hplan]
    exact ⟨hnot, hmove⟩
  · rw [hnone]
    exact ⟨by simp, hrunning⟩

variable (happlies : r.appliesTo s.engine.standing = true) (hno : s.eligible r = false)
include happlies hno

omit he h hclaim hidle happlies hno in
/-- An evaluation reads the same once a claim is withdrawn, its step PENDING. -/
theorem withdrawClaim_readsAs : (withdrawClaim i .pending s).ReadsAs s :=
  { steps := rfl, resolved := Plan.resolvedAt_become rfl hst rfl rfl, peers := rfl, station := rfl, standing := rfl,
    parked := rfl, sensing := rfl, config := rfl }

/-- The evaluation goes on with a scan of the steps, the withdrawn one PENDING (R140). -/
theorem slotEvaluation_withdraws : slotEvaluation s =
    planStage endFinding (scanFrom (withdrawClaim i .pending s) s.plan.steps) := by
  rw [he.unyielding (yieldTest_notRunning hidle), grantAndScan_withdraws h hclaim hst happlies hno, planScan_unclaimed rfl]
  rfl

omit he hclaim hidle happlies in
/-- The scan passes the withdrawn step, which is not eligible, and every own step that was not PENDING. -/
theorem withdrawn_passes (hindex : ∀ (k : Nat) (x : StepRecord), s.plan.steps[k]? = some x → x.index = k)
    {x : StepRecord} (hx : x ∈ s.plan.steps) (hnot : s.plan.status x.index ≠ some .pending)
    (hpending : (withdrawClaim i .pending s).plan.status x.index = some .pending) :
    (withdrawClaim i .pending s).eligible x = false := by
  by_cases hxi : x.index = i
  · obtain ⟨k, hk⟩ := List.getElem?_of_mem hx
    have hki : k = i := (hindex k x hk).symm.trans hxi
    rw [hki, h.step] at hk
    cases hk
    rw [(withdrawClaim_readsAs hst).eligible]
    exact hno
  · rw [Plan.status_other (p := s.plan) rfl hxi] at hpending
    exact absurd hpending hnot

/-- With no own step PENDING the withdrawn one is left so, and nothing is claimed (R140). -/
theorem ownSlot_withdraws (hindex : ∀ (k : Nat) (x : StepRecord), s.plan.steps[k]? = some x → x.index = k)
    (hnone : ∀ x ∈ s.plan.steps, x.owner = s.own → s.plan.status x.index ≠ some .pending) :
    s.LeftBySlot (withdrawClaim i .pending s) (ownSlot s) ∧
    (ownSlot s).plan = { s.plan.modifyStep i (StepState.become .pending) with
      claim := none, claimSent := none, running := false } := by
  have hpassed := scanFrom_passes (withdrawClaim i .pending s) s.plan.steps [] fun x hx howner =>
    withdrawn_passes h hst hno hindex hx (hnone x hx howner)
  rw [List.append_nil] at hpassed
  have hown : (withdrawClaim i .pending s).OwnStep i r := h.of_eq rfl rfl
  have hpending : (withdrawClaim i .pending s).plan.status i = some .pending := Plan.status_become rfl hst
  have heval := slotEvaluation_withdraws he h hclaim hst hidle happlies hno
  rw [hpassed] at heval
  have heval' : slotEvaluation s = withdrawClaim i .pending s := heval.trans (hown.endFinding hpending rfl)
  have hleft := ownSlot_leaves he heval'
  exact ⟨hleft, hleft.planUnclaimed rfl⟩

/-- The first own PENDING step, eligible and no WAIT_ALL, is claimed in the slot that withdraws the claim (R138, R140). -/
theorem ownSlot_withdrawsAndClaims (hindex : ∀ (k : Nat) (x : StepRecord), s.plan.steps[k]? = some x → x.index = k)
    {j : Nat} {q : StepRecord} (hq : s.OwnStep j q) (hj : s.plan.status j = some .pending)
    (hfirst : ∀ x ∈ s.plan.steps.take j, x.owner = s.own → s.plan.status x.index ≠ some .pending)
    (heligible : s.eligible q = true) (hqapplies : q.appliesTo s.engine.standing = true) (hqa : q.action ≠ .waitAll) :
    s.LeftBySlot (claimStep j (withdrawClaim i .pending s)) (ownSlot s) := by
  have hij : j ≠ i := fun hji => by
    rw [hji, hst] at hj
    cases hj
  have hwq : (withdrawClaim i .pending s).OwnStep j q := hq.of_eq rfl rfl
  have hwj : (withdrawClaim i .pending s).plan.status j = some .pending := (Plan.status_other (p := s.plan) rfl hij).trans hj
  have hwdeal : (withdrawClaim i .pending s).dealWith q = some .claiming := dealWith_claims hqapplies hqa
  have hscan : scanFrom (withdrawClaim i .pending s) s.plan.steps = claimStep j (withdrawClaim i .pending s) := by
    have hsplit := congrArg (scanFrom (withdrawClaim i .pending s)) (steps_split hq.step)
    rw [hsplit, scanFrom_passes _ _ _ fun x hx howner =>
      withdrawn_passes h hst hno hindex (List.mem_of_mem_take hx) (hfirst x hx howner)]
    exact scanFrom_claims hwq hwj ((withdrawClaim_readsAs hst).eligible q ▸ heligible) _ hwdeal
  have hown : (claimStep j (withdrawClaim i .pending s)).OwnStep j q := hq.of_eq rfl rfl
  have hclaiming : (claimStep j (withdrawClaim i .pending s)).plan.status j = some .claiming := Plan.status_become rfl hwj
  have heval := slotEvaluation_withdraws he h hclaim hst hidle happlies hno
  rw [hscan, hown.endFinding hclaiming rfl] at heval
  exact ownSlot_leaves he heval

end

end Sys2Proof.Machine
end

section
/-! The own slot's claims and grants, assembled. -/

namespace Sys2Proof.Machine

/-- A taken step's operation that is not over at once, started toward no active limit (R28, R30, R42, R142). -/
theorem startOperation_started {s : State} {r : StepRecord} (hpos : s.sensing.limPos.level = false)
    (hneg : s.sensing.limNeg.level = false) (ho : s.engine.order.reason ≠ some .hold)
    (hfar : r.action = .park → s.still = true → s.atPark = false) (hwait : r.action ≠ .waitAll) :
    ∃ (e : Engine) (x : Port), startOperation r s = (s.setEngine e).setPort x ∧
      (r.action = .park → e.refState = s.engine.refState ∧ e.operation = .park ⟨some r.index, s.now, !s.still, false⟩ ∧
        e.order = .goto s.cfg.parkPosition s.cfg.slow .park) ∧
      (r.action ≠ .park → e.refState = .seeking ∧ e.parked = false ∧ ∃ k, e.operation = .seek k ∧ k.step = some r.index ∧
        k.travelLimit = r.travelLimit ∧ k.start = s.standby.counter ∧ k.entry = s.engine.standing ∧ k.endCause = none ∧
        (k.kind = .witness ↔ r.action = .witness) ∧ (k.kind = .index ↔ r.action = .seekIndex) ∧
        e.order = .jog k.dir (s.cfg.speedOf (if r.action = .witness then .creep else r.speed)) .seek) := by
  by_cases hpark : r.action = .park
  · obtain ⟨x, hx⟩ := startPark_started hpos hneg ho (some r.index) (hfar hpark)
    exact ⟨_, x, (startOperation_park hpark s).trans hx, fun _ => ⟨rfl, rfl, rfl⟩, fun hseek => absurd hpark hseek⟩
  · obtain ⟨k, hwitness, hindex, hseek⟩ := startOperation_seek hpark hwait s
    obtain ⟨x, hx⟩ := startSeek_started hpos hneg ho k r.dir (if r.action = .witness then .creep else r.speed)
      r.travelLimit (some r.index)
    refine ⟨_, x, hseek.trans hx, fun h => absurd h hpark, fun _ => ⟨rfl, rfl, _, rfl, rfl, rfl, rfl, rfl, rfl, hwitness,
      hindex, ?_⟩⟩
    by_cases hw : r.action = .witness
    · simp [hw]
    · simp [hw, mt hwitness.mp hw]

/-- A claim sent is heard when this slot's cycle is later (R140). -/
theorem claimHeard_sent {s : State} {c q : BitVec 32} (hc : s.link.cycle = some c) (hq : s.plan.claimSent = some q) :
    s.claimHeard = serialNewer c q := by
  simp only [State.claimHeard, hc, hq]

/-- As many stations as CONCURRENCY run a step or claim a lower one (R141). -/
theorem granted_false {s : State} {i : Nat} (h : s.cfg.concurrency ≤ s.runningPeers.length + s.lowerClaims i) :
    s.granted i = false :=
  decide_eq_false (not_lt.mpr h)

/-- A remote step is resolved by what the peers show (R133). -/
theorem stepResolved_remote_of_eq {s x : State} {r : StepRecord} (hpeers : x.peers = s.peers) (hown : x.own = s.own)
    (hr : r.owner ≠ s.own) : x.stepResolved r = s.stepResolved r := by
  rw [stepResolved_remote hr, stepResolved_remote (hown ▸ hr)]
  simp only [State.heardRecord, hpeers]

/-- The evaluation in which a PARK is over at once: a scan and an end finding may follow it, and a remote step unresolved
lets the end finding decide nothing (R42, R136, R152). -/
theorem ownSlot_parksAtOnce_ends {s : State} {i : Nat} {r : StepRecord} (h : s.OwnStep i r)
    (hst : s.plan.status i = some .claiming) (he : s.Evaluates) (hclaim : s.plan.claim = some i)
    (hidle : s.plan.running = false) (happlies : r.appliesTo s.engine.standing = true) (heligible : s.eligible r = true)
    (hheard : s.claimHeard = true) (hgranted : s.granted i = true) (htaken : s.stepAnswer r = .taken)
    (hpark : r.action = .park) (hs : s.still = true) (ha : s.atPark = true) :
    (ownSlot s).plan.status i = some .done ∧ (ownSlot s).plan.running = false ∧
    (s.engine.operation = .none → (ownSlot s).engine.parked = true ∧ (ownSlot s).engine.operation = .none) ∧
    ((∃ x ∈ s.plan.steps, x.owner ≠ s.own ∧ s.stepResolved x = false) →
      (ownSlot s).engine = { s.engine with parked := true } ∧ (ownSlot s).coord.phase = .homing ∧
      (ownSlot s).hold.faults = s.hold.faults) := by
  obtain ⟨z, hz, hleft, hdone, hmove, hengine, hhold, -, hpeers, hzlink, hsteps⟩ :=
    ownSlot_parksAtOnce h hst he hclaim hidle happlies heligible hheard hgranted htaken hpark hs ha
  obtain ⟨-, -, hkrunning, -⟩ := hleft.planKept
  refine ⟨(hleft.status i).trans (endFinding_resolved i .done z hz.phase hdone).1, hkrunning.trans ?stopped,
    fun hfree => ?free, fun ⟨y, hy, hremote, hunresolved⟩ => ?unresolved⟩
  case stopped =>
    rcases endFinding_plan hz with hplan | ⟨hstopped, -⟩
    · rw [hplan]
      exact hmove
    · exact hstopped
  case free =>
    obtain ⟨hzfree, hparked⟩ := endFinding_idle hz.level (by rw [hengine]; exact hfree)
    rw [hleft.engine]
    exact ⟨hparked.trans (by rw [hengine]), hzfree⟩
  case unresolved =>
    have hzy : z.stepResolved y = false :=
      (stepResolved_remote_of_eq hpeers (congrArg Link.station hzlink) hremote).trans hunresolved
    rw [endFinding_unresolved (hsteps ▸ hy) hzy] at hleft
    exact ⟨hleft.engine.trans hengine, hleft.phase.trans hz.phase, hleft.faults.trans (congrArg Hold.faults hhold)⟩

/-- Settles O8: the claim and the grant by the stage of the plan evaluation each takes, and the step's start by the
operation the engine takes. -/
theorem ownSlotClaimsAndGrantsSteps : Obligations.OwnSlotClaimsAndGrantsSteps := by
  intro dt s i r hrunning hlink ht hphase hlevel hstep hindex howner hidle
  have he : (advance dt s).Evaluates := ⟨hphase, hlevel, hlink⟩
  have h : (advance dt s).OwnStep i r := ⟨hstep, hindex, howner⟩
  rw [exec_ownSlotStart dt s hrunning hlink ht]
  refine ⟨fun happlies hneeds hguards hload => ?eligible, fun hclaim hst => ?retest⟩
  case eligible =>
    have heligible : (advance dt s).eligible r = true := (eligible_iff _ r).mpr ⟨hneeds, hguards, hload⟩
    refine ⟨fun hclaim hst hwait hfirst => ?claims, fun hclaim hst =>
      ⟨fun hunsent => ?kept, fun c q hc hq => ⟨fun hno => ?stands, fun hnewer hfew => ?grants⟩⟩⟩
    case claims =>
      obtain ⟨hleft, hplan⟩ := ownSlot_claims he h hclaim hst hfirst heligible (dealWith_claims happlies hwait)
      refine ⟨_, (claimStep i (advance dt s)).packRecord, rfl, ?_⟩
      rw [hplan]
      exact ⟨rfl, rfl, Plan.status_become rfl hst, fun j hj => Plan.table_other rfl hj, hidle, hleft.ownEntry, rfl, hidle,
        hleft.engine, hleft.keeps.1, hleft.keeps.2.1, hleft.keeps.2.2, hleft.phase.trans hphase, hleft.level.trans hlevel⟩
    case kept =>
      obtain ⟨hplan, hengine⟩ := ownSlot_claimKept he h hclaim hst hidle happlies heligible hunsent
      exact ⟨_, rfl, hplan, hengine⟩
    case stands =>
      have hno' : (advance dt s).claimHeard = false ∨ (advance dt s).granted i = false :=
        hno.imp (fun hold => (claimHeard_sent hc hq).trans hold) fun hmany => granted_false hmany
      have hleft := ownSlot_claimStands he h hclaim hst hidle happlies heligible hno'
      exact ⟨_, rfl, hleft.planUnkept (claimKept_sent hq), hleft.engine⟩
    case grants =>
      have hheard : (advance dt s).claimHeard = true := (claimHeard_sent hc hq).trans hnewer
      have hgranted : (advance dt s).granted i = true := decide_eq_true hfew
      refine ⟨fun htaken hpos hneg ho hfar hwait => ?runs, fun htaken hpark hs ha => ?parks, fun hbusy => ?busy,
        stepAnswer_ne_refusedHold r hlevel, fun hinvalid => ?invalid⟩
      case runs =>
        have hbeyond : r.action = .park → ((advance dt s).begun i).still = true → ((advance dt s).begun i).atPark = false :=
          fun hpark hs => Bool.eq_false_iff.mpr (mt (atPark_iff (advance dt s)).mp (not_le.mpr (hfar hpark hs)))
        obtain ⟨e, x, hstart, hparks, hseeks⟩ :=
          startOperation_started (s := (advance dt s).begun i) hpos hneg ho hbeyond hwait
        obtain ⟨hleft, hplan⟩ := ownSlot_runs h hst he hclaim hidle happlies heligible hheard hgranted htaken hstart
        obtain ⟨hstandby, hsensing, hmem⟩ := hleft.keeps
        rw [hindex] at hparks hseeks
        refine ⟨_, ((((advance dt s).begun i).setEngine e).setPort x).packRecord, rfl, ?_⟩
        rw [hplan, hleft.engine]
        exact ⟨rfl, begun_status hst, hclaim, fun j hj => Plan.table_other rfl hj, hleft.gate.trans (begun_gate i he),
          hleft.ownEntry, by simp [State.packRecord, hclaim], rfl, hparks, hseeks, hstandby, hsensing, hmem,
          hleft.phase.trans hphase, hleft.level.trans hlevel⟩
      case parks =>
        obtain ⟨hdone, hstopped, hfree, hopen⟩ :=
          ownSlot_parksAtOnce_ends h hst he hclaim hidle happlies heligible hheard hgranted htaken hpark hs
            ((atPark_iff (advance dt s)).mpr ha)
        exact ⟨_, rfl, hdone, hstopped, hfree, hopen, (ownSlot_leaves he rfl).keeps⟩
      case busy =>
        obtain ⟨hleft, hplan⟩ :=
          ownSlot_grantBusy h hst he hclaim hidle happlies heligible hheard hgranted hbusy
        obtain ⟨hwplan, hwengine, hwcoord, hwhold, -⟩ := (advance dt s).grantWithdrawn_keeps i
        refine ⟨_, rfl, ?_⟩
        rw [hplan, hwplan, hleft.engine, hleft.level, hleft.faults, hleft.phase, hwengine, hwcoord, hwhold]
        exact ⟨rfl, rfl, rfl, Plan.status_become (p := (advance dt s).plan.modifyStep i (StepState.become .running)) rfl
          (Plan.status_become rfl hst), fun x hx => by simp [Plan.modifyStep, hx, StepState.become],
          fun j hj => (Plan.table_other (p := (advance dt s).plan.modifyStep i (StepState.become .running)) rfl hj).trans
            (Plan.table_other rfl hj), rfl, hlevel, rfl, hphase, hleft.keeps⟩
      case invalid =>
        obtain ⟨hfault, hhalted, hstopped, hnone⟩ :=
          ownSlot_grantInvalid h hst he hclaim hidle happlies heligible hheard hgranted hinvalid
        exact ⟨_, rfl, hfault, hhalted, hstopped, hnone, (ownSlot_leaves he rfl).keeps⟩
  case retest =>
    refine ⟨fun hskip => ?skips, fun happlies hno hindices => ?withdraws⟩
    case skips =>
      obtain ⟨hskipped, hnot, hstopped⟩ := ownSlot_skips he h hclaim hst hidle hskip
      exact ⟨_, rfl, hskipped, hnot, hstopped, (ownSlot_leaves he rfl).keeps⟩
    case withdraws =>
      have hineligible : (advance dt s).eligible r = false := (eligible_false_iff _ r).mpr hno
      refine ⟨fun hnone => ?nothing, fun j q hjstep hjindex hjowner hj hfirst hneeds hguards hload hqapplies hqa => ?another⟩
      case nothing =>
        obtain ⟨hleft, hplan⟩ := ownSlot_withdraws he h hclaim hst hidle happlies hineligible hindices hnone
        refine ⟨_, rfl, ?_⟩
        rw [hplan]
        exact ⟨Plan.status_become rfl hst, rfl, rfl, rfl, fun j hj => Plan.table_other rfl hj, hleft.engine,
          hleft.phase.trans hphase, hleft.faults, hleft.keeps⟩
      case another =>
        have hleft := ownSlot_withdrawsAndClaims he h hclaim hst hidle happlies hineligible hindices
          (⟨hjstep, hjindex, hjowner⟩ : (advance dt s).OwnStep j q) hj hfirst
          ((eligible_iff _ q).mpr ⟨hneeds, hguards, hload⟩) hqapplies hqa
        have hij : i ≠ j := fun heq => by simp [← heq, hst] at hj
        have hwj : (withdrawClaim i .pending (advance dt s)).plan.status j = some .pending :=
          (Plan.status_other (p := s.plan) rfl hij.symm).trans hj
        have hwi : (withdrawClaim i .pending (advance dt s)).plan.status i = some .pending := Plan.status_become rfl hst
        obtain ⟨hktable, hkclaim, hkrunning, -⟩ := hleft.planKept
        refine ⟨_, rfl, ?_, hkclaim, hleft.claimSent rfl, ?_, hkrunning, fun k hki hkj => ?_, hleft.engine,
          hleft.phase.trans hphase, hleft.keeps⟩
        · exact (hleft.status i).trans
            ((Plan.status_other (p := (withdrawClaim i .pending (advance dt s)).plan) rfl hij).trans hwi)
        · exact (hleft.status j).trans (Plan.status_become rfl hwj)
        · rw [hktable]
          exact (Plan.table_other (p := (withdrawClaim i .pending (advance dt s)).plan) rfl hkj).trans
            (Plan.table_other (p := s.plan) rfl hki)

end Sys2Proof.Machine
end

section
/-! What every command leaves of the motion gate and the hold. -/

namespace Sys2Proof.Machine

/-- A command completes and keeps the gate safe (R165, R168, R170). -/
def State.KeepsGate (s : State) (o : Host.Outcome State Fault Refusal) : Prop :=
  ∃ t, o = .next t ∧ (s.gateSafe → t.gateSafe)

/-- A command acts on the state `dt` later where its guard is met, and lets the time pass alone where not (log entries 2
and 3). -/
theorem keepsGate_guarded {dt : Time} {s u : State} {c : Bool} (h : (advance dt s).gateSafe → u.gateSafe) :
    s.KeepsGate (.next (if c then u else advance dt s)) := by
  rw [advance_safe] at h
  cases c
  · exact ⟨_, rfl, by simp⟩
  · exact ⟨_, rfl, h⟩

/-- A request keeps the gate safe where its decision does: its opening and its response reach neither gate nor level
(R200, R201). -/
theorem keepsGate_request {dt : Time} {s : State} (keepsKey : Bool) (n : Nat) (ps : List Byte) {d : State → Reply}
    (h : ∀ x : State, x.gateSafe → (d x).state.gateSafe) :
    s.KeepsGate (.next (answerRequest keepsKey n ps d (advance dt s))) :=
  ⟨_, rfl, fun hs => answerRequest_property State.gateSafe _ _ _ _ _ (fun _ _ => id) (fun _ => id) h
    (by rwa [advance_safe])⟩

/-- Every command keeps the gate safe: each by the rule of its form and by what its operation keeps. -/
theorem exec_keepsGate (c : Instr) (s : State) : s.KeepsGate (exec c s) := by
  cases c
  case configure | planClear | planStep | planSeal | join | status | peers | position | order | faults | calRead
      | journalRead | faultClear | abandon | survey | trim | calCommit | resume | restart | lockoutClear | shutdown
      | reset | unknownRequestCode =>
    exact keepsGate_request _ _ _ fun x h => by simp [h, Reply.refuse]
  case nresetAssert =>
    refine ⟨_, rfl, fun h => ?_⟩
    split
    · simpa using h
    · exact assertReset_safe _ (by simpa using h)
  case indexEdge | beatEnd =>
    refine keepsGate_guarded fun h => ?_
    split <;> simp [h]
  case retryTimerEnd => exact keepsGate_guarded id
  all_goals
    exact keepsGate_guarded fun h => by simp [h]

/-- Settles O58: a step executes the front command, which keeps the gate safe; with no command nothing changes. -/
theorem everyStepKeepsTheGateSafe : Obligations.EveryStepKeepsTheGateSafe := by
  intro s t hs ht
  unfold step at ht
  split at ht
  · injection ht with ht
    exact ht ▸ hs
  · rename_i c rest _
    obtain ⟨u, hu, hkeeps⟩ := exec_keepsGate c (s.setPending rest)
    injection ht.symm.trans hu with htu
    exact htu ▸ hkeeps hs

end Sys2Proof.Machine
end

section
/-! Requests out of form, and the events of a transaction beside the requests. -/

namespace Sys2Proof.Machine

/-! ### Requests out of form (R177, R201) -/

/-- A request of a wrong length is answered INVALID on the opened state, LOCKOUT_CLEAR on the arrived one, which keeps the
key count (R177, R201). -/
theorem answerRequest_outOfForm (keepsKey : Bool) (n : Nat) (ps : List Byte) (d : State → Reply) (dt : Time) (s : State)
    (h : s.portReady = true) (hl : ps.length ≠ n) :
    answerRequest keepsKey n ps d (advance dt s) =
      (if keepsKey = true then s.arrived dt else s.opened dt).respond .invalid [] := by
  simp only [answerRequest, portReady_advance dt s h, if_true, if_neg hl]
  cases keepsKey <;> rfl

theorem exec_outOfForm (c : Instr) (n : Nat) (ps : List Byte) (s : State) (h : s.portReady = true)
    (hc : c.request = some (n, ps)) (hl : ps.length ≠ n) :
    exec c s = .next ((if c.isLockoutClear = true then s.arrived c.elapsed else s.opened c.elapsed).respond .invalid []) := by
  cases c
  case configure | planClear | planStep | planSeal | join | status | peers | position | order | faults | calRead
      | journalRead | faultClear | abandon | survey | trim | calCommit | resume | restart | lockoutClear | shutdown
      | reset =>
    obtain ⟨rfl, rfl⟩ := Prod.mk.inj (Option.some.inj hc)
    exact congrArg Host.Outcome.next (answerRequest_outOfForm _ _ _ _ _ s h hl)
  all_goals cases hc

theorem exec_unknownRequestCode (dt : Time) (code : Byte) (ps : List Byte) (s : State) (h : s.portReady = true) :
    exec (.unknownRequestCode dt code ps) s = .next (s.refused dt .invalid) :=
  congrArg Host.Outcome.next (answerRequest_taken ps.length ps (.refuse .invalid) dt s h rfl)

/-! ### The events of a transaction (R177, R201, R211) -/

theorem exec_requestCodeReceived (dt : Time) (code : Byte) (s : State) (h : s.portReady = true) :
    exec (.requestCodeReceived dt code) s = .next (receiveCode code (advance dt s)) :=
  congrArg Host.Outcome.next (if_pos h)

/-- A code other than LOCKOUT_CLEAR's resets the key count (R177). -/
theorem receiveCode_opens (dt : Time) {code : Byte} (s : State) (h : code ≠ lockoutClearCode) :
    receiveCode code (advance dt s) = { s.opened dt with port := { (s.opened dt).port with receiving := some code } } :=
  if_neg h

/-- The code of LOCKOUT_CLEAR keeps it (R177). -/
theorem receiveCode_arrives (dt : Time) {code : Byte} (s : State) (h : code = lockoutClearCode) :
    receiveCode code (advance dt s) = { s.arrived dt with port := { (s.arrived dt).port with receiving := some code } } :=
  if_pos h

theorem exec_transactionCut (dt : Time) (s : State) (h : s.portReady = true) :
    exec (.transactionCut dt) s = .next (s.arrived dt) :=
  congrArg Host.Outcome.next (if_pos h)

/-- The rise of nCS after a whole STATUS response removes the reported causes (R211). -/
theorem exec_statusResponseEnd (dt : Time) (s : State) (h : s.portReady = true) :
    exec (.statusResponseEnd dt) s = .next { s.later dt with
      port := { s.port with attention := s.port.attention.diff s.port.reported, reported := .empty } } :=
  congrArg Host.Outcome.next (if_pos h)

theorem exec_reset (dt : Time) (s : State) (h : s.portReady = true) :
    exec (.reset dt []) s = .next (closeRequest (decideReset (s.opened dt))) :=
  congrArg Host.Outcome.next (answerRequest_taken 0 [] decideReset dt s h rfl)

/-- Settles O4: by the length check, then event by event. -/
theorem requestsOutOfFormAndTransactionEvents : Obligations.RequestsOutOfFormAndTransactionEvents := by
  refine ⟨fun c n ps s h hc hl => exec_outOfForm c n ps s h hc hl,
    fun dt code ps s h => exec_unknownRequestCode dt code ps s h,
    fun dt code s h => ⟨fun hcode => ?opens, fun hcode => ?arrives, exec_transactionCut dt s h, ?reported⟩,
    fun dt s h => exec_reset dt s h⟩
  case opens => rw [exec_requestCodeReceived dt code s h, receiveCode_opens dt s hcode]
  case arrives => rw [exec_requestCodeReceived dt code s h, receiveCode_arrives dt s hcode]
  case reported => exact ⟨_, exec_statusResponseEnd dt s h, rfl, rfl, rfl, rfl, rfl, rfl, rfl⟩

end Sys2Proof.Machine
end

section
/-! The fault list. -/

namespace Sys2Proof.Machine

/-- An append keeps the eight most recent records (R157). -/
theorem appendFault_eq (l : List FaultRecord) (r : FaultRecord) :
    appendFault l r = (l ++ [r]).drop (l.length + 1 - 8) := by
  unfold appendFault
  split
  case isTrue hroom => rw [Nat.sub_eq_zero_of_le (by omega), List.drop_zero]
  case isFalse hfull =>
    rw [List.drop_append_of_le_length (by omega)]
    congr 2

/-- Whatever the list was, an append leaves at most eight records (R157). -/
theorem appendFault_length_le (l : List FaultRecord) (r : FaultRecord) : (appendFault l r).length ≤ 8 := by
  rw [appendFault_eq, List.length_drop, List.length_append, List.length_singleton]
  omega

theorem exec_faultClear (dt : Time) (s : State) (h : s.portReady = true) :
    exec (.faultClear dt []) s = .next (closeRequest (decideFaultClear (s.opened dt))) :=
  congrArg Host.Outcome.next (answerRequest_taken 0 [] decideFaultClear dt s h rfl)

theorem exec_faults (dt : Time) (s : State) (h : s.portReady = true) :
    exec (.faults dt []) s = .next (closeRequest (decideFaults (s.opened dt))) :=
  congrArg Host.Outcome.next (answerRequest_taken 0 [] decideFaults dt s h rfl)

/-- Settles O9: by the record appended, the two requests, and the start values. -/
theorem faultListKeepsEightMostRecent : Obligations.FaultListKeepsEightMostRecent := by
  refine ⟨fun code cls o step d s => ?recorded, fun dt s h => ⟨exec_faultClear dt s h, exec_faults dt s h⟩,
    fun _ _ _ _ => rfl⟩
  case recorded =>
    rw [recordFault_faults]
    exact ⟨appendFault_eq _ _, appendFault_length_le _ _⟩

end Sys2Proof.Machine
end

section
/-! The motion gate: its next state, its outputs and the movement requests. -/

namespace Sys2Proof.Machine

/-! ### The next state (R166 to R168) -/

theorem nextGate_dropped {s : State} (h : s.hold.level.dropped = true) : nextGate s = .closed := if_pos h

theorem nextGate_permitted {s : State} (hd : s.hold.level.dropped = false) (hp : s.permitted = true) :
    nextGate s = .opened := by
  simp [nextGate, hd, hp]

section
variable {s : State} (hd : s.hold.level.dropped = false) (hp : s.permitted = false)
include hd hp

/-- A gate that is CLOSED waits for nothing (R167). -/
theorem nextGate_closed (hg : s.gate = .closed) : nextGate s = .closed := by
  simp [nextGate, hd, hp, hg]

/-- A gate that loses its permission waits for the standstill, and at the standstill for the brake (R167). -/
theorem nextGate_awaitsStill (hg : s.gate = .opened ∨ s.gate = .awaitStill) :
    nextGate s = if s.still = true then (if s.braked = true then .closed else .awaitBrake) else .awaitStill := by
  rcases hg with hg | hg <;> simp [nextGate, hd, hp, hg]

/-- A gate that awaits the brake does not look at the standstill again (R167). -/
theorem nextGate_awaitsBrake (hg : s.gate = .awaitBrake) :
    nextGate s = if s.braked = true then .closed else .awaitBrake := by
  simp [nextGate, hd, hp, hg]

end

/-! ### The requests and the permission (R165) -/

theorem moveRequested_iff (s : State) : s.moveRequested = true ↔
    s.plan.running = true ∨ (∃ c, s.engine.operation = .survey c) ∨ s.coord.phase = .ready := by
  cases ho : s.engine.operation <;> simp [State.moveRequested, ho]

theorem permitted_iff (s : State) : s.permitted = true ↔
    s.moveRequested = true ∧ s.hold.level = .none ∧ (s.coord.phase = .homing ∨ s.coord.phase = .ready) := by
  simp [State.permitted, and_assoc]

/-- At STOP, and at NONE outside HOMING and READY or without a request, the gate is not permitted (R165). -/
theorem permitted_false {s : State} (h : s.hold.level = .stop ∨ (s.hold.level = .none ∧
      ((s.coord.phase ≠ .homing ∧ s.coord.phase ≠ .ready) ∨ s.moveRequested = false))) : s.permitted = false := by
  rw [Bool.eq_false_iff, ne_eq, permitted_iff]
  rintro ⟨hmove, hlevel, hphase⟩
  rcases h with h | ⟨-, ⟨hhoming, hready⟩ | h⟩
  · simp [hlevel] at h
  · exact hphase.elim hhoming hready
  · simp [hmove] at h

/-! ### The outputs (R165) -/

theorem moveOk_iff {s : State} (h : s.running = true) : s.moveOk = true ↔ s.gate ≠ .closed := by
  simp [State.moveOk, h]

theorem brakeOk_iff {s : State} (h : s.running = true) :
    s.brakeOk = true ↔ (s.gate = .opened ∨ s.gate = .awaitStill) := by
  simp [State.brakeOk, h]

/-- Settles O38: by the level, then by the permission, then by the gate's state. -/
theorem gateFollowsPermissionAndStandstill : Obligations.GateFollowsPermissionAndStandstill := by
  intro s
  refine ⟨⟨nextGate s, rfl, fun hl => ?dropped, fun hl hp hm => ?permitted, fun h => ?waits⟩,
    fun hr => ⟨moveOk_iff hr, brakeOk_iff hr⟩, moveRequested_iff s⟩
  case dropped => exact nextGate_dropped (by rcases hl with hl | hl <;> rw [hl] <;> rfl)
  case permitted => exact nextGate_permitted (by rw [hl]; rfl) ((permitted_iff s).mpr ⟨hm, hl, hp⟩)
  case waits =>
    have hd : s.hold.level.dropped = false := by rcases h with hl | ⟨hl, -⟩ <;> rw [hl] <;> rfl
    have hp := permitted_false h
    refine ⟨nextGate_closed hd hp, fun hg hs => ?moving, fun hg hs hb => ?unbraked, fun hg hs hb => ?braked,
      fun hg hb => ?released, fun hg hb => ?engaged⟩
    case moving => rw [nextGate_awaitsStill hd hp hg]; simp [State.still, hs]
    case unbraked => rw [nextGate_awaitsStill hd hp hg]; simp [State.still, State.braked, hs, hb]
    case braked => rw [nextGate_awaitsStill hd hp hg]; simp [State.still, State.braked, hs, hb]
    case released => rw [nextGate_awaitsBrake hd hp hg]; simp [State.braked, hb]
    case engaged => rw [nextGate_awaitsBrake hd hp hg]; simp [State.braked, hb]

end Sys2Proof.Machine
end

section
/-! An entry that runs out of time. -/

namespace Sys2Proof.Machine

theorem exec_entryDeadline (dt : Time) {s : State} (hr : s.running = true) : exec (.entryDeadline dt) s = .next
    (if !s.hold.complete && (advance dt s).passed s.hold.deadline then escalateEntry (advance dt s) else s.later dt) := by
  show Host.Outcome.next (if s.running && !s.hold.complete && (advance dt s).passed s.hold.deadline then
    escalateEntry (advance dt s) else s.later dt) = _
  rw [hr, Bool.true_and]

/-! ### The fault of an escalation (R154, R171) -/

/-- The detail of STOP_TIMEOUT and DROP_TIMEOUT has the bits of the stations the entry waited for (R154, R171). -/
theorem unsettled_set {s : State} {b : Nat} (hb : b < 256)
    (h : ∀ j : Station, b.testBit j.val = if j = s.own then !s.settled
      else match s.heardRecord j with | some r => !r.settledFor s.hold.seq | none => false) :
    stationSet s.unsettled = (b : Int) :=
  stationSet_testBit _ b hb fun j => (h j).trans rfl

/-- A fault noted stays in the list through what records at most one fault more. -/
theorem noteFault_kept {f : State → State} (code : FaultCode) (cls : FaultClass) (step : Option Nat) (d : Int) (s : State)
    (hown : ∀ x : State, (f x).own = x.own)
    (hrecent : ∀ (r : FaultRecord) (x : State), recentFault 1 r x.hold.faults → recentFault 2 r (f x).hold.faults) :
    (f (noteFault code cls step d s)).hasFault code cls step d := by
  have hnoted := recentFault_append_self s.hold.faults (s.recordOf code.byte cls s.own step (sat32 d))
  rw [← noteFault_faults] at hnoted
  exact ⟨_, recentFault_mem (hrecent _ _ hnoted), rfl, rfl, by rw [hown]; simp [State.recordOf, State.own], rfl, rfl⟩

/-! ### The two escalations (R161, R171) -/

/-- A level that changes leaves HOLD_CHANGED (R211). -/
theorem setLevel_changed {l : HoldLevel} {s : State} (h : s.hold.level ≠ l) :
    (setLevel l s).port.attention.has .holdChanged = true := by
  simp [setLevel, h]

theorem escalateEntry_stop {s : State} (h : s.hold.level = .stop) : escalateEntry s =
    beginEntry (noteFault .stopTimeout .escalation none (stationSet s.unsettled) (setLevel .drop s)) := by
  simp only [escalateEntry, h]

theorem escalateEntry_drop {s : State} (h : s.hold.level = .drop) : escalateEntry s =
    enterLockout true (noteFault .dropTimeout .escalation none (stationSet s.unsettled) (setLevel .lockout s)) := by
  simp only [escalateEntry, h]

/-- A STOP that runs out of time becomes a DROP with an entry of its own (R161, R168, R171). -/
theorem escalateEntry_drops {s : State} (h : s.hold.level = .stop) :
    (escalateEntry s).hold.level = .drop ∧
    (escalateEntry s).hasFault .stopTimeout .escalation none (stationSet s.unsettled) ∧
    (escalateEntry s).hold.deadline = (if (escalateEntry s).hold.complete = true then none
      else some (s.now + s.cfg.dropLimit * 1000000)) ∧
    ((escalateEntry s).hold.cause = s.hold.cause ∧ (escalateEntry s).hold.origin = s.hold.origin) ∧
    (escalateEntry s).gate = .closed ∧ (escalateEntry s).engine.order = .stop .hold ∧
    (escalateEntry s).port.attention.has .holdChanged = true := by
  obtain ⟨u, hu⟩ : ∃ u, u = noteFault .stopTimeout .escalation none (stationSet s.unsettled) (setLevel .drop s) := ⟨_, rfl⟩
  have hfault : (beginEntry u).hasFault .stopTimeout .escalation none (stationSet s.unsettled) :=
    hu ▸ noteFault_kept _ _ _ _ _ (fun x => by simp [State.own]) fun r x hr => beginEntry_recent x (by omega) hr
  have hkept : u.hold.level = .drop ∧ u.hold.cause = s.hold.cause ∧ u.hold.origin = s.hold.origin ∧ u.now = s.now ∧
      u.cfg = s.cfg := by simp [hu, State.cfg]
  obtain ⟨hlevel, hcause, horigin, hnow, hcfg⟩ := hkept
  have hchanged : u.port.attention.has .holdChanged = true :=
    hu ▸ noteFault_has _ _ _ _ _ _ (setLevel_changed (by simp [h]))
  obtain ⟨hdrop, hgate, -, hdeadline⟩ := beginEntry_drop u hlevel
  obtain ⟨hcause', horigin', -, -, -, horder⟩ := beginEntry_spec u
  rw [escalateEntry_stop h, ← hu]
  exact ⟨hdrop, hfault, by rw [hdeadline, hnow, hcfg], ⟨hcause'.trans hcause, horigin'.trans horigin⟩, hgate, horder,
    beginEntry_has _ _ hchanged⟩

/-- A DROP that runs out of time becomes a LOCKOUT, whose record is posted (R107, R161, R168, R171; log entry 58). -/
theorem escalateEntry_locks {s : State} (h : s.hold.level = .drop) :
    (escalateEntry s).hold.level = .lockout ∧
    (escalateEntry s).hasFault .dropTimeout .escalation none (stationSet s.unsettled) ∧
    ((escalateEntry s).hold.deadline = none ∧ (escalateEntry s).hold.complete = false) ∧
    (escalateEntry s).store.busyWith .lockRecord = true ∧
    ((escalateEntry s).hold.cause = s.hold.cause ∧ (escalateEntry s).hold.origin = s.hold.origin) ∧
    (escalateEntry s).gate = .closed ∧ (escalateEntry s).engine.order = .stop .hold ∧
    (escalateEntry s).port.attention.has .holdChanged = true := by
  obtain ⟨u, hu⟩ : ∃ u, u = noteFault .dropTimeout .escalation none (stationSet s.unsettled) (setLevel .lockout s) :=
    ⟨_, rfl⟩
  have hfault : (enterLockout true u).hasFault .dropTimeout .escalation none (stationSet s.unsettled) :=
    hu ▸ noteFault_kept _ _ _ _ _ (fun x => by simp [State.own]) fun r x hr => enterLockout_recent true x (by omega) hr
  have hkept : u.hold.level = .lockout ∧ u.hold.cause = s.hold.cause ∧ u.hold.origin = s.hold.origin := by simp [hu]
  obtain ⟨hlevel, hcause, horigin⟩ := hkept
  have hchanged : u.port.attention.has .holdChanged = true :=
    hu ▸ noteFault_has _ _ _ _ _ _ (setLevel_changed (by simp [h]))
  obtain ⟨hlockout, hgate, -, hcause', horigin', hdeadline, hcomplete, horder, hbusy⟩ := enterLockout_spec u hlevel
  rw [escalateEntry_drop h, ← hu]
  exact ⟨hlockout, hfault, ⟨hdeadline, hcomplete⟩, hbusy, ⟨hcause'.trans hcause, horigin'.trans horigin⟩, hgate, horder,
    enterLockout_has _ _ _ hchanged⟩

/-- Either escalation is of the same hold, with the gate CLOSED and STOP ordered (R161, R168, R171). -/
theorem escalateEntry_holds {s : State} (h : s.hold.level = .stop ∨ s.hold.level = .drop) :
    ((escalateEntry s).hold.cause = s.hold.cause ∧ (escalateEntry s).hold.origin = s.hold.origin) ∧
    (escalateEntry s).gate = .closed ∧ (escalateEntry s).engine.order = .stop .hold ∧
    (escalateEntry s).port.attention.has .holdChanged = true := by
  rcases h with hstop | hdrop
  · obtain ⟨-, -, -, hheld⟩ := escalateEntry_drops hstop
    exact hheld
  · obtain ⟨-, -, -, -, hheld⟩ := escalateEntry_locks hdrop
    exact hheld

/-- Settles O43: by the guard of the deadline, and by the level the entry has. -/
theorem entryDeadlineEscalates : Obligations.EntryDeadlineEscalates := by
  intro dt s b hr hb hbits
  rw [exec_entryDeadline dt hr]
  refine ⟨fun hquiet => ?quiet, fun d hc hd hpassed hl => ?escalates⟩
  case quiet =>
    refine congrArg Host.Outcome.next (if_neg ?_)
    rcases hquiet with hc | hnone | ⟨d, hd, hlt⟩
    · simp [hc]
    · simp [hnone, State.passed]
    · simp [hd, State.passed, Nat.not_le.mpr hlt]
  case escalates =>
    have hset : stationSet (advance dt s).unsettled = (b : Int) := unsettled_set hb hbits
    have hdue : (!s.hold.complete && (advance dt s).passed s.hold.deadline) = true := by
      simp [hc, hd, State.passed, hpassed]
    rw [if_pos hdue]
    refine ⟨_, rfl, fun hstop => ?drops, fun hdrop => ?locks, ?seq, ?_⟩
    case drops =>
      obtain ⟨hlevel, hfault, hdeadline, -⟩ := escalateEntry_drops (s := advance dt s) hstop
      exact ⟨hlevel, hset ▸ hfault, hdeadline⟩
    case locks =>
      obtain ⟨hlevel, hfault, ⟨hdeadline, hcomplete⟩, hbusy, -⟩ := escalateEntry_locks (s := advance dt s) hdrop
      exact ⟨hlevel, hset ▸ hfault, hdeadline, hcomplete, hbusy⟩
    case seq => simp
    obtain ⟨⟨hcause, horigin⟩, hgate, horder, hchanged⟩ := escalateEntry_holds (s := advance dt s) hl
    exact ⟨hcause, horigin, hgate, horder, hchanged, by simp⟩

end Sys2Proof.Machine
end

section
/-! RESUME: its answers, and a complete hold that it ends. -/

namespace Sys2Proof.Machine

theorem exec_resume (dt : Time) (s : State) (h : s.portReady = true) :
    exec (.resume dt []) s = .next (closeRequest (decideResume (s.opened dt))) :=
  congrArg Host.Outcome.next (answerRequest_taken 0 [] decideResume dt s h rfl)

/-! ### The answers (R174) -/

theorem decideResume_idle {s : State} (h : s.hold.level = .none) : decideResume s = .refuse .idle s := by
  simp only [decideResume, h]

theorem decideResume_lockout {s : State} (h : s.hold.level = .lockout) : decideResume s = .refuse .refusedHold s := by
  simp only [decideResume, h]

theorem decideResume_busy {s : State} (h : s.hold.level = .stop ∨ s.hold.level = .drop) (hc : s.hold.complete = false) :
    decideResume s = .refuse .busy s := by
  rcases h with h | h <;> simp [decideResume, h, hc]

/-- The hold whose end is to be shown to the peers: the resume flag names its sequence (R174). -/
def State.resumeFlagged (s : State) : State := s.setHold { s.hold with resume := true, resumeFor := s.hold.seq }

theorem decideResume_taken {s : State} (h : s.hold.level = .stop ∨ s.hold.level = .drop) (hc : s.hold.complete = true) :
    decideResume s = .ok [] (resumeHold s.resumeFlagged) := by
  rcases h with h | h <;> simp [decideResume, h, hc, State.resumeFlagged]

/-! ### What a resume leaves beside the hold's level (R103, R174, R176) -/

/-- A resume leaves the sequence that the resume flag names (R174). -/
theorem resumeHold_resumeFor (s : State) : (resumeHold s).hold.resumeFor = s.hold.resumeFor := by
  have hhold : (resumeHold s).hold = s.resumed.hold := by rw [resumeHold_eq]; simp
  have hkept := congrArg Hold.resumeFor (resumed_hold s)
  rw [hhold]
  exact hkept

/-- A resume clears the closing flag (R103, R176). -/
theorem resumeHold_closing (s : State) : (resumeHold s).store.closing = none := by
  have hclosed : (levelToNone s).store.closing = none := by rw [(levelToNone_spec s).2.2]
  have hresumed : s.resumed.store.closing = none :=
    resumed_of (fun x => x.store.closing = none) s hclosed (by simpa using hclosed) (by simpa using hclosed)
      (by simpa using hclosed)
  obtain ⟨p, q, hstage⟩ := stageTest_store (gateUpdate s.resumed)
  rw [resumeHold_eq, hstage]
  simpa using hresumed

/-- A response reaches nothing that the gate's permission is read from. -/
theorem respond_permitted (s : State) (st : PortStatus) (data : List Byte) :
    (s.respond st data).permitted = s.permitted := rfl

/-- Settles O17: by the level and the entry, and by what a resume leaves. -/
theorem resumeEndsCompleteHold : Obligations.ResumeEndsCompleteHold := by
  intro dt s hready
  rw [exec_resume dt s hready]
  refine ⟨fun hl => ?idle, fun hl => ?lockout, fun hl hc => ?busy, fun hl hc => ?taken⟩
  case idle => rw [decideResume_idle (s := s.opened dt) hl]; rfl
  case lockout => rw [decideResume_lockout (s := s.opened dt) hl]; rfl
  case busy => rw [decideResume_busy (s := s.opened dt) hl hc]; rfl
  case taken =>
    rw [decideResume_taken (s := s.opened dt) hl hc, closeRequest_ok]
    obtain ⟨x, hx⟩ : ∃ x, x = (s.opened dt).resumeFlagged := ⟨_, rfl⟩
    obtain ⟨⟨hnone, hcomplete, hdeadline⟩, ⟨hseq, hcause, horigin, hresume⟩, horder, hcoord, hgate, hchanged⟩ :=
      resumeHold_spec x
    have hfor := resumeHold_resumeFor x
    have hclosing := resumeHold_closing x
    have hheld : x.hold.level ≠ .none := by
      have hlevel : x.hold.level = s.hold.level := by rw [hx]; rfl
      rcases hl with hl | hl <;> simp [hlevel, hl]
    have hphase := congrArg Coord.phase hcoord
    rw [apply_ite Coord.phase] at hphase
    rw [← hx]
    refine ⟨_, rfl, rfl, hnone, hcomplete, hdeadline, ?_⟩
    subst hx
    exact ⟨hseq, hcause, horigin, hresume, hfor, horder, hclosing, hchanged hheld, hgate, hphase,
      by simp [State.resumeFlagged]⟩

end Sys2Proof.Machine
end

section
/-! SHUTDOWN: its answers, and the hold it raises. -/

namespace Sys2Proof.Machine

theorem exec_shutdown (dt : Time) (s : State) (h : s.portReady = true) :
    exec (.shutdown dt []) s = .next (closeRequest (decideShutdown (s.opened dt))) :=
  congrArg Host.Outcome.next (answerRequest_taken 0 [] decideShutdown dt s h rfl)

/-! ### The answers (R179) -/

theorem decideShutdown_busy {s : State} (h : s.still = false ∨ s.braked = false) :
    decideShutdown s = .refuse .busy s :=
  if_pos (by rcases h with h | h <;> simp [h])

section
variable {s : State} (hs : s.still = true) (hb : s.braked = true)
include hs hb

theorem decideShutdown_held (h : s.hold.level = .lockout ∨
      ((s.hold.level = .stop ∨ s.hold.level = .drop) ∧ s.hold.complete = false)) :
    decideShutdown s = .refuse .refusedHold s := by
  rcases h with h | ⟨h | h, hc⟩
  · simp [decideShutdown, hs, hb, h]
  · simp [decideShutdown, hs, hb, h, hc, HoldLevel.entering]
  · simp [decideShutdown, hs, hb, h, hc, HoldLevel.entering]

theorem decideShutdown_taken (h : s.hold.level = .none ∨
      ((s.hold.level = .stop ∨ s.hold.level = .drop) ∧ s.hold.complete = true)) :
    decideShutdown s = .ok [] (raiseHold .shutdown 0 s) := by
  rcases h with h | ⟨h | h, hc⟩
  · simp [decideShutdown, hs, hb, h, HoldLevel.entering]
  · simp [decideShutdown, hs, hb, h, hc]
  · simp [decideShutdown, hs, hb, h, hc]

end

/-- Settles O20: by the conditions of the table, and by the hold a HOLD-class fault raises. -/
theorem shutdownRaisesItsHold : Obligations.ShutdownRaisesItsHold := by
  intro dt s hready
  rw [exec_shutdown dt s hready]
  refine ⟨fun h => ?busy, fun hs hb => ⟨fun hl => ?held, fun hl => ?taken⟩⟩
  case busy => rw [decideShutdown_busy (s := s.opened dt) h]; rfl
  case held => rw [decideShutdown_held (s := s.opened dt) hs hb hl]; rfl
  case taken =>
    rw [decideShutdown_taken (s := s.opened dt) hs hb hl, closeRequest_ok]
    obtain ⟨hlevel, hseq, hcause, horigin, hresume, horder, hcoord⟩ := raiseHold_new .shutdown 0 (s.opened dt) hl
    have hfault : (raiseHold .shutdown 0 (s.opened dt)).hasFault .shutdown .hold none 0 :=
      raiseFault_hasFault .shutdown .hold none 0 (s.opened dt)
    exact ⟨_, rfl, rfl, hlevel, hseq, hcause, horigin, hresume, horder, hfault, raiseHold_changed .shutdown 0 (s.opened dt) hl,
      by simp⟩

end Sys2Proof.Machine
end

section
/-! LOCKOUT_CLEAR: its answers, and the lockout it clears. -/

namespace Sys2Proof.Machine

theorem exec_lockoutClear (dt : Time) (s : State) (h : s.portReady = true) :
    exec (.lockoutClear dt []) s = .next (closeRequest (decideLockoutClear (s.arrived dt))) :=
  congrArg Host.Outcome.next (answerRequest_keeping 0 [] decideLockoutClear dt s h rfl)

/-! ### The refusals (R177) -/

theorem decideLockoutClear_phase {s : State} (hp : s.coord.phase = .isolated) :
    decideLockoutClear s = .refuse .refusedPhase (setKeyCount 0 s) := if_pos hp

theorem decideLockoutClear_idle {s : State} (hp : s.coord.phase ≠ .isolated) (hl : s.hold.level ≠ .lockout) :
    decideLockoutClear s = .refuse .idle (setKeyCount 0 s) := by
  simp [decideLockoutClear, hp, hl]

theorem decideLockoutClear_notKey {s : State} (hp : s.coord.phase ≠ .isolated) (hl : s.hold.level = .lockout)
    (hk : s.sensing.keySw.level = false) : decideLockoutClear s = .refuse .notKey (setKeyCount 0 s) := by
  simp [decideLockoutClear, hp, hl, hk]

/-! ### The count of three (R177) -/

/-- The last key instant does not lie within 2 s: there is none, or it is older (R177). -/
theorem keyInTime_false {s : State} (h : ∀ k, s.hold.lastKey = some k → k + ms 2000 < s.now) : s.keyInTime = false := by
  unfold State.keyInTime
  split
  · exact decide_eq_false (Nat.not_le.mpr (h _ ‹_›))
  · rfl

theorem keyInTime_true {s : State} {k : Time} (hk : s.hold.lastKey = some k) (h : s.now ≤ k + ms 2000) :
    s.keyInTime = true := by
  simp [State.keyInTime, hk, h]

/-- A request that counts, at its instant (R177). -/
def State.keyed (s : State) (n : Nat) : State := s.setHold { s.hold with keyCount := n, lastKey := some s.now }

section
variable {s : State} (hp : s.coord.phase ≠ .isolated) (hl : s.hold.level = .lockout) (hk : s.sensing.keySw.level = true)
include hp hl hk

theorem decideLockoutClear_first (h : s.hold.keyCount = 0 ∨ s.keyInTime = false) :
    decideLockoutClear s = .ok [1] (s.keyed 1) := by
  simp [decideLockoutClear, hp, hl, hk, h, State.keyed, setKeyCount, State.setHold]

theorem decideLockoutClear_second (ht : s.keyInTime = true) (hn : s.hold.keyCount = 1) :
    decideLockoutClear s = .ok [2] (s.keyed 2) := by
  simp [decideLockoutClear, hp, hl, hk, ht, hn, State.keyed, setKeyCount, State.setHold]

theorem decideLockoutClear_third (ht : s.keyInTime = true) (hn : s.hold.keyCount = 2) :
    decideLockoutClear s = .ok [0] (clearLockout (s.keyed 0)) := by
  simp [decideLockoutClear, hp, hl, hk, ht, hn, State.keyed, setKeyCount, State.setHold]

end

/-! ### What a cleared lockout leaves (R107, R108, R178) -/

/-- The lockout-clear flag is set as LOCK_CLEAR is posted (R107, R178). -/
def State.lockCleared (s : State) : State :=
  (postLockClear s).setHold { s.hold with lockClear := true, lockClearLeft := s.cfg.peerLossLimit }

theorem clearLockout_eq (s : State) :
    clearLockout s = gateUpdate (useDropMotion (levelToNone (setPhase .halted s.lockCleared))) := by
  have hhold : (postLockClear s).hold = s.hold := by simp
  have hcfg : (postLockClear s).cfg = s.cfg := by simp [State.cfg]
  rw [State.lockCleared, ← hhold, ← hcfg]
  rfl

/-- A cleared lockout leaves the hold but for its level, its entry, the lockout-clear flag and the fault list (R178). -/
theorem clearLockout_hold (s : State) : ∃ l, (clearLockout s).hold =
    { s.hold with
      level := .none, complete := false, deadline := none, lockClear := true, lockClearLeft := s.cfg.peerLossLimit
      faults := l } := by
  obtain ⟨l, hhalted⟩ := setPhase_hold .halted s.lockCleared
  obtain ⟨hnone, -, -⟩ := levelToNone_spec (setPhase .halted s.lockCleared)
  have hend : ∀ x : State, (gateUpdate (useDropMotion x)).hold = x.hold := fun x => by simp
  exact ⟨l, by rw [clearLockout_eq, hend, hnone, hhalted]; rfl⟩

/-- No LOCK_RECORD is pending any more (R107, R108). -/
theorem clearLockout_pending (s : State) : (clearLockout s).store.isPending .lockRecord = false := by
  obtain ⟨-, hposted⟩ := postLockClear_store s
  obtain ⟨-, -, hstore⟩ := levelToNone_spec (setPhase .halted s.lockCleared)
  have hpending : (clearLockout s).store.pending = (postLockClear s).store.pending := by
    have hkept : s.lockCleared.store = (postLockClear s).store := rfl
    rw [clearLockout_eq]
    simp [hstore, hkept]
  rwa [Store.isPending, ← hpending] at hposted

/-- Settles O19: by the conditions of the table in order, and by what a cleared lockout leaves. -/
theorem lockoutClearNeedsThreeKeys : Obligations.LockoutClearNeedsThreeKeys := by
  intro dt s hready
  rw [exec_lockoutClear dt s hready]
  refine ⟨fun hp => ?phase, fun hp hl => ?idle, fun hp hl hk => ?notKey,
    fun hp hl hk => ⟨fun h => ?first, fun k hlast ht => ?inTime⟩⟩
  case phase => rw [decideLockoutClear_phase (s := s.arrived dt) hp]; rfl
  case idle => rw [decideLockoutClear_idle (s := s.arrived dt) hp hl]; rfl
  case notKey => rw [decideLockoutClear_notKey (s := s.arrived dt) hp hl hk]; rfl
  case first =>
    rw [decideLockoutClear_first (s := s.arrived dt) hp hl hk (h.imp id keyInTime_false)]
    rfl
  case inTime =>
    have hin : (s.arrived dt).keyInTime = true := keyInTime_true hlast ht
    refine ⟨fun hn => ?second, fun hn => ?third⟩
    case second => rw [decideLockoutClear_second (s := s.arrived dt) hp hl hk hin hn]; rfl
    case third =>
      rw [decideLockoutClear_third (s := s.arrived dt) hp hl hk hin hn, closeRequest_ok]
      obtain ⟨x, hx⟩ : ∃ x, x = (s.arrived dt).keyed 0 := ⟨_, rfl⟩
      obtain ⟨-, -, -, -, -, hbusy, horder, hcoord⟩ := clearLockout_spec x
      obtain ⟨l, hhold⟩ := clearLockout_hold x
      have hphase : (clearLockout x).coord.phase = .halted := by
        rw [hcoord]
        split
        · assumption
        · rfl
      have hpending := clearLockout_pending x
      rw [← hx]
      refine ⟨_, rfl, rfl, ?_⟩
      simp only [State.respond_keeps]
      rw [hhold]
      subst hx
      exact ⟨rfl, rfl, rfl, rfl, rfl, rfl, rfl, rfl, rfl, rfl, hphase, hbusy, hpending, horder, by simp [State.keyed]⟩

end Sys2Proof.Machine
end

section
/-! The answers that SURVEY and TRIM share: by the reference state, and by a sighting or an own proposal. -/

namespace Sys2Proof.Machine

section
variable {s : State}

theorem referencedAnswer_invalid (h : s.engine.refState = .unreferenced ∨ s.engine.refState = .provisional) :
    s.referencedAnswer = .invalid := by
  rcases h with h | h <;> simp only [State.referencedAnswer, h]

theorem referencedAnswer_busy (h : s.engine.refState = .seeking ∨ s.engine.refState = .captured ∨
      s.engine.refState = .surveying ∨ (s.engine.refState = .referenced ∧ ∃ k, s.engine.operation = .park k)) :
    s.referencedAnswer = .busy := by
  rcases h with h | h | h | ⟨h, k, hk⟩
  · simp only [State.referencedAnswer, h]
  · simp only [State.referencedAnswer, h]
  · simp only [State.referencedAnswer, h]
  · simp only [State.referencedAnswer, h, hk]

/-- A REFERENCED station that is not parking takes the request unless a hold stands (R29). -/
theorem referencedAnswer_idle (h : s.engine.refState = .referenced) (hpark : ∀ k, s.engine.operation ≠ .park k) :
    s.referencedAnswer = s.takeUnlessHeld := by
  cases ho : s.engine.operation with
  | park k => exact absurd ho (hpark k)
  | none => simp only [State.referencedAnswer, h, ho]
  | seek c => simp only [State.referencedAnswer, h, ho]
  | survey c => simp only [State.referencedAnswer, h, ho]

theorem takeUnlessHeld_none (h : s.hold.level = .none) : s.takeUnlessHeld = .taken := if_pos h

theorem takeUnlessHeld_held (h : s.hold.level ≠ .none) : s.takeUnlessHeld = .refusedHold := if_neg h

theorem calHeld_true (h : s.cal.sighting.isSome = true ∨ s.cal.proposal.isSome = true) : s.calHeld = true := by
  rw [State.calHeld, Bool.or_eq_true]
  exact h

theorem calHeld_false (hs : s.cal.sighting = none) (hp : s.cal.proposal = none) : s.calHeld = false := by
  simp [State.calHeld, hs, hp]

end

end Sys2Proof.Machine
end

section
/-! SURVEY: its answers, and the first phase of a survey that is taken. -/

namespace Sys2Proof.Machine

theorem exec_survey (dt : Time) (p : List Byte) (s : State) (h : s.portReady = true) (hp : p.length = 3) :
    exec (.survey dt p) s = .next (closeRequest (decideSurvey p (s.opened dt))) :=
  congrArg Host.Outcome.next (answerRequest_taken 3 p (decideSurvey p) dt s h hp)

/-! ### The answers (R185) -/

section
variable {s : State} (p : List Byte)

theorem decideSurvey_phase (h : s.coord.phase ≠ .ready) : decideSurvey p s = .refuse .refusedPhase s := if_pos h

section
variable (hp : s.coord.phase = .ready)
include hp

theorem decideSurvey_answered {a : EngineAnswer} {st : PortStatus} (ha : s.referencedAnswer = a)
    (h : a.refusal = some st) : decideSurvey p s = .refuse st s := by
  simp [decideSurvey, hp, ha, h]

variable (ha : s.referencedAnswer = .taken)
include ha

theorem decideSurvey_calHeld (hc : s.calHeld = true) : decideSurvey p s = .refuse .busy s := by
  simp [decideSurvey, hp, ha, EngineAnswer.refusal, hc]

variable (hc : s.calHeld = false)
include hc

theorem decideSurvey_invalid (h : SurveyKind.ofCode (rd p 0 1) = none ∨
      ∃ k, SurveyKind.ofCode (rd p 0 1) = some k ∧ k.inTravel (rdSigned16 p 1) s.cfg = false) :
    decideSurvey p s = .refuse .invalid s := by
  rcases h with h | ⟨k, hk, h⟩
  · simp [decideSurvey, hp, ha, EngineAnswer.refusal, hc, h]
  · simp [decideSurvey, hp, ha, EngineAnswer.refusal, hc, hk, h]

theorem decideSurvey_taken {k : SurveyKind} (hk : SurveyKind.ofCode (rd p 0 1) = some k)
    (h : k.inTravel (rdSigned16 p 1) s.cfg = true) :
    decideSurvey p s = .ok [] (startSurvey k (rdSigned16 p 1) s) := by
  simp [decideSurvey, hp, ha, EngineAnswer.refusal, hc, hk, h]

end
end

/-! ### A survey that begins (R185, R186) -/

/-- The context of a survey as it is taken: no capture yet, its start at the counter (R46, R185). -/
def State.surveyContext (s : State) (k : SurveyKind) (m : Int) : SurveyContext where
  kind := k
  mark := m
  phase := 1
  first := none
  second := none
  measure := none
  start := s.standby.counter
  phaseStart := s.standby.counter
  base := s.standby.counter
  stall := s.stallNow
  endCause := none
  failPhase := 0

/-- The state of a survey taken, before its first order: SURVEYING, the last result absent, the gate by the movement
request (R165, R185). -/
def State.surveyBegun (s : State) (k : SurveyKind) (m : Int) : State :=
  gateUpdate ((s.setEngine { s.engine with
    refState := .surveying, parked := false, operation := .survey (s.surveyContext k m) }).setCal
    { s.cal with result := none })

theorem startSurvey_eq (k : SurveyKind) (m : Int) (s : State) :
    startSurvey k m s = surveyEnterApproach (s.surveyContext k m) 1 (s.surveyBegun k m) := rfl

@[simp] theorem startSurvey_coord (k : SurveyKind) (m : Int) (s : State) : (startSurvey k m s).coord = s.coord := by
  rw [startSurvey_eq]
  simp [State.surveyBegun]

/-- A survey taken in READY with no hold finds the gate permitted (R165, R166). -/
theorem surveyBegun_gate {k : SurveyKind} {m : Int} {s : State} (hp : s.coord.phase = .ready)
    (hl : s.hold.level = .none) : (s.surveyBegun k m).gate = .opened := by
  refine gateUpdate_permitted _ ((permitted_iff _).mpr ⟨?requested, hl, .inr hp⟩)
  exact (moveRequested_iff _).mpr (.inr (.inr hp))

/-! ### The first phase, which may end at once (R28, R186, R187) -/

/-- The state with a phase of a survey and its order, the attention causes as in `x` (R26, R186). -/
def State.surveyOrdered (s : State) (q : SurveyContext) (o : MotionOrder) (x : Port) : State :=
  { s with
    engine := { s.engine with operation := .survey q, order := o }
    port := { s.port with attention := x.attention, reported := x.reported } }

section
variable {s : State} {c : SurveyContext} {g : Position} (ho : s.engine.order.reason ≠ some .hold)
include ho

/-- The GOTO of an approach toward no active limit (R26, R28). -/
theorem surveyEnterGoto_ordered (p : Nat) (hg : s.surveyTarget (s.surveyPhase c p) = g)
    (hpos : s.counter < g.toInt → s.sensing.limPos.level = false)
    (hneg : g.toInt < s.counter → s.sensing.limNeg.level = false) :
    ∃ x, surveyEnterGoto c p s = s.surveyOrdered (s.surveyPhase c p) (.goto g s.cfg.slow .survey) x := by
  obtain ⟨-, -, hfree⟩ := surveyEnterGoto_spec c p s ho _ g rfl hg.symm
  obtain ⟨x, hx⟩ := hfree hpos hneg
  exact ⟨x, hx⟩

/-- An approach toward no active limit goes on while the drive moves or stands far from the target; where it stands near,
the capture phase is entered from the GOTO (R186). -/
theorem surveyEnterApproach_ordered (p : Nat) (hg : s.surveyTarget (s.surveyPhase c p) = g) (hc : c.endCause = none)
    (hpos : s.counter < g.toInt → s.sensing.limPos.level = false)
    (hneg : g.toInt < s.counter → s.sensing.limNeg.level = false) :
    ∃ x, surveyEnterApproach c p s =
      if s.still = true ∧ |s.counter - g.toInt| ≤ (s.cfg.cps : Int) / 16 then
        surveyEnterCapture (s.surveyPhase c p) (p + 1)
          (s.surveyOrdered (s.surveyPhase c p) (.goto g s.cfg.slow .survey) x)
      else s.surveyOrdered (s.surveyPhase c p) (.goto g s.cfg.slow .survey) x := by
  obtain ⟨x, hx⟩ := surveyEnterGoto_ordered ho p hg hpos hneg
  have hnear : (surveyEnterGoto c p s).nearTarget (s.surveyPhase c p) = true ↔
      |s.counter - g.toInt| ≤ (s.cfg.cps : Int) / 16 := by
    rw [nearTarget_iff, hx, ← hg]
    rfl
  refine ⟨x, ?_⟩
  rw [surveyEnterApproach_of (q := s.surveyPhase c p) (by rw [hx]; rfl) hc, hx]
  rw [hx] at hnear
  simp only [hnear]

/-- The first phase toward an active limit raises OVERTRAVEL, and so does the JOG of a second phase entered at once
(R28). -/
theorem surveyEnterApproach_limited (hg : s.surveyTarget (s.surveyPhase c 1) = g) (hc : c.endCause = none) :
    (s.counter < g.toInt → s.sensing.limPos.level = true →
      (surveyEnterApproach c 1 s).hasFault .overtravel .hold none 1) ∧
    (g.toInt < s.counter → s.sensing.limNeg.level = true →
      (surveyEnterApproach c 1 s).hasFault .overtravel .hold none (-1)) ∧
    ((s.counter < g.toInt → s.sensing.limPos.level = false) →
      (g.toInt < s.counter → s.sensing.limNeg.level = false) →
      s.still = true ∧ |s.counter - g.toInt| ≤ (s.cfg.cps : Int) / 16 → s.sensing.limPos.level = true →
        (surveyEnterApproach c 1 s).hasFault .overtravel .hold none 1) := by
  obtain ⟨hpos, hneg, -⟩ := surveyEnterGoto_spec c 1 s ho _ g rfl hg.symm
  refine ⟨fun hlt hl => surveyEnterApproach_overtravel (hpos hlt hl),
    fun hlt hl => surveyEnterApproach_overtravel (hneg hlt hl), fun hp hn hnear hl => ?_⟩
  obtain ⟨x, hx⟩ := surveyEnterApproach_ordered ho 1 hg hc hp hn
  obtain ⟨hlimit, -⟩ := surveyEnterCapture_spec (s.surveyPhase c 1) 2
    (s.surveyOrdered (s.surveyPhase c 1) (.goto g s.cfg.slow .survey) x) (by simp [State.surveyOrdered, MotionOrder.reason])
    _ _ rfl rfl
  rw [hx, if_pos hnear]
  exact hlimit rfl hl

/-- A first phase that does not end at once stands with its GOTO (R186, R187). -/
theorem surveyEnterApproach_far (hg : s.surveyTarget (s.surveyPhase c 1) = g) (hc : c.endCause = none)
    (hpos : s.counter < g.toInt → s.sensing.limPos.level = false)
    (hneg : g.toInt < s.counter → s.sensing.limNeg.level = false)
    (hfar : ¬(s.still = true ∧ |s.counter - g.toInt| ≤ (s.cfg.cps : Int) / 16)) :
    ∃ x, surveyEnterApproach c 1 s = s.surveyOrdered (s.surveyPhase c 1) (.goto g s.cfg.slow .survey) x := by
  obtain ⟨x, hx⟩ := surveyEnterApproach_ordered ho 1 hg hc hpos hneg
  exact ⟨x, hx.trans (if_neg hfar)⟩

/-- A first phase that ends at once leaves the second with its JOG POSITIVE (R186 to R188). -/
theorem surveyEnterApproach_near (hg : s.surveyTarget (s.surveyPhase c 1) = g) (hc : c.endCause = none)
    (hneg : g.toInt < s.counter → s.sensing.limNeg.level = false)
    (hnear : s.still = true ∧ |s.counter - g.toInt| ≤ (s.cfg.cps : Int) / 16) (hl : s.sensing.limPos.level = false) :
    ∃ x, surveyEnterApproach c 1 s = s.surveyOrdered (s.surveyPhase c 2)
      (.jog .positive (if c.kind = .backlash then s.cfg.creep else s.cfg.slow) .survey) x := by
  obtain ⟨x, hx⟩ := surveyEnterApproach_ordered ho 1 hg hc (fun _ => hl) hneg
  obtain ⟨-, -, hfree⟩ := surveyEnterCapture_spec (s.surveyPhase c 1) 2
    (s.surveyOrdered (s.surveyPhase c 1) (.goto g s.cfg.slow .survey) x) (by simp [State.surveyOrdered, MotionOrder.reason])
    _ _ rfl rfl
  obtain ⟨y, hy⟩ := hfree (fun _ => hl) nofun
  exact ⟨y, (hx.trans (if_pos hnear)).trans hy⟩

end

/-! ### What a survey taken leaves (R185 to R188) -/

/-- `t` is `s` with a survey taken: in its first phase, or in its second where the first has ended at once (R185 to
R188). -/
def State.surveyTaken (s : State) (k : SurveyKind) (m : Int) (g : Position) (atOnce : Prop) (t : State) : Prop :=
  t.engine.refState = .surveying ∧ t.engine.parked = false ∧
  (∃ c, t.engine.operation = .survey c ∧ c.kind = k ∧ c.mark = m ∧ c.start = s.standby.counter ∧ c.first = none ∧
    c.second = none ∧ c.endCause = none ∧ (¬atOnce → c.phase = 1) ∧ (atOnce → c.phase = 2)) ∧
  (¬atOnce → t.engine.order = .goto g s.cfg.slow .survey) ∧
  (atOnce → k = .backlash → t.engine.order = .jog .positive s.cfg.creep .survey) ∧
  (atOnce → k = .ratio → t.engine.order = .jog .positive s.cfg.slow .survey) ∧
  t.cal = { s.cal with result := none } ∧ t.gate = .opened ∧ t.hold = s.hold ∧ t.plan = s.plan ∧ t.link = s.link ∧
  t.store = s.store

/-- The target of a survey's first phase (R187, R188). -/
theorem surveyBegun_target (k : SurveyKind) (m : Int) (s : State) :
    (s.surveyBegun k m).surveyTarget ((s.surveyBegun k m).surveyPhase (s.surveyContext k m) 1) =
      BitVec.ofInt 40 (m * s.cps - s.cal.trim - s.cps / 4) := by
  rw [surveyTarget_approach _ _ rfl, State.expected, Int.add_zero]
  rfl

theorem startSurvey_taken {k : SurveyKind} {m : Int} {g : Position} {atOnce : Prop} {s : State}
    (ho : s.engine.order.reason ≠ some .hold) (hp : s.coord.phase = .ready) (hl : s.hold.level = .none)
    (hg : g = BitVec.ofInt 40 (m * s.cps - s.cal.trim - s.cps / 4))
    (hat : atOnce ↔ s.still = true ∧ |s.counter - g.toInt| ≤ (s.cfg.cps : Int) / 16)
    (hpos : s.counter < g.toInt → s.sensing.limPos.level = false)
    (hneg : g.toInt < s.counter → s.sensing.limNeg.level = false) (hjog : atOnce → s.sensing.limPos.level = false) :
    s.surveyTaken k m g atOnce (startSurvey k m s) := by
  have htarget := (surveyBegun_target k m s).trans hg.symm
  have hgate := surveyBegun_gate (k := k) (m := m) hp hl
  rw [startSurvey_eq]
  by_cases hnear : atOnce
  · obtain ⟨x, hx⟩ := surveyEnterApproach_near (s := s.surveyBegun k m) ho htarget rfl hneg (hat.mp hnear) (hjog hnear)
    rw [hx]
    exact ⟨rfl, rfl, ⟨_, rfl, rfl, rfl, rfl, rfl, rfl, rfl, absurd hnear, fun _ => rfl⟩, absurd hnear,
      fun _ hk => by subst hk; rfl, fun _ hk => by subst hk; rfl, rfl, hgate, rfl, rfl, rfl, rfl⟩
  · obtain ⟨x, hx⟩ := surveyEnterApproach_far (s := s.surveyBegun k m) ho htarget rfl hpos hneg (mt hat.mpr hnear)
    rw [hx]
    exact ⟨rfl, rfl, ⟨_, rfl, rfl, rfl, rfl, rfl, rfl, rfl, fun _ => rfl, fun h => absurd h hnear⟩, fun _ => rfl,
      fun h => absurd h hnear, fun h => absurd h hnear, rfl, hgate, rfl, rfl, rfl, rfl⟩

/-- Settles O14: by the conditions of R185 in order, and by the limits on the way of a survey taken. -/
theorem surveyEntersItsFirstPhase : Obligations.SurveyEntersItsFirstPhase := by
  intro dt p s hready hlen
  rw [exec_survey dt p s hready hlen]
  refine ⟨fun hp => ?phase, fun hp => ⟨fun h => ?unreferenced, fun h => ?engaged, fun hs hpark =>
    ⟨fun hl => ?held, fun hl => ⟨fun h => ?sighting, fun hsight hprop => ⟨fun h => ?invalid, ?taken⟩⟩⟩⟩⟩
  case phase => rw [decideSurvey_phase (s := s.opened dt) p hp]; rfl
  case unreferenced =>
    rw [decideSurvey_answered (s := s.opened dt) p hp (referencedAnswer_invalid h) rfl]; rfl
  case engaged => rw [decideSurvey_answered (s := s.opened dt) p hp (referencedAnswer_busy h) rfl]; rfl
  case held =>
    have ha : (s.opened dt).referencedAnswer = .refusedHold :=
      (referencedAnswer_idle hs hpark).trans (takeUnlessHeld_held hl)
    rw [decideSurvey_answered (s := s.opened dt) p hp ha rfl]; rfl
  all_goals
    have ha : (s.opened dt).referencedAnswer = .taken := (referencedAnswer_idle hs hpark).trans (takeUnlessHeld_none hl)
  case sighting => rw [decideSurvey_calHeld (s := s.opened dt) p hp ha (calHeld_true h)]; rfl
  case invalid => rw [decideSurvey_invalid (s := s.opened dt) p hp ha (calHeld_false hsight hprop) h]; rfl
  case taken =>
    intro k hk htravel ho g hg atOnce hat
    rw [decideSurvey_taken (s := s.opened dt) p hp ha (calHeld_false hsight hprop) hk htravel, closeRequest_ok]
    have htarget := (surveyBegun_target k (rdSigned16 p 1) (s.opened dt)).trans hg.symm
    obtain ⟨hpos, hneg, hjog⟩ :=
      surveyEnterApproach_limited (s := (s.opened dt).surveyBegun k (rdSigned16 p 1)) ho htarget rfl
    refine ⟨_, rfl, rfl, ?_⟩
    refine ⟨by simp, by simp, by simp, by simp, by simp, by simp, by simp, hpos, hneg, fun hp' hn' =>
      ⟨fun hnear => hjog hp' hn' (hat.mp hnear), fun hfree => ?_⟩⟩
    exact startSurvey_taken (s := s.opened dt) ho hp hl hg hat hp' hn' hfree

end Sys2Proof.Machine
end

section
/-! TRIM: its answers, and the pending ZERO_TRIM. -/

namespace Sys2Proof.Machine

theorem exec_trim (dt : Time) (p : List Byte) (s : State) (h : s.portReady = true) (hp : p.length = 5) :
    exec (.trim dt p) s = .next (closeRequest (decideTrim p (s.opened dt))) :=
  congrArg Host.Outcome.next (answerRequest_taken 5 p (decideTrim p) dt s h hp)

/-! ### The answer by the reference state (R29) -/

section
variable {s : State}

theorem trimAnswer_invalid (h : s.engine.refState = .unreferenced ∨ s.engine.refState = .provisional) :
    s.trimAnswer = .invalid := by
  simp only [State.trimAnswer, referencedAnswer_invalid h]

theorem trimAnswer_still (h : s.still = true) : s.trimAnswer = s.referencedAnswer := by
  cases ha : s.referencedAnswer <;> simp [State.trimAnswer, ha, h]

/-- Without standstill a REFERENCED station is BUSY, whether it parks, is held or could take the request (R29; log entry
18). -/
theorem trimAnswer_moving (h : s.engine.refState = .referenced) (hs : s.still = false) : s.trimAnswer = .busy := by
  by_cases hpark : ∃ k, s.engine.operation = .park k
  · simp only [State.trimAnswer, referencedAnswer_busy (.inr (.inr (.inr ⟨h, hpark⟩)))]
  · have ha := referencedAnswer_idle h (not_exists.mp hpark)
    by_cases hl : s.hold.level = .none
    · simp [State.trimAnswer, ha, takeUnlessHeld_none hl, hs]
    · simp [State.trimAnswer, ha, takeUnlessHeld_held hl, hs]

theorem trimAnswer_busy (h : s.engine.refState = .seeking ∨ s.engine.refState = .captured ∨
      s.engine.refState = .surveying ∨
      (s.engine.refState = .referenced ∧ ((∃ k, s.engine.operation = .park k) ∨ s.still = false))) :
    s.trimAnswer = .busy := by
  have engaged : s.referencedAnswer = .busy → s.trimAnswer = .busy := fun ha => by simp only [State.trimAnswer, ha]
  rcases h with h | h | h | ⟨h, hpark | hs⟩
  · exact engaged (referencedAnswer_busy (.inl h))
  · exact engaged (referencedAnswer_busy (.inr (.inl h)))
  · exact engaged (referencedAnswer_busy (.inr (.inr (.inl h))))
  · exact engaged (referencedAnswer_busy (.inr (.inr (.inr ⟨h, hpark⟩))))
  · exact trimAnswer_moving h hs

end

/-! ### The answers (R184) -/

section
variable {s : State} (p : List Byte)

theorem decideTrim_phase (h : s.coord.phase ≠ .ready) : decideTrim p s = .refuse .refusedPhase s := if_pos h

section
variable (hp : s.coord.phase = .ready)
include hp

theorem decideTrim_answered {a : EngineAnswer} {st : PortStatus} (ha : s.trimAnswer = a) (h : a.refusal = some st) :
    decideTrim p s = .refuse st s := by
  simp [decideTrim, hp, ha, h]

variable (ha : s.trimAnswer = .taken)
include ha

theorem decideTrim_calHeld (hc : s.calHeld = true) : decideTrim p s = .refuse .busy s := by
  simp [decideTrim, hp, ha, EngineAnswer.refusal, hc]

variable (hc : s.calHeld = false)
include hc

theorem decideTrim_beyond (h : (s.cfg.cps : Int) ≤ |s.trimValue (rdPosition p 0)|) :
    decideTrim p s = .refuse .invalid s := by
  rw [Int.abs_eq_natAbs, Int.ofNat_le] at h
  simp [decideTrim, hp, ha, EngineAnswer.refusal, hc, h]

theorem decideTrim_taken (h : |s.trimValue (rdPosition p 0)| < (s.cfg.cps : Int)) :
    decideTrim p s = .ok (be32 (BitVec.ofInt 32 (s.trimValue (rdPosition p 0))))
      (s.setCal { s.cal with pendTrim := some (s.trimValue (rdPosition p 0)) }) := by
  rw [Int.abs_eq_natAbs, Int.ofNat_lt, ← not_le] at h
  simp [decideTrim, hp, ha, EngineAnswer.refusal, hc, h]

end
end

/-- Settles O15: by the conditions of R184 in order, and by the value TRIM computes. -/
theorem trimFillsPendingTrim : Obligations.TrimFillsPendingTrim := by
  intro dt p s hready hlen
  rw [exec_trim dt p s hready hlen]
  refine ⟨fun hp => ?phase, fun hp => ⟨fun h => ?unreferenced, fun h => ?engaged, fun hs hpark hstill =>
    ⟨fun hl => ?held, fun hl => ⟨fun h => ?sighting, fun hsight hprop v hv => ⟨fun h => ?beyond, fun h => ?taken⟩⟩⟩⟩⟩
  case phase => rw [decideTrim_phase (s := s.opened dt) p hp]; rfl
  case unreferenced => rw [decideTrim_answered (s := s.opened dt) p hp (trimAnswer_invalid h) rfl]; rfl
  case engaged => rw [decideTrim_answered (s := s.opened dt) p hp (trimAnswer_busy h) rfl]; rfl
  all_goals
    have hanswer : (s.opened dt).trimAnswer = (s.opened dt).takeUnlessHeld :=
      (trimAnswer_still hstill).trans (referencedAnswer_idle hs hpark)
  case held =>
    rw [decideTrim_answered (s := s.opened dt) p hp (hanswer.trans (takeUnlessHeld_held hl)) rfl]; rfl
  all_goals have ha : (s.opened dt).trimAnswer = .taken := hanswer.trans (takeUnlessHeld_none hl)
  case sighting => rw [decideTrim_calHeld (s := s.opened dt) p hp ha (calHeld_true h)]; rfl
  all_goals subst hv
  case beyond => rw [decideTrim_beyond (s := s.opened dt) p hp ha (calHeld_false hsight hprop) h]; rfl
  case taken => rw [decideTrim_taken (s := s.opened dt) p hp ha (calHeld_false hsight hprop) h]; rfl

end Sys2Proof.Machine
end

section
/-! CAL_COMMIT: its answers, and the proposal of the next generation. -/

namespace Sys2Proof.Machine

theorem exec_calCommit (dt : Time) (s : State) (h : s.portReady = true) :
    exec (.calCommit dt []) s = .next (closeRequest (decideCalCommit (s.opened dt))) :=
  congrArg Host.Outcome.next (answerRequest_taken 0 [] decideCalCommit dt s h rfl)

/-! ### The answers (R190) -/

section
variable {s : State}

theorem nextGeneration_some (hg : s.cal.generation ≠ 0xFFFF) : s.cal.nextGeneration = some (s.cal.generation + 1) :=
  if_neg hg

theorem decideCalCommit_phase (h : s.coord.phase ≠ .ready) : decideCalCommit s = .refuse .refusedPhase s := if_pos h

section
variable (hp : s.coord.phase = .ready)
include hp

theorem decideCalCommit_held (hl : s.hold.level ≠ .none) : decideCalCommit s = .refuse .refusedHold s := by
  simp [decideCalCommit, hp, hl]

variable (hl : s.hold.level = .none)
include hl

theorem decideCalCommit_invalid (h : s.cal.generation = 0xFFFF ∨ s.cal.flipFailed = true) :
    decideCalCommit s = .refuse .invalid s := by
  by_cases hg : s.cal.generation = 0xFFFF
  · have hnext : s.cal.nextGeneration = none := if_pos hg
    simp [decideCalCommit, hp, hl, hnext]
  · simp [decideCalCommit, hp, hl, nextGeneration_some hg, h.resolve_left hg]

variable (hg : s.cal.generation ≠ 0xFFFF) (hf : s.cal.flipFailed = false)
include hg hf

theorem decideCalCommit_busy (hb : s.commitBusy = true) : decideCalCommit s = .refuse .busy s := by
  simp [decideCalCommit, hp, hl, nextGeneration_some hg, hf, hb]

theorem decideCalCommit_taken (hb : s.commitBusy = false) :
    decideCalCommit s = .ok (be16 (s.cal.generation + 1)) (propose (s.cal.generation + 1) s) := by
  simp [decideCalCommit, hp, hl, nextGeneration_some hg, hf, hb]

end

/-- A station that is not BUSY has no sighting and no survey (R190). -/
theorem commitBusy_false (h : s.commitBusy = false) :
    s.cal.sighting = none ∧ s.engine.refState ≠ .surveying := by
  simp only [State.commitBusy, State.calHeld, Bool.or_eq_false_iff, Option.isSome_eq_false_iff,
    Option.isNone_iff_eq_none, decide_eq_false_iff_not] at h
  obtain ⟨⟨⟨-, hsight, -⟩, hsurvey⟩, -⟩ := h
  exact ⟨hsight, hsurvey⟩

/-! ### The staging test (R191, R192) -/

/-- Staging reaches the two flags of the sighting and the staged record alone of the calibration (R191, R192). -/
theorem stageTest_cal (s : State) : ∃ r a b, (stageTest s).cal =
    { s.cal with staged := r, stagedInSighting := a, sealedInSighting := b } := by
  simp only [stageTest, postWrite, grant, addPending]
  (repeat' split) <;> exact ⟨_, _, _, rfl⟩

/-- A station in READY, at NONE and not SURVEYING stages in a fresh sighting unless PFAIL is active (R191). -/
theorem stageTest_stages {g : BitVec 16} (hsight : s.cal.sighting = some g) (hfresh : s.cal.stagedInSighting = false)
    (hp : s.coord.phase = .ready) (hl : s.hold.level = .none) (hs : s.engine.refState ≠ .surveying) :
    (stageTest s).cal.stagedInSighting = true ↔ s.sensing.pfail.level = false := by
  cases hf : s.sensing.pfail.level with
  | true => simp [stageTest_pfail s hf, hfresh]
  | false =>
    obtain ⟨-, hstaged, -⟩ := postWrite_sightings (.calStage (s.stageRecord g))
      (s.setCal { s.cal with stagedInSighting := true })
    have hdue : stageTest s =
        postWrite (.calStage (s.stageRecord g)) (s.setCal { s.cal with stagedInSighting := true }) := by
      simp only [stageTest, hsight]
      exact if_pos (by simp [hfresh, hp, hl, hs, hf])
    rw [hdue, hstaged]
    exact iff_of_true rfl rfl

/-! ### The own proposal (R190, R191) -/

/-- The own proposal of generation `g` stands, in a sighting that has just begun (R190, R191). -/
def State.proposing (s : State) (g : BitVec 16) : State :=
  s.setCal { s.cal with
    proposal := some ⟨g, s.now, false⟩, sighting := some g, stagedInSighting := false, sealedInSighting := false }

/-- A proposal of the next generation begins its sighting, and the staging test follows (R191). -/
theorem propose_eq (hg : s.cal.generation ≠ 0xFFFF) (hn : s.cal.sighting = none) :
    propose (s.cal.generation + 1) s = stageTest (s.proposing (s.cal.generation + 1)) := by
  obtain ⟨u, hu⟩ : ∃ u, u = s.setCal { s.cal with proposal := some ⟨s.cal.generation + 1, s.now, false⟩ } := ⟨_, rfl⟩
  have hshown : u.sightingNow = some (s.cal.generation + 1) := by
    subst hu
    exact sightingNow_shown hg (by simp [State.proposed, Cal.generation])
  have hbegins : sightingUpdate u = u.setCal { u.cal with
      sighting := some (s.cal.generation + 1), stagedInSighting := false, sealedInSighting := false } := by
    rw [sightingUpdate, hshown, if_neg (by simp [hu, hn])]
  rw [propose, ← hu, hbegins, hu]
  rfl

/-- What a proposal of the next generation leaves of the calibration: the station has staged in its sighting unless PFAIL
is active (R190 to R192). -/
theorem propose_cal (hg : s.cal.generation ≠ 0xFFFF) (hn : s.cal.sighting = none) (hp : s.coord.phase = .ready)
    (hl : s.hold.level = .none) (hs : s.engine.refState ≠ .surveying) :
    ∃ r a b, (propose (s.cal.generation + 1) s).cal = { s.cal with
      proposal := some ⟨s.cal.generation + 1, s.now, false⟩, sighting := some (s.cal.generation + 1)
      staged := r, stagedInSighting := a, sealedInSighting := b } ∧ (a = true ↔ s.sensing.pfail.level = false) := by
  obtain ⟨r, a, b, hcal⟩ := stageTest_cal (s.proposing (s.cal.generation + 1))
  have hstages := stageTest_stages (s := s.proposing (s.cal.generation + 1)) rfl rfl hp hl hs
  rw [hcal] at hstages
  rw [propose_eq hg hn, hcal]
  exact ⟨r, a, b, rfl, hstages⟩

end

/-- Settles O16: by the conditions of R190 in order, and by the proposal with its sighting. -/
theorem calCommitProposesNextGeneration : Obligations.CalCommitProposesNextGeneration := by
  intro dt s hready
  rw [exec_calCommit dt s hready]
  refine ⟨fun hp => ?phase, fun hp hl => ?held, fun hp hl h => ?invalid,
    fun hp hl hg hf => ⟨fun hb => ?busy, fun hb => ?taken⟩⟩
  case phase => rw [decideCalCommit_phase (s := s.opened dt) hp]; rfl
  case held => rw [decideCalCommit_held (s := s.opened dt) hp hl]; rfl
  case invalid => rw [decideCalCommit_invalid (s := s.opened dt) hp hl h]; rfl
  case busy => rw [decideCalCommit_busy (s := s.opened dt) hp hl hg hf hb]; rfl
  case taken =>
    obtain ⟨hsight, hsurvey⟩ := commitBusy_false hb
    obtain ⟨r, a, b, hcal, hstages⟩ := propose_cal (s := s.opened dt) hg hsight hp hl hsurvey
    rw [decideCalCommit_taken (s := s.opened dt) hp hl hg hf hb, closeRequest_ok]
    refine ⟨_, rfl, rfl, ?_⟩
    simp only [State.respond_keeps]
    rw [hcal]
    exact ⟨rfl, rfl, rfl, rfl, rfl, rfl, rfl, hstages, by simp⟩

end Sys2Proof.Machine
end

section
/-! SURVEY_STALL_TIMEOUT: a running survey that has made no progress. -/

namespace Sys2Proof.Machine

theorem exec_surveyStallTimeout (dt : Time) {s : State} (hr : s.running = true) :
    exec (.surveyStallTimeout dt) s = .next (surveyStall (advance dt s)) := by
  simp only [exec, execSurveyStallTimeout, running_advance, hr, if_true]

/-- The stall fails a running survey whose window has stood for STALL_TIME, and no other (R186). -/
theorem surveyStall_eq {c : SurveyContext} {s : State} (ho : s.engine.operation = .survey c) : surveyStall s =
    if c.endCause = none ∧ c.stall.since + s.cfg.stallTime * 1000000 ≤ s.now then stageTest (surveyFail c c.phase s)
    else s := by
  simp only [surveyStall, ho, Bool.and_eq_true, Option.isNone_iff_eq_none, stalledFrom_iff]

/-- A SURVEYING station stages nothing (R191). -/
theorem stageTest_surveying {s : State} (h : s.engine.refState = .surveying) : stageTest s = s := by
  unfold stageTest
  split
  · rfl
  · exact if_neg (by simp [h])

/-- Settles O41: the stall fails the survey in its phase, and at standstill the survey ends at once. -/
theorem surveyStallFailsTheSurvey : Obligations.SurveyStallFailsTheSurvey := by
  intro dt s c hr href ho
  rw [exec_surveyStallTimeout dt hr, surveyStall_eq (s := advance dt s) ho]
  refine ⟨fun hnot => congrArg Host.Outcome.next (if_neg ?_), fun hc hdue hmoving => ?moving, fun hc hdue hstill => ?still⟩
  · rintro ⟨hc, hdue⟩
    exact hnot.elim (fun h => h hc) (fun h => absurd hdue (not_le.mpr h))
  all_goals rw [if_pos ⟨hc, hdue⟩]
  case moving =>
    rw [surveyFail_moving c c.phase (advance dt s) hmoving, stageTest_surveying (by simpa using href)]
    obtain ⟨x, hx, hadded, -⟩ := engineWrite_reach (.stop .survey) ((advance dt s).setEngine { s.engine with
      operation := .survey { c with endCause := some .failed, failPhase := c.phase } })
    exact ⟨x, congrArg Host.Outcome.next hx, hadded⟩
  case still =>
    obtain ⟨hnone, hstate, hdone, -, hcal, -, -, hfault⟩ := surveyFail_still c c.phase (advance dt s) hstill
    obtain ⟨hresult, hbacklash, htrim⟩ := stageTest_results (surveyFail c c.phase (advance dt s))
    rw [hcal] at hresult hbacklash htrim
    exact ⟨_, rfl, by simpa using hnone, by simpa using hstate, by simpa [CauseSet.has] using hdone, hresult,
      hasFault_of_faults hfault (by simp) (by simp [State.own]), hbacklash, htrim, by simp⟩

end Sys2Proof.Machine
end

section
/-! CONFIGURE: the first condition of R203 that holds, and the record taken. -/

namespace Sys2Proof.Machine

theorem exec_configure (dt : Time) (p : List Byte) (s : State) (h : s.portReady = true) (hp : p.length = 61) :
    exec (.configure dt p) s = .next (closeRequest (decideConfigure p (s.opened dt))) :=
  congrArg Host.Outcome.next (answerRequest_taken 61 p (decideConfigure p) dt s h hp)

/-- A record gives no configuration when a field of it fails its check (R203 to R205). -/
theorem parseConfiguration_none {own : Station} {p : List Byte} (h : (armFieldsOk own p && stationFieldsOk p) = false) :
    parseConfiguration own p = none := if_neg (Bool.not_eq_true _ ▸ h)

/-- A record whose fields pass their checks gives the configuration it spells (R203 to R205). -/
theorem parseConfiguration_some {own : Station} {p : List Byte} (ha : armFieldsOk own p = true)
    (hs : stationFieldsOk p = true) : parseConfiguration own p = some (decodeConfiguration p) := if_pos (by rw [ha, hs]; rfl)

theorem decideConfigure_phase {p : List Byte} {s : State} (hp : s.coord.phase ≠ .isolated) :
    decideConfigure p s = .refuse .refusedPhase s := if_pos hp

/-- CONFIGURE at a configured station, or with a field outside its range (R203). -/
theorem decideConfigure_invalid {p : List Byte} {s : State} (hp : s.coord.phase = .isolated)
    (hbad : s.port.config.isSome = true ∨ (armFieldsOk s.own p && stationFieldsOk p) = false) :
    decideConfigure p s = .refuse .invalid s := by
  rw [decideConfigure, if_neg (not_not.mpr hp)]
  split
  case isTrue => rfl
  case isFalse hnone => rw [parseConfiguration_none (hbad.resolve_left hnone)]

/-- CONFIGURE taken: the configuration, its digest and its dispositions (R155, R203). -/
theorem decideConfigure_taken {p : List Byte} {s : State} (hp : s.coord.phase = .isolated) (hc : s.port.config = none)
    (ha : armFieldsOk s.own p = true) (hs : stationFieldsOk p = true) :
    decideConfigure p s = .ok [] ((s.setPort { s.port with
      config := some (decodeConfiguration p), configDigest := some (crc16 (p.take 13)) }).setHold
        (s.hold.dispose (decodeConfiguration p))) := by
  rw [decideConfigure, if_neg (not_not.mpr hp), if_neg (by simp [hc]), parseConfiguration_some ha hs]
  rfl

/-- Settles O10: condition by condition of R203. -/
theorem configureAnswersInOrder : Obligations.ConfigureAnswersInOrder := by
  intro dt p s hready hlength
  rw [exec_configure dt p s hready hlength]
  refine ⟨fun hp => ?phase, fun hp hbad => ?invalid, fun hp hc ha hs => ?taken⟩
  case phase => rw [decideConfigure_phase (s := s.opened dt) hp]; rfl
  case invalid => rw [decideConfigure_invalid (s := s.opened dt) hp hbad]; rfl
  case taken => rw [decideConfigure_taken (s := s.opened dt) hp hc ha hs]; rfl

end Sys2Proof.Machine
end

section
/-! Bytes that stand at a place of a response's data. -/

namespace Sys2Proof.Machine

/-- The bytes `g` stand in `d` from offset `off` on. -/
def StandsAt (g d : List Byte) (off : Nat) : Prop := ∃ post, d.drop off = g ++ post

namespace StandsAt

variable {g d : List Byte} {off k : Nat}

theorem take (h : StandsAt g d off) : (d.drop off).take g.length = g := by
  obtain ⟨post, hpost⟩ := h
  rw [hpost, List.take_left]

theorem of_take {x : List Byte} (hx : (g.drop k).take x.length = x) : StandsAt x g k :=
  ⟨(g.drop k).drop x.length, by rw [← List.take_append_drop x.length (g.drop k), hx]; simp⟩

/-- What stands in a part stands in the whole. -/
theorem trans {x : List Byte} (h : StandsAt g d off) (hx : StandsAt x g k) : StandsAt x d (off + k) := by
  obtain ⟨post, hpost⟩ := h
  obtain ⟨rest, hrest⟩ := hx
  by_cases hk : k ≤ g.length
  case pos =>
    exact ⟨rest ++ post, by rw [← List.drop_drop, hpost, List.drop_append_of_le_length hk, hrest, List.append_assoc]⟩
  case neg =>
    rw [List.drop_eq_nil_of_le (by omega), eq_comm, List.append_eq_nil_iff] at hrest
    exact ⟨d.drop (off + k), by rw [hrest.1, List.nil_append]⟩

/-- A byte of a part, read in the whole. -/
theorem byteAt_eq (h : StandsAt g d off) {b : Byte} (hb : g[k]? = some b) : byteAt d (off + k) = b := by
  obtain ⟨post, hpost⟩ := h
  obtain ⟨hk, -⟩ := List.getElem?_eq_some_iff.mp hb
  rw [byteAt, List.getD_eq_getElem?_getD, ← List.getElem?_drop, hpost, List.getElem?_append_left hk, hb, Option.getD_some]

/-- A 16-bit field of a part, read in the whole. -/
theorem rd16 (h : StandsAt g d off) {x : BitVec 16} (hx : (g.drop k).take 2 = be16 x) : rd d (off + k) 2 = x.toNat :=
  rd_be16 x d _ (h.trans (of_take (x := be16 x) hx)).take

/-- A 32-bit field of a part, read in the whole. -/
theorem rd32 (h : StandsAt g d off) {x : BitVec 32} (hx : (g.drop k).take 4 = be32 x) : rd d (off + k) 4 = x.toNat :=
  rd_be32 x d _ (h.trans (of_take (x := be32 x) hx)).take

end StandsAt

/-- A group stands in the data after the groups before it. -/
theorem standsAt_flatten {gs : List (List Byte)} {g : List Byte} {i : Nat} (hi : gs[i]? = some g) :
    StandsAt g gs.flatten ((gs.map List.length).take i).sum := by
  induction gs generalizing i with
  | nil => simp at hi
  | cons x xs ih =>
    cases i with
    | zero =>
      obtain rfl := Option.some.inj hi
      exact ⟨xs.flatten, rfl⟩
    | succ i =>
      have hx : StandsAt xs.flatten (x :: xs).flatten x.length := ⟨[], by simp⟩
      simpa using hx.trans (ih hi)

/-- An entry of a table of entries of `n` bytes each. -/
theorem standsAt_flatMap {α : Type} {f : α → List Byte} {n : Nat} (hn : ∀ x, (f x).length = n) {l : List α} {i : Nat}
    {x : α} (hi : l[i]? = some x) : StandsAt (f x) (l.flatMap f) (n * i) := by
  have hlen : ((l.map f).map List.length).take i = List.replicate i n := by
    obtain ⟨hlt, -⟩ := List.getElem?_eq_some_iff.mp hi
    simp [List.map_map, Function.comp_def, hn, List.map_const', List.take_replicate, Nat.min_eq_left hlt.le]
  have h := standsAt_flatten (gs := l.map f) (i := i) (g := f x) (by simp [hi])
  rwa [hlen, List.sum_replicate, smul_eq_mul, Nat.mul_comm, ← List.flatMap_def] at h

end Sys2Proof.Machine
end

section
/-! The drive port's reads: what each answers, and its fields at their places. -/

namespace Sys2Proof.Machine

/-! ### STATUS (R207) -/

theorem State.timeLeft_cells (s : State) (d : Option Time) : ∃ a b, s.timeLeft d = [a, b] := by
  cases d with
  | none => exact ⟨_, _, rfl⟩
  | some t => exact ⟨_, _, rfl⟩

theorem Operation.bytes_length (o : Operation) : o.bytes.length = 4 := by cases o <;> rfl

/-- The groups of STATUS in their order (R207). -/
def State.statusGroups (s : State) : List (List Byte) :=
  [[s.port.attention.byte], s.startGroup, s.coordGroup, s.linkGroup, s.holdGroup, s.gateGroup, s.engineGroup,
    s.planGroup, s.recoveryGroup, s.storeGroup]

theorem State.statusGroups_flatten (s : State) : s.statusGroups.flatten = s.statusData := by
  simp [State.statusGroups, State.statusData]

/-- The bytes of the groups before the recovery group. -/
theorem State.statusGroups_lengths (s : State) : (s.statusGroups.map List.length).take 8 = [1, 9, 9, 6, 17, 2, 6, 34] := by
  obtain ⟨a, b, hcoord⟩ := s.timeLeft_cells s.coord.deadline
  obtain ⟨x, y, hhold⟩ := s.timeLeft_cells s.hold.deadline
  simp [State.statusGroups, State.startGroup, State.coordGroup, State.linkGroup, State.holdGroup, State.gateGroup,
    State.engineGroup, State.planGroup, hcoord, hhold, Operation.bytes_length]

/-- A group of STATUS stands after those before it. -/
theorem State.statusData_group (s : State) {g : List Byte} (i : Nat) (hle : i ≤ 8) (hi : s.statusGroups[i]? = some g) :
    StandsAt g s.statusData ([1, 9, 9, 6, 17, 2, 6, 34].take i).sum := by
  rw [← s.statusGroups_flatten, ← s.statusGroups_lengths, List.take_take, Nat.min_eq_left hle]
  exact standsAt_flatten hi

theorem State.statusData_start (s : State) :
    byteAt s.statusData 1 = byteOf s.own.val ∧ byteAt s.statusData 3 = byteOf s.plan.steps.length ∧
    rd s.statusData 4 4 = (s.plan.digest.getD 0).toNat ∧ rd s.statusData 8 2 = (s.port.configDigest.getD 0).toNat := by
  have h : StandsAt s.startGroup s.statusData 1 := s.statusData_group 1 (by decide) rfl
  exact ⟨h.byteAt_eq (k := 0) rfl, h.byteAt_eq (k := 2) rfl, h.rd32 (k := 3) rfl, h.rd16 (k := 7) rfl⟩

theorem State.statusData_coord (s : State) :
    byteAt s.statusData 10 = byteOf s.coord.phase.code ∧ rd s.statusData 11 2 = (s.coord.run.getD 0).toNat := by
  have h : StandsAt s.coordGroup s.statusData 10 := s.statusData_group 2 (by decide) rfl
  exact ⟨h.byteAt_eq (k := 0) rfl, h.rd16 (k := 1) rfl⟩

theorem State.statusData_link (s : State) :
    byteAt s.statusData 19 = byteOf s.link.state.code ∧ rd s.statusData 21 4 = (s.link.cycle.getD 0).toNat := by
  have h : StandsAt s.linkGroup s.statusData 19 := s.statusData_group 3 (by decide) rfl
  exact ⟨h.byteAt_eq (k := 0) rfl, h.rd32 (k := 2) rfl⟩

theorem State.statusData_hold (s : State) :
    rd s.statusData 25 2 = s.hold.seq.toNat ∧ rd s.statusData 27 2 = s.hold.newest.toNat ∧
    byteAt s.statusData 29 = byteOf s.hold.level.code ∧ byteAt s.statusData 30 = s.hold.cause ∧
    byteAt s.statusData 31 = byteOf s.hold.origin.val ∧ byteAt s.statusData 32 = boolByte s.hold.complete ∧
    byteAt s.statusData 40 = boolByte s.store.retainedLockout := by
  have h : StandsAt s.holdGroup s.statusData 25 := s.statusData_group 4 (by decide) rfl
  have hretained : s.holdGroup[15]? = some (boolByte s.store.retainedLockout) := by
    obtain ⟨a, b, hleft⟩ := s.timeLeft_cells s.hold.deadline
    rw [State.holdGroup, hleft]
    rfl
  exact ⟨h.rd16 (k := 0) rfl, h.rd16 (k := 2) rfl, h.byteAt_eq (k := 4) rfl, h.byteAt_eq (k := 5) rfl,
    h.byteAt_eq (k := 6) rfl, h.byteAt_eq (k := 7) rfl, h.byteAt_eq hretained⟩

theorem State.statusData_gate (s : State) : byteAt s.statusData 42 = byteOf s.gate.code :=
  StandsAt.byteAt_eq (s.statusData_group 5 (by decide) rfl : StandsAt s.gateGroup s.statusData 42) (k := 0) rfl

theorem State.statusData_engine (s : State) :
    byteAt s.statusData 44 = byteOf s.engine.refState.code ∧ byteAt s.statusData 45 = boolByte s.engine.parked := by
  have h : StandsAt s.engineGroup s.statusData 44 := s.statusData_group 6 (by decide) rfl
  exact ⟨h.byteAt_eq (k := 0) rfl, h.byteAt_eq (k := 1) rfl⟩

theorem State.statusData_plan (s : State) :
    byteAt s.statusData 50 = stepByte s.plan.claim ∧
    ∀ i : Fin 32, byteAt s.statusData (52 + i.val) = s.stepStatusByte i.val := by
  have h : StandsAt s.planGroup s.statusData 50 := s.statusData_group 7 (by decide) rfl
  have htable : StandsAt ((List.range 32).map s.stepStatusByte) s.statusData 52 :=
    h.trans (k := 2) (⟨[], (List.append_nil _).symm⟩)
  exact ⟨h.byteAt_eq (k := 0) rfl, fun i => htable.byteAt_eq (by simp)⟩

theorem State.statusData_recovery (s : State) : byteAt s.statusData 87 = byteOf s.coord.confidence.code :=
  StandsAt.byteAt_eq (s.statusData_group 8 (by decide) rfl : StandsAt s.recoveryGroup s.statusData 84) (k := 3) rfl

theorem exec_status (dt : Time) (s : State) (h : s.portReady = true) :
    exec (.status dt []) s = .next (closeRequest (decideStatus (s.opened dt))) :=
  congrArg Host.Outcome.next (answerRequest_taken 0 [] decideStatus dt s h rfl)

/-! ### PEERS and FAULTS (R209) -/

theorem exec_peers (dt : Time) (s : State) (h : s.portReady = true) :
    exec (.peers dt []) s = .next (closeRequest (decidePeers (s.opened dt))) :=
  congrArg Host.Outcome.next (answerRequest_taken 0 [] decidePeers dt s h rfl)

theorem PeerEntry.bytes_length (e : PeerEntry) : e.bytes.length = 38 := by
  unfold PeerEntry.bytes
  cases e.record with
  | none => rfl
  | some r => simp [r.pack_length]

theorem State.peersData_entry (s : State) (j : Station) : StandsAt (s.peers.get j).bytes s.peersData (9 + 38 * j.val) := by
  have htable : StandsAt (s.peers.toList.flatMap PeerEntry.bytes) s.peersData 9 := ⟨[], (List.append_nil _).symm⟩
  exact htable.trans (standsAt_flatMap PeerEntry.bytes_length (by simp [Vector.get]))

/-- The 36 bytes of an entry's record, 0 while it has none (R209; log entry 37). -/
theorem State.peersData_record (s : State) (j : Station) : (s.peersData.drop (11 + 38 * j.val)).take 36 =
    match (s.peers.get j).record with | some r => r.pack | none => List.replicate 36 0 := by
  have hentry := (s.peersData_entry j).take
  have hdrop : s.peersData.drop (11 + 38 * j.val) = (s.peersData.drop (9 + 38 * j.val)).drop 2 := by
    rw [List.drop_drop]
    congr 1
    omega
  rw [PeerEntry.bytes_length] at hentry
  rw [hdrop, List.take_drop, hentry]
  rfl

theorem FaultRecord.bytes_length (f : FaultRecord) : f.bytes.length = 17 := rfl

/-- A record of the fault list in FAULTS (R209). -/
theorem State.faultsData_record (s : State) {i : Nat} {f : FaultRecord} (hi : s.hold.faults[i]? = some f) :
    StandsAt f.bytes s.faultsData (1 + 17 * i) := by
  have htable : StandsAt (s.hold.faults.flatMap FaultRecord.bytes) s.faultsData 1 := ⟨[], (List.append_nil _).symm⟩
  exact htable.trans (standsAt_flatMap FaultRecord.bytes_length hi)

/-! ### POSITION (R208) -/

theorem exec_position (dt : Time) (s : State) (h : s.portReady = true) :
    exec (.position dt []) s = .next (closeRequest (decidePosition (s.opened dt))) :=
  congrArg Host.Outcome.next (answerRequest_taken 0 [] decidePosition dt s h rfl)

theorem decidePosition_settling {s : State} (h : s.sensing.settling = true) :
    decidePosition s = .refuse .notSettled s := if_pos h

theorem decidePosition_settled {s : State} (h : s.sensing.settling = false) :
    decidePosition s = .ok s.positionData s := if_neg (by simp [h])

/-! ### ORDER (R210) -/

theorem exec_order (dt : Time) (s : State) (h : s.portReady = true) :
    exec (.order dt []) s = .next (closeRequest (decideOrder (s.opened dt))) :=
  congrArg Host.Outcome.next (answerRequest_taken 0 [] decideOrder dt s h rfl)

theorem MotionOrder.bytes_length (o : MotionOrder) : o.bytes.length = 10 := by cases o <;> rfl

theorem MotionOrder.bytes_jog (x : Direction) (v : Nat) (q : OrderReason) :
    byteAt (MotionOrder.jog x v q).bytes 0 = 1 ∧
    byteAt (MotionOrder.jog x v q).bytes 1 = (match x with | .positive => 0 | .negative => 1) ∧
    rd (MotionOrder.jog x v q).bytes 7 2 = v % 65536 ∧ byteAt (MotionOrder.jog x v q).bytes 9 = byteOf q.code :=
  ⟨rfl, by cases x <;> rfl, rd_be16 (BitVec.ofNat 16 v) _ 7 rfl, rfl⟩

theorem MotionOrder.bytes_goto (g : Position) (v : Nat) (q : OrderReason) :
    byteAt (MotionOrder.goto g v q).bytes 0 = 2 ∧ rdPosition (MotionOrder.goto g v q).bytes 2 = g ∧
    rd (MotionOrder.goto g v q).bytes 7 2 = v % 65536 ∧ byteAt (MotionOrder.goto g v q).bytes 9 = byteOf q.code :=
  ⟨rfl, rdPosition_be40 g _ 2 rfl, rd_be16 (BitVec.ofNat 16 v) _ 7 rfl, rfl⟩

/-! ### JOURNAL_READ (R109, R210) -/

theorem exec_journalRead (dt : Time) (n : Byte) (s : State) (h : s.portReady = true) :
    exec (.journalRead dt [n]) s = .next (closeRequest (decideJournalRead [n] (s.opened dt))) :=
  congrArg Host.Outcome.next (answerRequest_taken 1 [n] (decideJournalRead [n]) dt s h rfl)

/-- JOURNAL_READ's parameter is the number of its byte. -/
theorem rd_parameter (n : Byte) : rd [n] 0 1 = n.toNat := beNat_single n

theorem decideJournalRead_beyond {n : Byte} {s : State} (hn : 95 < n.toNat) :
    decideJournalRead [n] s = .refuse .invalid s := if_pos (rd_parameter n ▸ hn)

theorem decideJournalRead_scanning {n : Byte} {s : State} (hn : n.toNat ≤ 95) (hs : s.store.scanDone = false) :
    decideJournalRead [n] s = .refuse .busy s := by
  rw [decideJournalRead, rd_parameter, if_neg (by omega), if_pos (by simp [hs])]

theorem decideJournalRead_noTail {n : Byte} {s : State} (hn : n.toNat ≤ 95) (hs : s.store.scanDone = true)
    (ht : s.store.tail = none) : decideJournalRead [n] s = .refuse .idle s := by
  simp only [decideJournalRead, rd_parameter, Nat.not_lt.mpr hn, hs, ht, if_false, Bool.not_true, Bool.false_eq_true]

theorem decideJournalRead_tail {n : Byte} {s : State} {t : Tail} (hn : n.toNat ≤ 95) (hs : s.store.scanDone = true)
    (ht : s.store.tail = some t) :
    decideJournalRead [n] s = .ok (s.slotData (slotBack t.slot n.toNat)) s := by
  simp only [decideJournalRead, rd_parameter, Nat.not_lt.mpr hn, hs, ht, if_false, Bool.not_true, Bool.false_eq_true]

/-- The slot `n` places back from the tail comes `n` places before it in the ring (R109). -/
theorem slotBack_spec (t : Fin 96) (n : Nat) : ((slotBack t n).val + n) % 96 = t.val := by
  have ht := t.isLt
  simp only [slotBack, Fin.sub_def, Fin.val_ofNat]
  omega

/-! ### CAL_READ (R199, R210) -/

theorem exec_calRead (dt : Time) (s : State) (h : s.portReady = true) :
    exec (.calRead dt []) s = .next (closeRequest (decideCalRead (s.opened dt))) :=
  congrArg Host.Outcome.next (answerRequest_taken 0 [] decideCalRead dt s h rfl)

theorem decideCalRead_scanning {s : State} (h : s.store.scanDone = false) : decideCalRead s = .refuse .busy s :=
  if_neg (by simp [h])

theorem decideCalRead_scanned {s : State} (h : s.store.scanDone = true) : decideCalRead s = .ok s.calData s := if_pos h

theorem State.proposalBytes_length (s : State) : s.proposalBytes.length = 9 := by
  unfold State.proposalBytes
  cases s.cal.proposal with
  | none => rfl
  | some p => rfl

/-- The parts of CAL_READ's data in their order (R210). -/
def State.calParts (s : State) : List (List Byte) :=
  [s.calSlotData .a, s.calSlotData .b, s.cal.choiceBytes, s.cal.valueBytes, s.proposalBytes, resultBytes s.cal.result]

theorem State.calParts_flatten (s : State) : s.calParts.flatten = s.calData := by simp [State.calParts, State.calData]

/-- The bytes of the parts before the survey result. -/
theorem State.calParts_lengths (s : State) : (s.calParts.map List.length).take 5 = [34, 34, 7, 19, 9] := by
  have hslots (c : CalSlot) : (s.calSlotData c).length = 34 := rfl
  simp [State.calParts, hslots, Cal.choiceBytes, Cal.valueBytes, optWord, State.proposalBytes_length]

/-- A part of CAL_READ's data stands after those before it. -/
theorem State.calData_part (s : State) {g : List Byte} (i : Nat) (hle : i ≤ 5) (hi : s.calParts[i]? = some g) :
    StandsAt g s.calData ([34, 34, 7, 19, 9].take i).sum := by
  rw [← s.calParts_flatten, ← s.calParts_lengths, List.take_take, Nat.min_eq_left hle]
  exact standsAt_flatten hi

/-- A slot as CAL_READ gives it: its 32 bytes, then its seal verdict (R199, R210). -/
theorem State.calSlotData_fields {s : State} {c : CalSlot} {d : List Byte} {off : Nat}
    (h : StandsAt (s.calSlotData c) d off) :
    (d.drop off).take 32 = s.calSlot c ∧ byteAt d (off + 32) = boolByte (calSealed (s.calSlot c)) := by
  have hslot : StandsAt (s.calSlot c) (s.calSlotData c) 0 := ⟨_, rfl⟩
  exact ⟨(h.trans hslot).take, h.byteAt_eq rfl⟩

/-- The committed record in CAL_READ, and what stands there while there is none (R210; log entry 37). -/
theorem State.calData_committed (s : State) :
    (s.cal.committed = none → byteAt s.calData 68 = 0xFF ∧ rd s.calData 69 2 = 0) ∧
    (∀ k x, s.cal.committed = some (k, x) → byteAt s.calData 68 = k.code ∧ rd s.calData 69 2 = x.generation.toNat) := by
  have h : StandsAt s.cal.choiceBytes s.calData 68 := s.calData_part 2 (by decide) rfl
  have hgeneration : rd s.calData 69 2 = s.cal.generation.toNat := h.rd16 (k := 1) rfl
  refine ⟨fun hnone => ⟨h.byteAt_eq (k := 0) ?_, ?_⟩, fun k x hsome => ⟨h.byteAt_eq (k := 0) ?_, ?_⟩⟩
  · simp [Cal.choiceBytes, hnone]
  · rw [hgeneration, Cal.generation, hnone]; rfl
  · simp [Cal.choiceBytes, hsome]
  · rw [hgeneration, Cal.generation, hsome]

/-- The staged record in CAL_READ, and what stands there while there is none (R210; log entry 37). -/
theorem State.calData_staged (s : State) :
    (s.cal.staged = none → byteAt s.calData 71 = 0xFF ∧ rd s.calData 72 2 = 0) ∧
    (∀ x, s.cal.staged = some x → byteAt s.calData 71 = s.cal.spare.code ∧ rd s.calData 72 2 = x.generation.toNat) ∧
    byteAt s.calData 74 = boolByte s.cal.sealedInSighting := by
  have h : StandsAt s.cal.choiceBytes s.calData 68 := s.calData_part 2 (by decide) rfl
  have hgeneration : rd s.calData 72 2 = s.cal.stagedGeneration.toNat := h.rd16 (k := 4) rfl
  have hslot : byteAt s.calData 71 = if s.cal.staged.isSome then s.cal.spare.code else 0xFF := h.byteAt_eq (k := 3) rfl
  refine ⟨fun hnone => ⟨?_, ?_⟩, fun x hsome => ⟨?_, ?_⟩, h.byteAt_eq (k := 6) rfl⟩
  · rw [hslot, hnone]; rfl
  · rw [hgeneration, Cal.stagedGeneration, hnone]; rfl
  · rw [hslot, hsome]; rfl
  · rw [hgeneration, Cal.stagedGeneration, hsome]

theorem State.calData_values (s : State) :
    rd s.calData 75 4 = (BitVec.ofInt 32 s.cal.trim).toNat ∧ rd s.calData 79 4 = (BitVec.ofInt 32 s.cal.backlash).toNat ∧
    byteAt s.calData 84 = boolByte s.cal.pendTrim.isSome ∧ byteAt s.calData 89 = boolByte s.cal.pendBacklash.isSome := by
  have h : StandsAt s.cal.valueBytes s.calData 75 := s.calData_part 3 (by decide) rfl
  exact ⟨h.rd32 (k := 0) rfl, h.rd32 (k := 4) rfl, h.byteAt_eq (k := 9) rfl, h.byteAt_eq (k := 14) rfl⟩

theorem State.calData_result (s : State) : byteAt s.calData 103 = boolByte s.cal.result.isSome := by
  have h : StandsAt (resultBytes s.cal.result) s.calData 103 := s.calData_part 5 (by decide) rfl
  refine h.byteAt_eq (k := 0) ?_
  cases s.cal.result with
  | none => rfl
  | some r => rfl

/-! ### The reads -/

/-- Settles O6: request by request, each field read at its place in the data. -/
theorem readsAnswerAndChangeNothing : Obligations.ReadsAnswerAndChangeNothing := by
  refine ⟨fun dt s hready => ⟨⟨_, exec_status dt s hready, ?status⟩, ⟨_, exec_peers dt s hready, ?peers⟩,
    ⟨s.engine.order.bytes, exec_order dt s hready, s.engine.order.bytes_length, ?order⟩,
    ⟨_, exec_faults dt s hready, rfl, fun i f hi => ?faults⟩⟩, fun dt s hready => ?position, fun dt n s hready => ?stored⟩
  case status =>
    obtain ⟨hown, hsteps, hplan, hconfig⟩ := (s.opened dt).statusData_start
    obtain ⟨hphase, hrun⟩ := (s.opened dt).statusData_coord
    obtain ⟨hlink, hcycle⟩ := (s.opened dt).statusData_link
    obtain ⟨hseq, hnewest, hlevel, hcause, horigin, hcomplete, hretained⟩ := (s.opened dt).statusData_hold
    obtain ⟨href, hparked⟩ := (s.opened dt).statusData_engine
    obtain ⟨hclaim, htable⟩ := (s.opened dt).statusData_plan
    exact ⟨rfl, hown, hsteps, hplan, hconfig, hphase, hrun, hlink, hcycle, hseq, hnewest, hlevel, hcause, horigin,
      hcomplete, hretained, (s.opened dt).statusData_gate, href, hparked, fun hnone => hclaim.trans (congrArg stepByte hnone),
      fun i hsome => hclaim.trans (congrArg stepByte hsome), htable, (s.opened dt).statusData_recovery⟩
  case peers =>
    refine ⟨rfl, rd_be32 _ _ 2 rfl, rfl, rfl, rfl, fun j => ⟨?_, ?_, (s.opened dt).peersData_record j⟩⟩
    · exact ((s.opened dt).peersData_entry j).byteAt_eq (k := 0) rfl
    · rw [show 10 + 38 * j.val = 9 + 38 * j.val + 1 by omega]
      exact ((s.opened dt).peersData_entry j).byteAt_eq rfl
  case order =>
    refine ⟨fun h => ?_, fun x v q h => ?_, fun g v q h => ?_, fun q h => ?_⟩
    · rw [h]; exact ⟨rfl, rfl⟩
    · rw [h]; exact MotionOrder.bytes_jog x v q
    · rw [h]; exact MotionOrder.bytes_goto g v q
    · rw [h]; exact ⟨rfl, rfl⟩
  case faults =>
    have h := (s.opened dt).faultsData_record hi
    rw [show 2 + 17 * i = 1 + 17 * i + 1 by omega, show 3 + 17 * i = 1 + 17 * i + 2 by omega,
      show 14 + 17 * i = 1 + 17 * i + 13 by omega]
    exact ⟨h.byteAt_eq (k := 0) rfl, h.byteAt_eq rfl, h.byteAt_eq rfl, h.rd32 rfl⟩
  case position =>
    rw [exec_position dt s hready]
    refine ⟨fun hopen => ?_, fun hclosed => ?_⟩
    · rw [decidePosition_settling (s := s.opened dt) hopen]; rfl
    · rw [decidePosition_settled (s := s.opened dt) hclosed]
      exact ⟨_, rfl, rdPosition_be40 _ _ 0 rfl, rfl, rfl, rfl, rdPosition_be40 _ _ 8 rfl, rdPosition_be40 _ _ 13 rfl,
        rfl, rfl, rfl⟩
  case stored =>
    rw [exec_journalRead dt n s hready, exec_calRead dt s hready]
    refine ⟨fun hn => ?beyond, fun hn hs => ?scanning, fun hn hs ht => ?noTail, fun t hn hs ht => ?tail,
      fun hs => ?calScanning, fun hs => ?cal⟩
    case beyond => rw [decideJournalRead_beyond hn]; rfl
    case scanning => rw [decideJournalRead_scanning (s := s.opened dt) hn hs]; rfl
    case noTail => rw [decideJournalRead_noTail (s := s.opened dt) hn hs ht]; rfl
    case tail =>
      rw [decideJournalRead_tail (s := s.opened dt) hn hs ht]
      exact ⟨_, slotBack_spec t.slot n.toNat, rfl⟩
    case calScanning => rw [decideCalRead_scanning (s := s.opened dt) hs]; rfl
    case cal =>
      rw [decideCalRead_scanned (s := s.opened dt) hs]
      obtain ⟨hslotA, hsealA⟩ := State.calSlotData_fields ((s.opened dt).calData_part 0 (by decide) rfl)
      obtain ⟨hslotB, hsealB⟩ := State.calSlotData_fields ((s.opened dt).calData_part 1 (by decide) rfl)
      obtain ⟨hnoRecord, hrecord⟩ := (s.opened dt).calData_committed
      obtain ⟨hnotStaged, hstaged, hsealed⟩ := (s.opened dt).calData_staged
      obtain ⟨htrim, hbacklash, hpendTrim, hpendBacklash⟩ := (s.opened dt).calData_values
      exact ⟨_, rfl, hslotA, hsealA, hslotB, hsealB, hnoRecord, hrecord, hnotStaged, hstaged, hsealed, htrim, hbacklash,
        hpendTrim, hpendBacklash, (s.opened dt).calData_result⟩

end Sys2Proof.Machine
end

section
/-! The step and the commands as a whole: that every command answers, and what it leaves of the queue and the clock. -/

namespace Sys2Proof.Machine

/-! ### What a command leaves of the queue and the clock (log entries 1 and 2) -/

/-- A change of state that reaches neither the queue nor the clock. -/
def State.KeepsQueueAndClock (s t : State) : Prop := t.pending = s.pending ∧ t.now = s.now

theorem State.KeepsQueueAndClock.refl (s : State) : s.KeepsQueueAndClock s := ⟨rfl, rfl⟩

theorem State.KeepsQueueAndClock.trans {s t u : State} (h : s.KeepsQueueAndClock t) (k : t.KeepsQueueAndClock u) :
    s.KeepsQueueAndClock u := ⟨k.1.trans h.1, k.2.trans h.2⟩

/-- A command answers what its operation makes of the state `dt` later where its guard is met, and that state itself
where not (log entries 2 and 3). -/
theorem keepsQueueAndClock_guarded {dt : Time} {s u : State} {c : Bool} (h : (advance dt s).KeepsQueueAndClock u) :
    ∃ t, (.next (if c then u else advance dt s) : Host.Outcome State Fault Refusal) = .next t ∧
      (advance dt s).KeepsQueueAndClock t := by
  cases c
  · exact ⟨_, rfl, .refl _⟩
  · exact ⟨_, rfl, h⟩

/-- A request leaves the queue and the clock where its decision does: its opening and its response reach the port and
the key count alone (R200, R201). -/
theorem keepsQueueAndClock_request {dt : Time} {s : State} (keepsKey : Bool) (n : Nat) (ps : List Byte)
    {d : State → Reply} (h : ∀ x : State, x.KeepsQueueAndClock (d x).state) :
    ∃ t, (.next (answerRequest keepsKey n ps d (advance dt s)) : Host.Outcome State Fault Refusal) = .next t ∧
      (advance dt s).KeepsQueueAndClock t :=
  ⟨_, rfl, answerRequest_property (advance dt s).KeepsQueueAndClock _ _ _ _ _ (fun _ _ => id) (fun _ => id)
    (fun x hx => hx.trans (h x)) (.refl _)⟩

/-- Every command answers a next state, with the queue and the clock of the state its own time later: each by the rule
of its form and by what its operation keeps. -/
theorem exec_keepsQueueAndClock (c : Instr) (s : State) :
    ∃ t, exec c s = .next t ∧ (advance c.elapsed s).KeepsQueueAndClock t := by
  cases c
  case configure | planClear | planStep | planSeal | join | status | peers | position | order | faults | calRead
      | journalRead | faultClear | abandon | survey | trim | calCommit | resume | restart | lockoutClear | shutdown
      | reset | unknownRequestCode =>
    exact keepsQueueAndClock_request _ _ _ fun x => by simp [State.KeepsQueueAndClock, Reply.refuse]
  case nresetAssert dt =>
    refine ⟨_, rfl, ?_⟩
    split
    · exact .refl _
    · simp [State.KeepsQueueAndClock, Instr.elapsed]
  case indexEdge | beatEnd =>
    refine keepsQueueAndClock_guarded ?_
    split
    · simp [State.KeepsQueueAndClock]
    · exact .refl _
  all_goals
    exact keepsQueueAndClock_guarded (by simp [State.KeepsQueueAndClock])

/-- Settles O2: what every command leaves of the queue and the clock, read at the state its own time later. -/
theorem everyCommandAnswersNext : Obligations.EveryCommandAnswersNext := by
  intro c s
  obtain ⟨t, ht, hqueue, hclock⟩ := exec_keepsQueueAndClock c s
  exact ⟨t, ht, hqueue, hclock⟩

/-! ### The step (log entry 1) -/

theorem step_of_pending {s : State} {c : Instr} {rest : List Instr} (h : s.pending = c :: rest) :
    step s = exec c (s.setPending rest) := by
  simp only [step, h]

theorem step_of_empty {s : State} (h : s.pending = []) : step s = .next s := by
  simp only [step, h]

/-- Settles O1: by whether the queue has a front. -/
theorem stepExecutesFrontCommand : Obligations.StepExecutesFrontCommand :=
  ⟨fun _ _ _ => step_of_pending, fun _ => step_of_empty⟩

end Sys2Proof.Machine
end
